-- ==== Sys2Proof/Word.lean ====
section
/-! DEFINITION. The byte of an addressed buffer, and the plainest arithmetic on numbers of a stated width:
bit fields, saturation, clamping, two's complement. A register of `w` bits is a `Nat` below `2 ^ w`, because the
spec states its contents as numbers with units; a signed one is an `Int`. -/

namespace Sys2Proof

/-- A byte of an addressed buffer. -/
abbrev Byte := BitVec 8

/-- Bits `[hi:lo]` of a word, as a number. -/
def bits (x hi lo : Nat) : Nat := x / 2 ^ lo % 2 ^ (hi + 1 - lo)

/-- Bit `i` of a word. -/
def bit (x i : Nat) : Bool := x / 2 ^ i % 2 == 1

/-- A Bool as the value of a one-bit field. -/
def b2n (b : Bool) : Nat := if b then 1 else 0

/-- A value placed in the field that starts at bit `lo` and is `w` bits wide. -/
def fld (v w lo : Nat) : Nat := v % 2 ^ w * 2 ^ lo

/-- Two's complement of a `w`-bit word, as an integer. -/
def sint (w x : Nat) : Int := if x % 2 ^ w < 2 ^ (w - 1) then (x % 2 ^ w : Nat) else ((x % 2 ^ w : Nat) : Int) - (2 ^ w : Nat)

/-- The `w`-bit two's complement word of an integer. -/
def uword (w : Nat) (x : Int) : Nat := (x % (2 ^ w : Nat)).toNat

/-- Saturating increment of a `w`-bit counter by `k`. -/
def satAdd (w x k : Nat) : Nat := min (x + k) (2 ^ w - 1)

/-- Wrapping increment of a `w`-bit counter by `k`. -/
def wrapAdd (w x k : Nat) : Nat := (x + k) % 2 ^ w

/-- `x` limited to `lo … hi`. -/
def clampI (lo hi x : Int) : Int := max lo (min hi x)

/-- `x` limited to `lo … hi`. -/
def clampN (lo hi x : Nat) : Nat := max lo (min hi x)

/-- The ceiling of a quotient of naturals. -/
def ceilDiv (a b : Nat) : Nat := (a + b - 1) / b

/-- Byte `i` of a little-endian number. -/
def byteAt (x i : Nat) : Nat := x / 2 ^ (8 * i) % 256

/-- Bytes `i … i + n - 1` of a little-endian number, as a number. -/
def bytesAt (x i n : Nat) : Nat := x / 2 ^ (8 * i) % 2 ^ (8 * n)

/-- The little-endian bytes of a number, `n` of them. -/
def leBytes : Nat → Nat → List Nat
  | 0, _ => []
  | n + 1, x => x % 256 :: leBytes n (x / 256)

/-- The number that little-endian bytes make. -/
def leNat : List Nat → Nat
  | [] => 0
  | b :: bs => b % 256 + 256 * leNat bs

/-- The number that bytes make when the first is the most significant (R7, R348). -/
def beNat (bs : List Nat) : Nat := leNat bs.reverse

/-- How many members of a list satisfy a test. -/
def countP {α : Type} (p : α → Bool) (l : List α) : Nat := (l.filter p).length

end Sys2Proof
end

