-- ==== Sys2Proof/Syntax.lean ====
section
/-! DEFINITION. The commands the block takes: one constructor of `Instr` for each row of spec/opcode_table.json, with
the operands that the row's event or operation carries. -/

namespace Sys2Proof

/-- A control die (R14, R19). -/
inductive Cd | a | b
deriving DecidableEq, Repr

/-- A die of the device: the control dies A and B, and Die P (R14). -/
inductive Die | a | b | p
deriving DecidableEq, Repr

/-- A housekeeping converter: CVA, CVB, CVP, one to each die (R294). -/
abbrev Conv := Die

/-- A rail, RAIL00 to RAIL11 (R3). -/
abbrev Rail := Fin 12
/-- A phase, PH00 to PH47 (R3). -/
abbrev Ph := Fin 48
/-- A sequencing programme (R216). -/
abbrev Prog := Fin 8
/-- A housekeeping supply: 0 to 7 HB0 to HB7, 8 to 13 HL0 to HL5 (R245). -/
abbrev Hk := Fin 14
/-- A temperature source (R273). -/
abbrev Src := Fin 76
/-- A meter timer (R297). -/
abbrev Tmr := Fin 8
/-- An AVSBus port (R85). -/
abbrev Avs := Fin 4
/-- A candidate owner port (R350). -/
abbrev OPort := Fin 4
/-- A check-in slot of the watchdog (R417). -/
abbrev Slot := Fin 16
/-- A member of a gang: 0 the leader, 1 the deputy, 2 and 3 the followers (R131). -/
abbrev GMem := Fin 4

/-- A feed (R226). -/
inductive Feed | a | b
deriving DecidableEq, Repr

/-- Why the device declares a feed lost (R229). -/
inductive FeedCause | reverse | under | overv | droop
deriving DecidableEq, Repr

/-- An SPI port (R331). -/
inductive Port | a | b
deriving DecidableEq, Repr

/-- The path of a register access (R32, R430, R505). -/
inductive Path | bar0 | spiA | spiB
deriving DecidableEq, Repr

/-- A ring port (R370). -/
inductive Side | east | west
deriving DecidableEq, Repr

/-- How a packet of the ring arrives (R376, R377): the port it arrives at, whether its CRC-16 holds, whether it is the packet that
failed before, sent again, and the device that DST names, none for this device or a broadcast. -/
structure RxIn where
  via   : Side := .west
  ok    : Bool := true
  again : Bool := false
  dst   : Option Nat := none
deriving DecidableEq, Repr

/-- A packet of a gang slot as it arrives (R373, R379): the port, the slot G0 to G2, and the 8 bytes. -/
structure GangRx where
  via  : Side := .west
  slot : Fin 3 := 0
  pkt  : Nat := 0
deriving DecidableEq, Repr

/-- How the training of a ring link ends (R371, R372): whether the receiver has found the symbols, whether a number appears twice in the
chain, and the number of the device at the other end. -/
structure LinkTrain where
  sync  : Bool := true
  twice : Bool := false
deriving DecidableEq, Repr

/-- What VAON_RISE meets: whether VRTC has kept the always-on domain, the strap balls CID[5:0] and TEST_EN (R371, R435, R462, R502). -/
structure VaonIn where
  kept   : Bool := true
  cid    : Nat := 0
  testEn : Bool := false
deriving DecidableEq, Repr

/-- A turnstile write of KIND 2 and the table entry that a read of it would return (R315, R316). -/
structure TsWrite where
  w     : Nat := 0
  entry : Nat := 0
deriving DecidableEq, Repr

/-- A stub packet as the head receives it: the 16 bytes of the stub, and the data that its ticket has read on the device (R321, R375, log
entry 116). -/
structure StubIn where
  raw  : Nat := 0
  data : List Nat := []
deriving DecidableEq, Repr

/-- A telemetry packet: its device, and, where it carries an event for the owner in place of feed currents, the 32 bytes of the record (R237,
R329, log entry 62). -/
structure TelemIn where
  dev   : Nat := 0
  event : Option Nat := none
deriving DecidableEq, Repr

/-- An alarm report of another device (R401): the count, and the beats of its first and its latest raise. -/
structure AlarmRep where
  count : Nat := 0
  first : Nat := 0
  last  : Nat := 0
deriving DecidableEq, Repr

/-- A PCIe link that has trained: the speed code, and what the host's configuration writes leave: MSI-X Enable, Function Mask and the power
state D3hot (Table 12.1, R330, log entry 117). -/
structure PcieUp where
  speed  : Nat := 0
  msixEn : Bool := true
  fMask  : Bool := false
  d3     : Bool := false
deriving DecidableEq, Repr

/-- An error completion (R328): whether it ends a data write, and whether the endpoint logs an uncorrectable error (Table 12.1, R363). -/
structure DmaFault where
  write : Bool := false
  unc   : Bool := false
deriving DecidableEq, Repr

/-- What the arbiter saw of a lane and of its twin in one switching cycle (R173): the high times in units of 78.125 ps, none for one
that stayed at mid. -/
structure LaneTimes where
  act  : Option Nat := none
  twin : Option Nat := none
deriving DecidableEq, Repr

/-- An arrival at a BARRIER step (R222): the barrier's number and the beat of the arrival. -/
structure Arrival where
  bar  : Nat := 0
  beat : Nat := 0
deriving DecidableEq, Repr

/-- A monitored supply of the package (R497). -/
inductive Supply | vddcA | vddcB | vdd18A | vdd18B | vddsd | vaon
deriving DecidableEq, Repr

/-- A ticket as the device processes it: who sent it, its 64 bytes as one little-endian number (byte 0 in bits [7:0]),
the beat of the turnstile write that covers it, the bytes its scatter list's segments hold (for a ticket that writes
data), the 16-byte elements of its scatter list as it has been read (Table 12.12), and whether reading the list failed. -/
structure Tkt where
  client : Nat := 0
  raw    : Nat := 0
  ts     : Nat := 0
  data   : List Nat := []
  sgl    : List Nat := []
  failed : Bool := false
deriving DecidableEq, Repr

/-- What a beat boundary meets that no rule derives: rails whose compensator result was late (R39) and control dies
whose beat token is missing (R173). -/
structure BeatIn where
  lateA : List Rail := []
  lateB : List Rail := []
  noTokA : Bool := false
  noTokB : Bool := false
  eccA   : Nat := 0
  eccB   : Nat := 0
deriving DecidableEq, Repr

/-- What a frame boundary meets that no rule derives: dies whose frame engine was late (R39), whether the dies'
frame-state records arrived (R191), and the dies and rails whose intent fields have been corrupted since the last boundary (Table 6.10). -/
structure FrameIn where
  lateA : Bool := false
  lateB : Bool := false
  noRecords : Bool := false
  badIntent : List (Cd × Rail) := []
deriving DecidableEq, Repr

/-- What a round boundary meets that no rule derives: whether the round's work was late (R39), how many pages of the RRAM were read with
corrected bits (R450), and the sectors in which a page failed its verify after 2 retries (R453). The ring-oscillator and reference readings
are rows of their own. -/
structure RoundIn where
  late     : Bool := false
  ecc      : Nat := 0
  badPages : List Nat := []
deriving DecidableEq, Repr

/-- State of an owner-key slot as a PRESENCE packet reports it (R447): 0 EMPTY, 1 SET, 2 HELD; the hash; revoked. -/
structure SlotInfo where
  state   : Nat := 0
  hash    : Nat := 0
  revoked : Bool := false
deriving DecidableEq, Repr

/-- What a PRESENCE packet says of its device (R392, R393, R395, R447, R471, R472; log entry 37): ARB_STAT bits [7:0], the head
state, the barker flag, whether it has reached step 8, its COMPLETE epoch reset rows, ALIGNED, whether a packet failed its CRC on one of its UP links in the
round, the designated clients it has in service (bit 0 FIRST of its range, bits 1 and 2 the windows of device 0; R350), and its key slots. -/
structure Presence where
  arb     : Nat := 0
  head    : Bool := false
  barker  : Bool := false
  step8   : Bool := false
  rstRows : Nat := 0
  aligned : Bool := true
  crcBad  : Bool := false
  svc     : Nat := 0
  slots   : List SlotInfo := []
deriving DecidableEq, Repr

/-- The ownership record that the keeper sends at every round boundary (R352, log entry 37): the owner, the epoch in force, the benched
devices (R392) and ports (R362), the deposed clients, FAILS, LEVEL and REMAIN of the ports (R368), and the owner that awaits its
effect: port, client, generation, epoch, and of the ticket that won it the sequence number, the device that fetched it and the key slot,
4 for none; or whether it is a handover; the candidate ports as the keeper knows them (R350), and whether EPOCH_END has been posted (R359). -/
structure OwnRec where
  keeper  : Nat := 0
  valid   : Bool := false
  port    : Nat := 0
  client  : Nat := 0
  gen     : Nat := 0
  dev     : Nat := 0
  epoch   : Nat := 0
  benched : List Nat := []
  portsOut : List Nat := []
  deposed : List Nat := []
  fails   : List (Nat × Nat × Nat) := []
  pend    : Option (Nat × Nat × Nat × Nat) := none
  pendSeq : Option Nat := none
  pendDev : Nat := 0
  pendHand : Bool := false
  pendKey : Nat := 4
  cand    : List Nat := []
  endPosted : Bool := false
deriving DecidableEq, Repr

/-- The result of a claim that the device that fetched it sends to the keeper (R355), an accepted HANDOVER to port `port` (R364), or a port whose
readmit check has passed (R363).
`fail` is the failed check of R354, `refusal` the row of the refusals of R355, `ep5` whether check 5 held at processing. -/
structure ClaimMsg where
  client : Nat := 0
  gen    : Nat := 0
  seq    : Nat := 0
  port   : Nat := 0
  dev    : Nat := 0
  key    : Nat := 0
  epoch  : Nat := 0
  frame  : Nat := 0
  fail   : Option Nat := none
  refusal : Option Nat := none
  handover : Bool := false
  readmit : Bool := false
deriving DecidableEq, Repr

/-- A trace entry (Table 16.5). -/
structure TraceEnt where
  beat : Nat := 0
  kind : Nat := 0
  dev  : Nat := 0
  tseq : Nat := 0
  d0   : Nat := 0
  d1   : Nat := 0
  d2   : Nat := 0
  d3   : Nat := 0
deriving DecidableEq, Repr

/-- The commands. Each constructor is a row of spec/opcode_table.json, in its order; the docstring gives the row's
mnemonic and rule. -/
inductive Instr
  /-- BEAT_TICK (R27). -/
  | beatTick (i : BeatIn)
  /-- FRAME_TICK (R27). -/
  | frameTick (i : FrameIn)
  /-- ROUND_TICK (R27). -/
  | roundTick (i : RoundIn)
  /-- CATCH_END (R105). -/
  | catchEnd (d : Cd) (r : Rail)
  /-- CATCH_REARM (R105). -/
  | catchRearm (d : Cd) (r : Rail)
  /-- LEND_STEER_ON (R124). -/
  | lendSteerOn (p : Ph)
  /-- LEND_ARRIVE (R124). -/
  | lendArrive (p : Ph)
  /-- CURRENT_SAMPLE (R48). -/
  | currentSample (d : Cd) (p : Ph) (mv : Nat) (uv : Nat)
  /-- STAGE_FAULT (R58). -/
  | stageFault (d : Cd) (p : Ph)
  /-- PH_LIMIT_CROSSING (R54). -/
  | phLimitCrossing (d : Cd) (p : Ph) (low : Bool)
  /-- NEGATIVE_LIMIT (R55). -/
  | negativeLimit (d : Cd) (p : Ph)
  /-- ZERO_CURRENT_TRIP (R56). -/
  | zeroCurrentTrip (d : Cd) (p : Ph)
  /-- WINDOW_SAMPLE (R88). -/
  | windowSample (d : Cd) (r : Rail) (half : Bool) (uv : Int) (low : List Ph) (high : List Ph)
  /-- TRACKING_SAMPLE (R89). -/
  | trackingSample (d : Cd) (r : Rail) (remote : Bool) (uv : Nat)
  /-- SENSE_WATCH_END (R95). -/
  | senseWatchEnd (r : Rail)
  /-- PHASE_STATIC_CHECK_END (R69). -/
  | phaseStaticCheckEnd (p : Ph)
  /-- PHASE_LIVE_CHECK_END (R69). -/
  | phaseLiveCheckEnd (p : Ph)
  /-- PH_WEAR_COMMIT (R70). -/
  | phWearCommit
  /-- ROTATION_PERIOD (R72). -/
  | rotationPeriod
  /-- GANG_COMMAND_RECEIVE (R133). -/
  | gangCommandReceive (r : Rail) (m : GMem) (x : GangRx)
  /-- GANG_RETURN_RECEIVE (R135). -/
  | gangReturnReceive (r : Rail) (m : GMem) (x : GangRx)
  /-- GANG_COMMAND_MISS (R137). -/
  | gangCommandMiss (r : Rail)
  /-- GANG_HOLD_EXPIRY (R137). -/
  | gangHoldExpiry (r : Rail)
  /-- DIE_SELF_REPORT (R173). -/
  | dieSelfReport (d : Cd)
  /-- LANE_MISMATCH (R173). -/
  | laneMismatch (p : Ph) (t : LaneTimes)
  /-- VOTE (R176). -/
  | vote (c1 : Nat) (c2 : Nat)
  /-- TRAPEZE (R185). -/
  | trapeze
  /-- GATE_MONITOR_FAULT (R180). -/
  | gateMonitorFault (lane : Nat)
  /-- REFOSC_LOST (R22). -/
  | refoscLost (d : Cd)
  /-- BEAT_STROBE_LOST (R26). -/
  | beatStrobeLost
  /-- DIE_SELFTEST_END (R189). -/
  | dieSelftestEnd (pass : Bool)
  /-- DIE_RESYNC_END (R189). -/
  | dieResyncEnd (ok : Bool)
  /-- DIE_OBSERVATION_END (R189). -/
  | dieObservationEnd
  /-- HICCUP_OFF_END (R211). -/
  | hiccupOffEnd (r : Rail)
  /-- HICCUP_GOOD_TIME (R211). -/
  | hiccupGoodTime (r : Rail)
  /-- DISCHARGE_END (R212). -/
  | dischargeEnd (r : Rail)
  /-- RAIL_READMIT_RAMP_END (R213). -/
  | railReadmitRampEnd (r : Rail)
  /-- RISE_FAIL (R219). -/
  | riseFail (n : Prog)
  /-- SEQ_WAIT_END (R217). -/
  | seqWaitEnd (n : Prog)
  /-- SEQ_STALL (R221). -/
  | seqStall (n : Prog)
  /-- BARRIER_ARRIVAL (R222). -/
  | barrierArrival (rx : RxIn) (dev : Nat) (n : Prog) (a : Arrival)
  /-- BARRIER_TIMEOUT (R222). -/
  | barrierTimeout (n : Prog)
  /-- FEED_LOST (R229). -/
  | feedLost (f : Feed) (cause : FeedCause)
  /-- FEED_PRESENT (R231). -/
  | feedPresent (f : Feed)
  /-- FEED_RETURN (R233). -/
  | feedReturn
  /-- FEED_REV (R241). -/
  | feedRev (f : Feed)
  /-- FEED_OV (R234). -/
  | feedOv (f : Feed)
  /-- HK_POWER_GOOD (R247). -/
  | hkPowerGood (k : Hk) (good : Bool)
  /-- HK_EXCURSION (R248). -/
  | hkExcursion (k : Hk) (above : Bool)
  /-- CHG_TIMEOUT (R256). -/
  | chgTimeout
  /-- PACK_REMOVED (R259). -/
  | packRemoved
  /-- PACK_ON (R261). -/
  | packOn
  /-- PACK_OPEN_TIME_END (R261). -/
  | packOpenTimeEnd
  /-- CHARGER_CHECK_END (R257). -/
  | chargerCheckEnd
  /-- SVC_BTN_PRESS (R264). -/
  | svcBtnPress
  /-- SVC_BTN_HOLD (R264). -/
  | svcBtnHold
  /-- SVC_BTN_RESET_END (R264). -/
  | svcBtnResetEnd
  /-- SHIP_EFFECT (R265). -/
  | shipEffect
  /-- SHIP_END (R265). -/
  | shipEnd
  /-- GAUGE_REST_POINT (R267). -/
  | gaugeRestPoint
  /-- GAUGE_COMMIT (R271). -/
  | gaugeCommit
  /-- THERMAL_SAMPLE (R276). -/
  | thermalSample (k : Src) (q : Int)
  /-- AGE_RO_MEASURE (R287). -/
  | ageRoMeasure (d : Cd) (drift : List Int)
  /-- CHIRP_START (R288). -/
  | chirpStart (r : Rail)
  /-- CHIRP_TONE_STEP (R288). -/
  | chirpToneStep (r : Rail) (c : Nat) (esr : Nat)
  /-- WARN_PROPOSAL (R290). -/
  | warnProposal (r : Rail)
  /-- MP_AUTO_APPLY (R291). -/
  | mpAutoApply
  /-- METER_TIMER_TICK (R297). -/
  | meterTimerTick (n : Tmr)
  /-- METER_PWM_TRIGGER (R297). -/
  | meterPwmTrigger (c : Conv) (p : Ph) (falling : Bool)
  /-- CONVERSION_COMPLETE (R294). -/
  | conversionComplete (c : Conv) (ch : Nat) (code : Int) (code2 : Int) (stalled : Bool)
  /-- TURNSTILE_TICKET_TAIL (R318). -/
  | turnstileTicketTail (c : Nat) (w : Nat) (entry : Nat)
  /-- TURNSTILE_STUB_HEAD (R320). -/
  | turnstileStubHead (c : Nat) (w : Nat) (entry : Nat)
  /-- TURNSTILE_EVENT_HEAD (R329). -/
  | turnstileEventHead (c : Nat) (w : TsWrite)
  /-- TICKET_FETCH (R319). -/
  | ticketFetch (c : Nat) (entry : Nat) (data : List Nat)
  /-- DMA_ERR (R328). -/
  | dmaErr (c : Nat) (op : Nat) (seq : Nat) (gen : Nat) (err : DmaFault)
  /-- STALE_COMPLETION (R324). -/
  | staleCompletion (c : Nat) (gen : Nat) (n : Nat)
  /-- GENERATION_ADOPT (R322). -/
  | generationAdopt (c : Nat) (gen : Nat)
  /-- STUB_WRITE (R320). -/
  | stubWrite (c : Nat)
  /-- STUB_STALL (R320). -/
  | stubStall (c : Nat)
  /-- EVENT_WRITE (R329). -/
  | eventWrite
  /-- PCIE_LINK_DOWN (R335). -/
  | pcieLinkDown
  /-- PCIE_LINK_UP (R309). -/
  | pcieLinkUp (x : PcieUp)
  /-- PCIE_HOT_RESET (R463). -/
  | pcieHotReset
  /-- HOST_CTL_EN_SET (R312). -/
  | hostCtlEnSet (v : Nat)
  /-- HOST_CTL_EN_CLEAR (R312). -/
  | hostCtlEnClear (v : Nat)
  /-- SPI_WRITE (R331). -/
  | spiWrite (p : Port) (addr : Nat) (data : List Nat) (crc : Nat)
  /-- SPI_READ (R331). -/
  | spiRead (p : Port) (addr : Nat) (len : Nat)
  /-- CHAIN_CLK_LO_READ (R32). -/
  | chainClkLoRead (path : Path)
  /-- RTC_TIME0_READ (R430). -/
  | rtcTime0Read (path : Path)
  /-- RTC_TIME1_READ (R430). -/
  | rtcTime1Read (path : Path)
  /-- RTC_SHADOW_RELEASE (R430). -/
  | rtcShadowRelease (path : Path)
  /-- RC_FIELD_READ (R507). -/
  | rcFieldRead (path : Path) (off : Nat) (size : Nat)
  /-- START_CTL_RESTART (R474). -/
  | startCtlRestart (path : Path) (v : Nat)
  /-- REGISTER_WRITE (R508). -/
  | registerWrite (path : Path) (off : Nat) (size : Nat) (v : Nat)
  /-- BAR0_UNSUPPORTED_ACCESS (R310). -/
  | bar0UnsupportedAccess (off : Nat) (size : Nat)
  /-- AVS_TARGET_VOLTAGE_WRITE (R86). -/
  | avsTargetVoltageWrite (port : Avs) (sel : Nat) (v : Nat)
  /-- AVS_TARGET_VOLTAGE_READ (R85). -/
  | avsTargetVoltageRead (port : Avs) (sel : Nat)
  /-- AVS_TRANSITION_RATE_WRITE (R80). -/
  | avsTransitionRateWrite (port : Avs) (sel : Nat) (v : Nat)
  /-- AVS_TRANSITION_RATE_READ (R85). -/
  | avsTransitionRateRead (port : Avs) (sel : Nat)
  /-- AVS_READ_RAIL_CURRENT (R85). -/
  | avsReadRailCurrent (port : Avs) (sel : Nat)
  /-- AVS_READ_TEMPERATURE (R85). -/
  | avsReadTemperature (port : Avs) (sel : Nat)
  /-- AVS_RESET_VOLTAGE (R85). -/
  | avsResetVoltage (port : Avs) (sel : Nat)
  /-- AVS_STATUS_READ (R85). -/
  | avsStatusRead (port : Avs) (sel : Nat)
  /-- AVS_STATUS_WRITE (R85). -/
  | avsStatusWrite (port : Avs) (sel : Nat) (v : Nat)
  /-- AVS_VERSION_READ (R85). -/
  | avsVersionRead (port : Avs) (sel : Nat)
  /-- AVS_UNSUPPORTED (R85). -/
  | avsUnsupported (port : Avs)
  /-- AVS_CRC_ERROR (R86). -/
  | avsCrcError (port : Avs)
  /-- AVS_PORT_FAULT (R87). -/
  | avsPortFault (port : Avs)
  /-- LINK_TRAINED (R371). -/
  | linkTrained (p : Side) (t : LinkTrain) (num : Nat) (hop : Nat)
  /-- TRAINING_COMPLETE (R468). -/
  | trainingComplete (ndev : Nat)
  /-- RING_TRAINING_TIMEOUT (R468). -/
  | ringTrainingTimeout
  /-- LANE_DOWN (R388). -/
  | laneDown (p : Side)
  /-- LINK_HEAL (R391). -/
  | linkHeal (p : Side)
  /-- RING_SPLIT (R390). -/
  | ringSplit
  /-- REFERENCE_CHANGE (R386). -/
  | referenceChange
  /-- CLOCK_ADOPT (R385). -/
  | clockAdopt
  /-- RING_RESEND (R376). -/
  | ringResend (p : Side) (ticket : Bool)
  /-- FORWARD_GAP (R378). -/
  | forwardGap (head : Nat)
  /-- FORWARD_STUB_TIMEOUT (R378). -/
  | forwardStubTimeout (dev : Nat)
  /-- RING_TICKET_PACKET (R378). -/
  | ringTicketPacket (rx : RxIn) (src : Nat) (raw : Nat)
  /-- RING_STUB_PACKET (R375). -/
  | ringStubPacket (rx : RxIn) (src : Nat) (x : StubIn)
  /-- RING_ACK (R376). -/
  | ringAck (rx : RxIn) (alarms : Nat) (tickets : Nat)
  /-- TIME_PACKET (R384). -/
  | timePacket (rx : RxIn) (dev : Nat) (count : Nat) (late : Nat)
  /-- CUT_PACKET (R388). -/
  | cutPacket (rx : RxIn) (dev : Nat) (p : Side)
  /-- PRESENCE_PACKET (R392). -/
  | presencePacket (rx : RxIn) (dev : Nat) (pr : Presence)
  /-- HEAD_ANNOUNCE (R387). -/
  | headAnnounce (rx : RxIn) (dev : Nat) (first : Nat) (count : Nat)
  /-- ALARM_REPORT_RECEIVE (R401). -/
  | alarmReportReceive (rx : RxIn) (dev : Nat) (kind : Nat) (a : AlarmRep)
  /-- OWNERSHIP_RECORD (R352). -/
  | ownershipRecord (rx : RxIn) (rec : OwnRec)
  /-- CLAIM_RESULT (R355). -/
  | claimResult (rx : RxIn) (cl : ClaimMsg)
  /-- EPOCH_COMMIT (R357). -/
  | epochCommit (rx : RxIn) (dev : Nat) (epoch : Nat) (key : Nat)
  /-- EPOCH_ACK (R357). -/
  | epochAck (rx : RxIn) (dev : Nat)
  /-- HEARTBEAT_FORWARD (R360). -/
  | heartbeatForward (rx : RxIn) (dev : Nat) (round : Nat) (ended : Bool)
  /-- RING_TELEMETRY_PACKET (R237). -/
  | ringTelemetryPacket (rx : RxIn) (x : TelemIn) (ga : Nat) (ia : Int) (gb : Nat) (ib : Int)
  /-- TRACE_PACKET (R410). -/
  | tracePacket (rx : RxIn) (dev : Nat) (e : TraceEnt)
  /-- CHAIN_DEVICE_CHECK_END (R395). -/
  | chainDeviceCheckEnd (dev : Nat)
  /-- CLAIM_VERIFY_DONE (R355). -/
  | claimVerifyDone (c : Nat)
  /-- CLAIM_DECISION (R356). -/
  | claimDecision
  /-- OWNER_RECORD_EFFECT (R357). -/
  | ownerRecordEffect
  /-- OWNER_DEAD (R361). -/
  | ownerDead
  /-- LOCKOUT_END (R365). -/
  | lockoutEnd (port : OPort)
  /-- PORT_CHECK_END (R363). -/
  | portCheckEnd (port : OPort)
  /-- WD_PERIOD_END (R421). -/
  | wdPeriodEnd (k : Slot)
  /-- WD_VERDICT (R421). -/
  | wdVerdict (k : Slot)
  /-- HOST_RST_RELEASE (R423). -/
  | hostRstRelease
  /-- CORE_WD_EXPIRY (R425). -/
  | coreWdExpiry (d : Cd)
  /-- DEBUG_HALT (R426). -/
  | debugHalt (d : Cd)
  /-- DEBUG_RELEASE (R426). -/
  | debugRelease (d : Cd)
  /-- RTC_WAKE_EXPIRY (R433). -/
  | rtcWakeExpiry
  /-- RTC_CRYSTAL_STOP (R428). -/
  | rtcCrystalStop
  /-- RTC_CALENDAR_END (R427). -/
  | rtcCalendarEnd
  /-- RTC_COMPENSATION_WINDOW (R429). -/
  | rtcCompensationWindow
  /-- RTC_SHIFT_END (R432). -/
  | rtcShiftEnd
  /-- VRTC_SWITCH (R435). -/
  | vrtcSwitch (toVbak : Bool)
  /-- TOKEN_REFILL (R405). -/
  | tokenRefill
  /-- TRACE_OVW (R409). -/
  | traceOvw
  /-- FUSE_WRITE_DONE (R444). -/
  | fuseWriteDone (ok : Bool)
  /-- VOIDING_DONE (R457). -/
  | voidingDone (verified : Bool)
  /-- POWER_FAIL (R452). -/
  | powerFail
  /-- SUPPLY_MONITOR_TRIP (R497). -/
  | supplyMonitorTrip (k : Supply)
  /-- SUPPLY_RESET (R497). -/
  | supplyReset
  /-- VAON_RISE (R462). -/
  | vaonRise (v : VaonIn)
  /-- STARTUP_AON_DONE (R462). -/
  | startupAonDone (memOk : Bool) (xtalOk : Bool)
  /-- OTP_CHECK (R445). -/
  | otpCheck
  /-- SELF_TEST_DONE (R465). -/
  | selfTestDone (a : Nat) (b : Nat) (p : Nat)
  /-- IMAGE_LOAD (R469). -/
  | imageLoad
  /-- OWNER_WAIT_END (R470). -/
  | ownerWaitEnd
  /-- SEQUENCE_STEP (R471). -/
  | sequenceStep
  /-- VOTE_FLOOR (R78). -/
  | voteFloor (t : Tkt)
  /-- SET_TARGET (R76). -/
  | setTarget (t : Tkt)
  /-- SET_ENVELOPE (R77). -/
  | setEnvelope (t : Tkt)
  /-- FORECAST (R146). -/
  | forecast (t : Tkt)
  /-- FORECAST_HEADROOM_RAMP (R154). -/
  | forecastHeadroomRamp (c : Nat) (seq : Nat)
  /-- FORECAST_WINDOW_OPEN (R155). -/
  | forecastWindowOpen (c : Nat) (seq : Nat)
  /-- FORECAST_WINDOW_CLOSE (R154). -/
  | forecastWindowClose (c : Nat) (seq : Nat)
  /-- FORECAST_SCORE (R160). -/
  | forecastScore (c : Nat) (seq : Nat)
  /-- FORECAST_CANCEL (R162). -/
  | forecastCancel (t : Tkt)
  /-- FORECAST_TRUST_READ (R165). -/
  | forecastTrustRead (t : Tkt)
  /-- FORECAST_TRUST_SET (R165). -/
  | forecastTrustSet (t : Tkt)
  /-- TELEM_READ (R344). -/
  | telemRead (t : Tkt)
  /-- BULK_READ (R345). -/
  | bulkRead (t : Tkt)
  /-- MP_READ (R290). -/
  | mpRead (t : Tkt)
  /-- IMAGE_WRITE (R482). -/
  | imageWrite (t : Tkt)
  /-- IMAGE_COMMIT (R482). -/
  | imageCommit (t : Tkt)
  /-- OVERLAY_WRITE (R487). -/
  | overlayWrite (t : Tkt)
  /-- OVERLAY_COMMIT (R487). -/
  | overlayCommit (t : Tkt)
  /-- OVERLAY_SELECT (R488). -/
  | overlaySelect (t : Tkt)
  /-- MP_ACCEPT (R291). -/
  | mpAccept (t : Tkt)
  /-- MP_REJECT (R291). -/
  | mpReject (t : Tkt)
  /-- MP_RESET (R292). -/
  | mpReset (t : Tkt)
  /-- SEQ_RUN (R223). -/
  | seqRun (t : Tkt)
  /-- SEQ_SKIP (R223). -/
  | seqSkip (t : Tkt)
  /-- SEQ_ABORT (R223). -/
  | seqAbort (t : Tkt)
  /-- HK_SWITCH (R248). -/
  | hkSwitch (t : Tkt)
  /-- CLEAR_LATCH (R198). -/
  | clearLatch (t : Tkt)
  /-- BENCH_PHASE (R68). -/
  | benchPhase (t : Tkt)
  /-- BENCH_RAIL (R214). -/
  | benchRail (t : Tkt)
  /-- BENCH_CONTROL_DIE (R189). -/
  | benchControlDie (t : Tkt)
  /-- BENCH_CHAIN_DEVICE (R392). -/
  | benchChainDevice (t : Tkt)
  /-- READMIT_PHASE (R69). -/
  | readmitPhase (t : Tkt)
  /-- READMIT_RAIL (R213). -/
  | readmitRail (t : Tkt)
  /-- READMIT_CONTROL_DIE (R189). -/
  | readmitControlDie (t : Tkt)
  /-- READMIT_CHARGER (R257). -/
  | readmitCharger (t : Tkt)
  /-- READMIT_GANG_MEMBER (R138). -/
  | readmitGangMember (t : Tkt)
  /-- GANG_MEMBER_SELFTEST_END (R138). -/
  | gangMemberSelftestEnd (r : Rail) (pass : Bool)
  /-- READMIT_CHAIN_DEVICE (R395). -/
  | readmitChainDevice (t : Tkt)
  /-- READMIT_HOST_PORT (R363). -/
  | readmitHostPort (t : Tkt)
  /-- SWAP (R190). -/
  | swap (t : Tkt)
  /-- THERM_CLEAR (R278). -/
  | thermClear (t : Tkt)
  /-- CLAIM_PART (R348). -/
  | claimPart (t : Tkt)
  /-- CLAIM (R354). -/
  | claim (t : Tkt)
  /-- HEARTBEAT (R360). -/
  | heartbeat (t : Tkt)
  /-- HANDOVER (R364). -/
  | handover (t : Tkt)
  /-- OWNER_READ (R346). -/
  | ownerRead (t : Tkt)
  /-- WD_CHECKIN (R419). -/
  | wdCheckin (t : Tkt)
  /-- WD_ARM (R418). -/
  | wdArm (t : Tkt)
  /-- WD_DISARM (R418). -/
  | wdDisarm (t : Tkt)
  /-- RTC_SET (R431). -/
  | rtcSet (t : Tkt)
  /-- RTC_SHIFT (R432). -/
  | rtcShift (t : Tkt)
  /-- RTC_WAKE (R433). -/
  | rtcWake (t : Tkt)
  /-- RTC_READ (R430). -/
  | rtcRead (t : Tkt)
  /-- METER_START (R298). -/
  | meterStart (t : Tkt)
  /-- METER_STOP (R308). -/
  | meterStop (t : Tkt)
  /-- METER_READ (R299). -/
  | meterRead (t : Tkt)
  /-- METER_CLEAR (R303). -/
  | meterClear (t : Tkt)
  /-- GAUGE_READ (R346). -/
  | gaugeRead (t : Tkt)
  /-- CHG_SET (R346). -/
  | chgSet (t : Tkt)
  /-- PACK_SWITCH_OPEN (R261). -/
  | packSwitchOpen (t : Tkt)
  /-- PACK_SWITCH_RELEASE (R261). -/
  | packSwitchRelease (t : Tkt)
  /-- SHIP_ARM (R265). -/
  | shipArm (t : Tkt)
  /-- SHIP_CANCEL (R265). -/
  | shipCancel (t : Tkt)
  /-- GAUGE_SET_SOC (R346). -/
  | gaugeSetSoc (t : Tkt)
  /-- GAUGE_RESET (R346). -/
  | gaugeReset (t : Tkt)
  /-- CNT_READ (R415). -/
  | cntRead (t : Tkt)
  /-- CNT_CTL (R412). -/
  | cntCtl (t : Tkt)
  /-- TRACE_STREAM_START (R410). -/
  | traceStreamStart (t : Tkt)
  /-- TRACE_STREAM_STOP (R410). -/
  | traceStreamStop (t : Tkt)
  /-- ALARM_CLEAR (R402). -/
  | alarmClear (t : Tkt)
  /-- FUSE_WRITE (R443). -/
  | fuseWrite (t : Tkt)
  /-- ATTEST (R458). -/
  | attest (t : Tkt)
  /-- DEBUG_UNLOCK_PART (R348). -/
  | debugUnlockPart (t : Tkt)
  /-- DEBUG_UNLOCK (R456). -/
  | debugUnlock (t : Tkt) (held : Bool)
  /-- UNKNOWN_OPCODE (R346). -/
  | unknownOpcode (t : Tkt)
  /-- K28_1_RECEIVED (R388). -/
  | k281Received (p : Side)
  /-- LINK_HEAL_PACKET (R391). -/
  | linkHealPacket (rx : RxIn) (dev : Nat) (p : Side)
  /-- RTC_EDGE (R427). -/
  | rtcEdge
  /-- BELZAPOL_RESTART (R425). -/
  | belzapolRestart (d : Cd)
deriving DecidableEq, Repr

end Sys2Proof
end

