-- ==== Sys2Proof/Decode.lean ====
section
/-! DEFINITION. Reading the bytes of a ticket: the header (Table 13.1), the payload, the opcode table (Table 13.7), and
which row of the command table a ticket belongs to. The command table gives no row any bits, so no word of the host's
numbering spells a command. -/

namespace Sys2Proof

/-! ### Numbers of the units that a command names -/

/-- The number of a control die. -/
def Cd.ix : Cd → Fin 2
  | .a => 0
  | .b => 1

/-- The other control die. -/
def Cd.other : Cd → Cd
  | .a => .b
  | .b => .a

/-- The number of a feed. -/
def Feed.ix : Feed → Fin 2
  | .a => 0
  | .b => 1

/-- The other feed. -/
def Feed.other : Feed → Feed
  | .a => .b
  | .b => .a

/-- The number of a die or a converter. -/
def Die.ix : Die → Fin 3
  | .a => 0
  | .b => 1
  | .p => 2

/-- The number of a ring port. -/
def Side.ix : Side → Fin 2
  | .east => 0
  | .west => 1

/-- The other ring port. -/
def Side.other : Side → Side
  | .east => .west
  | .west => .east

/-- The number of an access path. -/
def Path.ix : Path → Fin 3
  | .bar0 => 0
  | .spiA => 1
  | .spiB => 2

/-- The number of an SPI port. -/
def Port.ix : Port → Fin 2
  | .a => 0
  | .b => 1

/-- The control die of a number. -/
def cdOf (i : Nat) : Cd := if i = 0 then .a else .b

/-- The 16 bytes of a trace entry (Table 16.5). -/
def TraceEnt.bytes (e : TraceEnt) : List Nat :=
  leBytes 4 e.beat ++ [e.kind % 256, e.dev % 64] ++ leBytes 2 e.tseq ++ leBytes 2 e.d0 ++ leBytes 2 e.d1 ++ leBytes 2 e.d2
    ++ leBytes 2 e.d3

/-! ### Tickets -/

/-- Byte `i` of a ticket, 0 to 63 (R336). -/
def Tkt.byte (t : Tkt) (i : Nat) : Nat := byteAt t.raw i
/-- Bytes `i … i + n - 1` of a ticket as a little-endian number (R7). -/
def Tkt.le (t : Tkt) (i n : Nat) : Nat := bytesAt t.raw i n

/-- The segments of a ticket's scatter list: address and length of each element (Table 12.12). -/
def Tkt.segs (t : Tkt) : List (Nat × Nat) := t.sgl.map fun e => (bits e 63 0, bits e 88 64)

/-- OPCODE (Table 13.1). -/
def Tkt.op (t : Tkt) : Nat := bits t.raw 7 0
/-- NB. -/
def Tkt.nb (t : Tkt) : Bool := bit t.raw 8
/-- SG. -/
def Tkt.sg (t : Tkt) : Bool := bit t.raw 9
/-- CHAIN. -/
def Tkt.chain (t : Tkt) : Bool := bit t.raw 10
/-- CLIENT. -/
def Tkt.clientField (t : Tkt) : Nat := bits t.raw 27 16
/-- GEN. -/
def Tkt.gen (t : Tkt) : Nat := bits t.raw 39 32
/-- PRIO. -/
def Tkt.prio (t : Tkt) : Nat := bits t.raw 41 40
/-- CLASS. -/
def Tkt.cls (t : Tkt) : Nat := bits t.raw 43 42
/-- SEQ. -/
def Tkt.seq (t : Tkt) : Nat := bits t.raw 63 48
/-- TARGET.DEV. -/
def Tkt.dev (t : Tkt) : Nat := bits t.raw 69 64
/-- TARGET.REGION, 0 for none. -/
def Tkt.regionF (t : Tkt) : Nat := bits t.raw 72 70
/-- TARGET.RAIL, 0 for none. -/
def Tkt.railF (t : Tkt) : Nat := bits t.raw 76 73
/-- TARGET.PHASE, 0 for none. -/
def Tkt.phaseF (t : Tkt) : Nat := bits t.raw 82 77
/-- NOTBEFORE. -/
def Tkt.notBefore (t : Tkt) : Nat := bits t.raw 127 96

/-- The unit that Table 13.7's Target column asks for. -/
inductive Target | rail | phase | device | railOrPhase | railOrDevice | byKind | bySel | none
deriving DecidableEq, Repr

/-- Whether an opcode takes a scatter list (R325, Table 13.7). -/
inductive SgUse | never | may | must
deriving DecidableEq, Repr

/-- A row of Table 13.7. `perm` is the bit of the client entry (Table 12.9) that the caller needs, `named` the payload
bytes the row names, each with the mask of its bits that are not rsvd. -/
structure OpRow where
  cls   : Nat
  owner : Bool
  perm  : Option Nat := Option.none
  grant : Bool := false
  tgt   : Target
  nb    : Bool := false
  chain : Bool := false
  sg    : SgUse := .never
  named : List (Nat × Nat) := []
deriving DecidableEq, Repr

/-- Whole bytes `a … b` of a payload. -/
def whole (a b : Nat) : List (Nat × Nat) := (List.range (b + 1 - a)).map fun i => (a + i, 0xFF)

/-- The opcodes of Table 13.7. An opcode outside the table answers none (R346). -/
def opRow (op : Nat) : Option OpRow :=
  match op with
  | 0x00 => some { cls := 0, owner := false, perm := some 137, grant := true, tgt := .rail, nb := true, named := whole 16 17 }
  | 0x01 => some { cls := 0, owner := true, tgt := .rail, nb := true, named := whole 16 17 }
  | 0x02 => some { cls := 0, owner := true, tgt := .rail, nb := true, named := whole 16 19 }
  | 0x10 => some { cls := 0, owner := false, perm := some 138, grant := true, tgt := .rail,
                   named := whole 16 25 ++ [(26, 0x0F), (27, 0xFF)] }
  | 0x11 => some { cls := 0, owner := false, perm := some 138, tgt := .rail, nb := true, named := whole 16 17 }
  | 0x12 => some { cls := 1, owner := false, perm := some 138, tgt := .rail, nb := true, named := whole 16 19 }
  | 0x20 => some { cls := 1, owner := false, perm := some 139, grant := true, tgt := .bySel, sg := .may, named := whole 16 17 }
  | 0x21 => some { cls := 2, owner := false, perm := some 141, tgt := .device, chain := true, sg := .must,
                   named := [(16, 0xFF)] ++ whole 20 27 }
  | 0x22 => some { cls := 1, owner := false, perm := some 139, grant := true, tgt := .railOrPhase, sg := .may, named := whole 16 17 }
  | 0x30 => some { cls := 2, owner := true, tgt := .device, chain := true, sg := .must, named := whole 20 27 }
  | 0x31 => some { cls := 0, owner := true, tgt := .device, nb := true }
  | 0x32 => some { cls := 2, owner := true, tgt := .device, sg := .must, named := whole 20 27 }
  | 0x33 => some { cls := 0, owner := true, tgt := .device, nb := true, named := [(16, 0xFF)] ++ whole 20 23 }
  | 0x34 => some { cls := 0, owner := true, tgt := .device, nb := true, chain := true, named := [(16, 0xFF)] }
  | 0x35 => some { cls := 0, owner := true, tgt := .device, nb := true, named := whole 16 17 }
  | 0x36 => some { cls := 0, owner := true, tgt := .device, named := whole 16 17 }
  | 0x37 => some { cls := 0, owner := true, tgt := .railOrDevice, nb := true, named := [(16, 0x01)] }
  | 0x40 => some { cls := 0, owner := true, tgt := .device, nb := true, chain := true, named := [(16, 0xFF)] }
  | 0x41 => some { cls := 0, owner := true, tgt := .device, nb := true, named := [(16, 0xFF)] }
  | 0x42 => some { cls := 0, owner := true, tgt := .device, nb := true, named := [(16, 0xFF)] }
  | 0x43 => some { cls := 0, owner := true, tgt := .device, nb := true, named := whole 16 17 }
  | 0x50 => some { cls := 0, owner := true, tgt := .rail, nb := true, named := [(16, 0x7F)] }
  | 0x51 => some { cls := 0, owner := true, tgt := .byKind, nb := true, named := whole 16 17 }
  | 0x52 => some { cls := 0, owner := true, tgt := .byKind, nb := true, named := whole 16 17 }
  | 0x53 => some { cls := 0, owner := true, tgt := .device, nb := true }
  | 0x54 => some { cls := 0, owner := true, tgt := .device, nb := true, named := [(16, 0xFF)] }
  | 0x60 => some { cls := 0, owner := false, tgt := .none, named := whole 16 17 ++ whole 20 63 }
  | 0x61 => some { cls := 0, owner := true, tgt := .none, named := whole 20 23 }
  | 0x62 => some { cls := 0, owner := true, tgt := .none, named := [(16, 0xFF)] ++ whole 20 23 }
  | 0x63 => some { cls := 1, owner := false, tgt := .none }
  | 0x70 => some { cls := 0, owner := false, tgt := .device, named := [(16, 0xFF)] }
  | 0x71 => some { cls := 0, owner := true, tgt := .device, nb := true, named := whole 16 21 }
  | 0x72 => some { cls := 0, owner := true, tgt := .device, nb := true, named := whole 16 22 }
  | 0x73 => some { cls := 0, owner := true, tgt := .device, nb := true, named := whole 16 19 }
  | 0x74 => some { cls := 0, owner := true, tgt := .device, nb := true, named := whole 16 19 }
  | 0x75 => some { cls := 1, owner := false, perm := some 139, tgt := .device }
  | 0x80 => some { cls := 0, owner := true, tgt := .device, nb := true, named := [(16, 0xFF)] }
  | 0x81 => some { cls := 0, owner := true, tgt := .device, nb := true, named := [(16, 0xFF)] }
  | 0x82 => some { cls := 1, owner := false, perm := some 139, tgt := .device, sg := .may, named := whole 16 17 }
  | 0x83 => some { cls := 0, owner := true, tgt := .device, nb := true, named := [(16, 0x3F)] }
  | 0x90 => some { cls := 1, owner := false, perm := some 139, tgt := .device, sg := .may, named := [(16, 0xFF)] }
  | 0x91 => some { cls := 0, owner := true, tgt := .device, nb := true, named := whole 16 17 }
  | 0x92 => some { cls := 0, owner := true, tgt := .device, named := [(16, 0xFF)] }
  | 0x93 => some { cls := 0, owner := true, tgt := .device, nb := true, named := [(16, 0x03)] }
  | 0x94 => some { cls := 0, owner := true, tgt := .device, named := whole 16 18 }
  | 0xA0 => some { cls := 1, owner := false, perm := some 140, tgt := .device, sg := .may, named := whole 16 19 }
  | 0xA1 => some { cls := 0, owner := true, tgt := .device, nb := true, named := whole 16 19 ++ [(20, 0x03)] }
  | 0xA2 => some { cls := 2, owner := false, perm := some 141, tgt := .device, sg := .may, named := [(16, 0xFF)] }
  | 0xA3 => some { cls := 0, owner := true, tgt := .device, nb := true, named := whole 16 23 }
  | 0xE0 => some { cls := 0, owner := true, tgt := .device, named := [(16, 0xFF)] ++ whole 18 27 }
  | 0xE1 => some { cls := 1, owner := false, perm := some 139, tgt := .device, sg := .must, named := whole 16 47 }
  | 0xE2 => some { cls := 0, owner := true, tgt := .device, named := whole 16 17 ++ whole 20 63 }
  | _ => Option.none

/-- The CURSOR of a ticket that reads bulk data, 0 for any other (R327, R345). -/
def Tkt.cursor (t : Tkt) : Nat := if t.op = 0x21 then t.le 24 4 else 0

/-- Which row of the command table a ticket belongs to: its opcode times 16, plus the payload kind by which the table
tells the rows of one opcode apart. A kind byte outside Table 13.7 belongs to the opcode's first row, which refuses it
as malformed. An opcode outside the table belongs to UNKNOWN_OPCODE, key 4096. -/
def Tkt.rowKey (t : Tkt) : Nat :=
  let k := t.byte 16
  match t.op with
  | 0x12 => if t.byte 18 = 1 then 0x121 else 0x120
  | 0x51 => if k = 1 then 0x511 else if k = 2 then 0x512 else if k = 5 then 0x515 else 0x510
  | 0x52 => if 1 ≤ k ∧ k ≤ 6 then 0x520 + k else 0x520
  | 0x60 => if k = 3 then 0x603 else 0x600
  | 0x71 => if t.byte 17 = 0 then 0x710 else 0x711
  | 0x92 => if k = 1 then 0x921 else 0x920
  | 0x93 => if k % 2 = 1 then 0x931 else 0x930
  | 0x94 => if k = 1 then 0x941 else 0x940
  | 0xA2 => if k = 1 then 0xA21 else 0xA20
  | 0xE2 => if k = 3 then 0xE23 else 0xE20
  | o => if (opRow o).isSome then o * 16 else 4096

/-- The ticket a command carries and the row key its row takes; none for a command that is no ticket. -/
def Instr.ticket (i : Instr) : Option (Tkt × Nat) :=
  match i with
  | .voteFloor t => some (t, 0x000) | .setTarget t => some (t, 0x010) | .setEnvelope t => some (t, 0x020)
  | .forecast t => some (t, 0x100) | .forecastCancel t => some (t, 0x110)
  | .forecastTrustRead t => some (t, 0x120) | .forecastTrustSet t => some (t, 0x121)
  | .telemRead t => some (t, 0x200) | .bulkRead t => some (t, 0x210) | .mpRead t => some (t, 0x220)
  | .imageWrite t => some (t, 0x300) | .imageCommit t => some (t, 0x310)
  | .overlayWrite t => some (t, 0x320) | .overlayCommit t => some (t, 0x330) | .overlaySelect t => some (t, 0x340)
  | .mpAccept t => some (t, 0x350) | .mpReject t => some (t, 0x360) | .mpReset t => some (t, 0x370)
  | .seqRun t => some (t, 0x400) | .seqSkip t => some (t, 0x410) | .seqAbort t => some (t, 0x420)
  | .hkSwitch t => some (t, 0x430) | .clearLatch t => some (t, 0x500)
  | .benchPhase t => some (t, 0x510) | .benchRail t => some (t, 0x511)
  | .benchControlDie t => some (t, 0x512) | .benchChainDevice t => some (t, 0x515)
  | .readmitPhase t => some (t, 0x520) | .readmitRail t => some (t, 0x521) | .readmitControlDie t => some (t, 0x522)
  | .readmitCharger t => some (t, 0x523) | .readmitGangMember t => some (t, 0x524)
  | .readmitChainDevice t => some (t, 0x525) | .readmitHostPort t => some (t, 0x526)
  | .swap t => some (t, 0x530) | .thermClear t => some (t, 0x540)
  | .claimPart t => some (t, 0x600) | .claim t => some (t, 0x603) | .heartbeat t => some (t, 0x610)
  | .handover t => some (t, 0x620) | .ownerRead t => some (t, 0x630)
  | .wdCheckin t => some (t, 0x700) | .wdArm t => some (t, 0x711) | .wdDisarm t => some (t, 0x710)
  | .rtcSet t => some (t, 0x720) | .rtcShift t => some (t, 0x730) | .rtcWake t => some (t, 0x740)
  | .rtcRead t => some (t, 0x750)
  | .meterStart t => some (t, 0x800) | .meterStop t => some (t, 0x810) | .meterRead t => some (t, 0x820)
  | .meterClear t => some (t, 0x830) | .gaugeRead t => some (t, 0x900) | .chgSet t => some (t, 0x910)
  | .packSwitchOpen t => some (t, 0x920) | .packSwitchRelease t => some (t, 0x921)
  | .shipArm t => some (t, 0x930) | .shipCancel t => some (t, 0x931)
  | .gaugeSetSoc t => some (t, 0x940) | .gaugeReset t => some (t, 0x941)
  | .cntRead t => some (t, 0xA00) | .cntCtl t => some (t, 0xA10)
  | .traceStreamStart t => some (t, 0xA21) | .traceStreamStop t => some (t, 0xA20) | .alarmClear t => some (t, 0xA30)
  | .fuseWrite t => some (t, 0xE00) | .attest t => some (t, 0xE10)
  | .debugUnlockPart t => some (t, 0xE20) | .debugUnlock t _ => some (t, 0xE23)
  | .unknownOpcode t => some (t, 4096)
  | _ => none

/-- The command that a word spells by the table's bits: no row of spec/opcode_table.json gives any. -/
def decodeTableWord (_nbits _w : Nat) : Option Instr := none

end Sys2Proof
end

