-- ==== Sys2Proof/Config.lean ====
section
/-! DEFINITION. What the spec leaves open and no rule fixes: free values (an `opaque` constant with no body, so that no
proof can see what it is) and the cryptographic functions the spec names by their standards. Log entries 7, 9 and 10. -/

namespace Sys2Proof.Config

/-- A value that the spec does not state, one for each draw of the state's free-value counter (log entry 4). -/
opaque freeNat : Nat → Nat

/-- A signed value that the spec does not state, one for each draw (log entry 4). -/
opaque freeInt : Nat → Int

/-- Which neighbour a quantity exactly half-way between two steps is rounded to, where the spec says "rounded to
nearest" and names no rule for a tie (log entry 7): true rounds up. -/
opaque tieUp : Int → Nat → Bool

/-- SHA-256 of a byte string (R353, R354, R480), uninterpreted (log entry 9). -/
opaque sha256 : List Nat → Nat

/-- Whether a point lies on the curve P-256 (R354, check 3), uninterpreted (log entry 9). -/
opaque onCurve : (x y : Nat) → Bool

/-- ECDSA P-256 verification of a hash (R354, check 4), uninterpreted (log entry 9). -/
opaque ecdsaOk : (x y r s hash : Nat) → Bool

/-- The bytes of an attestation over a nonce and a device state (R456), uninterpreted (log entry 9). -/
opaque attestation : (nonce state : Nat) → List Nat

/-- The first quarter of a chirp tone's wave, in 2^-30 of its amplitude, at n thousandths of half a period: the values between 0 and
the peak, which the spec does not state (R288, log entry 44). -/
opaque toneQuarter : (n : Nat) → Int

/-- The stage rating in A that another member's image gives a ganged rail under an overlay (R148), which this device's image
does not hold (log entry 24). -/
opaque memberRating : (dev rail ovl : Nat) → Nat

/-- The region, 0 to 5, that holds a rail or phase of another device, by the RAIL and PHASE fields of TARGET: the images of the chain give it,
which this device does not hold (R116, R337, log entry 119). -/
opaque unitRegion : (dev railF phaseF : Nat) → Nat

/-- The vendor ID of Haleirath, which the spec names and gives no number (Table 12.1). -/
opaque vendorId : Nat

/-- NMIN of another member of a gang under an overlay (R136, log entry 24). -/
opaque memberNmin : (dev rail ovl : Nat) → Nat

/-- NMAX of another member of a gang under an overlay (R136, log entry 24). -/
opaque memberNmax : (dev rail ovl : Nat) → Nat

/-- ILV_OFS of a gang's leader under an overlay, which a member's image does not hold (R140, R142, log entry 24). -/
opaque leaderIlv : (dev rail ovl : Nat) → Nat

/-- A device-wide field of a configuration image that no record of Table 20.2 holds: 0 ROT_PERIOD, 1 ROT_DELTA (R72, log entry 75). -/
opaque imageField : (field : Nat) → (image : List Nat) → Nat

/-- INTENT_CRC over the intent fields of a rail: the spec names the fields and does not lay them out (R167, log entry 76). -/
opaque intentCrc : (fields : List Nat) → Nat

/-- A forecast as the deputy of a gang holds its copy (Table 5.6). -/
structure CopiedFc where
  /-- Client. -/
  client : Nat := 0
  /-- Generation. -/
  gen : Nat := 0
  /-- Sequence. -/
  seq : Nat := 0
  /-- TSTEP. -/
  tstep : Nat := 0
  /-- DI in 0.1 A. -/
  di : Int := 0
  /-- U. -/
  u : Nat := 0
  /-- Confidence. -/
  conf : Nat := 0
  /-- TAG. -/
  tag : Nat := 0
  /-- Weight. -/
  wn : Nat := 0
  /-- It has lost a beat to a budget: CURTAILED. -/
  curtailed : Bool := false
  /-- The baseline in 0.1 A once TS has come: numerator. -/
  ibNum : Int := 0
  /-- The baseline: denominator less 1. -/
  ibDen : Nat := 0
  /-- The crossing as T − TSTEP, once it has come. -/
  cross : Option Int := none
  /-- The sum of the currents measured after TE in 0.1 A: numerator. -/
  dmNum : Int := 0
  /-- That sum: denominator less 1. -/
  dmDen : Nat := 0
deriving DecidableEq, Repr

/-- The forecasts that the former leader of a gang held (Table 5.6, log entry 88). -/
opaque copiedForecasts : Nat → List CopiedFc

/-- The trust entries, client and T, that the former leader of a gang held (Table 5.6, log entry 88). -/
opaque copiedTrust : Nat → List (Nat × Nat)

end Sys2Proof.Config
end

