-- ==== Sys2Proof/Machine/Fields.lean ====
section
/-! DEFINITION. The fields of the configuration records, one function for each field of the record tables of the
spec, and the record that Epurra's Reset columns make. A record is the number its little-endian bytes make (R480). -/

namespace Sys2Proof.Machine

/-! Table 2.7: PH_CFG. -/

/-- ILIM [6:0]: Positive cycle-by-cycle limit, 1 A to 120 A in 1 A steps -/
def PhCfg.ilim (x : Nat) : Nat := bits x 6 0
/-- ILIM_NEG [13:8]: Negative limit, 1 A to 63 A in 1 A steps; 0: no negative limit -/
def PhCfg.ilimNeg (x : Nat) : Nat := bits x 13 8
/-- ISTAGE [22:16]: Stage rating, 1 A to 120 A in 1 A steps; 0: no stage fitted, phase stays OFF -/
def PhCfg.istage (x : Nat) : Nat := bits x 22 16
/-- TDER [31:24]: Derating start, 25 °C to 174 °C in 1 °C steps -/
def PhCfg.tder (x : Nat) : Nat := bits x 31 24
/-- TLIM [39:32]: Temperature limit, 26 °C to 175 °C in 1 °C steps -/
def PhCfg.tlim (x : Nat) : Nat := bits x 39 32
/-- WNOM [43:40]: Nominal share weight, 1 to 15 eighths -/
def PhCfg.wnom (x : Nat) : Nat := bits x 43 40
/-- WMIN [46:44]: Weight at TLIM, 1 to 7 eighths -/
def PhCfg.wmin (x : Nat) : Nat := bits x 46 44
/-- OPEN_CYC [55:48]: Open-phase persistence, 16 to 255 cycles -/
def PhCfg.openCyc (x : Nat) : Nat := bits x 55 48
/-- OPEN_FRAC [58:56]: Open-phase fraction 1/2ⁿ, n from 1 to 5 -/
def PhCfg.openFrac (x : Nat) : Nat := bits x 58 56
/-- OPEN_MIN [63:59]: Least expected share for open detection, 1 A to 31 A -/
def PhCfg.openMin (x : Nat) : Nat := bits x 63 59
/-- ISHORT [69:64]: Short detection current at mid, 1 A to 63 A -/
def PhCfg.ishort (x : Nat) : Nat := bits x 69 64
/-- STUCK_CYC [79:72]: Stuck persistence in units of 16 samples, 1 to 255 -/
def PhCfg.stuckCyc (x : Nat) : Nat := bits x 79 72
/-- TON_MIN [87:80]: Least high interval in 1.25 ns units, 0 to 255 (0 ns to 318.75 ns) -/
def PhCfg.tonMin (x : Nat) : Nat := bits x 87 80
/-- TOFF_MIN [95:88]: Least low interval in 1.25 ns units, 1 to 255 (1.25 ns to 318.75 ns) -/
def PhCfg.toffMin (x : Nat) : Nat := bits x 95 88
/-- DE_EN [96]: 1: diode emulation allowed in light-load mode -/
def PhCfg.deEn (x : Nat) : Bool := bit x 96
/-- NO_ROT [97]: 1: never shed by rotation or as the most-worn phase while others are available -/
def PhCfg.noRot (x : Nat) : Bool := bit x 97
/-- LIM_EVT [107:100]: Consecutive limited cycles before a phase-in-limit event, 1 to 255 -/
def PhCfg.limEvt (x : Nat) : Nat := bits x 107 100

/-- PH_CFG as the Reset column of Table 2.7 has it. -/
def dPhCfg : Nat := fld 90 7 0 + fld 30 6 8 + fld 110 8 24 + fld 125 8 32 + fld 8 4 40 + fld 2 3 44 + fld 64 8 48 + fld 3 3 56 + fld 8 5 59 + fld 10 6 64 + fld 16 8 72 + fld 24 8 80 + fld 40 8 88 + fld 1 1 96 + fld 32 8 100

/-! Table 3.2: RAIL_CFG. -/

/-- RAIL_EN [0]: 1: rail in use -/
def RailCfg.railEn (x : Nat) : Bool := bit x 0
/-- FIXED_N [1]: 1: phase count held at NMAX -/
def RailCfg.fixedN (x : Nat) : Bool := bit x 1
/-- AVS_EN [2]: 1: VREQ from AVSBus -/
def RailCfg.avsEn (x : Nat) : Bool := bit x 2
/-- LLM_EN [3]: 1: light load allowed -/
def RailCfg.llmEn (x : Nat) : Bool := bit x 3
/-- CATCH_EN [4]: 1: catch path enabled -/
def RailCfg.catchEn (x : Nat) : Bool := bit x 4
/-- SNS_LOCAL [5]: 1: regulate from VLOC from the start -/
def RailCfg.snsLocal (x : Nat) : Bool := bit x 5
/-- AVS_PORT [7:6]: AVSBus port 0 to 3 -/
def RailCfg.avsPort (x : Nat) : Nat := bits x 7 6
/-- AVS_SEL [11:8]: Rail select 0 to 14 -/
def RailCfg.avsSel (x : Nat) : Nat := bits x 11 8
/-- SOFT_OFF [12]: 1: ramp down before OFF -/
def RailCfg.softOff (x : Nat) : Bool := bit x 12
/-- FF_EN [13]: 1: feedforward from meter channel FF_CH -/
def RailCfg.ffEn (x : Nat) : Bool := bit x 13
/-- VBOOT [27:16]: Initial VREQ, 250 mV to 3,300 mV -/
def RailCfg.vboot (x : Nat) : Nat := bits x 27 16
/-- VMIN_OWN [43:32]: Owner minimum, 250 mV to 3,300 mV -/
def RailCfg.vminOwn (x : Nat) : Nat := bits x 43 32
/-- VMAX_OWN [59:48]: Owner maximum, 250 mV to 3,300 mV -/
def RailCfg.vmaxOwn (x : Nat) : Nat := bits x 59 48
/-- RLL [74:64]: Load line, 0 µΩ to 2,000 µΩ -/
def RailCfg.rll (x : Nat) : Nat := bits x 74 64
/-- FSW_CODE [88:80]: Switching frequency in 5 kHz units, 50 to 500 (250 kHz to 2.5 MHz) -/
def RailCfg.fswCode (x : Nat) : Nat := bits x 88 80
/-- NMIN [100:96]: Minimum phase count, 1 to 24 -/
def RailCfg.nmin (x : Nat) : Nat := bits x 100 96
/-- NMAX [108:104]: Maximum phase count, 1 to 24 -/
def RailCfg.nmax (x : Nat) : Nat := bits x 108 104
/-- IPH_TGT [118:112]: Current per phase for the phase count, 1 A to 120 A -/
def RailCfg.iphTgt (x : Nat) : Nat := bits x 118 112
/-- IPH_HYST [125:120]: Shedding hysteresis, 0 A to 63 A -/
def RailCfg.iphHyst (x : Nat) : Nat := bits x 125 120
/-- SLEW_UP [135:128]: Rising rate, 1 mV/µs to 255 mV/µs -/
def RailCfg.slewUp (x : Nat) : Nat := bits x 135 128
/-- SLEW_DN [143:136]: Falling rate, 1 mV/µs to 255 mV/µs -/
def RailCfg.slewDn (x : Nat) : Nat := bits x 143 136
/-- LL_TAU [146:144]: Current filter 2ⁿ beats, n 0 to 7 -/
def RailCfg.llTau (x : Nat) : Nat := bits x 146 144
/-- CATCH_N [151:148]: Phases added by catch-UV, 0 to 15 -/
def RailCfg.catchN (x : Nat) : Nat := bits x 151 148
/-- CATCH_UV [159:152]: Undershoot threshold in 0.5 mV, 1 to 255 -/
def RailCfg.catchUv (x : Nat) : Nat := bits x 159 152
/-- CATCH_OV [167:160]: Overshoot threshold in 0.5 mV, 1 to 255 -/
def RailCfg.catchOv (x : Nat) : Nat := bits x 167 160
/-- CATCH_HOLD [175:168]: Longest catch, 1 to 255 beats -/
def RailCfg.catchHold (x : Nat) : Nat := bits x 175 168
/-- DMAX [183:176]: Largest duty in 1/256, 16 to 250 -/
def RailCfg.dmax (x : Nat) : Nat := bits x 183 176
/-- SNS_DEV [190:184]: Sense plausibility band, 10 mV to 127 mV -/
def RailCfg.snsDev (x : Nat) : Nat := bits x 190 184
/-- LLM_ENTER [199:192]: Light-load entry current, 1 A to 255 A -/
def RailCfg.llmEnter (x : Nat) : Nat := bits x 199 192
/-- LLM_EXIT [207:200]: Light-load exit current, 2 A to 255 A -/
def RailCfg.llmExit (x : Nat) : Nat := bits x 207 200
/-- FF_CH [212:208]: Meter channel of the stage input, 0 to 31 -/
def RailCfg.ffCh (x : Nat) : Nat := bits x 212 208
/-- VIN_NOM [227:216]: Nominal stage input in 10 mV units, 300 to 4,095 -/
def RailCfg.vinNom (x : Nat) : Nat := bits x 227 216
/-- CB_K [230:228]: Current-share gain exponent, 0 to 7 -/
def RailCfg.cbK (x : Nat) : Nat := bits x 230 228

/-- RAIL_CFG as the Reset column of Table 3.2 has it. -/
def dRailCfg : Nat := fld 1 1 3 + fld 1 1 4 + fld 1 1 12 + fld 1 1 13 + fld 800 12 16 + fld 250 12 32 + fld 1100 12 48 + fld 160 9 80 + fld 1 5 96 + fld 1 5 104 + fld 60 7 112 + fld 10 6 120 + fld 10 8 128 + fld 10 8 136 + fld 3 3 144 + fld 4 4 148 + fld 40 8 152 + fld 50 8 160 + fld 16 8 168 + fld 230 8 176 + fld 40 7 184 + fld 20 8 192 + fld 30 8 200 + fld 1200 12 216 + fld 3 3 228

/-! Table 3.3: RAIL_COMP. -/

/-- B0 [23:0]: b0, Q7.16 -/
def RailComp.b0 (x : Nat) : Nat := bits x 23 0
/-- B1 [47:24]: b1, Q7.16 -/
def RailComp.b1 (x : Nat) : Nat := bits x 47 24
/-- B2 [71:48]: b2, Q7.16 -/
def RailComp.b2 (x : Nat) : Nat := bits x 71 48
/-- B3 [95:72]: b3, Q7.16 -/
def RailComp.b3 (x : Nat) : Nat := bits x 95 72
/-- A1 [119:96]: a1, Q2.21 -/
def RailComp.a1 (x : Nat) : Nat := bits x 119 96
/-- A2 [143:120]: a2, Q2.21 -/
def RailComp.a2 (x : Nat) : Nat := bits x 143 120
/-- A3 [167:144]: a3, Q2.21 -/
def RailComp.a3 (x : Nat) : Nat := bits x 167 144

/-- RAIL_COMP as the Reset column of Table 3.3 has it. -/
def dRailComp : Nat := 0

/-! Table 4.1: PH_POOL. -/

/-- HOME [3:0]: Home rail, 0 to 11 -/
def PhPool.home (x : Nat) : Nat := bits x 3 0
/-- FLEX [4]: 1: flex phase, reaching ALT through steering channel FLX_CH -/
def PhPool.flex (x : Nat) : Bool := bit x 4
/-- ALT [11:8]: Alternate rail, 0 to 11; checked only when FLEX = 1 -/
def PhPool.alt (x : Nat) : Nat := bits x 11 8
/-- FLX_CH [15:12]: Steering channel, 0 to 15; checked only when FLEX = 1 -/
def PhPool.flxCh (x : Nat) : Nat := bits x 15 12

/-- PH_POOL as the Reset column of Table 4.1 has it. -/
def dPhPool : Nat := 0

/-! Table 4.2: REGION_CFG. -/

/-- RAILS [11:0]: Bit n set: RAILnn belongs to the region -/
def RegionCfg.rails (x : Nat) : Nat := bits x 11 0
/-- LEND_EN [12]: 1: lending enabled -/
def RegionCfg.lendEn (x : Nat) : Bool := bit x 12
/-- LEND_MAX [18:16]: Largest number of moves per frame, 1 to 4 -/
def RegionCfg.lendMax (x : Nat) : Nat := bits x 18 16
/-- LEND_HOLD [23:20]: Least stay after a move, 0 to 15 rounds -/
def RegionCfg.lendHold (x : Nat) : Nat := bits x 23 20
/-- IBUD [39:24]: Region current budget, 1 A to 65,535 A; 0: no budget -/
def RegionCfg.ibud (x : Nat) : Nat := bits x 39 24
/-- FLX_DT [44:40]: Break-before-make dead time, 1 to 8 beats -/
def RegionCfg.flxDt (x : Nat) : Nat := bits x 44 40
/-- FLX_ON [52:48]: Switch settling time, 1 to 8 beats -/
def RegionCfg.flxOn (x : Nat) : Nat := bits x 52 48
/-- PRIO [87:64]: Two bits per rail, rail n at [65+2n:64+2n]; lending priority 0 to 3, 3 highest -/
def RegionCfg.prio (x : Nat) : Nat := bits x 87 64

/-- REGION_CFG as the Reset column of Table 4.2 has it. -/
def dRegionCfg : Nat := fld 2 3 16 + fld 2 4 20 + fld 4 5 40 + fld 8 5 48

/-! Table 4.4: RAIL_CHAIN. -/

/-- GANG_EN [0]: 1: the rail is a member of a ganged rail -/
def RailChain.gangEn (x : Nat) : Bool := bit x 0
/-- ROLE [3:2]: Role of this device: 0 leader, 1 deputy, 2 follower, 3 rsvd -/
def RailChain.role (x : Nat) : Nat := bits x 3 2
/-- SIZE [6:4]: Members, 2 to 4; 0 when GANG_EN = 0 -/
def RailChain.size (x : Nat) : Nat := bits x 6 4
/-- MEM0 [17:8]: Leader -/
def RailChain.mem0 (x : Nat) : Nat := bits x 17 8
/-- MEM1 [27:18]: Deputy -/
def RailChain.mem1 (x : Nat) : Nat := bits x 27 18
/-- MEM2 [37:28]: Third member; 0 when SIZE < 3 -/
def RailChain.mem2 (x : Nat) : Nat := bits x 37 28
/-- MEM3 [47:38]: Fourth member; 0 when SIZE < 4 -/
def RailChain.mem3 (x : Nat) : Nat := bits x 47 38
/-- GT_K [50:48]: Gang current-trim gain exponent, 0 to 7 -/
def RailChain.gtK (x : Nat) : Nat := bits x 50 48
/-- MISS_N [55:52]: Missed commands before loss is declared, 2 to 8 beats -/
def RailChain.missN (x : Nat) : Nat := bits x 55 52
/-- HOLD [63:56]: Longest hold of a follower without commands, 6 to 255 beats; at least MISS_N + 4 -/
def RailChain.hold (x : Nat) : Nat := bits x 63 56
/-- ILV_OFS [71:64]: Interleave offset of slot 0, in 1/256 of Q -/
def RailChain.ilvOfs (x : Nat) : Nat := bits x 71 64

/-- RAIL_CHAIN as the Reset column of Table 4.4 has it. -/
def dRailChain : Nat := fld 4 3 48 + fld 4 4 52 + fld 12 8 56

/-! Table 5.1: FC_CFG. -/

/-- FC_EN [0]: 1: forecasts accepted for the rail -/
def FcCfg.fcEn (x : Nat) : Bool := bit x 0
/-- FC_NADD [3:1]: Largest rise of the phase count above the R106 demand, 0 to 7 -/
def FcCfg.fcNadd (x : Nat) : Nat := bits x 3 1
/-- FC_RATE [7:4]: Forecasts accepted per client per round, 1 to 15 -/
def FcCfg.fcRate (x : Nat) : Nat := bits x 7 4
/-- FC_VHEAD_MAX [15:8]: Largest headroom in 0.5 mV units, 0 to 100 (0 mV to 50 mV) -/
def FcCfg.fcVheadMax (x : Nat) : Nat := bits x 15 8
/-- FC_RHEAD [23:16]: Headroom per ampere of weighted step, 0 µΩ to 255 µΩ -/
def FcCfg.fcRhead (x : Nat) : Nat := bits x 23 16
/-- FC_CATCH_MIN [31:24]: Lowest armed catch threshold in 0.5 mV units, 4 to 255 -/
def FcCfg.fcCatchMin (x : Nat) : Nat := bits x 31 24
/-- FC_WMAX [39:32]: Largest half-window, 4 to 255 beats -/
def FcCfg.fcWmax (x : Nat) : Nat := bits x 39 32
/-- FC_T0 [47:40]: Trust given to a client on its first forecast, 0 to 255 -/
def FcCfg.fcT0 (x : Nat) : Nat := bits x 47 40
/-- FC_TREP [55:48]: Trust below which the client is reported, 0 to 255 -/
def FcCfg.fcTrep (x : Nat) : Nat := bits x 55 48
/-- FC_TOFF [63:56]: Trust below which forecasts have no effect, 0 to 255 -/
def FcCfg.fcToff (x : Nat) : Nat := bits x 63 56
/-- FC_BUDGET [75:64]: Forecast beats per round for the rail, 0 to 4,000 -/
def FcCfg.fcBudget (x : Nat) : Nat := bits x 75 64

/-- FC_CFG as the Reset column of Table 5.1 has it. -/
def dFcCfg : Nat := fld 4 3 1 + fld 4 4 4 + fld 20 8 8 + fld 10 8 16 + fld 20 8 24 + fld 64 8 32 + fld 128 8 40 + fld 64 8 48 + fld 16 8 56 + fld 1000 12 64

/-! Table 6.7: TWIN_CFG. -/

/-- VREF_BAND [4:0]: VREF band in 0.5 mV units, 1 to 31 -/
def TwinCfg.vrefBand (x : Nat) : Nat := bits x 4 0
/-- VS_BAND [13:8]: Sensed-output band in 0.5 mV units, 2 to 63 -/
def TwinCfg.vsBand (x : Nat) : Nat := bits x 13 8
/-- U_BAND [20:16]: Duty band in 0.25 % of VIN_FF, 1 to 31 -/
def TwinCfg.uBand (x : Nat) : Nat := bits x 20 16
/-- I_BAND [27:24]: Rail current band in 0.25 A per ACTIVE phase, 1 to 15 -/
def TwinCfg.iBand (x : Nat) : Nat := bits x 27 24
/-- PI_BAND [37:32]: Phase current band in 0.5 A units, 1 to 63 -/
def TwinCfg.piBand (x : Nat) : Nat := bits x 37 32
/-- CATCH_BAND [43:40]: Catch band, 0 to 15 beats -/
def TwinCfg.catchBand (x : Nat) : Nat := bits x 43 40
/-- LANE_TOL [49:48]: LANE band P/2^(n+3): 0 P/8, 1 P/16, 2 P/32, 3 P/64 -/
def TwinCfg.laneTol (x : Nat) : Nat := bits x 49 48
/-- LANE_N [51:50]: Consecutive cycles for LANE, 2 or 3 -/
def TwinCfg.laneN (x : Nat) : Nat := bits x 51 50
/-- VOTE_TOL [61:56]: Voltage vote tolerance in 0.5 mV units, 1 to 63 -/
def TwinCfg.voteTol (x : Nat) : Nat := bits x 61 56
/-- VOTE_ITOL [69:64]: Current vote tolerance in 0.5 A units, 2 to 63 -/
def TwinCfg.voteItol (x : Nat) : Nat := bits x 69 64
/-- UNRES_N [79:72]: Unresolved votes per round before the alarm, 1 to 255 -/
def TwinCfg.unresN (x : Nat) : Nat := bits x 79 72

/-- TWIN_CFG as the Reset column of Table 6.7 has it. -/
def dTwinCfg : Nat := fld 4 5 0 + fld 12 6 8 + fld 8 5 16 + fld 6 4 24 + fld 6 6 32 + fld 4 4 40 + fld 1 2 48 + fld 2 2 50 + fld 6 6 56 + fld 8 6 64 + fld 8 8 72

/-! Table 7.3: SUP_CFG. -/

/-- WARN_LO [7:0]: Warn low offset in 0.5 mV units, 1 to 255 -/
def SupCfg.warnLo (x : Nat) : Nat := bits x 7 0
/-- WARN_HI [15:8]: Warn high offset in 0.5 mV units, 1 to 255 -/
def SupCfg.warnHi (x : Nat) : Nat := bits x 15 8
/-- FLT_LO [23:16]: Fault low offset, 2 mV to 255 mV -/
def SupCfg.fltLo (x : Nat) : Nat := bits x 23 16
/-- FLT_HI [31:24]: Fault high offset, 2 mV to 255 mV -/
def SupCfg.fltHi (x : Nat) : Nat := bits x 31 24
/-- WARN_N [37:32]: Warn persistence, 1 to 63 samples -/
def SupCfg.warnN (x : Nat) : Nat := bits x 37 32
/-- FLT_N [45:40]: Fault persistence, 1 to 63 samples -/
def SupCfg.fltN (x : Nat) : Nat := bits x 45 40
/-- WLATCH [48]: Warn latch mode: 0 PERIOD, 1 STICKY -/
def SupCfg.wlatch (x : Nat) : Bool := bit x 48
/-- FLATCH [49]: Fault latch mode: 0 PERIOD, 1 STICKY -/
def SupCfg.flatch (x : Nat) : Bool := bit x 49
/-- W_CAP [50]: 1: warn capture -/
def SupCfg.wCap (x : Nat) : Bool := bit x 50
/-- W_EVT [51]: 1: warn events -/
def SupCfg.wEvt (x : Nat) : Bool := bit x 51
/-- W_WAKE [52]: 1: warn wake -/
def SupCfg.wWake (x : Nat) : Bool := bit x 52
/-- F_CAP [53]: 1: fault capture -/
def SupCfg.fCap (x : Nat) : Bool := bit x 53
/-- F_WAKE [54]: 1: fault wake -/
def SupCfg.fWake (x : Nat) : Bool := bit x 54
/-- BLK_ADD [60:56]: Blank after ADD, 0 to 24 beats -/
def SupCfg.blkAdd (x : Nat) : Nat := bits x 60 56
/-- BLK_SHED [68:64]: Blank after SHED, 0 to 24 beats -/
def SupCfg.blkShed (x : Nat) : Nat := bits x 68 64
/-- BLK_STEP [76:72]: Blank after STEP, 0 to 24 beats -/
def SupCfg.blkStep (x : Nat) : Nat := bits x 76 72
/-- FBLK [83:80]: Fault blank limit per frame, 0 to 8 beats -/
def SupCfg.fblk (x : Nat) : Nat := bits x 83 80
/-- IWARN [93:88]: Current warn, 1 to 32 sixteenths of the stage rating -/
def SupCfg.iwarn (x : Nat) : Nat := bits x 93 88
/-- IFLT [101:96]: Current fault, 1 to 32 sixteenths of the stage rating -/
def SupCfg.iflt (x : Nat) : Nat := bits x 101 96
/-- I_EVT [104]: 1: current-warn events -/
def SupCfg.iEvt (x : Nat) : Bool := bit x 104

/-- SUP_CFG as the Reset column of Table 7.3 has it. -/
def dSupCfg : Nat := fld 40 8 0 + fld 40 8 8 + fld 60 8 16 + fld 60 8 24 + fld 4 6 32 + fld 4 6 40 + fld 1 1 49 + fld 1 1 50 + fld 1 1 51 + fld 1 1 53 + fld 8 5 56 + fld 4 5 64 + fld 8 5 72 + fld 20 6 88 + fld 24 6 96 + fld 1 1 104

/-! Table 7.6: PB_ORDER. -/

/-- TRIG [7:0]: Event code -/
def PbOrder.trig (x : Nat) : Nat := bits x 7 0
/-- SCOPE [10:8]: 0 phase, 1 rail, 2 region, 3 die, 4 device, 5 chain, 6 and 7 rsvd -/
def PbOrder.scope (x : Nat) : Nat := bits x 10 8
/-- ANY [11]: 1: any unit of the scope; UNIT is then 0 -/
def PbOrder.any (x : Nat) : Bool := bit x 11
/-- UNIT [17:12]: Phase 0 to 47, rail 0 to 11, region 0 to 5, die 0 to 2 (A, B, P), device 0 to 63 -/
def PbOrder.unit (x : Nat) : Nat := bits x 17 12
/-- PERSIST [31:24]: Consecutive evaluations in which the trigger holds, 1 to 255 -/
def PbOrder.persist (x : Nat) : Nat := bits x 31 24
/-- ACTION [35:32]: Action code of Table 7.7 -/
def PbOrder.action (x : Nat) : Nat := bits x 35 32
/-- PARAM1 [55:40]: First parameter of the action -/
def PbOrder.param1 (x : Nat) : Nat := bits x 55 40
/-- PARAM2 [71:56]: Second parameter of the action -/
def PbOrder.param2 (x : Nat) : Nat := bits x 71 56

/-- PB_ORDER as the Reset column of Table 7.6 has it. -/
def dPbOrder : Nat := fld 1 8 24

/-! Table 7.9: SEQ_PROG. -/

/-- START [6:0]: First step, 0 to 127 -/
def SeqProg.start (x : Nat) : Nat := bits x 6 0
/-- DEF [7]: 1: programme defined -/
def SeqProg.defd (x : Nat) : Bool := bit x 7
/-- GROUP [10:8]: Region 0 to 5; 7 whole device; 6 rsvd -/
def SeqProg.group (x : Nat) : Nat := bits x 10 8
/-- CHAIN [11]: 1: chain programme -/
def SeqProg.chain (x : Nat) : Bool := bit x 11
/-- AUTO [12]: 1: run at the sequence step of start-up -/
def SeqProg.auto (x : Nat) : Bool := bit x 12
/-- STALL_T [31:16]: Stall timeout, 1 to 65,535 frames -/
def SeqProg.stallT (x : Nat) : Nat := bits x 31 16

/-- SEQ_PROG as the Reset column of Table 7.9 has it. -/
def dSeqProg : Nat := fld 7 3 8 + fld 250 16 16

/-! Table 7.10: SEQ_STEP. -/

/-- OP [3:0]: Operation of Table 7.11 -/
def SeqStep.op (x : Nat) : Nat := bits x 3 0
/-- UNIT [7:4]: Rail 0 to 11, or PG output 0 to 7 -/
def SeqStep.unit (x : Nat) : Nat := bits x 7 4
/-- ARG [23:8]: Argument of Table 7.11 -/
def SeqStep.arg (x : Nat) : Nat := bits x 23 8

/-- SEQ_STEP as the Reset column of Table 7.10 has it. -/
def dSeqStep : Nat := 0

/-! Table 8.1: FEED_CFG. -/

/-- MODE [1:0]: 0 SHARE, 1 PRIO_A, 2 PRIO_B, 3 rsvd -/
def FeedCfg.mode (x : Nat) : Nat := bits x 1 0
/-- FEED_UV [15:8]: Undervoltage in 0.25 V units, 20 to 230 (5.0 V to 57.5 V) -/
def FeedCfg.feedUv (x : Nat) : Nat := bits x 15 8
/-- UV_HYS [23:16]: Presence hysteresis in 50 mV units, 1 to 255 -/
def FeedCfg.uvHys (x : Nat) : Nat := bits x 23 16
/-- FEED_OV [31:24]: Overvoltage in 0.25 V units, 24 to 240 (6.0 V to 60.0 V) -/
def FeedCfg.feedOv (x : Nat) : Nat := bits x 31 24
/-- RET_T [39:32]: Presence before return, 1 to 255 rounds -/
def FeedCfg.retT (x : Nat) : Nat := bits x 39 32
/-- SHUNT_A [47:40]: FEEDA shunt in 10 µΩ units, 1 to 255 -/
def FeedCfg.shuntA (x : Nat) : Nat := bits x 47 40
/-- SHUNT_B [55:48]: FEEDB shunt in 10 µΩ units, 1 to 255 -/
def FeedCfg.shuntB (x : Nat) : Nat := bits x 55 48
/-- IREV [63:56]: Reverse trip in 0.5 A units, 1 to 255 -/
def FeedCfg.irev (x : Nat) : Nat := bits x 63 56
/-- PIN_BUD [79:64]: Input-power budget, 1 W to 65,535 W; 0: no budget -/
def FeedCfg.pinBud (x : Nat) : Nat := bits x 79 64
/-- GROUP_A [83:80]: Chain feed group of FEEDA, 0 to 14; 15: none -/
def FeedCfg.groupA (x : Nat) : Nat := bits x 83 80
/-- GROUP_B [87:84]: Chain feed group of FEEDB, 0 to 14; 15: none -/
def FeedCfg.groupB (x : Nat) : Nat := bits x 87 84

/-- FEED_CFG as the Reset column of Table 8.1 has it. -/
def dFeedCfg : Nat := fld 22 8 8 + fld 10 8 16 + fld 240 8 24 + fld 100 8 32 + fld 10 8 40 + fld 10 8 48 + fld 4 8 56 + fld 15 4 80 + fld 15 4 84

/-! Table 8.2: CHAIN_FEED. -/

/-- ICHAIN [15:0]: Group input-current budget, 1 A to 65,535 A; 0: no budget -/
def ChainFeed.ichain (x : Nat) : Nat := bits x 15 0

/-- CHAIN_FEED as the Reset column of Table 8.2 has it. -/
def dChainFeed : Nat := 0

/-! Table 8.6: HK_CFG. -/

/-- EN [0]: 1: supply in use -/
def HkCfg.en (x : Nat) : Bool := bit x 0
/-- SLOT [7:4]: Start slot 1 to 15; 0: started by ticket only -/
def HkCfg.slot (x : Nat) : Nat := bits x 7 4
/-- HK_VOUT [17:8]: Output in 10 mV units, 60 to 500 -/
def HkCfg.hkVout (x : Nat) : Nat := bits x 17 8
/-- HK_ILIM [30:24]: Current limit in 50 mA units, 2 to 80 -/
def HkCfg.hkIlim (x : Nat) : Nat := bits x 30 24
/-- FSW [32]: Buck switching: 0 1.0 MHz, 1 2.0 MHz, each ±5 % -/
def HkCfg.fsw (x : Nat) : Bool := bit x 32
/-- SS [35:33]: Soft start 0.25 ms × 2ⁿ, n 0 to 5 -/
def HkCfg.ss (x : Nat) : Nat := bits x 35 33
/-- UV_PCT [47:40]: Undervoltage, 5 % to 30 % below HK_VOUT -/
def HkCfg.uvPct (x : Nat) : Nat := bits x 47 40
/-- OV_PCT [55:48]: Overvoltage, 5 % to 30 % above HK_VOUT -/
def HkCfg.ovPct (x : Nat) : Nat := bits x 55 48

/-- HK_CFG as the Reset column of Table 8.6 has it. -/
def dHkCfg : Nat := fld 100 10 8 + fld 10 7 24 + fld 2 3 33 + fld 10 8 40 + fld 10 8 48

/-! Table 9.3: PACK_CFG. -/

/-- CHEM [2:0]: 0 none, 1 Li-ion, 2 LiFePO4, 3 to 7 rsvd -/
def PackCfg.chem (x : Nat) : Nat := bits x 2 0
/-- CELLS [5:3]: Cells in series, 2 to 4, within Table 9.1 -/
def PackCfg.cells (x : Nat) : Nat := bits x 5 3
/-- VCV [15:8]: CV voltage per cell, 3.000 V + n × 10 mV, within Table 9.1; Epurra writes 60 for CHEM = 2 -/
def PackCfg.vcv (x : Nat) : Nat := bits x 15 8
/-- ICHG [22:16]: Fast-charge current in 50 mA units, 1 to 80 (4 A) -/
def PackCfg.ichg (x : Nat) : Nat := bits x 22 16
/-- IPRE [29:24]: Precharge current in 25 mA units, 1 to 40 -/
def PackCfg.ipre (x : Nat) : Nat := bits x 29 24
/-- TERM_DIV [37:32]: Termination divisor, 5 to 40 -/
def PackCfg.termDiv (x : Nat) : Nat := bits x 37 32
/-- VPRE [47:40]: Precharge threshold per cell, 2.000 V + n × 10 mV; Epurra writes 60 for CHEM = 2 -/
def PackCfg.vpre (x : Nat) : Nat := bits x 47 40
/-- RECHG [55:48]: Recharge drop per cell in 5 mV units, 10 to 40 -/
def PackCfg.rechg (x : Nat) : Nat := bits x 55 48
/-- PRE_T [63:56]: Precharge timer, 1 to 255 minutes -/
def PackCfg.preT (x : Nat) : Nat := bits x 63 56
/-- FAST_T [71:64]: Fast and CV timer in 5 min units, 1 to 255 -/
def PackCfg.fastT (x : Nat) : Nat := bits x 71 64
/-- RES_TH [79:72]: Reserve threshold in 0.25 V units, 24 to 240 (6 V to 60 V) -/
def PackCfg.resTh (x : Nat) : Nat := bits x 79 72
/-- T_COLD [87:80]: °C + 50, exact offset -/
def PackCfg.tCold (x : Nat) : Nat := bits x 87 80
/-- T_COOL [95:88]: °C + 50 -/
def PackCfg.tCool (x : Nat) : Nat := bits x 95 88
/-- T_WARM [103:96]: °C + 50 -/
def PackCfg.tWarm (x : Nat) : Nat := bits x 103 96
/-- T_HOT [111:104]: °C + 50 -/
def PackCfg.tHot (x : Nat) : Nat := bits x 111 104
/-- CAP_DES [127:112]: Design capacity in 10 mAh units, 1 to 65,535 -/
def PackCfg.capDes (x : Nat) : Nat := bits x 127 112
/-- V_END [135:128]: End of discharge per cell, 2.000 V + n × 10 mV; Epurra writes 50 for CHEM = 2 -/
def PackCfg.vEnd (x : Nat) : Nat := bits x 135 128
/-- RES_SOC [142:136]: Reserve floor, 0 % to 100 % -/
def PackCfg.resSoc (x : Nat) : Nat := bits x 142 136
/-- R_INIT [159:144]: Initial pack resistance in 0.1 mΩ units, 1 to 65,535 -/
def PackCfg.rInit (x : Nat) : Nat := bits x 159 144
/-- SHUNT_P [167:160]: Pack shunt in 0.1 mΩ units, 1 to 255 -/
def PackCfg.shuntP (x : Nat) : Nat := bits x 167 160

/-- PACK_CFG as the Reset column of Table 9.3 has it. -/
def dPackCfg : Nat := fld 3 3 3 + fld 120 8 8 + fld 20 7 16 + fld 8 6 24 + fld 10 6 32 + fld 100 8 40 + fld 20 8 48 + fld 30 8 56 + fld 60 8 64 + fld 40 8 72 + fld 50 8 80 + fld 60 8 88 + fld 95 8 96 + fld 105 8 104 + fld 100 8 128 + fld 20 7 136 + fld 50 8 160

/-! Table 10.3: THERM_CFG. -/

/-- CD_WARN [7:0]: Control-die warn, 125 °C -/
def ThermCfg.cdWarn (x : Nat) : Nat := bits x 7 0
/-- CD_CRIT [15:8]: Control-die critical, 140 °C -/
def ThermCfg.cdCrit (x : Nat) : Nat := bits x 15 8
/-- P_WARN [23:16]: Die P warn, 130 °C -/
def ThermCfg.pWarn (x : Nat) : Nat := bits x 23 16
/-- P_CRIT [31:24]: Die P critical, 145 °C -/
def ThermCfg.pCrit (x : Nat) : Nat := bits x 31 24
/-- PKG_LIM [39:32]: Package limit, 145 °C -/
def ThermCfg.pkgLim (x : Nat) : Nat := bits x 39 32
/-- STG_WARN [47:40]: Stage warn, 120 °C -/
def ThermCfg.stgWarn (x : Nat) : Nat := bits x 47 40
/-- STG_CRIT [55:48]: Stage critical, 140 °C -/
def ThermCfg.stgCrit (x : Nat) : Nat := bits x 55 48
/-- NTC0_WARN: NTC0 warn in [71:64], critical in [79:72]; 85 °C and 100 °C -/
def ThermCfg.ntc0Warn (x : Nat) : Nat := bits x 71 64
/-- NTC0_CRIT: NTC0 warn in [71:64], critical in [79:72]; 85 °C and 100 °C -/
def ThermCfg.ntc0Crit (x : Nat) : Nat := bits x 79 72
/-- NTC1_WARN: As NTC0, for NTC1 -/
def ThermCfg.ntc1Warn (x : Nat) : Nat := bits x 87 80
/-- NTC1_CRIT: As NTC0, for NTC1 -/
def ThermCfg.ntc1Crit (x : Nat) : Nat := bits x 95 88
/-- NTC2_WARN: As NTC0, for NTC2 -/
def ThermCfg.ntc2Warn (x : Nat) : Nat := bits x 103 96
/-- NTC2_CRIT: As NTC0, for NTC2 -/
def ThermCfg.ntc2Crit (x : Nat) : Nat := bits x 111 104
/-- NTC3_WARN: As NTC0, for NTC3 -/
def ThermCfg.ntc3Warn (x : Nat) : Nat := bits x 119 112
/-- NTC3_CRIT: As NTC0, for NTC3 -/
def ThermCfg.ntc3Crit (x : Nat) : Nat := bits x 127 120
/-- HYST [131:128]: Hysteresis, 1 °C to 15 °C -/
def ThermCfg.hyst (x : Nat) : Nat := bits x 131 128
/-- NTC_EN [135:132]: Bit n: NTCn enabled -/
def ThermCfg.ntcEn (x : Nat) : Nat := bits x 135 132
/-- WARN_GAP [143:136]: Warn event gap in 10-round units, 1 to 255 (10 ms to 2.55 s) -/
def ThermCfg.warnGap (x : Nat) : Nat := bits x 143 136
/-- BOARD_NTC [145:144]: NTC used as board reference for R287 when BOARD_DIE = 0, 0 to 3 -/
def ThermCfg.boardNtc (x : Nat) : Nat := bits x 145 144
/-- BOARD_DIE [146]: 1: the mean of Die P's unmarked sensors is the board reference, and BOARD_NTC is not used -/
def ThermCfg.boardDie (x : Nat) : Bool := bit x 146
/-- RON_LIM [159:152]: Ratio s/s0 for AGE_RON, in 1/100, 101 to 255 -/
def ThermCfg.ronLim (x : Nat) : Nat := bits x 159 152
/-- REV_GAP [167:160]: Least time between automatic revisions, 1 h to 255 h -/
def ThermCfg.revGap (x : Nat) : Nat := bits x 167 160

/-- THERM_CFG as the Reset column of Table 10.3 has it. -/
def dThermCfg : Nat := fld 175 8 0 + fld 190 8 8 + fld 180 8 16 + fld 195 8 24 + fld 195 8 32 + fld 170 8 40 + fld 190 8 48 + fld 135 8 64 + fld 150 8 72 + fld 135 8 80 + fld 150 8 88 + fld 135 8 96 + fld 150 8 104 + fld 135 8 112 + fld 150 8 120 + fld 3 4 128 + fld 10 8 136 + fld 1 2 144 + fld 1 1 146 + fld 130 8 152 + fld 24 8 160

/-! Table 10.10: MP_CFG. -/

/-- MP_EN [0]: 1: proposals made for the rail and its home phases -/
def MpCfg.mpEn (x : Nat) : Bool := bit x 0
/-- AUTO [1]: 1: proposals inside the envelope are applied automatically -/
def MpCfg.auto (x : Nat) : Bool := bit x 1
/-- CHIRP_EN [2]: 1: chirps allowed -/
def MpCfg.chirpEn (x : Nat) : Bool := bit x 2
/-- W_MIN [15:8]: Smallest warn offset in 0.5 mV units, 1 to 255 -/
def MpCfg.wMin (x : Nat) : Nat := bits x 15 8
/-- W_MAX [23:16]: Largest warn offset in 0.5 mV units, 1 to 255 -/
def MpCfg.wMax (x : Nat) : Nat := bits x 23 16
/-- W_MARGIN [31:24]: Margin over the observed peak, in 0.5 mV units, 0 to 255 -/
def MpCfg.wMargin (x : Nat) : Nat := bits x 31 24
/-- WDER_MAX [34:32]: Largest derating per phase, 0 to 7 eighths of weight -/
def MpCfg.wderMax (x : Nat) : Nat := bits x 34 32
/-- C_NOM [55:40]: Nominal output capacitance in 10 µF units, 1 to 65,535 -/
def MpCfg.cNom (x : Nat) : Nat := bits x 55 40
/-- CHIRP_T [63:56]: Least time between chirps, 1 h to 255 h -/
def MpCfg.chirpT (x : Nat) : Nat := bits x 63 56
/-- CS1 [79:64]: Range of MP_COMP1: low % of C_NOM in [71:64], high % in [79:72]; 0 when absent -/
def MpCfg.cs1 (x : Nat) : Nat := bits x 79 64
/-- CS2 [95:80]: As CS1, for MP_COMP2 -/
def MpCfg.cs2 (x : Nat) : Nat := bits x 95 80
/-- CS3 [111:96]: As CS1, for MP_COMP3 -/
def MpCfg.cs3 (x : Nat) : Nat := bits x 111 96

/-- MP_CFG as the Reset column of Table 10.10 has it. -/
def dMpCfg : Nat := fld 20 8 8 + fld 60 8 16 + fld 8 8 24 + fld 2 3 32 + fld 24 8 56

/-! Table 11.2: METER_AIN. -/

/-- SCALE [15:0]: Board volts per ball volt, in 1/256 units, 256 to 65,535 -/
def MeterAin.scale (x : Nat) : Nat := bits x 15 0

/-- METER_AIN as the Reset column of Table 11.2 has it. -/
def dMeterAin : Nat := fld 256 16 0

/-! Table 11.3: METER_TMR. -/

/-- PER [15:0]: Period, 1 to 65,535 beats; 0: timer off -/
def MeterTmr.per (x : Nat) : Nat := bits x 15 0
/-- OFS [31:16]: Offset, 0 to 65,535 beats -/
def MeterTmr.ofs (x : Nat) : Nat := bits x 31 16

/-- METER_TMR as the Reset column of Table 11.3 has it. -/
def dMeterTmr : Nat := 0

/-! Table 11.4: METER_SEQ. -/

/-- DEF [0]: 1: sequence defined -/
def MeterSeqCfg.defd (x : Nat) : Bool := bit x 0
/-- AUTO [1]: 1: started when the image loads -/
def MeterSeqCfg.auto (x : Nat) : Bool := bit x 1
/-- CLASS [3:2]: 0 SINGLE, 1 SAFETY, 2 MEAS, 3 rsvd -/
def MeterSeqCfg.cls (x : Nat) : Nat := bits x 3 2
/-- CONV [6:4]: Converters: bit 4 CVA, bit 5 CVB, bit 6 CVP -/
def MeterSeqCfg.conv (x : Nat) : Nat := bits x 6 4
/-- URG [7]: 1: urgent pass -/
def MeterSeqCfg.urg (x : Nat) : Bool := bit x 7
/-- NENT [11:8]: Entries minus 1, 0 to 15 -/
def MeterSeqCfg.nent (x : Nat) : Nat := bits x 11 8
/-- TSRC [15:12]: 0 to 7 MT0 to MT7; 8 PWM; 9 FRAME; 10 to 15 rsvd -/
def MeterSeqCfg.tsrc (x : Nat) : Nat := bits x 15 12
/-- PHASE [21:16]: Phase 0 to 47, for PWM -/
def MeterSeqCfg.phase (x : Nat) : Nat := bits x 21 16
/-- EDGE [22]: 0 rising, 1 falling -/
def MeterSeqCfg.edge (x : Nat) : Bool := bit x 22
/-- DEC [31:24]: Edge decimation, n + 1, giving 1 to 256 -/
def MeterSeqCfg.dec (x : Nat) : Nat := bits x 31 24
/-- DELAY [47:32]: 0 to 65,535 CTL cycles -/
def MeterSeqCfg.delay (x : Nat) : Nat := bits x 47 32
/-- TOL [55:48]: Plausibility tolerance, 1 to 255 codes -/
def MeterSeqCfg.tol (x : Nat) : Nat := bits x 55 48
/-- PL_N [58:56]: Plausibility persistence, 1 to 7 passes -/
def MeterSeqCfg.plN (x : Nat) : Nat := bits x 58 56

/-- METER_SEQ as the Reset column of Table 11.4 has it. -/
def dMeterSeqCfgHead : Nat := fld 16 8 48 + fld 3 3 56

/-! Table 11.5: METER_ENT. -/

/-- CH [6:0]: Channel on S/H0 -/
def MeterEnt.ch (x : Nat) : Nat := bits x 6 0
/-- CH2 [14:8]: Channel on S/H1, MEAS only; 0x7F: none -/
def MeterEnt.ch2 (x : Nat) : Nat := bits x 14 8
/-- ST [23:16]: Sampling time (n + 1) × 4 ADC cycles, giving 4 to 1,024 -/
def MeterEnt.st (x : Nat) : Nat := bits x 23 16
/-- GAIN [25:24]: 0 ×1, 1 ×2, 2 ×4, 3 ×8 -/
def MeterEnt.gain (x : Nat) : Nat := bits x 25 24

/-- METER_ENT as the Reset column of Table 11.5 has it. -/
def dMeterEnt : Nat := fld 127 7 8 + fld 3 8 16

/-! Table 14.3: OWN_CFG. -/

/-- DEAD_T [9:0]: Dead timeout, 2 ms to 1,000 ms, in rounds -/
def OwnCfg.deadT (x : Nat) : Nat := bits x 9 0
/-- PORT_EN [19:16]: Bit n: port n may claim -/
def OwnCfg.portEn (x : Nat) : Nat := bits x 19 16

/-- OWN_CFG as the Reset column of Table 14.3 has it. -/
def dOwnCfg : Nat := fld 20 10 0 + fld 15 4 16

/-! Table 15.3: RING_CFG. -/

/-- E_TX0 [7:0]: East transmit, slot G0 -/
def RingCfg.eTx0 (x : Nat) : Nat := bits x 7 0
/-- E_TX1 [15:8]: East transmit, slot G1 -/
def RingCfg.eTx1 (x : Nat) : Nat := bits x 15 8
/-- E_TX2 [23:16]: East transmit, slot G2 -/
def RingCfg.eTx2 (x : Nat) : Nat := bits x 23 16
/-- W_TX0: West transmit, G0 to G2, 8 bits each -/
def RingCfg.wTx0 (x : Nat) : Nat := bits x 31 24
/-- W_TX1: West transmit, G0 to G2, 8 bits each -/
def RingCfg.wTx1 (x : Nat) : Nat := bits x 39 32
/-- W_TX2: West transmit, G0 to G2, 8 bits each -/
def RingCfg.wTx2 (x : Nat) : Nat := bits x 47 40
/-- E_RX0: East receive, G0 to G2 -/
def RingCfg.eRx0 (x : Nat) : Nat := bits x 55 48
/-- E_RX1: East receive, G0 to G2 -/
def RingCfg.eRx1 (x : Nat) : Nat := bits x 63 56
/-- E_RX2: East receive, G0 to G2 -/
def RingCfg.eRx2 (x : Nat) : Nat := bits x 71 64
/-- W_RX0: West receive, G0 to G2 -/
def RingCfg.wRx0 (x : Nat) : Nat := bits x 79 72
/-- W_RX1: West receive, G0 to G2 -/
def RingCfg.wRx1 (x : Nat) : Nat := bits x 87 80
/-- W_RX2: West receive, G0 to G2 -/
def RingCfg.wRx2 (x : Nat) : Nat := bits x 95 88

/-- RING_CFG as the Reset column of Table 15.3 has it. -/
def dRingCfg : Nat := 0

/-! Table 17.1: RTC_CFG. -/

/-- OFS [7:0]: Crystal offset, signed, in 0.5 ppm units, ±63.5 ppm -/
def RtcCfg.ofs (x : Nat) : Nat := bits x 7 0
/-- K [15:8]: Parabolic coefficient, in −0.0005 ppm/°C² units, giving 0 to −0.1275 ppm/°C²; 68 is −0.034 ppm/°C² -/
def RtcCfg.k (x : Nat) : Nat := bits x 15 8
/-- T0 [23:16]: Turnover temperature, °C + 50, exact offset; 75 is 25 °C -/
def RtcCfg.t0 (x : Nat) : Nat := bits x 23 16

/-- RTC_CFG as the Reset column of Table 17.1 has it. -/
def dRtcCfg : Nat := fld 68 8 8 + fld 75 8 16

/-! Table 19.4: START_CFG. -/

/-- OWN_WAIT [15:0]: Owner wait in rounds, 0 to 65,534; 0xFFFF: without limit -/
def StartCfg.ownWait (x : Nat) : Nat := bits x 15 0
/-- ONE_DIE [16]: 1: start on one control die under R469 -/
def StartCfg.oneDie (x : Nat) : Bool := bit x 16

/-- START_CFG as the Reset column of Table 19.4 has it. -/
def dStartCfg : Nat := fld 1000 16 0

/-- METER_ENT number `e` of a METER_SEQ record: the entries follow the 16-byte header (R298). -/
def MeterSeqCfg.ent (x e : Nat) : Nat := bits x (32 * e + 159) (32 * e + 128)

/-- METER_SEQ with its 16 entries as the Reset columns have them. -/
def dMeterSeq : Nat :=
  dMeterSeqCfgHead + ((List.range 16).map fun e => fld dMeterEnt 32 (32 * e + 128)).sum

/-- Point `k` of GAUGE_OCV (R267): 21 words of 16 bits, SOC 0 % to 100 % in steps of 5 %. -/
def GaugeOcv.point (x k : Nat) : Nat := bits x (16 * k + 15) (16 * k)

/-- Entry `g` of CHAIN_FEED (R239), 4 bytes to a group. -/
def ChainFeed.entry (x g : Nat) : Nat := bits x (32 * g + 31) (32 * g)

end Sys2Proof.Machine
end

