-- ==== Sys2Proof/Machine/State.lean ====
section
/-! DEFINITION. The state of the block, as plain data: every register, queue, counter, mode and pin the spec gives the
device, what it must remember between commands for an effect that a rule spreads over several of them, and the queue of
the commands that wait. Each field's docstring names its rule; INVENTORY.md has its reset value and where it is from. -/

namespace Sys2Proof.Machine

/-- An addressed buffer: (address, byte), strictly rising addresses, no byte equal to what an unlisted one reads. -/
abbrev Mem := List Host.Cell

/-- Rail states (RAIL_STAT.STATE, R114). -/
inductive RailState | off | rampUp | regulate | rampDown | hiccup
deriving DecidableEq, Repr

/-- Phase states (Table 2.4). -/
inductive PhState | off | idle | active | benched | test
deriving DecidableEq, Repr

/-- The three levels of a PWM ball (R44). -/
inductive Ball | low | mid | high
deriving DecidableEq, Repr

/-- The role of this device in a gang, `none` for a rail that is no member or has detached (R131, R138). -/
inductive GangRole | none | leader | deputy | follower | detached
deriving DecidableEq, Repr

/-- States of a sequencing programme (Table 7.12). -/
inductive SeqState | idle | running | holding | done | aborted
deriving DecidableEq, Repr

/-- States of a feed (Table 8.3). -/
inductive FeedState | absent | standby | conducting | blocked
deriving DecidableEq, Repr

/-- Charger states (Table 9.2). -/
inductive ChgState | off | precharge | fast | cv | done | waitVin | removed | stopped
deriving DecidableEq, Repr

/-- States of the pack switch (GAUGE_STAT.PSW, R271). -/
inductive PswState | armed | closed | open_
deriving DecidableEq, Repr

/-- States of a ring port (RING_STAT.LINK_E, R395). -/
inductive LinkState | down | training | up | wrapped
deriving DecidableEq, Repr

/-- Die states (Table 6.4). -/
inductive DieState | active | standby | benched | selftest | resync
deriving DecidableEq, Repr

/-- The period that owns a piece of work (R27, R30). -/
inductive Period | beat | frame | round
deriving DecidableEq, Repr

/-- An exact fraction num/den, for quantities whose resolution the spec leaves open (R82, R99). -/
structure Q where
  /-- Numerator (R82). -/
  num : Int := 0
  /-- Denominator, never 0 (R82). -/
  den : Nat := 1
deriving DecidableEq, Repr

/-- What a final stub needs of the ticket that asked for it (R341). -/
structure TkRef where
  /-- Client (R341, 12 bits). -/
  client : Nat := 0
  /-- Generation of the ticket (R341, 8 bits). -/
  gen : Nat := 0
  /-- Sequence number of the ticket (R341, 16 bits). -/
  seq : Nat := 0
deriving DecidableEq, Repr

/-- A stub waiting for its slot (Table 13.2). -/
structure Stub where
  /-- SEQ, CLIENT and GEN (R341). -/
  ref : TkRef := {}
  /-- STATUS of Table 13.3 (R342, 8 bits). -/
  status : Nat := 0
  /-- EXTRA (R342, 16 bits). -/
  extra : Nat := 0
  /-- VALUE (R341, 64 bits). -/
  value : Nat := 0
  /-- Beat from which the stub is held (R320, 64 bits). -/
  since : Nat := 0
  /-- STUB_STALL posted for the stub (R320, 1 bits). -/
  stalled : Bool := false
deriving DecidableEq, Repr

/-- An event as generated (Table 13.4), before PHASE and ESEQ are set. -/
structure Event where
  /-- CODE (R343, 8 bits). -/
  code : Nat := 0
  /-- CLOSE (R343, 1 bits). -/
  close : Bool := false
  /-- SUMMARY (R343, 1 bits). -/
  summary : Bool := false
  /-- OBS (R343, 1 bits). -/
  obs : Bool := false
  /-- SCOPE (R343, 3 bits). -/
  scope : Nat := 0
  /-- UNIT (R343, 16 bits). -/
  unit : Nat := 0
  /-- COUNT (R343, 16 bits). -/
  count : Nat := 1
  /-- BEAT (R343, 64 bits). -/
  beat : Nat := 0
  /-- ARG0 (R343, 32 bits). -/
  arg0 : Nat := 0
  /-- ARG1 (R343, 32 bits). -/
  arg1 : Nat := 0
  /-- ARG2 (R343, 32 bits). -/
  arg2 : Nat := 0
  /-- ESEQ, none for NOSEQ (R399, 16 bits). -/
  eseq : Option Nat := none
  /-- DEV, none for this device (R343, 6 bits). -/
  dev : Option Nat := none
deriving DecidableEq, Repr

/-- The Die P timebase, the chain clock and the sources of each control die's clocks. -/
structure TimeSt where
  /-- The count of the current beat: the chain clock while counting, the local beats of R462 before (R10, 64 bits). -/
  clk : Nat := 0
  /-- The device counts the chain clock (R384, 1 bits). -/
  counting : Bool := false
  /-- The root sets the chain clock to 0 at its next beat boundary (R384, 1 bits). -/
  startPend : Bool := false
  /-- The chain count the latest TIME packet named, waiting for CLOCK_ADOPT (R385, 64 bits). -/
  timeSeen : Option Nat := none
  /-- CHAIN_CLK_HI shadow of BAR0, SPI_A and SPI_B (R32, 32 each). -/
  hiShadow : Vector Nat 3 := Vector.replicate 3 0
  /-- The die's PLL runs from its local oscillator (R22, 1 each). -/
  pllLocal : Vector Bool 2 := Vector.replicate 2 false
  /-- The die generates beats from its own PLL (R26, 1 each). -/
  strobeOwn : Vector Bool 2 := Vector.replicate 2 false
  /-- The cycle grid runs from the device's own timebase (R141, 1 bits). -/
  gridOwn : Bool := false
  /-- The device has no reference and runs free (R386, 1 bits). -/
  clockStopped : Bool := false
deriving DecidableEq, Repr

/-- Overrun counts and flags, and the work an overrun holds (R39, R43). -/
structure OvrSt where
  /-- OVR_BEAT (R43, 16 bits). -/
  beat : Nat := 0
  /-- OVR_FRAME (R43, 16 bits). -/
  frame : Nat := 0
  /-- OVR_ROUND (R43, 16 bits). -/
  round : Nat := 0
  /-- BEAT_FLAG (R43, 1 bits). -/
  beatFlag : Bool := false
  /-- FRAME_FLAG (R43, 1 bits). -/
  frameFlag : Bool := false
  /-- ROUND_FLAG (R43, 1 bits). -/
  roundFlag : Bool := false
  /-- A beat overrun touched the rail in this frame (R39, 1 each). -/
  heldRails : Vector Bool 12 := Vector.replicate 12 false
  /-- Consecutive frames the die's frame engine overran (R172, 2 each). -/
  stall : Vector Nat 2 := Vector.replicate 2 0
  /-- The last frame overran, so the commands of the frame before it stay in force (R39, 1 bits). -/
  frameHeld : Bool := false
deriving DecidableEq, Repr

/-- What a control die accumulates of a rail over the beats of a half-record (Table 6.1). -/
structure HalfRec where
  /-- Sum of VREF in 0.125 mV (R170). -/
  vref : Int := 0
  /-- Sum of the sensed output in 0.125 mV (R170). -/
  vs : Int := 0
  /-- Sum of u in 1 uV (R170). -/
  u : Int := 0
  /-- Sum of IOUT_F in 0.1 A (R170). -/
  iout : Q := {}
  /-- Beats with a catch active (R170, 5 bits). -/
  catchBeats : Nat := 0
  /-- Beats accumulated (R170, 5 bits). -/
  n : Nat := 0
  /-- Rail state at the close (R170, 3 bits). -/
  st : RailState := .off
  /-- NACT at the close (R170, 5 bits). -/
  nact : Nat := 0
  /-- U was refused in this half-record (R168, 1 bits). -/
  shadowRefused : Bool := false
deriving DecidableEq, Repr

/-- The catch path of one rail on one die (R102 to R105). -/
structure CatchSt where
  /-- True for catch-OV (R104, 1 bits). -/
  ov : Bool := false
  /-- The triggering threshold in 0.5 mV (R105, 8 bits). -/
  thr : Nat := 0
  /-- The triggering beat (R105, 64 bits). -/
  start : Nat := 0
  /-- First window sample of the present beat (R105, 9 bits). -/
  w1 : Int := 0
  /-- Second window sample of the present beat (R105, 9 bits). -/
  w2 : Int := 0
deriving DecidableEq, Repr

/-- A window comparator of one die (R194). -/
structure Cmp where
  /-- Consecutive samples beyond the threshold (R194, 16 bits). -/
  n : Nat := 0
  /-- Largest deviation of the run in 0.125 mV (R202). -/
  ext : Int := 0
  /-- The largest deviation came from a tracking sample (R202, 1 bits). -/
  trk : Bool := false
deriving DecidableEq, Repr

/-- What each control die holds of a rail (R166). -/
structure RailDie where
  /-- Latest window sample at cycle 12 (R88, 9 bits). -/
  w1 : Int := 0
  /-- Latest window sample at cycle 37 (R88, 9 bits). -/
  w2 : Int := 0
  /-- Window sample of cycle 12 as captured (R28, 9 bits). -/
  cw1 : Int := 0
  /-- Window sample of cycle 37 as captured (R28, 9 bits). -/
  cw2 : Int := 0
  /-- Latest remote tracking sample in mV (R89, 12 bits). -/
  vRemote : Nat := 0
  /-- Latest VLOC tracking sample in mV (R89, 12 bits). -/
  vLoc : Nat := 0
  /-- Local estimate of the remote voltage in 0.125 mV, as last refreshed (R92). -/
  vest : Q := {}
  /-- Error e[n] in 0.125 mV (R90). -/
  e0 : Int := 0
  /-- E[n-1] (R96). -/
  e1 : Int := 0
  /-- E[n-2] (R96). -/
  e2 : Int := 0
  /-- E[n-3] (R96). -/
  e3 : Int := 0
  /-- U[n] in 1 uV (R96, 24 bits). -/
  u0 : Int := 0
  /-- U[n-1] (R96, 24 bits). -/
  u1 : Int := 0
  /-- U[n-2] (R96, 24 bits). -/
  u2 : Int := 0
  /-- U[n-3] (R96, 24 bits). -/
  u3 : Int := 0
  /-- IOUT in 0.1 A, exact (R82). -/
  iout : Q := {}
  /-- IOUT of the last 9 beats, newest first (R159). -/
  iHist : List Q := []
  /-- IOUT_F in 0.1 A, exact (R82, 16 bits). -/
  ioutF : Q := {}
  /-- Sum of IOUT over the beats of the round (R94). -/
  ioutRound : Q := {}
  /-- Sum over the round's remote comparisons of VLOC less remote, in mV (R94). -/
  dropRound : Int := 0
  /-- Remote comparisons of the round (R94). -/
  dropN : Nat := 0
  /-- Beats of the round summed in ioutRound (R94). -/
  iN : Nat := 0
  /-- Per-round means (current in 0.1 A, drop in mV) of the last 256 rounds, newest first (R94). -/
  fit : List (Q × Q) := []
  /-- Learned D0 in 0.1 mV (R94). -/
  d0 : Q := {}
  /-- Learned G in uOhm (R94). -/
  g : Q := {}
  /-- A round of learning has completed (R94, 1 bits). -/
  hasFit : Bool := false
  /-- VREF in 0.125 mV (R81, 12 bits). -/
  vref : Int := 0
  /-- Consecutive out-of-band remote comparisons (R93, 3 bits). -/
  snsRun : Nat := 0
  /-- The last remote comparison lay outside SNS_DEV (R94, 1 bits). -/
  snsOut : Bool := false
  /-- Consecutive comparisons inside SNS_DEV (R94, 3 bits). -/
  snsIn : Nat := 0
  /-- Every remote comparison of this frame lay inside SNS_DEV (R95, 1 bits). -/
  snsIdle : Bool := true
  /-- A remote comparison was made in this frame (R95, 1 bits). -/
  snsCmp : Bool := false
  /-- A running catch (R102). -/
  ctch : Option CatchSt := none
  /-- The beat at which the catch path re-arms; none while it is armed (R105, 64 bits). -/
  rearm : Option Nat := none
  /-- A catch was active in this frame (R114, 1 bits). -/
  catchSeen : Bool := false
  /-- A window sample saturated in this frame (R90, 1 bits). -/
  wsat : Bool := false
  /-- Warn low comparator (R194). -/
  wl : Cmp := {}
  /-- Warn high comparator (R194). -/
  wh : Cmp := {}
  /-- Fault low comparator (R194). -/
  fl : Cmp := {}
  /-- Fault high comparator (R194). -/
  fh : Cmp := {}
  /-- Comparators WL, WH, FL, FH that qualified in this frame, from bit 0 (R197, 4 bits). -/
  seen : Nat := 0
  /-- Sensed output of the last 8 beats in 0.125 mV, newest first (R176). -/
  vs8 : List Int := []
  /-- The half-record being accumulated (R170). -/
  half : HalfRec := {}
  /-- The first half-record of the frame, closed (R170). -/
  h1 : HalfRec := {}
  /-- The compensator overran in the last beat (R39, 1 bits). -/
  late : Bool := false
  /-- Rail state as the die computes it (R166, 3 bits). -/
  st : RailState := .off
  /-- VSET_SLEW in 0.25 mV (R80). -/
  slew : Int := 0
  /-- Phase demand of the last frame evaluation (R106, 7 bits). -/
  ndem : Nat := 0
  /-- Phase demand of R106 alone (R153, 7 bits). -/
  nR106 : Nat := 0
  /-- Light load (R107, 1 bits). -/
  light : Bool := false
  /-- Consecutive frame evaluations below LLM_ENTER (R107, 3 bits). -/
  lightRun : Nat := 0
  /-- The rail leaves light load at the next beat boundary (R107, 1 bits). -/
  lightExit : Bool := false
  /-- Phases that a catch-UV of the die adds at the next beat boundary (R103, 4 bits). -/
  catchAdd : Nat := 0
  /-- Window reference: VREF, with D(IOUT_F) added after a fallback, in 0.125 mV (R94, 12 bits). -/
  wref : Int := 0
deriving DecidableEq, Repr

/-- SUP_CAP (Table 7.2). -/
structure CapRec where
  /-- BEAT (R202, 32 bits). -/
  beat : Nat := 0
  /-- HALF (R202, 1 bits). -/
  half : Bool := false
  /-- SIDE (R202, 1 bits). -/
  high : Bool := false
  /-- VALID (R202, 1 bits). -/
  valid : Bool := false
  /-- TRK (R202, 1 bits). -/
  trk : Bool := false
  /-- EXTREME in 0.5 mV (R202, 16 bits). -/
  extreme : Int := 0
  /-- LEN (R202, 16 bits). -/
  len : Nat := 0
  /-- The excursion that filled it lasts (R202, 1 bits). -/
  live : Bool := false
deriving DecidableEq, Repr

/-- An active discharge (R212). -/
structure Disch where
  /-- Off threshold in mV (R212, 12 bits). -/
  thr : Nat := 0
  /-- Longest discharge in frames (R212, 16 bits). -/
  frames : Nat := 0
  /-- The beat at which it acts on the OFF rail (R212, 64 bits). -/
  start : Option Nat := none
  /-- Consecutive samples below the threshold (R212, 2 bits). -/
  run : Nat := 0
deriving DecidableEq, Repr

/-- A rail readmit ramp (R213). -/
structure Ramp where
  /-- The READMIT ticket (R213). -/
  ref : TkRef := {}
  /-- The beat that ends the time allowed (R213, 64 bits). -/
  limit : Nat := 0
  /-- Consecutive frames in REGULATE with no warn window left (R213, 5 bits). -/
  good : Nat := 0
deriving DecidableEq, Repr

/-- The watch of R95 that CLEAR_LATCH starts. -/
structure Watch where
  /-- The CLEAR_LATCH ticket (R95). -/
  ref : TkRef := {}
  /-- Frames watched (R95, 7 bits). -/
  frames : Nat := 0
  /-- Frame boundary at which the watch began (R95, 64 bits). -/
  since : Nat := 0
  /-- Consecutive frames inside SNS_DEV (R95, 5 bits). -/
  good : Nat := 0
deriving DecidableEq, Repr

/-- A rail (Rail Regulation; Supervision). -/
structure RailSt where
  /-- RAIL_STAT.STATE (R114, 3 bits). -/
  st : RailState := .off
  /-- VREQ in mV, once accepted (R76, 12 bits). -/
  vreq : Nat := 0
  /-- A request has been accepted (R76, 1 bits). -/
  vreqAcc : Bool := false
  /-- The last SET_TARGET value in mV (R87, 12 bits). -/
  lastSet : Option Nat := none
  /-- VLO as narrowed by SET_ENVELOPE (R77, 12 bits). -/
  envLo : Option Nat := none
  /-- VHI as narrowed by SET_ENVELOPE (R77, 12 bits). -/
  envHi : Option Nat := none
  /-- (client, mV) of every floor held (R78, 32 entries). -/
  floors : List (Nat × Nat) := []
  /-- VSET in mV (R114, 12 bits). -/
  vset : Nat := 0
  /-- VHEAD in 0.125 mV (R81). -/
  vhead : Int := 0
  /-- Clients whose headroom is in force or still falling (R157, 12 each). -/
  headCli : List Nat := []
  /-- AVSBus up rate in mV/us, 0 for none (R80, 8 bits). -/
  avsUp : Nat := 0
  /-- AVSBus down rate in mV/us, 0 for none (R80, 8 bits). -/
  avsDn : Nat := 0
  /-- AVSBus status alert bits (R85, 16 bits). -/
  alert : Nat := 0
  /-- CLAMPED (R114, 1 bits). -/
  clamped : Bool := false
  /-- SNS_LOCAL: regulating from VLOC (R114, 1 bits). -/
  snsLocal : Bool := false
  /-- SNS_FAULT latched (R114, 1 bits). -/
  snsFault : Bool := false
  /-- Sense disagreement mark (R94, 1 bits). -/
  snsDis : Bool := false
  /-- Only the standby die's comparisons have raised the sense fault so far (R94, 1 bits). -/
  snsLone : Bool := false
  /-- A sense fault of the active die waits for the next beat boundary (R94, 1 bits). -/
  snsPend : Bool := false
  /-- The control die that biases the remote sense pair (R91, 2 bits). -/
  bias : Option Cd := none
  /-- The running sense watch (R95). -/
  watch : Option Watch := none
  /-- Consecutive VLOC samples below 100 mV in REGULATE (R242, 2 bits). -/
  locRun : Nat := 0
  /-- LOC_FAULT stands (R242, 1 bits). -/
  locFault : Bool := false
  /-- A CLEAR_LATCH asked for LOC_FAULT to clear (R242, 1 bits). -/
  locClr : Bool := false
  /-- CATCH of RAIL_STAT (R114, 1 bits). -/
  catchLast : Bool := false
  /-- WSAT of RAIL_STAT (R114, 1 bits). -/
  wsatLast : Bool := false
  /-- VIN_FF in uV (R99). -/
  vinFF : Q := {}
  /-- Round in which RAIL_FF was last reported (R99). -/
  ffRound : Option Nat := none
  /-- Phases in slot order (R127). -/
  slots : List Nat := []
  /-- The interleave is respaced at the next frame boundary (R105, 1 bits). -/
  respace : Bool := false
  /-- LATCH: WL, WH, FL, FH, IW, IF from bit 0 (R205, 6 bits). -/
  latch : Nat := 0
  /-- LEFT, same order (R205, 6 bits). -/
  left : Nat := 0
  /-- Frames of the run in which each window is left (R197, 16 each). -/
  runLen : Vector Nat 6 := Vector.replicate 6 0
  /-- BLANK of SUP_STAT (R205, 1 bits). -/
  blankLast : Bool := false
  /-- The beat that ends the running blank (R199, 64 bits). -/
  blankEnd : Nat := 0
  /-- Beats blanked for the warn comparators in this frame (R200, 5 bits). -/
  blanked : Nat := 0
  /-- Beats blanked for the fault comparators in this frame (R200, 4 bits). -/
  fBlanked : Nat := 0
  /-- This beat is blanked for the warn comparators (R199, 1 bits). -/
  blankW : Bool := false
  /-- This beat is blanked for the fault comparators (R199, 1 bits). -/
  blankF : Bool := false
  /-- CHAT (R205, 8 bits). -/
  chat : Nat := 0
  /-- SUP_CAP of the warn window (R202, 128 bits). -/
  capW : CapRec := {}
  /-- SUP_CAP of the fault window (R202, 128 bits). -/
  capF : CapRec := {}
  /-- Commanded on (R167, 1 bits). -/
  cmdOn : Bool := false
  /-- Benched, with the action code that benched it (0 for an owner BENCH) (R213, 4 bits). -/
  benched : Option Nat := none
  /-- The running readmit ramp (R213). -/
  ramp : Option Ramp := none
  /-- The beat that ends the hiccup off time (R211, 64 bits). -/
  hiccupEnd : Option Nat := none
  /-- The beat from which the rail has stayed in REGULATE (R211, 64 bits). -/
  regFrom : Nat := 0
  /-- Boundary at which the running ramp began; VSET_SLEW moves from the next one on (R109, 64 bits). -/
  rampFrom : Nat := 0
  /-- Tracking samples below the threshold in a row, for RAIL_OFF steps (R220, 64 bits). -/
  offAt : Nat := 0
  /-- Off threshold of the holding RAIL_OFF step (R220, 12 bits). -/
  offThr : Nat := 0
  /-- An ordered discharge (R212). -/
  disch : Option Disch := none
  /-- The rail is unscored in this frame (R41, 1 bits). -/
  railOverrun : Bool := false
  /-- Consecutive disagreeing half-records (R171, 2 bits). -/
  disagree : Nat := 0
  /-- The beat to which LANE is blanked (R174, 64 bits). -/
  laneBlank : Nat := 0
  /-- Rounds in REGULATE since the last WARN proposal (R290). -/
  regBeats : Nat := 0
  /-- Largest unblanked excursion below, in 0.5 mV rounded up (R290, 8 bits). -/
  peakLo : Nat := 0
  /-- Largest unblanked excursion above, in 0.5 mV rounded up (R290, 8 bits). -/
  peakHi : Nat := 0
  /-- Threshold of the RAIL_OFF step that stalled on the rail (R212, 12 bits). -/
  seqThr : Option Nat := none
deriving DecidableEq, Repr

/-- The edges of one switching cycle of a phase (R51), in units of 78.125 ps. -/
structure Edges where
  /-- Start of the cycle, counted from the start of the present beat (R51). -/
  start : Int := 0
  /-- Rising edge offset, counted from the start of the cycle (R51). -/
  rise : Int := 0
  /-- Falling edge offset, counted from the start of the cycle (R51). -/
  fall : Int := 0
  /-- Length of the cycle (R128, 16 bits). -/
  len : Nat := 0
  /-- Both edges lie on the counter's grid of 1.25 ns (R53, 1 bits). -/
  grid : Bool := false
  /-- Falling edge offset that the other die's twin lane has for the cycle (R173). -/
  twin : Int := 0
deriving DecidableEq, Repr

/-- What each control die holds of a phase (R46, R58). -/
structure PhDie where
  /-- Latest completed sample (R47, 10 bits). -/
  code : Nat := 256
  /-- Sample captured at cycle 8 (R28, 10 bits). -/
  cap : Nat := 256
  /-- A new sample was captured in this beat (R101, 1 bits). -/
  fresh : Bool := false
  /-- A sample completed since the last capture (R28, 1 bits). -/
  newS : Bool := false
  /-- Learned IMON offset in 0.3 A codes (R49). -/
  ofs : Q := {}
  /-- Sum of the frame's samples less 256 (R49). -/
  fSum : Int := 0
  /-- Samples of the frame (R49). -/
  fN : Nat := 0
  /-- Every sample of the frame lay within 2 A (R122, 1 bits). -/
  quiet : Bool := true
  /-- OPEN run (R58, 8 bits). -/
  openRun : Nat := 0
  /-- SHORT_HS (a) run (R58, 3 bits). -/
  shortRun : Nat := 0
  /-- SHORT_HS (b) run (R58, 2 bits). -/
  tripRun : Nat := 0
  /-- The trip comparator acted in the present switching cycle (R58, 1 bits). -/
  tripNow : Bool := false
  /-- (code, commanded high interval) of the latest samples, newest first, for STUCK (R58). -/
  stuck : List (Nat × Nat) := []
  /-- IMON_RANGE run (R58, 3 bits). -/
  rangeRun : Nat := 0
  /-- Causes raised and not yet captured, by rising code (R58, 3 each). -/
  causes : List Nat := []
  /-- The die raised OPEN, STUCK or IMON_RANGE in this frame (R60, 1 bits). -/
  raised : Bool := false
  /-- Current samples of the last 8 beats less 256, newest first (R176). -/
  sum8 : List Int := []
  /-- Sum of samples in the half-record (R170). -/
  hSum : Int := 0
  /-- Samples in the half-record (R170). -/
  hN : Nat := 0
  /-- Sum of samples of the first half-record (R170). -/
  h1Sum : Int := 0
  /-- Samples of the first half-record (R170). -/
  h1N : Nat := 0
  /-- Current-share trim in 2^-16 PWM units (R101). -/
  trim : Int := 0
  /-- High interval of the cycle that the die wrote last, in 78.125 ps (R100, 16 bits). -/
  hi : Nat := 0
  /-- STATE as the standby die computes it from its own currents, where it differs from the phase's (R166, 3 bits). -/
  alt : Option PhState := none
  /-- STATE as the die computed it differed at the close of the first half-record (R170, 1 bits). -/
  h1Alt : Bool := false
deriving DecidableEq, Repr

/-- A readmit test of a phase (Table 2.6). -/
structure PhTest where
  /-- The READMIT ticket (R69). -/
  ref : TkRef := {}
  /-- In the live check (R69, 1 bits). -/
  live : Bool := false
  /-- Frame boundary at which the step started (R69, 64 bits). -/
  start : Nat := 0
  /-- Live cycles judged (R69, 7 bits). -/
  cycles : Nat := 0
  /-- A criterion failed (R69, 1 bits). -/
  bad : Bool := false
  /-- Phase held out for the duration (R69, 6 bits). -/
  held : Option Nat := none
  /-- Boundary at which the steering outputs were driven to the rail, none before (Table 4.5) (R69, 64 bits). -/
  steered : Option Nat := none
deriving DecidableEq, Repr

/-- A lending move in progress (Table 4.3). -/
structure Move where
  /-- Giving rail (R124, 4 bits). -/
  src : Nat := 0
  /-- Receiving rail (R124, 4 bits). -/
  dst : Nat := 0
  /-- The boundary F (R124, 64 bits). -/
  atBeat : Nat := 0
  /-- The receiver's steering output is high (R124, 1 bits). -/
  steered : Bool := false
deriving DecidableEq, Repr

/-- A phase (Phase Units). -/
structure PhaseSt where
  /-- PH_STAT.STATE (R75, 3 bits). -/
  st : PhState := .off
  /-- The level of PHnn_PWM as last driven (R44, 2 bits). -/
  ball : Ball := .mid
  /-- The cycle in progress (R51). -/
  cyc : Option Edges := none
  /-- The edges written for the cycle that starts in the next beat (R51). -/
  nxt : Option Edges := none
  /-- Start of the next cycle in 78.125 ps, counted from the start of the present beat (R127). -/
  nextAt : Option Int := none
  /-- The high interval of the cycle in progress has been ended (R54, 1 bits). -/
  cut : Bool := false
  /-- The ball rests at mid until the next rising edge (R55, 1 bits). -/
  rest : Bool := false
  /-- Offset of the slot in 78.125 ps (R127, 16 bits). -/
  ofs : Nat := 0
  /-- Shift still to glide in 78.125 ps (R128). -/
  glide : Int := 0
  /-- The cycle in which the delay lines of the channel are calibrated is in progress (R53, 1 bits). -/
  calib : Bool := false
  /-- Effective weight with which it shares; PH_STAT.WEFF reads 0 when not ACTIVE (R75, 4 bits). -/
  weff : Nat := 8
  /-- Last qualified stage temperature in 0.25 degC, none before the first (R75). -/
  temp : Option Int := none
  /-- TFLT_RANGE (R75, 1 bits). -/
  tfltRange : Bool := false
  /-- SUSPECT (R75, 1 bits). -/
  suspect : Bool := false
  /-- Frames since the standby die last raised the cause (R60, 5 bits). -/
  suspectIdle : Nat := 0
  /-- BENCH_CAUSE (R75, 3 bits). -/
  benchCause : Nat := 0
  /-- LIMIT (R75, 1 bits). -/
  limitLast : Bool := false
  /-- DE (R75, 1 bits). -/
  deLast : Bool := false
  /-- The positive limit acted in this frame (R75, 1 bits). -/
  limitNow : Bool := false
  /-- Diode emulation acted in this frame (R75, 1 bits). -/
  deNow : Bool := false
  /-- Causes captured, by rising code; the phase benches at the next beat boundary (R59, 3 each). -/
  benchCap : List Nat := []
  /-- Consecutive cycles in which the limit acted (R57, 8 bits). -/
  limRun : Nat := 0
  /-- The limit acted in the present cycle (R57, 1 bits). -/
  limCyc : Bool := false
  /-- The phase-in-limit event stands raised (R57, 1 bits). -/
  limRaised : Bool := false
  /-- The phase waits below TLIM less HYST (R63, 1 bits). -/
  limHot : Bool := false
  /-- PH_WEAR (R70, 32 bits). -/
  wear : Nat := 0
  /-- Charge below one unit, in 0.1 A beats (R70). -/
  wearFrac : Q := {}
  /-- IDLE for at least one full frame (R49, 1 bits). -/
  idleFull : Bool := false
  /-- A running readmit test (R69). -/
  test : Option PhTest := none
  /-- Assigned rail, none in transit (R120, 4 bits). -/
  asg : Option Nat := none
  /-- Lending move in progress (R124). -/
  move : Option Move := none
  /-- Beat of the last completed move (R122, 64 bits). -/
  lastMove : Option Nat := none
  /-- Consecutive disagreeing half-records (R171, 2 bits). -/
  disagree : Nat := 0
  /-- Consecutive cycles in which LANE differed (R173, 2 bits). -/
  laneRun : Nat := 0
  /-- The state in which the last switching cycle ended (R174, 3 bits). -/
  cycSt : PhState := .off
  /-- WNOM' of an applied DERATE revision, 0 for none (R292, 4 bits). -/
  derate : Nat := 0
  /-- (I squared in A^2, temperature rise in 0.25 degC) of the last 256 points (R287). -/
  lossPts : List (Int × Int) := []
  /-- Baseline slope s0 (R287). -/
  lossS0 : Option Q := none
  /-- Points since the last DERATE proposal (R287). -/
  lossN : Nat := 0
  /-- Consecutive rounds within 5 % of the round mean (R287, 7 bits). -/
  steady : Nat := 0
  /-- Current sum of the round (R287). -/
  iRound : Int := 0
  /-- Samples in the round (R287). -/
  iRoundN : Nat := 0
  /-- Least sample of the round in 0.1 A (R287). -/
  iMin : Int := 0
  /-- Largest sample of the round in 0.1 A (R287). -/
  iMax : Int := 0
deriving DecidableEq, Repr

/-- A region (Phase Lending). -/
structure RegionSt where
  /-- Consecutive frame evaluations above IBUD (R129, 3 bits). -/
  budRun : Nat := 0
  /-- Round of the last REGION_BUD (R129). -/
  budRound : Option Nat := none
deriving DecidableEq, Repr

/-- A ganged rail as this member holds it (R131 to R142). -/
structure GangSt where
  /-- Role in force (R138, 2 bits). -/
  role : GangRole := .none
  /-- Last latched u (R133, 24 bits). -/
  u : Int := 0
  /-- Rail state of the last latched packet (R133, 3 bits). -/
  rst : Nat := 0
  /-- Catch state of the last latched packet (R133, 2 bits). -/
  ctch : Nat := 0
  /-- Phases the catch adds (R133, 4 bits). -/
  cnadd : Nat := 0
  /-- The catch of the command packet began with this beat (R134, 1 bits). -/
  cfresh : Bool := false
  /-- A command was latched in this beat (R133, 1 bits). -/
  got : Bool := false
  /-- Consecutive missed command packets (R137, 8 bits). -/
  miss : Nat := 0
  /-- Consecutive missed return packets of the deputy (R137, 8 bits). -/
  retMiss : Nat := 0
  /-- A deputy return arrived in this beat (R137, 1 bits). -/
  gotRet : Bool := false
  /-- First missed beat of a follower's hold (R137, 64 bits). -/
  holdFrom : Option Nat := none
  /-- Latest return sum of each member in 0.5 A (R135, 16 each). -/
  isum : Vector Int 4 := Vector.replicate 4 0
  /-- Latest NACT of each member (R135, 5 each). -/
  nact : Vector Nat 4 := Vector.replicate 4 0
  /-- Beats since the latest sum of each member was captured, 3 when older than 2 (R135, 2 each). -/
  age : Vector Nat 4 := Vector.replicate 4 3
  /-- Frame sum of each member's current in 0.5 A (R136). -/
  iframe : Vector Int 4 := Vector.replicate 4 0
  /-- Trims k_d in 2^-15 (R136, 16 each). -/
  k : Vector Int 4 := Vector.replicate 4 0
  /-- Phase targets (R136, 5 each). -/
  ntgt : Vector Nat 4 := Vector.replicate 4 0
  /-- Phase targets in force in the frame that ends (R136, 5 each). -/
  nold : Vector Nat 4 := Vector.replicate 4 0
  /-- Phases that a member short of its target has shown it can drive, until it drives more (R142, 5 each). -/
  cap : Vector Nat 4 := Vector.replicate 4 24
  /-- First slots b_d (R140, 7 each). -/
  b : Vector Nat 4 := Vector.replicate 4 0
  /-- ACTIVE phases of the gang (R140, 7 bits). -/
  ngang : Nat := 0
  /-- Trim in force on this member (R136, 16 bits). -/
  myK : Int := 0
  /-- Target in force on this member (R136, 5 bits). -/
  myTgt : Nat := 0
  /-- First slot in force (R140, 7 bits). -/
  myB : Nat := 0
  /-- Gang size in force (R140, 7 bits). -/
  myNg : Nat := 0
  /-- FPART bytes of the frame, oldest first (R381, 32 bytes). -/
  fpart : List Nat := []
  /-- A byte of the frame packet was missed (R381, 1 bits). -/
  fbad : Bool := false
  /-- The leader's frame packet being sent (R381, 32 bytes). -/
  fout : List Nat := []
  /-- The command packet last sent (R133, 64 bits). -/
  cmdOut : Nat := 0
  /-- The return packet last sent (R135, 64 bits). -/
  retOut : Nat := 0
  /-- The command packet latched in this beat, whose rail state and frame byte apply at the next beat boundary (R25, 64 bits). -/
  pend : Option Nat := none
  /-- The gang is without a deputy (R138, 1 bits). -/
  noDep : Bool := false
  /-- Round of the last GANG_NO_DEPUTY (R138). -/
  noDepRound : Option Nat := none
  /-- A running member self-test (R138). -/
  readmit : Option TkRef := none
deriving DecidableEq, Repr

/-- What a control die records of a forecast for its score (R159). -/
structure FcScore where
  /-- IB, mean of IOUT over the 8 beats before the window, in 0.1 A (R159). -/
  ib : Q := {}
  /-- T - TSTEP of the crossing (R159). -/
  cross : Option Int := none
  /-- Sum of IOUT over the 8 measured beats (R159). -/
  dmSum : Q := {}
  /-- Measured beats summed (R159, 4 bits). -/
  dmN : Nat := 0
deriving DecidableEq, Repr

/-- A forecast (R146 to R163). -/
structure Fc where
  /-- Client (R146, 12 bits). -/
  client : Nat := 0
  /-- Generation (R161, 8 bits). -/
  gen : Nat := 0
  /-- Sequence (R162, 16 bits). -/
  seq : Nat := 0
  /-- Rail (R146, 4 bits). -/
  rail : Nat := 0
  /-- TSTEP resolved (R147, 64 bits). -/
  tstep : Nat := 0
  /-- DI clamped, in 0.1 A (R148). -/
  di : Int := 0
  /-- U clamped (R148, 10 bits). -/
  u : Nat := 0
  /-- C (R147, 4 bits). -/
  conf : Nat := 0
  /-- TAG (R147, 8 bits). -/
  tag : Nat := 0
  /-- Weight (R151, 8 bits). -/
  wn : Nat := 0
  /-- VHEAD_k in 0.125 mV (R154). -/
  head : Int := 0
  /-- The score of each control die (R159). -/
  sc : Vector FcScore 2 := Vector.replicate 2 {}
  /-- The result it has ended with; it stays pending until its final stub (R149, 7 bits). -/
  ended : Option Nat := none
  /-- Its headroom and its thresholds are in force in this beat (R157, 1 bits). -/
  live : Bool := false
  /-- CURTAILED (R157, 1 bits). -/
  curtailed : Bool := false
  /-- Beat of acceptance (R152, 64 bits). -/
  filedAt : Nat := 0
deriving DecidableEq, Repr

/-- A trust entry (R151, R152). -/
structure TrustEnt where
  /-- Client (R151, 12 bits). -/
  client : Nat := 0
  /-- Rail (R151, 4 bits). -/
  rail : Nat := 0
  /-- T (R151, 8 bits). -/
  t : Nat := 0
  /-- Beat of last use (R152, 64 bits). -/
  used : Nat := 0
  /-- Reported below FC_TREP (R160, 1 bits). -/
  below : Bool := false
  /-- Round of the last report (R160, 64 bits). -/
  lastRep : Nat := 0
deriving DecidableEq, Repr

/-- Forecast regulation. -/
structure FcSt where
  /-- Pending forecasts (R149). -/
  fcs : List Fc := []
  /-- Trust table (R152, 64 entries). -/
  trust : List TrustEnt := []
  /-- (client, rail) of every forecast filed in this round (R149). -/
  filed : List (Nat × Nat) := []
  /-- Forecast beats of the rail in this round (R157, 12 each). -/
  usedRail : Vector Nat 12 := Vector.replicate 12 0
  /-- (client, rail, beats) of this round (R157). -/
  usedCli : List (Nat × Nat × Nat) := []
  /-- Final stubs due in the next round's ticket window (R160). -/
  finals : List Stub := []
deriving DecidableEq, Repr

/-- The running state of one playbook order (R208, R211), by order index. -/
structure OrderRun where
  /-- Order index (R490, 9 bits). -/
  idx : Nat := 0
  /-- Consecutive evaluations in which the trigger held (R208, 8 bits). -/
  held : Nat := 0
  /-- Fired and not re-armed (R208, 1 bits). -/
  fired : Bool := false
  /-- HICCUP attempts used (R211, 4 bits). -/
  used : Nat := 0
  /-- Watchdog slot or other sub-unit the count belongs to (R422, 5 bits). -/
  slot : Nat := 0
  /-- Unit the count belongs to (R208, 16 bits). -/
  unit : Nat := 0
deriving DecidableEq, Repr

/-- A sequencing programme (R216 to R224). -/
structure SeqSt where
  /-- SEQ_STAT.STATE (R224, 3 bits). -/
  st : SeqState := .idle
  /-- STEP (R224, 7 bits). -/
  step : Nat := 0
  /-- RISE_FAILS of this run (R224, 4 bits). -/
  fails : Nat := 0
  /-- HELD (R224, 16 bits). -/
  held : Nat := 0
  /-- SEQ_STALL count of this run (R223, 8 bits). -/
  stalls : Nat := 0
  /-- Skipped steps of this run (R223, 8 bits). -/
  skips : Nat := 0
  /-- Barrier timeouts of this run (R223, 8 bits). -/
  btos : Nat := 0
  /-- RISE_FAIL count of this run, in full (R223, 8 bits). -/
  risesAll : Nat := 0
  /-- The SEQ_RUN ticket (R223). -/
  ref : Option TkRef := none
  /-- The boundary at which the current step started (R218, 64 bits). -/
  started : Option Nat := none
  /-- Beat at which the current step completed (R218, 64 bits). -/
  done : Option Nat := none
  /-- SEQ_STALL or BARRIER_TIMEOUT posted for the step (R221, 1 bits). -/
  stalled : Bool := false
  /-- The step ends at the next boundary (R223, 1 bits). -/
  skipPend : Bool := false
  /-- The programme stops at the next boundary (R223, 1 bits). -/
  abortPend : Bool := false
  /-- Participants of the chain run (R222). -/
  parts : List Nat := []
  /-- Devices benched during the chain run, which have left the set (R222). -/
  left : List Nat := []
  /-- (barrier, device, beat) of every arrival at a barrier not yet released (R222). -/
  arrived : List (Nat × Nat × Nat) := []
  /-- Round boundary at which the barrier releases (R222, 64 bits). -/
  release : Option Nat := none
deriving DecidableEq, Repr

/-- A feed (Feeds). -/
structure FeedSt where
  /-- STATE (R240, 2 bits). -/
  st : FeedState := .absent
  /-- UV (R240, 1 bits). -/
  uv : Bool := false
  /-- OV (R240, 1 bits). -/
  ov : Bool := false
  /-- REV (R240, 1 bits). -/
  rev : Bool := false
  /-- ISNS (R240, 1 bits). -/
  isns : Bool := false
  /-- FET (R240, 1 bits). -/
  fet : Bool := false
  /-- VIN in 0.25 V (R240, 8 bits). -/
  vin : Nat := 0
  /-- IIN in 0.1 A (R240, 16 bits). -/
  iin : Int := 0
  /-- The feed is present (R229, 1 bits). -/
  present : Bool := false
  /-- Beat from which it has stayed present (R233, 64 bits). -/
  presentFrom : Nat := 0
  /-- Beat of the last reversal (R229, 64 bits). -/
  revAt : Option Nat := none
  /-- The reversal that FEED_REV reported has not been seen to end (R229, 1 bits). -/
  revOn : Bool := false
  /-- The pair conducts (R226, 1 bits). -/
  pairOn : Bool := false
  /-- Frames with the shunt outside 80 mV (R241, 3 bits). -/
  isnsRun : Nat := 0
  /-- Rounds with too little current as the only conducting feed (R241, 3 bits). -/
  shortRun : Nat := 0
  /-- Frames with the drop above 500 mV (R241, 3 bits). -/
  fetRun : Nat := 0
  /-- Sum of frame-mean currents of the round, in 0.1 A (R237). -/
  iRound : Q := {}
  /-- Frames summed (R237). -/
  nRound : Nat := 0
  /-- Frame-mean power in mW, exact (R235). -/
  power : Q := {}
  /-- Frame-mean voltage of the last frame in mV (R287). -/
  lastV : Option Q := none
  /-- Frame-mean current of the last frame in 0.1 A (R287). -/
  lastI : Q := {}
  /-- LastV of the frame before (R287). -/
  prevV : Option Q := none
  /-- LastI of the frame before (R287). -/
  prevI : Q := {}
  /-- Beat at which a level of the feed was last reported (R229, 64 bits). -/
  lvlAt : Option Nat := none
  /-- Last 64 harness resistances in 0.01 Ohm (R287). -/
  rPts : List Q := []
  /-- First 64-point mean (R287). -/
  rBase : Option Q := none
deriving DecidableEq, Repr

/-- A housekeeping supply (R245 to R248). -/
structure HkSt where
  /-- Supply on (R247, 1 bits). -/
  on : Bool := false
  /-- Power-good level reached (R247, 1 bits). -/
  good : Bool := false
  /-- Its soft start has ended (R247, 1 bits). -/
  ended : Bool := false
  /-- Beat at which its soft start began (R247, 64 bits). -/
  since : Nat := 0
  /-- Its slot start is skipped after an HK_SWITCH (R249, 1 bits). -/
  skip : Bool := false
deriving DecidableEq, Repr

/-- Feeds together, VAON and housekeeping slots. -/
structure PwrSt where
  /-- FEED_CFG.MODE in force (R238, 2 bits). -/
  mode : Nat := 0
  /-- Beat of the last declaration of R229 (R238, 64 bits). -/
  declAt : Option Nat := none
  /-- A feed was present since the reset (R231, 1 bits). -/
  everPresent : Bool := false
  /-- No feed is present (R231, 1 bits). -/
  bothLost : Bool := false
  /-- Consecutive frames above PIN_BUD (R236, 3 bits). -/
  pinRun : Nat := 0
  /-- Round of the last PIN_BUD (R236). -/
  pinRound : Option Nat := none
  /-- (device, group and current of FEEDA, of FEEDB, round) of the latest telemetry, 0.1 A (R237). -/
  chainI : List (Nat × Nat × Int × Nat × Int × Nat) := []
  /-- Consecutive rounds a group lay over its entry (R237, 3 each). -/
  chainRun : Vector Nat 15 := Vector.replicate 15 0
  /-- Round of the group's last CHAIN_BUD (R237). -/
  chainRound : Vector (Option Nat) 15 := Vector.replicate 15 none
  /-- VAON above 4.5 V (R244, 1 bits). -/
  vaonOk : Bool := false
  /-- Housekeeping start slot in progress, 0 for none, 16 when all have started (R247, 5 bits). -/
  slot : Nat := 0
  /-- NTC_RANGE (R243, 1 each). -/
  ntcRange : Vector Bool 4 := Vector.replicate 4 false
  /-- Consecutive implausible NTC samples (R243, 3 each). -/
  ntcRun : Vector Nat 4 := Vector.replicate 4 0
  /-- PG0 to PG7: bit set when released (R217, 8 bits). -/
  pg : Nat := 0
  /-- Beat that ends the HOST_RST assertion, none when released (R423, 64 bits). -/
  hostRst : Option Nat := none
  /-- SUP_EN (R496, 1 bits). -/
  supEn : Bool := false
  /-- VDD33 below its power-fail level (R452, 1 bits). -/
  powerFail : Bool := false
  /-- The straps CID[5:0] (R502, 6 bits). -/
  cid : Nat := 0
  /-- TEST_EN (R502, 1 bits). -/
  testEn : Bool := false
deriving DecidableEq, Repr

/-- Charger, pack switch, gauge and button. -/
structure PackSt where
  /-- Charger state (R253, 3 bits). -/
  chg : ChgState := .off
  /-- The state WAIT_VIN left (R253, 3 bits). -/
  left : ChgState := .off
  /-- Rounds above VPRE + 100 mV (R253, 3 bits). -/
  preRun : Nat := 0
  /-- Rounds below the termination current (R254, 3 bits). -/
  termRun : Nat := 0
  /-- Rounds below the recharge voltage (R253, 5 bits). -/
  rechgRun : Nat := 0
  /-- Beat at which PRECHARGE, or FAST and CV together, began (R256, 64 bits). -/
  stageFrom : Nat := 0
  /-- CHG_TIMEOUT posted in the present stage (R256, 1 bits). -/
  toutPosted : Bool := false
  /-- CHG_TEMP posted in the present run (R255, 1 bits). -/
  tempPosted : Bool := false
  /-- CHARGER_STOP takes effect at the next round boundary (R256, 1 bits). -/
  stopPend : Bool := false
  /-- CHG_SET current in 50 mA, 0 for the field (R346, 7 bits). -/
  ichg : Nat := 0
  /-- PACK_MISSING (R271, 1 bits). -/
  missing : Bool := false
  /-- Rounds with the pack absent (R260, 3 bits). -/
  missRun : Nat := 0
  /-- Rounds with the pack present (R260, 5 bits). -/
  hereRun : Nat := 0
  /-- PACK_REV stands (R241, 1 bits). -/
  revPosted : Bool := false
  /-- Pack switch (R261, 2 bits). -/
  psw : PswState := .armed
  /-- Beat that ends the open time of an order (R261, 64 bits). -/
  openEnd : Option Nat := none
  /-- The causes that hold the switch OPEN: SVC_BTN, order, ticket, ship mode, STRICT_DEFAULTS from bit 0 (R261, 5 bits). -/
  holds : Nat := 0
  /-- Ship mode armed (R271, 1 bits). -/
  ship : Bool := false
  /-- RTC_KEEP of the SHIP ticket (R265, 1 bits). -/
  rtcKeep : Bool := false
  /-- Ship mode in effect (R265, 1 bits). -/
  shipIn : Bool := false
  /-- Beat of the SHIP ticket's effect (R263, 64 bits). -/
  shipAt : Nat := 0
  /-- Beat at which the SVC_BTN reset hold-off began (R264, 64 bits). -/
  hold : Option Nat := none
  /-- A running charger readmit check (R257). -/
  check : Option TkRef := none
  /-- Rounds of the check (R257, 5 bits). -/
  checkN : Nat := 0
  /-- A round of the check failed (R257, 1 bits). -/
  checkBad : Bool := false
  /-- Charge count in mA x ms, exact (R266). -/
  count : Q := {}
  /-- FCC in 10 mAh (R271, 16 bits). -/
  fcc : Nat := 0
  /-- CYCLES (R271, 16 bits). -/
  cycles : Nat := 0
  /-- Accumulated discharge in mA x ms (R268). -/
  disAcc : Q := {}
  /-- Impedance table in 0.1 mOhm (R269, 16 each). -/
  imp : Vector (Vector Nat 8) 16 := Vector.replicate 16 (Vector.replicate 8 0)
  /-- UNSURE (R271, 1 bits). -/
  unsure : Bool := false
  /-- Consecutive rounds at rest (R267). -/
  restN : Nat := 0
  /-- REST (R271, 1 bits). -/
  rest : Bool := false
  /-- (SOC in 0.1 %, charge moved) of the rest points, the latest for each SOC, newest first (R268). -/
  rests : List (Nat × Q) := []
  /-- Charge moved into the pack since the restart, in mA x ms (R268). -/
  moved : Q := {}
  /-- RES_LOW (R271, 1 bits). -/
  resLow : Bool := false
  /-- Rounds of the end-of-discharge condition (R270, 3 bits). -/
  eodRun : Nat := 0
  /-- Rounds of the end-of-charge condition (R270, 3 bits). -/
  eocRun : Nat := 0
  /-- Pack current of the last frame in mA (R269). -/
  iFrame : Option Q := none
  /-- Pack voltage of the last frame in mV (R269). -/
  vFrame : Q := {}
  /-- Charger state of the last frame (R269, 3 bits). -/
  chgFrame : ChgState := .off
  /-- Sum of frame pack currents of the round (R266). -/
  iSum : Q := {}
  /-- Sum of frame pack voltages of the round (R266). -/
  vSum : Q := {}
  /-- Frames summed (R266). -/
  iN : Nat := 0
  /-- Round-mean pack current in mA (R266). -/
  iMean : Q := {}
  /-- Round-mean pack voltage in mV, none before the first reading (R266). -/
  vMean : Option Q := none
  /-- The charger may leave OFF: since start-up or a readmission (R253, 1 bits). -/
  leaveOff : Bool := true
  /-- CHG_TEMP posted in the present stage (R263, 1 bits). -/
  tempStage : Bool := false
  /-- CHG_TIMEOUT posted in the present stage (R263, 1 bits). -/
  toutStage : Bool := false
  /-- The latest NTC0 sample reads open (R260, 1 bits). -/
  ntcOpen : Bool := false
  /-- Committed gauge record: count, FCC, cycles (R271). -/
  nvm : Option (Q × Nat × Nat) := none
  /-- Committed impedance table (R271, 16 each). -/
  nvmImp : Vector (Vector Nat 8) 16 := Vector.replicate 16 (Vector.replicate 8 0)
deriving DecidableEq, Repr

/-- The qualified state of one threshold of a source (R276). -/
structure ThrSt where
  /-- ABOVE (R276, 1 bits). -/
  above : Bool := false
  /-- Consecutive samples towards a change (R276, 2 bits). -/
  run : Nat := 0
  /-- Its THERM_WARN was posted, not suppressed (R277, 1 bits). -/
  posted : Bool := false
deriving DecidableEq, Repr

/-- A temperature source (R273 to R282). -/
structure SrcSt where
  /-- Latest sample in 0.25 degC (R276). -/
  s0 : Option Int := none
  /-- Sample before it (R276). -/
  s1 : Option Int := none
  /-- Sample before that (R276). -/
  s2 : Option Int := none
  /-- NEAR (R282, 1 bits). -/
  near : Bool := false
  /-- Warn threshold (R276). -/
  warn : ThrSt := {}
  /-- Critical threshold (R276). -/
  crit : ThrSt := {}
  /-- TDER, or T_WARM for NTC0 (R276). -/
  tder : ThrSt := {}
  /-- TLIM, or T_HOT for NTC0 (R276). -/
  tlim : ThrSt := {}
  /-- T_COOL of NTC0, downward (R276). -/
  cool : ThrSt := {}
  /-- T_COLD of NTC0, downward (R276). -/
  cold : ThrSt := {}
  /-- SUSPECT (R282, 1 bits). -/
  suspect : Bool := false
  /-- Consecutive disagreeing samples (R278, 5 bits). -/
  disRun : Nat := 0
  /-- CHAT (R282, 16 bits). -/
  chat : Nat := 0
  /-- Beat of the last posted THERM_WARN (R277, 64 bits). -/
  lastPost : Option Nat := none
  /-- Qualifications suppressed since (R277, 16 bits). -/
  supp : Nat := 0
  /-- Frame boundary at which a thermal period was last given to the near-limit source (R305, 64 bits). -/
  served : Nat := 0
deriving DecidableEq, Repr

/-- THERM_REC (Table 10.7). -/
structure ThermRec where
  /-- BEAT (R285, 64 bits). -/
  beat : Nat := 0
  /-- TIME (R285, 32 bits). -/
  time : Nat := 0
  /-- SRC (R285, 8 bits). -/
  src : Nat := 0
  /-- TQ (R285, 8 bits). -/
  tq : Nat := 0
  /-- SAMPLE (R285, 16 bits). -/
  sample : Int := 0
  /-- TRIG (R285, 8 bits). -/
  trig : Nat := 0
  /-- THR (R285, 8 bits). -/
  thr : Nat := 0
  /-- ORDER (R285, 16 bits). -/
  order : Nat := 0
  /-- ACTION with the layer (R285, 8 bits). -/
  action : Nat := 0
  /-- OVL (R285, 8 bits). -/
  ovl : Nat := 0
  /-- RAILS (R285, 40 bits). -/
  rails : Nat := 0
  /-- DIES (R285, 8 bits). -/
  dies : Nat := 0
deriving DecidableEq, Repr

/-- A margin-plan proposal (R290) or an applied revision (R292). -/
structure Proposal where
  /-- Proposal number (R290, 16 bits). -/
  num : Nat := 0
  /-- 0 WARN, 1 COMP, 2 DERATE (R290, 2 bits). -/
  kind : Nat := 0
  /-- Rail or phase (R290, 6 bits). -/
  target : Nat := 0
  /-- First value (R290). -/
  v1 : Int := 0
  /-- Second value (R290). -/
  v2 : Int := 0
  /-- Inside the envelope (R290, 1 bits). -/
  inside : Bool := false
  /-- Suspended for the overlay in force (R292, 1 bits). -/
  suspended : Bool := false
deriving DecidableEq, Repr

/-- A running chirp (R288). -/
structure ChirpSt where
  /-- Active die at the start (R288, 2 bits). -/
  die : Option Cd := none
  /-- The rail regulated from VLOC at the start (R293, 1 bits). -/
  sns : Bool := false
  /-- Tone 0 to 7 (R288, 3 bits). -/
  tone : Nat := 0
  /-- Beat at which the tone began (R288, 64 bits). -/
  start : Nat := 0
  /-- IOUT_F at the start (R288). -/
  i0 : Q := {}
  /-- Phase count at the start (R288, 5 bits). -/
  n0 : Nat := 0
  /-- C of the lowest tones in 10 uF (R288). -/
  cAcc : Nat := 0
deriving DecidableEq, Repr

/-- Thermal management and the margin plan. -/
structure ThermSt where
  /-- The sources (R273). -/
  src : Vector SrcSt 76 := Vector.replicate 76 {}
  /-- PKG_LIM (R276). -/
  pkg : ThrSt := {}
  /-- BLIND for Die A, B, P (R282, 1 each). -/
  blind : Vector Bool 3 := Vector.replicate 3 false
  /-- THERM_REC records in retained memory (R285, 4 records). -/
  recs : List ThermRec := []
  /-- Records that wait because 4 are held (R293). -/
  recWait : List ThermRec := []
  /-- Temperature each compensation of Table 10.8 uses, 0.25 degC (R286). -/
  comp : Vector Int 9 := Vector.replicate 9 0
  /-- Drift of each die's four ring oscillators in 0.1 % (R287). -/
  ro : Vector (Vector Int 4) 2 := Vector.replicate 2 (Vector.replicate 4 0)
  /-- Consecutive rounds each reference disagreed (R287, 7 each). -/
  refRun : Vector Nat 3 := Vector.replicate 3 0
  /-- The running chirp of each rail (R288). -/
  chirps : Vector (Option ChirpSt) 12 := Vector.replicate 12 none
  /-- An on-die sensor was sampled in this frame (R276, 1 bits). -/
  pkgNew : Bool := false
  /-- Beat of each rail's last chirp, before the count's start after a reset (R288, 64 each). -/
  chirpAt : Vector (Option Int) 12 := Vector.replicate 12 none
  /-- Measured C in 10 uF, 0 for none (R287). -/
  capC : Vector Nat 12 := Vector.replicate 12 0
  /-- Measured ESR in 0.01 mOhm (R287). -/
  capEsr : Vector Nat 12 := Vector.replicate 12 0
  /-- Pending proposals, oldest first (R290, 16 entries). -/
  props : List Proposal := []
  /-- Applied revisions (R292). -/
  revs : List Proposal := []
  /-- Next proposal number (R290, 16 bits). -/
  propNum : Nat := 0
  /-- Beat of the last automatic application, negative when it lies before a reset (R291, 64 bits). -/
  lastAuto : Option Int := none
  /-- An automatic application waits for the overlay switch of its boundary (R293, 1 bits). -/
  autoPend : Bool := false
  /-- Frame evaluations with IOUT_F below 1/16 of the rating (R288, 3 each). -/
  iLow : Vector Nat 12 := Vector.replicate 12 0
deriving DecidableEq, Repr

/-- What a meter sequence publishes of one entry on one converter (Table 11.6). -/
structure SeqRes where
  /-- CODE (R299, 14 bits). -/
  code : Int := 0
  /-- STALE (R299, 1 bits). -/
  stale : Bool := false
  /-- IMPL (R299, 1 bits). -/
  impl : Bool := false
  /-- NONSIM (R299, 1 bits). -/
  nonsim : Bool := false
  /-- SAT (R299, 1 bits). -/
  sat : Bool := false
  /-- UNPAIRED (R299, 1 bits). -/
  unpaired : Bool := false
  /-- PASSES (R299, 6 bits). -/
  passes : Nat := 0
  /-- Sum of the frame's codes (R299). -/
  acc : Int := 0
  /-- Passes of the frame (R299). -/
  accN : Nat := 0
  /-- A saturated code in the frame (R299, 1 bits). -/
  accSat : Bool := false
  /-- A pass that lost its common instant in the frame (R299, 1 bits). -/
  accNs : Bool := false
  /-- The latest code, waiting for its pair (R301, 14 bits). -/
  last : Option Int := none
  /-- CODE of S/H1 in a MEAS entry (R299, 14 bits). -/
  code2 : Int := 0
  /-- Sum of the frame's S/H1 codes (R299). -/
  acc2 : Int := 0
  /-- Sum over the frame's passes of the product of both codes (R235). -/
  accP : Int := 0
deriving DecidableEq, Repr

/-- A meter sequence (R298 to R302). -/
structure MeterSeq where
  /-- Running (R298, 1 bits). -/
  active : Bool := false
  /-- METER_STOP takes effect when the running pass ends (R308, 1 bits). -/
  stopPend : Bool := false
  /-- PWM edges counted on each converter (R297, 8 each). -/
  dec : Vector Nat 3 := Vector.replicate 3 0
  /-- Results by entry and converter (R299). -/
  res : Vector (Vector SeqRes 3) 16 := Vector.replicate 16 (Vector.replicate 3 {})
  /-- Consecutive disagreeing passes by entry (R301, 3 each). -/
  plN : Vector Nat 16 := Vector.replicate 16 0
  /-- Consecutive agreeing passes by entry (R301, 3 each). -/
  okN : Vector Nat 16 := Vector.replicate 16 0
  /-- Converter CVP named, by entry (R301, 2 each). -/
  named : Vector (Option Nat) 16 := Vector.replicate 16 none
  /-- Urgent drops since MTR_DROP was last posted (R306, 16 bits). -/
  dropU : Nat := 0
  /-- Queue drops since MTR_DROP was last posted (R306, 16 bits). -/
  dropQ : Nat := 0
  /-- Round of the last MTR_DROP for urgent drops (R306). -/
  dropRoundU : Option Nat := none
  /-- Round of the last MTR_DROP for queue drops (R306). -/
  dropRoundQ : Option Nat := none
  /-- Entry and both codes of every pair that completed in the frame (R301). -/
  pairs : List (Nat × Int × Int) := []
  /-- Passes triggered so far, by converter (R306). -/
  trigN : Vector Nat 3 := Vector.replicate 3 0
  /-- Passes dropped before every converter had its trigger (R306). -/
  lost : List Nat := []
  /-- Both codes with which IMPL was set, by entry (R301, 14 each). -/
  plCode : Vector (Int × Int) 16 := Vector.replicate 16 (0, 0)
deriving DecidableEq, Repr

/-- A pass waiting for or running on a converter (R298). -/
structure Pass where
  /-- Sequence, none for a single conversion (R298, 5 bits). -/
  seq : Option Nat := none
  /-- Next entry (R298, 4 bits). -/
  ent : Nat := 0
  /-- Channel of a queued single conversion (R301, 7 bits). -/
  single : Nat := 0
  /-- Sequence a single conversion decides for (R301, 5 bits). -/
  forSeq : Nat := 0
  /-- Entry a single conversion decides for (R301, 4 bits). -/
  forEnt : Nat := 0
  /-- A single conversion that acts as the pair (R302, 1 bits). -/
  pair : Bool := false
  /-- Sampling instant in ADC cycles of 12.5 ns, 20 to the beat (R297, 69 bits). -/
  inst : Nat := 0
  /-- Its trigger found the converter busy, so it takes one of the 4 places of the queue (R306, 1 bits). -/
  inQ : Bool := false
  /-- An urgent pass (R306, 1 bits). -/
  urgent : Bool := false
  /-- The record of its sequence as it stood at the trigger (R308, 640 bits). -/
  cfg : Nat := 0
  /-- Entry and codes converted so far (R299). -/
  codes : List (Nat × Int × Int) := []
  /-- Entries that lost their common instant (R306, 4 each). -/
  nsEnts : List Nat := []
  /-- The next entry runs again after a vote abort (R306, 1 bits). -/
  again : Bool := false
  /-- Converters that the pass runs on (R304). -/
  on : List Conv := []
  /-- Number of the pass among those of its sequence (R304). -/
  id : Nat := 0
deriving DecidableEq, Repr

/-- A conversion result whose move to the control dies is stalled (R307). -/
structure Stalled where
  /-- The pass at the entry converted (R307). -/
  pass : Pass := {}
  /-- Its code (R307, 14 bits). -/
  code : Int := 0
  /-- Its code of S/H1 (R307, 14 bits). -/
  code2 : Int := 0
  /-- Beat of the conversion (R307, 64 bits). -/
  beat : Nat := 0
deriving DecidableEq, Repr

/-- A housekeeping converter (R294, R305 to R307). -/
structure ConvSt where
  /-- CVx_DATA (R307, 14 bits). -/
  data : Int := 0
  /-- The pass being converted (R305). -/
  run : Option Pass := none
  /-- Urgent passes that have reserved the converter (R306). -/
  urg : List Pass := []
  /-- Queued passes (R306, 4 passes). -/
  queue : List Pass := []
  /-- DROP_URG (R306, 16 bits). -/
  dropUrg : Nat := 0
  /-- DROP_Q (R306, 16 bits). -/
  dropQ : Nat := 0
  /-- OVR_CNT (R307, 16 bits). -/
  ovrCnt : Nat := 0
  /-- OVR (R307, 1 bits). -/
  ovr : Bool := false
  /-- SUSPECT (R303, 1 bits). -/
  suspect : Bool := false
  /-- Consecutive rounds all three references differed (R303, 5 bits). -/
  susRun : Nat := 0
  /-- SLOT_SAT (R305, 1 bits). -/
  slotSat : Bool := false
  /-- Round of the last MTR_OVR (R307). -/
  ovrRound : Option Nat := none
  /-- Latest codes of channels 120 to 122 (R303, 14 each). -/
  refs : Vector Int 3 := Vector.replicate 3 0
  /-- Latest code of each channel (R294, 14 each). -/
  chan : Vector Int 128 := Vector.replicate 128 0
  /-- A result whose move is stalled (R307). -/
  stalled : Option Stalled := none
  /-- Thermal periods of this frame still to come (R305, 4 bits). -/
  thermLeft : Nat := 0
  /-- ADC cycle at which the thermal or vote conversion in progress ends (R305, 69 bits). -/
  heldUntil : Nat := 0
  /-- Most near-limit sources beyond the thermal periods in a frame of this round (R305, 7 bits). -/
  slotMax : Nat := 0
  /-- What this frame's thermal periods still sample: sources 0 to 75, references 76 to 78 (R305, 7 each). -/
  plan : List Nat := []
  /-- What this round's samples still have to take, same numbers (R305, 7 each). -/
  due : List Nat := []
deriving DecidableEq, Repr

/-- What the device keeps of a client (R313 to R323). -/
structure Client where
  /-- Client (R313, 12 bits). -/
  id : Nat := 0
  /-- Cached client-table entry (R315, 256 bits). -/
  entry : Nat := 0
  /-- Entry cached (R315, 1 bits). -/
  cached : Bool := false
  /-- Count of uses of the cache at its last use of its line (R315). -/
  usedAt : Nat := 0
  /-- Adopted generation (R322, 8 bits). -/
  gen : Nat := 0
  /-- Generation to adopt at the next beat boundary (R322, 8 bits). -/
  genPend : Option Nat := none
  /-- The cached entry is malformed or EN = 0 (R314, 1 bits). -/
  bad : Bool := false
  /-- Generation for which CLIENT_BAD was posted (R314, 8 bits). -/
  badPosted : Option Nat := none
  /-- Ticket tail (R316, 16 bits). -/
  tktTail : Nat := 0
  /-- TKT_HEAD (R316, 16 bits). -/
  tktHead : Nat := 0
  /-- STUB_TAIL (R316, 16 bits). -/
  stubTail : Nat := 0
  /-- Stub head (R316, 16 bits). -/
  stubHead : Nat := 0
  /-- Stubs held for a slot, oldest first (R320). -/
  held : List Stub := []
  /-- Round of the last TS_BAD (R318). -/
  tsRound : Option Nat := none
  /-- CHUNKs of the signed-ticket parts held, part 0 first (R348). -/
  parts : List Nat := []
  /-- SEQ of the last part held (R348, 16 bits). -/
  partSeq : Nat := 0
  /-- KEY of the parts held (R348, 8 bits). -/
  partKey : Nat := 0
  /-- EPOCH of the parts held (R348, 32 bits). -/
  partEpoch : Nat := 0
  /-- NONCE of the parts held (R348, 64 bits). -/
  partNonce : Nat := 0
  /-- The parts belong to a DEBUG_UNLOCK (R348, 1 bits). -/
  partUnlock : Bool := false
  /-- A new stub since the last message of its vector (R330, 1 bits). -/
  msgVec : Bool := false
  /-- (tail, beat) of the turnstile writes whose tickets are not all fetched, oldest first (R419). -/
  tsAt : List (Nat × Nat) := []
  /-- Ticket tail written for the generation to adopt (R322, 16 bits). -/
  tailPend : Option Nat := none
  /-- A ticket read failed; the next turnstile write retries it (R328, 1 bits). -/
  noFetch : Bool := false
  /-- Count of bursts at its last burst of fetched tickets (R319). -/
  burstAt : Nat := 0
deriving DecidableEq, Repr

/-- A fetched ticket waiting for the ticket window (R319, R339). -/
structure Fetched where
  /-- Client (R319, 12 bits). -/
  client : Nat := 0
  /-- The ticket's 64 bytes (R336, 512 bits). -/
  raw : Nat := 0
  /-- Beat of the fetch (R339, 64 bits). -/
  atBeat : Nat := 0
  /-- Beat of the turnstile write that covers it (R419, 64 bits). -/
  ts : Nat := 0
  /-- Service order of R339 (R339, 4 bits). -/
  order : Nat := 0
  /-- Forwarded from or to another device (R333, 1 bits). -/
  fwd : Bool := false
deriving DecidableEq, Repr

/-- An SPI ticket window (R331, R332). -/
structure SpiWin where
  /-- Ticket slots (R332, 2,048 bytes). -/
  tkt : Mem := []
  /-- Stub slots (R332, 512 bytes). -/
  stub : Mem := []
  /-- Event slots (R332, 512 bytes). -/
  evt : Mem := []
  /-- Window client entry (R332, 32 bytes). -/
  entry : Mem := []
  /-- Event head (R332, 16 bits). -/
  evHead : Nat := 0
  /-- Event tail (R332, 16 bits). -/
  evTail : Nat := 0
  /-- Round of the last SPI_CRC (R331). -/
  crcRound : Option Nat := none
  /-- Bytes returned by the last read, CRC-8 last (R331). -/
  out : List Nat := []
deriving DecidableEq, Repr

/-- The host link of this device. -/
structure HostSt where
  /-- CLT_BASE_LO.BASE_LO (R311, 20 bits). -/
  baseLo : Nat := 0
  /-- CLT_BASE_HI (R311, 32 bits). -/
  baseHi : Nat := 0
  /-- CLT_RANGE.FIRST (R312, 12 bits). -/
  first : Nat := 0
  /-- CLT_RANGE.COUNT (R312, 12 bits). -/
  cnt : Nat := 0
  /-- EVT_BASE_LO.EVT_LOG2 (R312, 4 bits). -/
  evtLog2 : Nat := 4
  /-- EVT_BASE_LO.BASE_LO (R312, 26 bits). -/
  evtLo : Nat := 0
  /-- EVT_BASE_HI (R312, 32 bits). -/
  evtHi : Nat := 0
  /-- HOST_CTL.EN (R312, 1 bits). -/
  en : Bool := false
  /-- HOST_CTL.EVT_EN (R312, 1 bits). -/
  evtEn : Bool := false
  /-- HOST_CTL.REFUSED (R312, 1 bits). -/
  refused : Bool := false
  /-- The turnstiles leave service at the next round boundary (R312, 1 bits). -/
  stopPend : Bool := false
  /-- HOST_CNT.STALE (R312, 16 bits). -/
  stale : Nat := 0
  /-- HOST_CNT.BAD_TS (R312, 16 bits). -/
  badTs : Nat := 0
  /-- LINK_STAT.SPEED (R505, 2 bits). -/
  speed : Nat := 0
  /-- LINK_STAT.ISL_A (R505, 1 bits). -/
  islA : Bool := false
  /-- LINK_STAT.ISL_B (R505, 1 bits). -/
  islB : Bool := false
  /-- Index memory and cache by client (R315, 4,096). -/
  clients : List Client := []
  /-- Tickets fetched and not processed, in service order (R319). -/
  fetched : List Fetched := []
  /-- Fetching has started (R475, 1 bits). -/
  fetchOn : Bool := false
  /-- Event head (R329, 16 bits). -/
  evHead : Nat := 0
  /-- Event tail (R329, 16 bits). -/
  evTail : Nat := 0
  /-- An event written since the last message of vector 0 (R330, 1 bits). -/
  evVec : Bool := false
  /-- A CHAIN_ALM bit newly set since the last message of vector 0 (R401, 1 bits). -/
  almVec : Bool := false
  /-- MSI-X table (R310, 1,024 bytes). -/
  msix : Mem := (List.range 64).map fun v => (16 * v + 12, 1)
  /-- MSI-X pending bits (R310, 64 bits). -/
  pba : Nat := 0
  /-- Vectors whose message was sent, newest first (R330). -/
  msgs : List Nat := []
  /-- The SPI windows (R331). -/
  win : Vector SpiWin 2 := Vector.replicate 2 {}
  /-- Bytes of host memory as the device has written them or last read them (R321). -/
  hostMem : Mem := []
  /-- Word the last register or AVSBus read returned (R507). -/
  bus : Option Nat := none
  /-- The last BAR0 access ended with Unsupported Request (R310, 1 bits). -/
  busUr : Bool := false
  /-- Acknowledge of the last AVSBus request (R86, 2 bits). -/
  avsAck : Option Nat := none
  /-- Uses of the entry cache so far (R315). -/
  useSeq : Nat := 0
  /-- Bursts of tickets fetched so far (R319). -/
  burstSeq : Nat := 0
  /-- Tickets processed in the ticket window of this round (R319, 11 bits). -/
  ticketN : Nat := 0
  /-- MSI-X Enable (R330, 1 bits). -/
  msixEn : Bool := false
  /-- MSI-X Function Mask (R330, 1 bits). -/
  fMask : Bool := false
  /-- The function is in D3hot, else in D0 (R309, 1 bits). -/
  d3 : Bool := false
  /-- An uncorrectable error stands in the AER status (R309, 1 bits). -/
  uncErr : Bool := false
deriving DecidableEq, Repr

/-- A claim in flight (R354 to R357). -/
structure Claim where
  /-- Claimant (R354, 12 bits). -/
  client : Nat := 0
  /-- Its generation (R354, 8 bits). -/
  gen : Nat := 0
  /-- SEQ of part 3 (R354, 16 bits). -/
  seq : Nat := 0
  /-- Candidate port (R350, 2 bits). -/
  port : Nat := 0
  /-- Device that fetched it (R355, 6 bits). -/
  dev : Nat := 0
  /-- KEY (R354, 2 bits). -/
  key : Nat := 0
  /-- EPOCH (R354, 32 bits). -/
  epoch : Nat := 0
  /-- Start of the claim's frame (R355, 64 bits). -/
  frame : Nat := 0
  /-- The failed check of R354 (R354, 3 bits). -/
  fail : Option Nat := none
  /-- Verification has completed (R355, 1 bits). -/
  verified : Bool := false
  /-- Public key (R354, 512 bits). -/
  xy : Nat := 0
  /-- Signature (R354, 512 bits). -/
  rs : Nat := 0
  /-- NONCE (R354, 64 bits). -/
  nonce : Nat := 0
  /-- Row of the refusals of R355, 0 to 4 (R355, 3 bits). -/
  refusal : Option Nat := none
  /-- Check 5 held when part 3 was processed (R354, 1 bits). -/
  ep5 : Bool := false
deriving DecidableEq, Repr

/-- A candidate port (R350, R362, R365). -/
structure PortSt where
  /-- FAILS (R368, 4 bits). -/
  fails : Nat := 0
  /-- LEVEL (R368, 4 bits). -/
  level : Nat := 0
  /-- REMAIN in rounds (R368, 22 bits). -/
  remain : Nat := 0
  /-- BENCHED (R368, 1 bits). -/
  benched : Bool := false
  /-- A running readmit check (R363). -/
  check : Option TkRef := none
  /-- Rounds of the check (R363, 5 bits). -/
  checkN : Nat := 0
  /-- The check failed in a round (R363, 1 bits). -/
  checkBad : Bool := false
  /-- The check started inside the round in progress (R363, 1 bits). -/
  checkNew : Bool := false
deriving DecidableEq, Repr

/-- Ownership. -/
structure OwnSt where
  /-- VALID (R368, 1 bits). -/
  valid : Bool := false
  /-- PORT (R368, 2 bits). -/
  port : Nat := 0
  /-- CLIENT (R368, 12 bits). -/
  client : Nat := 0
  /-- Generation of the owner client (R352, 8 bits). -/
  gen : Nat := 0
  /-- Device of the owner's port (R350, 6 bits). -/
  ownDev : Nat := 0
  /-- EPOCH (R368, 32 bits). -/
  epoch : Nat := 0
  /-- The epoch as committed (R357, 32 bits). -/
  epochNvm : Nat := 0
  /-- Devices that hold ports 0 and 1 (R350, 6 each). -/
  headDev : Vector (Option Nat) 2 := Vector.replicate 2 none
  /-- KEEPER (R368, 6 bits). -/
  keeper : Nat := 0
  /-- The four ports (R368). -/
  ports : Vector PortSt 4 := Vector.replicate 4 {}
  /-- Won claim or handover awaiting effect: port, client, generation, epoch (R357). -/
  pend : Option (Nat × Nat × Nat × Nat) := none
  /-- The winner's part-3 ticket; none for a handover (R357). -/
  pendRef : Option TkRef := none
  /-- Boundary of the decision (R357, 64 bits). -/
  pendFrom : Nat := 0
  /-- Device that fetched the winner's claim (R357, 6 bits). -/
  pendDev : Nat := 0
  /-- What awaits its effect is a handover (R364, 1 bits). -/
  pendHand : Bool := false
  /-- Key slot of the won claim, 4 for none (R357, 3 bits). -/
  pendKey : Nat := 4
  /-- Devices that have acknowledged the epoch (R357). -/
  acks : List Nat := []
  /-- Claims in flight (R355). -/
  claims : List Claim := []
  /-- Deposed owner clients (R362). -/
  deposed : List Nat := []
  /-- Round of the last OWNER_DEPOSED of a deposed client (R362). -/
  depRound : List (Nat × Nat) := []
  /-- A heartbeat was counted for this round (R360, 1 bits). -/
  beatSeen : Bool := false
  /-- Consecutive rounds without a counted heartbeat (R361, 10 bits). -/
  silent : Nat := 0
  /-- The owner's generation changed, so ownership ends at the next round boundary (R361, 1 bits). -/
  genEnd : Bool := false
  /-- (epoch, port) of claims that have won since start-up (R355). -/
  wonEpochs : List (Nat × Nat) := []
  /-- Consecutive rounds without an ownership record, to 2 (R394, 2 bits). -/
  noRec : Nat := 0
  /-- EPOCH_END posted (R359, 1 bits). -/
  endPosted : Bool := false
  /-- KEY_MISMATCH stands (R353, 1 bits). -/
  mismatch : Bool := false
  /-- An ownership record came in this round (R394, 1 bits). -/
  recSeen : Bool := false
  /-- Port of an accepted handover that waits until the effect that awaits its boundary has been (R364, 2 bits). -/
  handQ : Option Nat := none
  /-- Boundary up to which lockout time has run (R365, 64 bits). -/
  portsAt : Nat := 0
  /-- Candidate ports of the keeper's record (R350, 4 bits). -/
  cand : List Nat := []
deriving DecidableEq, Repr

/-- A packet of the ring (R375). -/
structure RingPkt where
  /-- 0 ticket, 1 stub, 2 alarm, 3 telemetry, 4 trace (R375, 8 bits). -/
  kind : Nat := 0
  /-- SRC (R375, 6 bits). -/
  src : Nat := 0
  /-- DST, bit 6 for a broadcast (R375, 7 bits). -/
  dst : Nat := 0
  /-- KIND of an alarm packet (R401, 8 bits). -/
  code : Nat := 0
  /-- The body (R375, 512 bits). -/
  body : Nat := 0
  /-- ACKs returned since it was sent (R376, 2 bits). -/
  tries : Nat := 0
  /-- The port it must leave by, none for the route of R377 (R388, 1 bits). -/
  via : Option Side := none
  /-- LEN of a telemetry or trace packet, in 4-byte units (R375, 5 bits). -/
  len : Nat := 4
  /-- Data that a stub packet brings along (R321). -/
  data : List Nat := []
deriving DecidableEq, Repr

/-- One port of the ring (R370 to R391). -/
structure LinkSt where
  /-- LINK_E or LINK_W (R395, 2 bits). -/
  st : LinkState := .down
  /-- HOP_E or HOP_W (R395, 16 bits). -/
  hop : Nat := 0
  /-- The receive lane is DOWN, so K28.1 is sent (R388, 1 bits). -/
  rxDown : Bool := false
  /-- K28.1 beat symbols received in a row (R388, 2 bits). -/
  k281 : Nat := 0
  /-- Beat symbols missed in a row (R388, 3 bits). -/
  missed : Nat := 0
  /-- CRC failures of the frame (R388, 4 bits). -/
  crcFrame : Nat := 0
  /-- Consecutive clean rounds UP (R391, 5 bits). -/
  cleanRounds : Nat := 0
  /-- Wraps at the next beat boundary (R388, 1 bits). -/
  wrapPend : Bool := false
  /-- Good alarm packets counted (R376, 16 bits). -/
  rxAlarm : Nat := 0
  /-- Good ticket-class packets counted (R376, 16 bits). -/
  rxTicket : Nat := 0
  /-- Alarm packets unacknowledged (R376). -/
  unAlarm : List RingPkt := []
  /-- Ticket-class packets unacknowledged (R376). -/
  unTicket : List RingPkt := []
  /-- Alarm packets acknowledged (R376, 16 bits). -/
  ackAlarm : Nat := 0
  /-- Ticket packets acknowledged (R376, 16 bits). -/
  ackTicket : Nat := 0
  /-- Packets in the in-order hold (R389). -/
  hold : List RingPkt := []
  /-- An alarm packet failed and is awaited (R376, 1 bits). -/
  waitAlarm : Bool := false
  /-- A ticket-class packet failed and is awaited (R376, 1 bits). -/
  waitTicket : Bool := false
  /-- Symbols of the packet in progress that the next ring beats carry (R374, 7 bits). -/
  debt : Nat := 0
  /-- Deficit of the ticket class in symbols (R374). -/
  defT : Nat := 0
  /-- Deficit of the telemetry class in symbols (R374). -/
  defM : Nat := 0
  /-- The link is UP again behind a wrap (R391, 1 bits). -/
  retrained : Bool := false
  /-- A packet failed its CRC in this round (R391, 1 bits). -/
  crcRound : Bool := false
  /-- The beat symbol of the last ring beat sent was K28.1 (R373, 1 bits). -/
  txK281 : Bool := false
  /-- The gang slots G0 to G2 of the last ring beat sent, none for K23.7 (R373, 64 each). -/
  slots : Vector (Option Nat) 3 := Vector.replicate 3 none
  /-- Packets to pass on in the gang slots of the next ring beat (R379, 64 each). -/
  pass : Vector (Option Nat) 3 := Vector.replicate 3 none
  /-- Symbols of the shared region of the last ring beat sent that carried K23.7 (R373, 7 bits). -/
  idle : Nat := 0
deriving DecidableEq, Repr

/-- A forwarded ticket whose stub has not come back (R378). -/
structure FwdEnt where
  /-- Forwarding count (R378, 14 bits). -/
  n : Nat := 0
  /-- The ticket (R378). -/
  ref : TkRef := {}
  /-- Beat of the forwarding; 2^64 once a final stub alone is awaited (R378, 64 bits). -/
  atBeat : Nat := 0
  /-- Segments of the ticket for the data of its answer (R321). -/
  segs : List (Nat × Nat) := []
  /-- CURSOR of the ticket (R327, 32 bits). -/
  cur : Nat := 0
deriving DecidableEq, Repr

/-- What this device holds of another device of the chain. -/
structure DevSt where
  /-- Round of its last PRESENCE (R392, 64 bits). -/
  seen : Nat := 0
  /-- Consecutive rounds without PRESENCE (R392, 2 bits). -/
  missing : Nat := 0
  /-- Benched chain device (R392, 1 bits). -/
  benched : Bool := false
  /-- Declared dead (R392, 1 bits). -/
  dead : Bool := false
  /-- Round of the last DEV_SPEAKS (R393). -/
  speaksRound : Option Nat := none
  /-- ARB_STAT bits of its PRESENCE (R392, 8 bits). -/
  arb : Nat := 0
  /-- Its barker flag (R472, 1 bits). -/
  barker : Bool := false
  /-- Its head state (R392, 1 bits). -/
  head : Bool := false
  /-- Announced client range (R387). -/
  range : Option (Nat × Nat) := none
  /-- Round of the last announcement (R401, 64 bits). -/
  rangeRound : Nat := 0
  /-- Its key-slot states (R447). -/
  slots : List SlotInfo := []
  /-- It has reached step 8 (R471, 1 bits). -/
  step8 : Bool := false
  /-- Its last PRESENCE named a loss of alignment or a CRC failure (R395, 1 bits). -/
  presBad : Bool := false
  /-- CHAIN_ALM (R402, 64 bits). -/
  alm : Nat := 0
  /-- A running readmit check (R395). -/
  check : Option TkRef := none
  /-- Rounds of the check (R395, 5 bits). -/
  checkN : Nat := 0
  /-- A round of the check failed (R395, 1 bits). -/
  checkBad : Bool := false
  /-- Forwarding count this head has written towards it (R378, 13 bits). -/
  fwdTx : Nat := 0
  /-- Forwarding count expected from it as a head (R378, 13 bits). -/
  fwdRx : Nat := 0
  /-- (count, ticket, beat) held ahead of a gap (R378). -/
  fwdHold : List (Nat × Nat × Nat) := []
  /-- Tickets forwarded and not answered (R378). -/
  fwdOut : List FwdEnt := []
  /-- The chain holds the device (R371, 1 bits). -/
  known : Bool := false
  /-- COMPLETE epoch reset rows it reported (R455, 3 bits). -/
  epochRows : Nat := 0
  /-- Trace stream of the device that this head serves: ticket, next offset, segments (R410). -/
  stream : Option (TkRef × Nat × List (Nat × Nat)) := none
  /-- The check started inside the round in progress (R395, 1 bits). -/
  checkNew : Bool := false
  /-- Its designated clients in service, of its PRESENCE (R350, 3 bits). -/
  svc : Nat := 0
deriving DecidableEq, Repr

/-- A chain ticket of this head whose parts other devices still answer (R347). -/
structure ChainOut where
  /-- The ticket (R347). -/
  ref : TkRef := {}
  /-- Devices that have not answered (R347). -/
  wait : List Nat := []
  /-- Status so far (R347, 8 bits). -/
  status : Nat := 0
  /-- EXTRA so far (R347, 16 bits). -/
  extra : Nat := 0
  /-- VALUE so far (R347, 64 bits). -/
  value : Nat := 0
  /-- Lowest-numbered refusing device, 64 for none (R347, 7 bits). -/
  dev : Nat := 64
  /-- Segments for the data of a read (R345). -/
  segs : List (Nat × Nat) := []
  /-- CURSOR of a read (R345, 32 bits). -/
  cur : Nat := 0
  /-- Bytes per device of the source of a read (R345, 19 bits). -/
  per : Nat := 0
deriving DecidableEq, Repr

/-- The Finlumal ring. -/
structure RingSt where
  /-- DEVNUM from CID[5:0] (R371, 6 bits). -/
  num : Nat := 0
  /-- NDEV (R395, 6 bits). -/
  ndev : Nat := 0
  /-- ALIGNED (R395, 1 bits). -/
  aligned : Bool := false
  /-- BENCHED (R395, 1 bits). -/
  benchedMe : Bool := false
  /-- The device is out by its playbook's BENCH_DEVICE, until a rail of it is readmitted (R213, 1 bits). -/
  outMe : Bool := false
  /-- The reference neighbour is the east one (R383, 1 bits). -/
  refEast : Bool := false
  /-- East and west ports (R395). -/
  links : Vector LinkSt 2 := Vector.replicate 2 {}
  /-- RING_ERR.CRC (R395, 16 bits). -/
  crc : Nat := 0
  /-- RING_ERR.RESENT (R395, 8 bits). -/
  resent : Nat := 0
  /-- RING_ERR.GAP (R395, 8 bits). -/
  gap : Nat := 0
  /-- Cuts known, as (device, port) (R388). -/
  cuts : List (Nat × Side) := []
  /-- The devices of the chain (R371). -/
  devs : Vector DevSt 64 := Vector.replicate 64 {}
  /-- Packets waiting for the transmit scheduler, oldest first (R374). -/
  tx : List RingPkt := []
  /-- Alarm kinds whose report is due (R401, 64 bits). -/
  almDirty : Nat := 0
  /-- Alarm kinds raised in the frame almNewAt (R401, 64 bits). -/
  almNew : Nat := 0
  /-- Frame of the raises in almNew (R401, 64 bits). -/
  almNewAt : Nat := 0
  /-- Heads to which every set latch is reported at the next frame boundary (R401). -/
  almAll : List Nat := []
  /-- RING_SPLIT posted (R390, 1 bits). -/
  splitPosted : Bool := false
  /-- Chain tickets under way (R347). -/
  chainOut : List ChainOut := []
  /-- Beat at which the keeper has seen every device reach step 8 (R471, 64 bits). -/
  ready8 : Option Nat := none
deriving DecidableEq, Repr

/-- An alarm kind (R400, R401). -/
structure AlarmSt where
  /-- Latch (R400, 1 bits). -/
  isSet : Bool := false
  /-- Count (R400, 16 bits). -/
  count : Nat := 0
  /-- Beat of the first raise since the last clear (R401, 64 bits). -/
  first : Nat := 0
  /-- Beat of the latest raise (R401, 64 bits). -/
  last : Nat := 0
deriving DecidableEq, Repr

/-- A drop summary entry (R406). -/
structure SumEnt where
  /-- Code, 0xFF for several classes (R406, 8 bits). -/
  code : Nat := 0
  /-- Beat of the first drop (R406, 64 bits). -/
  t1 : Nat := 0
  /-- Events dropped (R406, 32 bits). -/
  n : Nat := 0
  /-- Beat of the last drop (R406, 64 bits). -/
  t2 : Nat := 0
deriving DecidableEq, Repr

/-- A performance counter pair (R411). -/
structure CntPair where
  /-- Even counter (R411, 32 bits). -/
  lo : Nat := 0
  /-- Odd counter (R411, 32 bits). -/
  hi : Nat := 0
  /-- Select of the even counter (R412, 3 bits). -/
  selLo : Nat := 0
  /-- Select of the odd counter (R412, 3 bits). -/
  selHi : Nat := 0
  /-- Chained (R411, 1 bits). -/
  chain : Bool := true
  /-- Sampling of the even counter or of the chained count (R414, 1 bits). -/
  sampLo : Bool := false
  /-- Sampling of the odd counter (R414, 1 bits). -/
  sampHi : Bool := false
deriving DecidableEq, Repr

/-- The blocks of Table 16.6: (first block, number of blocks, counter pairs of each), in block order. -/
def cntBlocks : List (Nat × Nat × Nat) :=
  [(0x000, 48, 2), (0x040, 12, 2), (0x050, 2, 4), (0x052, 2, 4), (0x054, 1, 4), (0x055, 1, 4), (0x056, 2, 2), (0x058, 3, 2),
   (0x05B, 1, 2), (0x05C, 1, 4)]

/-- The first counter pair of a block, and how many pairs it has. -/
def cntFind (blk : Nat) : List (Nat × Nat × Nat) → Nat → Option (Nat × Nat)
  | [], _ => none
  | (b, n, k) :: r, p => if b ≤ blk ∧ blk < b + n then some (p + (blk - b) * k, k) else cntFind blk r (p + n * k)

/-- The pairs from pair `p` on, in block order, each with its number in its block: pair j counts event j (R411). -/
def cntSels : List (Nat × Nat × Nat) → List Nat
  | [] => []
  | (_, n, k) :: r => (List.replicate n (List.range k)).flatten ++ cntSels r

/-- The counters at reset: chained, pair j of a block on event j, all 0 (R411, R412). -/
def initCnts : Vector CntPair 160 :=
  Vector.ofFn fun i => { selLo := (cntSels cntBlocks).getD i.val 0, selHi := (cntSels cntBlocks).getD i.val 0 }

/-- Results and baselines of the ageing measurements as the NVM holds them (R287). -/
structure AgeRec where
  /-- Points, baseline and count of each phase (R287). -/
  loss : Vector (List (Int × Int) × Option Q × Nat) 48 := Vector.replicate 48 ([], none, 0)
  /-- C of each rail in 10 uF (R287). -/
  capC : Vector Nat 12 := Vector.replicate 12 0
  /-- ESR of each rail in 0.01 mOhm (R287). -/
  capEsr : Vector Nat 12 := Vector.replicate 12 0
  /-- Drift of each die's ring oscillators in 0.1 % (R287). -/
  ro : Vector (Vector Int 4) 2 := Vector.replicate 2 (Vector.replicate 4 0)
  /-- Resistance points and baseline of each feed (R287). -/
  feed : Vector (List Q × Option Q) 2 := Vector.replicate 2 ([], none)
deriving DecidableEq, Repr

/-- What stood in NVM before the commit of this round (R451). -/
structure JrnPrev where
  /-- Journal (R451). -/
  journal : List (Nat × Nat) := []
  /-- Next place (R451, 12 bits). -/
  jnlNext : Nat := 0
  /-- THERM_REC records that the commit took (R285). -/
  recs : List ThermRec := []
  /-- Alarm count mirror (R400, 16 each). -/
  alm : Vector Nat 64 := Vector.replicate 64 0
  /-- Alarm latch mirror (R400, 64 bits). -/
  almSet : Nat := 0
  /-- Ageing results before the commit (R287). -/
  age : AgeRec := {}
deriving DecidableEq, Repr

/-- Alarms, events, trace and counters. -/
structure LogSt where
  /-- The alarm kinds (R400). -/
  alarms : Vector AlarmSt 64 := Vector.replicate 64 {}
  /-- Events generated and not yet staged, oldest first (R403). -/
  staged : List Event := []
  /-- (code, scope, unit) of the events generated since the last evaluation of the playbook (R208). -/
  evalQ : List (Nat × Nat × Nat) := []
  /-- Ring queue, oldest first (R403, 256 records). -/
  ringQ : List Event := []
  /-- Journal queue, oldest first (R403, 256 records). -/
  jrnQ : List Event := []
  /-- Summary entries of the ring queue (R406, 17 entries). -/
  ringSum : List SumEnt := []
  /-- Summary entries of the journal queue (R406, 17 entries). -/
  jrnSum : List SumEnt := []
  /-- Next ESEQ (R399, 16 bits). -/
  eseq : Nat := 0
  /-- Journal: (place, 32-byte record) of every place written, newest first (R405, 4,096 records). -/
  journal : List (Nat × Nat) := []
  /-- Place of the next journal record (R405, 12 bits). -/
  jnlNext : Nat := 0
  /-- What the commit of this round replaced, until it is durable (R451). -/
  prev : Option JrnPrev := none
  /-- TOKENS (R416, 12 bits). -/
  tokens : Nat := 2048
  /-- Round of the last token refill (R405, 64 bits). -/
  refillAt : Nat := 0
  /-- JRO (R416, 1 bits). -/
  jro : Bool := false
  /-- Trace buffer, newest first (R408, 4,096 entries). -/
  trace : List TraceEnt := []
  /-- TSEQ (R408, 16 bits). -/
  tseq : Nat := 0
  /-- Entries overwritten in this span (R409). -/
  lost : Nat := 0
  /-- Entries overwritten in this span up to the last round boundary (R409). -/
  lostMark : Nat := 0
  /-- Rounds of this span in which entries were overwritten (R409, 10 bits). -/
  overRounds : Nat := 0
  /-- Trace stream: ticket, entries written, next offset, segments (R410). -/
  stream : Option (TkRef × Nat × Nat × List (Nat × Nat)) := none
  /-- Counter pairs in block order (R411). -/
  cnts : Vector CntPair 160 := initCnts
  /-- The last snapshot, as 32-bit words (R413, 4 KiB). -/
  snap : List Nat := []
  /-- Beat of the last snapshot (R413, 64 bits). -/
  snapAt : Nat := 0
  /-- The round's snapshot is delayed by an overrun (R413, 1 bits). -/
  snapDue : Bool := false
  /-- Alarm or state-log changes wait for the next commit (R451, 1 bits). -/
  dirtyLog : Bool := false
  /-- Newest trace entries that wait for the trace class of the ring (R410, 13 bits). -/
  traceWait : Nat := 0
deriving DecidableEq, Repr

/-- A watchdog verdict not yet given (R421). -/
structure Verdict where
  /-- Slot (R421, 4 bits). -/
  slot : Nat := 0
  /-- Start of the period (R421, 64 bits). -/
  beg : Nat := 0
  /-- End E of the period (R421, 64 bits). -/
  fin : Nat := 0
  /-- Client of the slot in that period (R421, 12 bits). -/
  client : Nat := 0
  /-- Rounds until the verdict is given in any case (R421, 5 bits). -/
  left : Nat := 16
  /-- A check-in counted (R421, 1 bits). -/
  good : Bool := false
deriving DecidableEq, Repr

/-- A check-in slot (R417). -/
structure SlotSt where
  /-- Armed (R417, 1 bits). -/
  armed : Bool := false
  /-- Client (R417, 12 bits). -/
  client : Nat := 0
  /-- Period in rounds (R417, 16 bits). -/
  period : Nat := 0
  /-- Start of the period in progress (R418, 64 bits). -/
  beg : Nat := 0
  /-- A check-in counted for the period in progress (R419, 1 bits). -/
  good : Bool := false
  /-- MISSED (R424, 1 bits). -/
  missed : Bool := false
deriving DecidableEq, Repr

/-- The calendar (R427). -/
structure Cal where
  /-- SEC (R430, 6 bits). -/
  sec : Nat := 0
  /-- MIN (R430, 6 bits). -/
  min : Nat := 0
  /-- HOUR (R430, 5 bits). -/
  hour : Nat := 0
  /-- DAY (R430, 5 bits). -/
  day : Nat := 1
  /-- MONTH (R430, 4 bits). -/
  month : Nat := 1
  /-- YEAR, less 2000 (R430, 8 bits). -/
  year : Nat := 0
deriving DecidableEq, Repr

/-- The frozen RTC shadows of one path (R430). -/
structure RtcShadow where
  /-- Frozen (R430, 1 bits). -/
  frozen : Bool := false
  /-- Calendar as frozen (R430). -/
  cal : Cal := {}
  /-- Prescaler as frozen (R430, 15 bits). -/
  pre : Nat := 0
  /-- VALID as frozen (R430, 1 bits). -/
  valid : Bool := false
  /-- SHIFTING as frozen (R430, 1 bits). -/
  shifting : Bool := false
  /-- SUPPLY as frozen (R430, 1 bits). -/
  supply : Bool := false
  /-- Beat of the freeze (R430, 64 bits). -/
  atBeat : Nat := 0
deriving DecidableEq, Repr

/-- Watchdogs, wake and RTC. -/
structure WdSt where
  /-- Check-in slots (R417). -/
  slots : Vector SlotSt 16 := Vector.replicate 16 {}
  /-- Verdicts due, oldest first (R421). -/
  verdicts : List Verdict := []
  /-- RST_CNT (R424, 16 bits). -/
  rstCnt : Nat := 0
  /-- RST_CNT mirror (R424, 16 bits). -/
  rstNvm : Nat := 0
  /-- The core is halted by a debugger (R426, 1 each). -/
  halted : Vector Bool 2 := Vector.replicate 2 false
  /-- The core is restarting (R425, 1 each). -/
  restart : Vector Bool 2 := Vector.replicate 2 false
  /-- First watchdog deadline after a release (R426, 64 each). -/
  grace : Vector (Option Nat) 2 := Vector.replicate 2 none
  /-- Wake cause RTC (R434, 1 bits). -/
  wakeRtc : Bool := false
  /-- Wake cause BTN (R434, 1 bits). -/
  wakeBtn : Bool := false
  /-- Wake cause WARN (R434, 1 bits). -/
  wakeWarn : Bool := false
  /-- Wake cause FAULT (R434, 1 bits). -/
  wakeFault : Bool := false
  /-- Prescaler (R427, 15 bits). -/
  pre : Nat := 0
  /-- Calendar (R427). -/
  cal : Cal := {}
  /-- The calendar has reached its end (R427, 1 bits). -/
  ended : Bool := false
  /-- VALID (R430, 1 bits). -/
  valid : Bool := false
  /-- Increments still withheld by a negative shift (R432, 16 bits). -/
  withhold : Nat := 0
  /-- SHIFTING (R430, 1 bits). -/
  shifting : Bool := false
  /-- The shifts that act at the next RTC edge (R432, 17 bits). -/
  shiftPend : List Int := []
  /-- The prescaler resets at the next RTC edge (R431, 1 bits). -/
  setPend : Bool := false
  /-- SUPPLY: VRTC from VBAK (R430, 1 bits). -/
  supply : Bool := false
  /-- The crystal is stopped (R428, 1 bits). -/
  stopped : Bool := false
  /-- Prescaler counts to add or drop in this window (R429). -/
  comp : Int := 0
  /-- RTC edges of the window (R429). -/
  compDone : Nat := 0
  /-- Wake period in 1/64 s, 0 disarmed (R433, 23 bits). -/
  wakeW : Nat := 0
  /-- Ticks counted (R433, 23 bits). -/
  wakeN : Nat := 0
  /-- Shadows of BAR0, SPI_A and SPI_B (R430). -/
  shadows : Vector RtcShadow 3 := Vector.replicate 3 {}
  /-- An RTC_SUPPLY event due at the next start-up (R435). -/
  rtcPosted : Option Bool := none
  /-- An RTC_FAULT event due at the next start-up (R428, 1 bits). -/
  faultPend : Bool := false
deriving DecidableEq, Repr

/-- A fuse write in progress (R443, R444). -/
structure FuseWr where
  /-- The FUSE_WRITE ticket (R443). -/
  ref : TkRef := {}
  /-- Die named (R443, 2 bits). -/
  die : Nat := 0
  /-- Row named (R443, 8 bits). -/
  row : Nat := 0
  /-- DATA (R443, 64 bits). -/
  data : Nat := 0
deriving DecidableEq, Repr

/-- The fuses of one die (R437, R442). -/
structure OtpDie where
  /-- (row, 80 fuses) of every row that is not BLANK, logical rows first, spares from 0x100 (R437, 80 fuses a row). -/
  rows : List (Nat × Nat) := []
  /-- (index, copy 0, copy 1) of redirection entries (R442, 16 bits twice). -/
  redir : List (Nat × Nat × Nat) := []
deriving DecidableEq, Repr

/-- OTP, RRAM and security. -/
structure NvmSt where
  /-- Fuses of Die A, B and P; at the first reset domain H holds DATA 0 and its CRC row, every other row is BLANK (R437). -/
  otp : Vector OtpDie 3 := #v[{ rows := [(0x40, 0xff2600000000b2aa7578)] }, { rows := [(0x40, 0xff2600000000b2aa7578)] }, { rows := [(0x32, 0xff140000000046220d0c)] }]
  /-- OTP_RESULT (R460, 2 bits). -/
  result : Nat := 0
  /-- UNPROV (R460, 1 bits). -/
  unprov : Bool := false
  /-- POLICY_HOLD (R460, 1 bits). -/
  hold : Bool := false
  /-- Both control dies are held in reset under HOLD_RESET (R446, 1 bits). -/
  inReset : Bool := false
  /-- VOID (R460, 1 bits). -/
  void : Bool := false
  /-- DEBUG_OPEN (R460, 1 bits). -/
  debugOpen : Bool := false
  /-- Voiding runs, with the unlock ticket when one asked (R460, 1 bits). -/
  voiding : Option (Option TkRef) := none
  /-- A fuse write running (R444). -/
  fuse : Option FuseWr := none
  /-- Stub of a completed fuse write, due at the next round boundary (R444). -/
  fuseStub : Option Stub := none
  /-- Image bytes of slot A (R450). -/
  slotA : Mem := []
  /-- Image bytes of slot B (R450). -/
  slotB : Mem := []
  /-- Extent of slot A in bytes (R450). -/
  extA : Nat := 0
  /-- Extent of slot B in bytes (R450). -/
  extB : Nat := 0
  /-- Overlays committed into slot A: (index, delta bytes, record form) (R487). -/
  ovlA : List (Nat × Nat × Mem) := []
  /-- Overlays committed into slot B: (index, delta bytes, record form) (R487). -/
  ovlB : List (Nat × Nat × Mem) := []
  /-- The slot was written since its last commit (R450, 1 each). -/
  wrote : Vector Bool 2 := Vector.replicate 2 false
  /-- The preferred image was committed and has not been loaded, so its load clears the revisions (R292, 1 bits). -/
  newBase : Bool := false
  /-- Bytes of a chain bundle received since the last image commit (R478). -/
  bundle : Mem := []
  /-- Highest byte of the bundle received (R478). -/
  bundleLen : Nat := 0
  /-- Overlay staging area (R487, 256 KiB). -/
  staging : Mem := []
  /-- Preferred mark: slot B when true (R482). -/
  pref : Option Bool := none
  /-- IMG_VER floor (R483, 32 bits). -/
  verFloor : Nat := 0
  /-- VERSION (R460, 32 bits). -/
  cfgVer : Nat := 0
  /-- SPARES_USED (R460, 5 bits). -/
  spares : Nat := 0
  /-- NVM_RO (R460, 1 bits). -/
  nvmRo : Bool := false
  /-- Journal sectors taken as spares (R453, 6 bits). -/
  jrnTaken : Nat := 0
  /-- (sector, erases) (R450). -/
  erases : List (Nat × Nat) := []
  /-- The key sector holds the wrapped attestation key (R450). -/
  keySector : Bool := true
  /-- WON flags of the key slots (R455, 4 bits). -/
  won : Nat := 0
  /-- Number of the last complete commit (R451). -/
  commits : Nat := 0
  /-- PH_WEAR as committed (R70, 32 each). -/
  wearNvm : Vector Nat 48 := Vector.replicate 48 0
  /-- Alarm count mirror (R400, 16 each). -/
  almNvm : Vector Nat 64 := Vector.replicate 64 0
  /-- Alarm latch mirror (R400, 64 bits). -/
  almSetNvm : Nat := 0
  /-- FAILS, LEVEL, REMAIN as committed (R366). -/
  portNvm : Vector (Nat × Nat × Nat) 4 := Vector.replicate 4 (0, 0, 0)
  /-- CNT_EXHAUST posted for the epoch, the configuration version (R454, 1 each). -/
  exhaust : Vector Bool 2 := Vector.replicate 2 false
  /-- Serial number as read at the OTP step (R460, 128 bits). -/
  serial : Nat := 0
  /-- Epoch resets that have acted (R450, 3 bits). -/
  epochRsts : Nat := 0
  /-- Configuration-version resets that have acted (R450, 3 bits). -/
  cfgRsts : Nat := 0
  /-- Ageing results and baselines (R287). -/
  age : AgeRec := {}
deriving DecidableEq, Repr

/-- Start-up (R462 to R476). -/
structure StartSt where
  /-- STEP (R476, 4 bits). -/
  step : Nat := 0
  /-- BARKER (R476, 1 bits). -/
  barker : Bool := false
  /-- NOIMG (R476, 1 bits). -/
  noimg : Bool := false
  /-- NOOWN (R476, 1 bits). -/
  noown : Bool := false
  /-- SOLO (R476, 1 bits). -/
  solo : Bool := false
  /-- RESET_CAUSE.CAUSE (R476, 3 bits). -/
  cause : Nat := 0
  /-- AON_LOST (R476, 1 bits). -/
  aonLost : Bool := false
  /-- SELFTEST_A.FAIL (R476, 8 bits). -/
  failA : Nat := 0
  /-- SELFTEST_B.FAIL (R476, 8 bits). -/
  failB : Nat := 0
  /-- SELFTEST_P.FAIL (R476, 8 bits). -/
  failP : Nat := 0
  /-- SELFTEST_A.DONE (R476, 1 bits). -/
  doneA : Bool := false
  /-- SELFTEST_B.DONE (R476, 1 bits). -/
  doneB : Bool := false
  /-- SELFTEST_P.DONE (R476, 1 bits). -/
  doneP : Bool := false
  /-- Beat at which step 7, and then step 8, began (R470, 64 bits). -/
  ownFrom : Nat := 0
  /-- Beat at which step 5 began (R468, 64 bits). -/
  enter5 : Nat := 0
  /-- The chain programmes with AUTO = 1 were started (R471, 1 bits). -/
  chainAuto : Bool := false
deriving DecidableEq, Repr

/-- The configuration in force: every record of Table 20.2 as the number its bytes make (R480). -/
structure Cfg where
  /-- PH_CFG (R73, 128 each). -/
  phCfg : Vector Nat 48 := Vector.replicate 48 dPhCfg
  /-- PH_POOL (R117, 32 each). -/
  phPool : Vector Nat 48 := Vector.replicate 48 0
  /-- RAIL_CFG (R111, 256 each). -/
  railCfg : Vector Nat 12 := Vector.replicate 12 dRailCfg
  /-- RAIL_COMP (R113, 256 each). -/
  railComp : Vector Nat 12 := Vector.replicate 12 0
  /-- RAIL_CHAIN (R132, 128 each). -/
  railChain : Vector Nat 12 := Vector.replicate 12 dRailChain
  /-- FC_CFG (R144, 128 each). -/
  fcCfg : Vector Nat 12 := Vector.replicate 12 dFcCfg
  /-- SUP_CFG (R203, 128 each). -/
  supCfg : Vector Nat 12 := Vector.replicate 12 dSupCfg
  /-- MP_CFG (R289, 128 each). -/
  mpCfg : Vector Nat 12 := Vector.replicate 12 dMpCfg
  /-- MP_COMP1 to MP_COMP3, rail-major (R289, 256 each). -/
  mpComp : Vector Nat 36 := Vector.replicate 36 0
  /-- REGION_CFG (R119, 128 each). -/
  regionCfg : Vector Nat 6 := Vector.replicate 6 dRegionCfg
  /-- TWIN_CFG (R183, 128 bits). -/
  twinCfg : Vector Nat 1 := Vector.replicate 1 dTwinCfg
  /-- FEED_CFG (R238, 128 bits). -/
  feedCfg : Vector Nat 1 := Vector.replicate 1 dFeedCfg
  /-- CHAIN_FEED (R239, 512 bits). -/
  chainFeed : Vector Nat 1 := Vector.replicate 1 0
  /-- HK_CFG (R246, 64 each). -/
  hkCfg : Vector Nat 14 := Vector.replicate 14 dHkCfg
  /-- PACK_CFG (R257, 256 bits). -/
  packCfg : Vector Nat 1 := Vector.replicate 1 dPackCfg
  /-- GAUGE_OCV (R267, 336 bits). -/
  gaugeOcv : Vector Nat 1 := Vector.replicate 1 0
  /-- THERM_CFG (R280, 256 bits). -/
  thermCfg : Vector Nat 1 := Vector.replicate 1 dThermCfg
  /-- METER_AIN (R296, 32 each). -/
  meterAin : Vector Nat 32 := Vector.replicate 32 256
  /-- METER_TMR (R297, 32 each). -/
  meterTmr : Vector Nat 8 := Vector.replicate 8 0
  /-- METER_SEQ with entries (R298, 640 each). -/
  meterSeq : Vector Nat 32 := Vector.replicate 32 dMeterSeq
  /-- RTC_CFG (R429, 32 bits). -/
  rtcCfg : Vector Nat 1 := Vector.replicate 1 dRtcCfg
  /-- OWN_CFG (R367, 64 bits). -/
  ownCfg : Vector Nat 1 := Vector.replicate 1 dOwnCfg
  /-- START_CFG (R471, 64 bits). -/
  startCfg : Vector Nat 1 := Vector.replicate 1 dStartCfg
  /-- RING_CFG (R379, 128 bits). -/
  ringCfg : Vector Nat 1 := Vector.replicate 1 0
  /-- SEQ_PROG (R217, 64 each). -/
  seqProg : Vector Nat 8 := Vector.replicate 8 dSeqProg
  /-- SEQ_STEP (R217, 64 each). -/
  seqStep : Vector Nat 128 := Vector.replicate 128 0
  /-- ROT_PERIOD, at its default: no record of Table 20.2 holds it (R72, 16 bits). -/
  rotPeriod : Nat := 1000
  /-- ROT_DELTA, at its default: no record of Table 20.2 holds it (R72, 16 bits). -/
  rotDelta : Nat := 100
deriving DecidableEq, Repr

/-- A playbook order in force (R206, R490). -/
structure Order where
  /-- Order index (R490, 9 bits). -/
  idx : Nat := 0
  /-- 0 safety net, 1 base, 2 overlay (R490, 2 bits). -/
  layer : Nat := 0
  /-- PB_ORDER (R207, 128 bits). -/
  word : Nat := 0
deriving DecidableEq, Repr

/-- Images, overlays and the playbook. -/
structure CfgSt where
  /-- Configuration in force: base, overlay and revisions (R480). -/
  cfg : Cfg := {}
  /-- The base of the image in force (R480). -/
  base : Cfg := {}
  /-- Base and overlay in force, without the margin-plan revisions (R292). -/
  plain : Cfg := {}
  /-- The playbook in force (R490, 512 orders). -/
  orders : List Order := []
  /-- The safety net as read at start-up (R490, 48 orders). -/
  netOrders : List Nat := []
  /-- Base orders of the image in force (R490, 464 orders). -/
  baseOrders : List Nat := []
  /-- Slot in force: B when true (R469). -/
  inForce : Option Bool := none
  /-- IMG_VER of the image in force (R479, 32 bits). -/
  imgVer : Nat := 0
  /-- Overlay in force (R488, 3 bits). -/
  ovl : Nat := 0
  /-- Chain selections under query: ticket, its 64 bytes, boundary of the switch (R488). -/
  chainSel : List (TkRef × Nat × Nat) := []
  /-- The overlay in force was replaced, and takes force anew at this boundary (R487, 64 bits). -/
  reselect : Option Nat := none
  /-- An image was activated live at this boundary (R484, 1 bits). -/
  live : Bool := false
  /-- Boundary at which the overlay in force came into force (R349, 64 bits). -/
  switchAt : Option Nat := none
  /-- Delta bytes of the largest overlay of the image (R33). -/
  ovlMax : Nat := 0
deriving DecidableEq, Repr

/-- A vote raised and waiting (R175). -/
structure VoteReq where
  /-- A phase vote (R173, 1 bits). -/
  phase : Bool := false
  /-- Rail or phase (R173, 6 bits). -/
  unit : Nat := 0
  /-- Raised by LANE (R173, 1 bits). -/
  lane : Bool := false
deriving DecidableEq, Repr

/-- The arbiter and the twin dies. -/
structure ArbSt where
  /-- ACTIVE (R182, 2 bits). -/
  active : Option Cd := none
  /-- STATE_A, STATE_B (code 0 at reset) (R182, 3 each). -/
  st : Vector DieState 2 := Vector.replicate 2 .active
  /-- CAUSE_A, CAUSE_B (R182, 4 each). -/
  cause : Vector Nat 2 := Vector.replicate 2 0
  /-- TRAPEZE_CNT (R182, 16 bits). -/
  trapezes : Nat := 0
  /-- VOTES (R182, 16 bits). -/
  votes : Nat := 0
  /-- UNRES (R182, 8 bits). -/
  unres : Nat := 0
  /-- FAILED (R182, 8 bits). -/
  failed : Nat := 0
  /-- Unresolved votes of this round (R178, 16 bits). -/
  roundUnres : Nat := 0
  /-- Failed votes of this round (R177, 8 bits). -/
  roundFailed : Nat := 0
  /-- Twin-unresolved raised in this round (R178, 1 bits). -/
  unresPosted : Bool := false
  /-- Votes waiting, the running one first (R175). -/
  voteQ : List VoteReq := []
  /-- Beat at which the running vote was raised (R176, 64 bits). -/
  voteFrom : Nat := 0
  /-- A handover due: cause of the bench (0 for a SWAP), detector, rails voted (R185). -/
  handover : Option (Nat × Nat × Nat) := none
  /-- Lanes whose driver on the non-active die is ordered to mid (R180, 80 lanes). -/
  gateOff : List Nat := []
  /-- SELF raised in this beat (R173, 1 each). -/
  selfPend : Vector Bool 2 := Vector.replicate 2 false
  /-- Consecutive missing beat tokens (R173, 2 each). -/
  silent : Vector Nat 2 := Vector.replicate 2 0
  /-- Consecutive frames without frame-state records (R191, 2 bits). -/
  recMiss : Nat := 0
  /-- BIAS_A, BIAS_B supplied (R181, 1 each). -/
  bias : Vector Bool 2 := Vector.replicate 2 false
  /-- Readmission of a die: die, ticket, beat at which the observation began (0 before) (R189). -/
  readmit : Option (Cd × TkRef × Nat) := none
  /-- An item disagreed during the observation (R189, 1 bits). -/
  obsBad : Bool := false
  /-- The result of a self-test or resync, which the die state follows at its boundary (R189). -/
  testEnd : Option Bool := none
  /-- A bench that a vote or the mirror link decided, with its cause, for the next beat boundary (R182, 4 each). -/
  dueBench : Vector (Option Nat) 2 := Vector.replicate 2 none
  /-- Votes that LANE raises at the next beat boundary (R173). -/
  dueVotes : List VoteReq := []
  /-- Both dies have faulted (R191, 1 bits). -/
  twinLost : Bool := false
  /-- Intent sequence number of the last posting (R167, 32 bits). -/
  intentSeq : Nat := 0
  /-- Intent sequence number each die received (R167, 32 each). -/
  intentSeen : Vector Nat 2 := Vector.replicate 2 0
  /-- INTENT_CRC that Die P keeps, by rail (R167, 32 each). -/
  intentCrc : Vector Nat 12 := Vector.replicate 12 0
  /-- INTENT_CRC of each die, by rail (R176, 32 each). -/
  dieCrc : Vector (Vector Nat 2) 12 := Vector.replicate 12 (Vector.replicate 2 0)
  /-- The control die that holds the ticket engine (R20, 1 bits). -/
  engine : Cd := .a
  /-- The engine moves at the next round boundary (R187, 1 bits). -/
  engineMove : Bool := false
  /-- CVP reported suspect in this round (R177, 1 bits). -/
  cvpRep : Bool := false
  /-- FLXnn_SA high (R125, 1 each). -/
  steerA : Vector Bool 16 := Vector.replicate 16 false
  /-- FLXnn_SB high (R125, 1 each). -/
  steerB : Vector Bool 16 := Vector.replicate 16 false
deriving DecidableEq, Repr

/-- An effect that a command has posted and that acts at its boundary (R30). Each constructor is posted by the ticket
of its name (Table 13.7, column Effect) or by the playbook action of its name (Table 7.7). -/
inductive Act
  | nop
  | avsVreq (r : Rail) (mv : Nat)
  | avsRate (r : Rail) (up dn : Nat)
  | setVreq (r : Rail) (mv : Nat)
  | setFloor (r : Rail) (client mv : Nat)
  | setEnv (r : Rail) (lo hi : Nat)
  | cancelFc (client seq : Nat) (r : Rail)
  | trustSet (client : Nat) (r : Rail) (t : Nat)
  | benchPhase (p : Ph) (cause : Nat)
  | benchRail (r : Rail) (cause : Nat)
  | benchDie (d : Cd) (cause : Nat)
  | benchDev (n : Nat)
  | rtcSet (c : Cal)
  | rtcShift (n : Int)
  | order (idx unit thr : Nat) (wait : Bool)
  | seqRun (n : Prog) (ref : Option TkRef) (ord : Option (Nat × Nat))
  | seqSkip (n : Prog)
  | seqAbort (n : Prog)
  | clearLatch (r : Rail) (mask : Nat) (ref : Option TkRef) (watch : Bool)
  | readmitPhase (p : Ph) (ref : TkRef)
  | readmitRail (r : Rail) (ref : TkRef)
  | readmitDie (d : Cd) (ref : TkRef)
  | readmitCharger (ref : TkRef)
  | readmitGang (r : Rail) (ref : TkRef)
  | readmitDev (n : Nat) (ref : TkRef)
  | readmitPort (k : OPort) (ref : TkRef)
  | swap (ref : TkRef)
  | thermClear (k : Nat)
  | meterStart (n : Nat)
  | meterStop (n : Nat)
  | meterClear (mask : Nat)
  | alarmClear (mask : Nat)
  | seqRunChain (n : Prog) (ref : Option TkRef)
  | overlaySelect (idx : Nat) (ord : Option Nat)
  | mpAccept (num : Nat)
  | mpReset (target : Option Rail) (baseline : Bool)
  | hkSwitch (k : Hk) (on : Bool)
  | wdArm (k : Slot) (period client : Nat)
  | wdDisarm (k : Slot)
  | rtcWake (w : Nat)
  | chgSet (n : Nat)
  | shipArm (keep : Bool)
  | shipCancel
  | cntCtl (blk ctr sel : Nat) (chain samp : Bool)
  | imageCommit (ref : TkRef)
  | railOn (r : Rail)
  | railOff (r : Rail)
  | cutRails
  | pgSet (k : Nat) (on : Bool)
  | overlayCommit (ref : TkRef) (idx len : Nat)
deriving DecidableEq, Repr

/-- An effect that waits for its boundary (R30). -/
structure Sched where
  /-- Not before this beat (R30, 64 bits). -/
  nb : Nat := 0
  /-- The period that owns the work (R30, 2 bits). -/
  per : Period := .beat
  /-- The effect (R30). -/
  act : Act := .nop
deriving DecidableEq, Repr

/-- Lending (R120 to R125) and rotation (R71, R72). -/
structure LendSt where
  /-- An overlay switch at this boundary discards the decisions of the last frame (R29, 1 bits). -/
  noLend : Bool := false
  /-- Frames in which the rail's request has stood unserved (R123, 7 each). -/
  waitN : Vector Nat 12 := Vector.replicate 12 0
  /-- LEND_WAIT was posted for the standing request (R123, 1 each). -/
  waitSaid : Vector Bool 12 := Vector.replicate 12 false
  /-- Lending moves that one die alone proposed in the last frame (R169). -/
  oneSided : Nat := 0
  /-- Carousel swaps pending: (rail, phase out, phase in) (R72). -/
  rotPend : List (Nat × Nat × Nat) := []
deriving DecidableEq, Repr

/-- The block: every register, queue, counter, mode and pin the spec gives the device, and the queue of waiting commands. -/
structure State where
  /-- Timebase and chain clock (R10). -/
  time : TimeSt := {}
  /-- Overruns (R39). -/
  ovr : OvrSt := {}
  /-- Arbiter and twin dies (R166). -/
  arb : ArbSt := {}
  /-- The phases (R44). -/
  ph : Vector PhaseSt 48 := Vector.replicate 48 {}
  /-- The phases as Die A and Die B hold them (R46). -/
  phd : Vector (Vector PhDie 48) 2 := Vector.replicate 2 (Vector.replicate 48 {})
  /-- The rails (R76). -/
  rail : Vector RailSt 12 := Vector.replicate 12 {}
  /-- The rails as Die A and Die B hold them (R166). -/
  raild : Vector (Vector RailDie 12) 2 := Vector.replicate 2 (Vector.replicate 12 {})
  /-- The regions (R116). -/
  region : Vector RegionSt 6 := Vector.replicate 6 {}
  /-- Lending and rotation (R121). -/
  lend : LendSt := {}
  /-- The ganged rails (R131). -/
  gang : Vector GangSt 12 := Vector.replicate 12 {}
  /-- Forecast regulation (R143). -/
  fc : FcSt := {}
  /-- Running state of the playbook orders (R208). -/
  orders : List OrderRun := []
  /-- The sequencing programmes (R216). -/
  seq : Vector SeqSt 8 := Vector.replicate 8 {}
  /-- FEEDA and FEEDB (R226). -/
  feed : Vector FeedSt 2 := Vector.replicate 2 {}
  /-- The housekeeping supplies (R245). -/
  hk : Vector HkSt 14 := Vector.replicate 14 {}
  /-- Feeds together and housekeeping slots (R226). -/
  pwr : PwrSt := {}
  /-- Charger, pack switch, gauge and button (R250). -/
  pack : PackSt := {}
  /-- Thermal management and the margin plan (R273). -/
  therm : ThermSt := {}
  /-- The meter sequences (R298). -/
  mseq : Vector MeterSeq 32 := Vector.replicate 32 {}
  /-- CVA, CVB and CVP (R294). -/
  conv : Vector ConvSt 3 := Vector.replicate 3 {}
  /-- The host link (R309). -/
  host : HostSt := {}
  /-- Ownership (R350). -/
  own : OwnSt := {}
  /-- The Finlumal ring (R370). -/
  ring : RingSt := {}
  /-- Alarms, events, trace and counters (R397). -/
  log : LogSt := {}
  /-- Watchdogs, wake and RTC (R417). -/
  wd : WdSt := {}
  /-- OTP, RRAM and security (R437). -/
  nvm : NvmSt := {}
  /-- Start-up (R462). -/
  start : StartSt := {}
  /-- Images, overlays and the playbook (R478). -/
  cfg : CfgSt := {}
  /-- Effects posted and waiting for their boundary, oldest first (R30). -/
  sched : List Sched := []
  /-- Free-value counter: how many values the spec leaves open have been drawn (R30). -/
  fresh : Nat := 0
  /-- The commands that wait, first in, first out (R27). -/
  pending : List Instr := []
deriving DecidableEq, Repr

/-- Why the machine stops with a fault. -/
inductive Fault
  /-- Raised by no command: the spec gives the block no way to stop (INVENTORY.md, Faults). Safe. -/
  | halted
deriving DecidableEq, Repr

/-- Why a command has no meaning. -/
inductive Refusal
  /-- An arm of `exec` whose meaning is not written yet. Safe: nothing is claimed of it. -/
  | notModelled (mnemonic : String)
  /-- A ticket command whose 64 bytes are not a ticket of its row: no command of the table. Safe: the hardware never
  receives it. -/
  | illFormed
deriving DecidableEq, Repr

/-- The machine right after reset (R13, R462): every field at the value of its table, or at the value INVENTORY.md
names for it. -/
def State.reset : State := {}

end Sys2Proof.Machine
end

