-- ==== Sys2Proof/Machine/Ops.lean ====
section
/-! DEFINITION. The named operations every meaning is written over: reading and updating the families of units, addressed
buffers, free values, events and alarms (R397 to R402), trace entries (R408), performance counters (R411), stubs (R341) and
effects that wait for a boundary (R30). -/

namespace Sys2Proof.Machine

/-! ### Exact fractions -/

/-- `n / d` rounded to nearest; a tie goes as the open choice of Config says (log entry 7). -/
def roundNear (n : Int) (d : Nat) : Int :=
  let q := n / (d : Int)
  let r := n - q * d
  if 2 * r < d then q else if 2 * r > d then q + 1 else if Config.tieUp n d then q + 1 else q

/-- A fraction in lowest terms. -/
def Q.norm (n : Int) (d : Nat) : Q :=
  let g := Nat.gcd n.natAbs d
  if g = 0 then { num := n, den := if d = 0 then 1 else d } else { num := n / (g : Int), den := d / g }
/-- An integer as a fraction. -/
def Q.ofInt (n : Int) : Q := { num := n, den := 1 }
/-- Sum. -/
def Q.add (a b : Q) : Q := Q.norm (a.num * b.den + b.num * a.den) (a.den * b.den)
/-- Difference. -/
def Q.sub (a b : Q) : Q := Q.norm (a.num * b.den - b.num * a.den) (a.den * b.den)
/-- Product. -/
def Q.mul (a b : Q) : Q := Q.norm (a.num * b.num) (a.den * b.den)
/-- Quotient by a natural. -/
def Q.divN (a : Q) (n : Nat) : Q := if n = 0 then a else Q.norm a.num (a.den * n)
/-- Quotient; the dividend when the divisor is 0. -/
def Q.div (a b : Q) : Q :=
  if b.num = 0 then a else Q.norm (a.num * b.den * b.num.sign) (a.den * b.num.natAbs)
/-- Order. -/
def Q.lt (a b : Q) : Bool := decide (a.num * b.den < b.num * a.den)
/-- Order. -/
def Q.le (a b : Q) : Bool := decide (a.num * b.den ≤ b.num * a.den)
/-- Magnitude. -/
def Q.abs (a : Q) : Q := { num := a.num.natAbs, den := a.den }
/-- The fraction rounded down. -/
def Q.floor (a : Q) : Int := a.num / (a.den : Int)
/-- The fraction rounded to nearest (log entry 7). -/
def Q.round (a : Q) : Int := roundNear a.num a.den

/-! ### Families of units -/

/-- Element `i` of a family, changed by `f`. -/
def upd {α : Type} {n : Nat} (v : Vector α n) (i : Fin n) (f : α → α) : Vector α n := v.set i.val (f v[i.val]) i.isLt

/-- A rail number as a rail, when there is one. -/
def railOf (n : Nat) : Option Rail := if h : n < 12 then some ⟨n, h⟩ else none
/-- A phase number as a phase, when there is one. -/
def phOf (n : Nat) : Option Ph := if h : n < 48 then some ⟨n, h⟩ else none

/-- All rails. -/
def rails : List Rail := List.finRange 12
/-- All phases. -/
def phases : List Ph := List.finRange 48

/-- A rail. -/
def State.railAt (s : State) (r : Rail) : RailSt := s.rail[r.val]
/-- A rail changed. -/
def State.modRail (s : State) (r : Rail) (f : RailSt → RailSt) : State := { s with rail := upd s.rail r f }
/-- A rail as a control die holds it. -/
def State.railDie (s : State) (d : Cd) (r : Rail) : RailDie := (s.raild[d.ix.val])[r.val]
/-- A rail as a control die holds it, changed. -/
def State.modRailDie (s : State) (d : Cd) (r : Rail) (f : RailDie → RailDie) : State :=
  { s with raild := upd s.raild d.ix fun v => upd v r f }
/-- A rail as both control dies hold it, changed alike. -/
def State.modRailDies (s : State) (r : Rail) (f : RailDie → RailDie) : State := (s.modRailDie .a r f).modRailDie .b r f
/-- A phase. -/
def State.phAt (s : State) (p : Ph) : PhaseSt := s.ph[p.val]
/-- A phase changed. -/
def State.modPh (s : State) (p : Ph) (f : PhaseSt → PhaseSt) : State := { s with ph := upd s.ph p f }
/-- A phase as a control die holds it. -/
def State.phDie (s : State) (d : Cd) (p : Ph) : PhDie := (s.phd[d.ix.val])[p.val]
/-- A phase as a control die holds it, changed. -/
def State.modPhDie (s : State) (d : Cd) (p : Ph) (f : PhDie → PhDie) : State :=
  { s with phd := upd s.phd d.ix fun v => upd v p f }
/-- A gang changed. -/
def State.modGang (s : State) (r : Rail) (f : GangSt → GangSt) : State := { s with gang := upd s.gang r f }
/-- A programme changed. -/
def State.modSeq (s : State) (n : Prog) (f : SeqSt → SeqSt) : State := { s with seq := upd s.seq n f }
/-- A feed changed. -/
def State.modFeed (s : State) (x : Feed) (f : FeedSt → FeedSt) : State := { s with feed := upd s.feed x.ix f }
/-- A housekeeping supply changed. -/
def State.modHk (s : State) (k : Hk) (f : HkSt → HkSt) : State := { s with hk := upd s.hk k f }
/-- A converter changed. -/
def State.modConv (s : State) (c : Conv) (f : ConvSt → ConvSt) : State := { s with conv := upd s.conv c.ix f }
/-- A meter sequence changed. -/
def State.modMseq (s : State) (k : Fin 32) (f : MeterSeq → MeterSeq) : State := { s with mseq := upd s.mseq k f }
/-- A temperature source changed. -/
def State.modSrc (s : State) (k : Src) (f : SrcSt → SrcSt) : State :=
  { s with therm := { s.therm with src := upd s.therm.src k f } }
/-- A ring port changed. -/
def State.modLink (s : State) (p : Side) (f : LinkSt → LinkSt) : State :=
  { s with ring := { s.ring with links := upd s.ring.links p.ix f } }
/-- What this device holds of chain device `n`, changed; a number that is no device changes nothing. -/
def State.modDev (s : State) (n : Nat) (f : DevSt → DevSt) : State :=
  if h : n < 64 then { s with ring := { s.ring with devs := upd s.ring.devs ⟨n, h⟩ f } } else s
/-- What this device holds of chain device `n`. -/
def State.devAt (s : State) (n : Nat) : DevSt := if h : n < 64 then s.ring.devs[n] else {}
/-- A control die is out of service: BENCHED, or under readmission (R188, R189). -/
def State.dieOut (s : State) (d : Cd) : Bool := (s.arb.st[d.ix.val]) != .active && (s.arb.st[d.ix.val]) != .standby

/-- A candidate port changed. -/
def State.modPort (s : State) (k : OPort) (f : PortSt → PortSt) : State :=
  { s with own := { s.own with ports := upd s.own.ports k f } }
/-- A check-in slot changed. -/
def State.modSlot (s : State) (k : Slot) (f : SlotSt → SlotSt) : State :=
  { s with wd := { s.wd with slots := upd s.wd.slots k f } }

/-! ### Addressed buffers -/

/-- What an unlisted address of a buffer reads as (log entry 5). -/
def memDefault : Byte := 0

/-- The canonical form of a buffer: strictly rising addresses, no byte equal to the unlisted one. -/
def Mem.wf : Mem → Bool
  | [] => true
  | [c] => c.2 != memDefault
  | c :: d :: r => c.2 != memDefault && decide (c.1 < d.1) && Mem.wf (d :: r)

/-- One byte of a buffer. -/
def Mem.read : Mem → Nat → Byte
  | [], _ => memDefault
  | (x, v) :: r, a => if x = a then v else if a < x then memDefault else Mem.read r a

/-- A buffer after writing one byte; writing the unlisted byte removes the entry. -/
def Mem.write : Mem → Nat → Byte → Mem
  | [], a, b => if b = memDefault then [] else [(a, b)]
  | (x, v) :: r, a, b =>
    if a < x then (if b = memDefault then (x, v) :: r else (a, b) :: (x, v) :: r)
    else if a = x then (if b = memDefault then r else (a, b) :: r)
    else (x, v) :: Mem.write r a b

/-- A buffer after writing bytes from an address on. -/
def Mem.writeList (m : Mem) (a : Nat) : List Nat → Mem
  | [] => m
  | b :: bs => Mem.writeList (Mem.write m a (BitVec.ofNat 8 b)) (a + 1) bs

/-- `n` bytes of a buffer from an address on. -/
def Mem.bytes (m : Mem) (a n : Nat) : List Nat := (List.range n).map fun i => (Mem.read m (a + i)).toNat

/-- `n` bytes of a buffer as a little-endian number. -/
def Mem.le (m : Mem) (a n : Nat) : Nat := leNat (Mem.bytes m a n)

/-- Writing to host memory. -/
def State.hostWrite (s : State) (a : Nat) (bs : List Nat) : State :=
  { s with host := { s.host with hostMem := Mem.writeList s.host.hostMem a bs } }

/-! ### Free values -/

/-- The next free value below `m`, and the state that has drawn it (log entry 4). -/
def State.draw (s : State) (m : Nat) : Nat × State := (Config.freeNat s.fresh % m, { s with fresh := s.fresh + 1 })

/-- The next signed free value, and the state that has drawn it (log entry 4). -/
def State.drawInt (s : State) : Int × State := (Config.freeInt s.fresh, { s with fresh := s.fresh + 1 })

/-! ### Time -/

/-- The beat count of the coming boundary: 0 when the root starts the chain clock there (R384), else the next count. -/
def State.bnd (s : State) : Nat := if s.time.startPend then 0 else s.time.clk + 1

/-- The work of a frame or round boundary, done under the boundary's own count. FRAME_TICK and ROUND_TICK come before
the BEAT_TICK of the same boundary (R29), which then advances the count. -/
def State.atBoundary (s : State) (f : State → State) : State :=
  let c := s.time.clk
  let t := f { s with time := { s.time with clk := s.bnd } }
  { t with time := { t.time with clk := c } }

/-- The round a beat lies in. -/
def roundOf (n : Nat) : Nat := n / 4000
/-- The first frame boundary after beat `n`. -/
def nextFrame (n : Nat) : Nat := (n / 32 + 1) * 32
/-- The first round boundary after beat `n`. -/
def nextRound (n : Nat) : Nat := (n / 4000 + 1) * 4000

/-! ### Performance counters -/

/-- A counter pair after `k` occurrences of event `e`, and whether a sampling carry or saturation came of the even and of the odd
counter (R411, R414). -/
def CntPair.bump (c : CntPair) (e k : Nat) : CntPair × Bool × Bool :=
  if c.chain then
    if c.selLo = e then
      let v := min (c.lo + 2 ^ 32 * c.hi + k) (2 ^ 64 - 1)
      let c' := { c with lo := v % 2 ^ 32, hi := v / 2 ^ 32 }
      (c', c.sampLo && decide (c'.hi ≠ c.hi), false)
    else (c, false, false)
  else
    let lo := if c.selLo = e then satAdd 32 c.lo k else c.lo
    let hi := if c.selHi = e then satAdd 32 c.hi k else c.hi
    ({ c with lo := lo, hi := hi }, c.sampLo && decide (lo = 2 ^ 32 - 1 ∧ c.lo ≠ 2 ^ 32 - 1),
      c.sampHi && decide (hi = 2 ^ 32 - 1 ∧ c.hi ≠ 2 ^ 32 - 1))

/-- CNT_SAMPLE of a counter: block, counter and beat (R414, log entry 25). It raises no alarm. -/
def State.cntSample (s : State) (blk ctr : Nat) : State :=
  let e : Event := { code := 0xA0, scope := 4, unit := s.ring.num, obs := s.ring.benchedMe, beat := s.time.clk, arg0 := blk, arg1 := ctr,
                     arg2 := s.time.clk % 2 ^ 32 }
  let q := if e.obs then s.log.evalQ else s.log.evalQ ++ [(0xA0, 4, s.ring.num)]
  { s with log := { s.log with staged := s.log.staged ++ [e], evalQ := q } }

/-- Count one pair; a carry of a sampled counter posts CNT_SAMPLE (R414). -/
def State.bumpPair (s : State) (blk ctr p e k : Nat) : State :=
  if h : p < 160 then
    let r := (s.log.cnts[p]).bump e k
    let s := { s with log := { s.log with cnts := s.log.cnts.set p r.1 } }
    let s := if r.2.1 then s.cntSample blk ctr else s
    if r.2.2 then s.cntSample blk (ctr + 1) else s
  else s

/-- Count `k` occurrences of event `e` of block `blk` (Table 16.6). -/
def State.countIn (s : State) (blk e k : Nat) : State :=
  match cntFind blk cntBlocks 0 with
  | some (p, n) => (List.range n).foldl (fun s j => s.bumpPair blk (2 * j) (p + j) e k) s
  | none => s

/-- Count `k` occurrences of event `e` of block `blk`; the CNT_SAMPLE events this posts are events generated and count as such. -/
def State.count (s : State) (blk e k : Nat) : State :=
  let t := s.countIn blk e k
  let n := t.log.staged.length - s.log.staged.length
  if n = 0 then t else t.countIn 0x05C 0 n

/-- A commit to the state log or the journal, which writes `k` sectors (block 0x05B, log entry 127). -/
def State.commitCount (s : State) (k : Nat) : State := (s.count 0x05B 0 1).count 0x05B 1 k

/-! ### Alarms and events -/

/-- The alarm kind that an event code raises (R400, Table 16.3). -/
def alarmKind (code : Nat) : Option (Fin 64) :=
  match code with
  | 0x00 => some 0 | 0x01 => some 1 | 0x03 => some 2 | 0x04 => some 3 | 0x09 => some 4 | 0x0B => some 5 | 0x0E => some 6
  | 0x0F => some 7 | 0x12 => some 8 | 0x13 => some 9 | 0x14 => some 10 | 0x15 => some 11 | 0x16 => some 12 | 0x17 => some 13
  | 0x18 => some 14 | 0x11 => some 15 | 0x22 => some 16 | 0x23 => some 17 | 0x25 => some 18 | 0x26 => some 19 | 0x27 => some 20
  | 0x28 => some 21 | 0x30 => some 22 | 0x36 => some 23 | 0x32 => some 24 | 0x33 => some 25 | 0x35 => some 26 | 0x3C => some 27
  | 0x3D => some 28 | 0x46 => some 29 | 0x44 => some 30 | 0x48 => some 31 | 0x42 => some 32 | 0x43 => some 32 | 0x51 => some 33
  | 0x52 => some 34 | 0x55 => some 35 | 0x54 => some 36 | 0x56 => some 37 | 0x57 => some 37 | 0x58 => some 37 | 0x59 => some 37
  | 0x5A => some 37 | 0x60 => some 38 | 0x64 => some 39 | 0x68 => some 40 | 0x6A => some 41 | 0x6B => some 42 | 0x6D => some 43
  | 0x79 => some 44 | 0x7A => some 45 | 0x7C => some 46 | 0x7E => some 47 | 0x7D => some 48 | 0x70 => some 49 | 0x74 => some 50
  | 0x80 => some 51 | 0x81 => some 52 | 0x88 => some 53 | 0x89 => some 54 | 0x8A => some 55 | 0x8B => some 56 | 0x8C => some 57
  | 0x98 => some 58 | 0x90 => some 59 | 0x92 => some 59 | 0x19 => some 60 | 0x6C => some 61 | 0x37 => some 63 | 0x38 => some 63
  | 0x0D => some 63
  | _ => none

/-- Raise an alarm kind: the latch sets, the count rises and saturates, the report is due at the first frame
boundary after (R400, R401). -/
def State.raise (s : State) (k : Fin 64) : State :=
  let f := fun (a : AlarmSt) =>
    { isSet := true, count := satAdd 16 a.count 1, first := if a.isSet then a.first else s.time.clk, last := s.time.clk : AlarmSt }
  let w := s.time.clk / 32
  let same := s.ring.almNewAt == w
  let s := { s with log := { s.log with alarms := upd s.log.alarms k f, dirtyLog := true }
                    ring := { s.ring with almDirty := if same then s.ring.almDirty else s.ring.almDirty ||| s.ring.almNew
                                          almNew := (if same then s.ring.almNew else 0) ||| 2 ^ k.val, almNewAt := w } }
  s.count 0x05C 7 1

/-- An event that reports a reading: of phases, rails, regions, feeds, supplies, the pack, sources and the meter (Tables 16.1, 16.2). -/
def readingCode (c : Nat) : Bool :=
  decide ((0x02 ≤ c ∧ c ≤ 0x0D) ∨ c = 0x10 ∨ c = 0x16 ∨ (0x20 ≤ c ∧ c ≤ 0x26) ∨ (0x30 ≤ c ∧ c ≤ 0x54) ∨ (0x56 ≤ c ∧ c ≤ 0x67))

/-- An event of a rail or a phase that is benched, other than the ones that report its bench or its readmission (R399), or a reading of a device
that BENCH_DEVICE has put out of service (R213). -/
def State.ofBenched (s : State) (e : Event) : Bool :=
  if e.code = 0x0B ∨ e.code = 0x03 ∨ e.code = 0x08 then false
  else if s.ring.outMe && readingCode e.code then true
  else if e.scope = 1 then (railOf e.unit).any fun r => (s.railAt r).benched.isSome
  else if e.scope = 0 then (phOf e.unit).any fun p => (s.phAt p).st == .benched
  else false

/-- Generate an event: it raises its alarm, unless it closes a condition or is an observation of a benched unit, and
waits for the event staging of the frame (R399, R400, R403). On a benched device every event is an observation, and
DEV_SPEAKS raises all the same (R393, R399). -/
def State.emit (s : State) (e : Event) : State :=
  let e := { e with beat := s.time.clk, obs := e.obs || s.ring.benchedMe || s.ofBenched e }
  let s := if e.close then s else if e.obs && e.code != 0x6C then s else
    match alarmKind e.code with
    | some k => s.raise k
    | none => s
  let q := if e.close || e.obs then s.log.evalQ else s.log.evalQ ++ [(e.code, e.scope, e.unit)]
  let s := { s with log := { s.log with staged := s.log.staged ++ [e], evalQ := q } }
  s.count 0x05C 0 1

/-- Scopes of an event (Table 13.4). -/
abbrev scPhase : Nat := 0
/-- Scope rail. -/
abbrev scRail : Nat := 1
/-- Scope region. -/
abbrev scRegion : Nat := 2
/-- Scope die. -/
abbrev scDie : Nat := 3
/-- Scope device. -/
abbrev scDev : Nat := 4
/-- Scope chain. -/
abbrev scChain : Nat := 5
/-- Scope client. -/
abbrev scClient : Nat := 6

/-- Post an event of a phase. -/
def State.postPh (s : State) (code : Nat) (p : Ph) (a0 a1 a2 : Nat := 0) : State :=
  s.emit { code := code, scope := scPhase, unit := p.val, arg0 := a0, arg1 := a1, arg2 := a2 }
/-- Post an event of a rail. -/
def State.postRail (s : State) (code : Nat) (r : Rail) (a0 a1 a2 : Nat := 0) : State :=
  s.emit { code := code, scope := scRail, unit := r.val, arg0 := a0, arg1 := a1, arg2 := a2 }
/-- Post an event of a region. -/
def State.postRegion (s : State) (code : Nat) (g : Nat) (a0 a1 a2 : Nat := 0) : State :=
  s.emit { code := code, scope := scRegion, unit := g, arg0 := a0, arg1 := a1, arg2 := a2 }
/-- Post an event of a die: 0 Die A, 1 Die B, 2 Die P. -/
def State.postDie (s : State) (code d : Nat) (a0 a1 a2 : Nat := 0) : State :=
  s.emit { code := code, scope := scDie, unit := d, arg0 := a0, arg1 := a1, arg2 := a2 }
/-- Post an event of the device. -/
def State.postDev (s : State) (code : Nat) (a0 a1 a2 : Nat := 0) : State :=
  s.emit { code := code, scope := scDev, unit := s.ring.num, arg0 := a0, arg1 := a1, arg2 := a2 }
/-- Post an event of the chain; the unit is 0. -/
def State.postChain (s : State) (code : Nat) (a0 a1 a2 : Nat := 0) : State :=
  s.emit { code := code, scope := scChain, unit := 0, arg0 := a0, arg1 := a1, arg2 := a2 }
/-- Post an event of a client. -/
def State.postClient (s : State) (code c : Nat) (a0 a1 a2 : Nat := 0) : State :=
  s.emit { code := code, scope := scClient, unit := c, arg0 := a0, arg1 := a1, arg2 := a2 }

/-- A signed quantity right-aligned in a 32-bit argument (R398). -/
def argI (x : Int) : Nat := uword 32 x

/-! ### Trace -/

/-- Where byte `off` of a list of segments stands in host memory. -/
def segAddr : List (Nat × Nat) → Nat → Option Nat
  | [], _ => none
  | (a, n) :: r, off => if off < n then some (a + off) else segAddr r (off - n)

/-- The bytes that a list of segments holds. -/
def segSum (l : List (Nat × Nat)) : Nat := (l.map Prod.snd).sum

/-- Put a packet into the transmit queue of the ring (R374). -/
def State.send (s : State) (p : RingPkt) : State := { s with ring := { s.ring with tx := s.ring.tx ++ [p] } }

/-- This device is a head: its PCIe link is trained and EN is 1 (R309). -/
def State.isHead (s : State) : Bool := s.host.en && s.host.speed != 0

/-- The range that another device announces as a head: that of its broadcast of this round or the last (R387, log entry 118). -/
def State.announced (s : State) (n : Nat) : Option (Nat × Nat) :=
  if roundOf s.time.clk ≤ (s.devAt n).rangeRound + 1 then (s.devAt n).range else none

/-- The heads of the chain that this device knows, by device number (R309, R387). -/
def State.heads (s : State) : List Nat :=
  (List.range 64).filter fun n => if n = s.ring.num then s.isHead else (s.announced n).isSome

/-- The device that holds port 0 or 1: the heads keep their ports until a round boundary, a head that is new takes one that is free
(Table 14.1, R350). -/
def State.rankDev (s : State) (k : Nat) : Option Nat :=
  let h := s.heads
  let a := s.own.headDev[0].filter fun d => h.contains d
  let b := s.own.headDev[1].filter fun d => h.contains d
  let new := h.filter fun d => some d != a && some d != b
  if k = 0 then a.or new[0]? else b.or (if a.isSome then new[0]? else new[1]?)

/-- The candidate port of a client that device `dev` serves (Table 14.1); none for a client of no head. -/
def State.portOf (s : State) (dev client : Nat) : Option (Fin 4) :=
  if client = 4094 then (if dev = 0 then some 2 else none)
  else if client = 4095 then (if dev = 0 then some 3 else none)
  else if s.rankDev 0 = some dev then some 0 else if s.rankDev 1 = some dev then some 1 else none

/-- The head that writes a client's stubs when it is another device (R333, R387); the window clients are this device's own. -/
def State.stubHead (s : State) (c : Nat) : Option Nat :=
  if 4094 ≤ c ∨ (s.host.first ≤ c ∧ c < s.host.first + s.host.cnt) then none
  else (List.range 64).find? fun n => n != s.ring.num && (match (s.devAt n).range with
    | some (a, k) => decide (a ≤ c ∧ c < a + k)
    | none => false)

/-- The stream of R410 has taken an entry: the count, and the next offset of the circular buffer that its segments make. -/
def State.streamStep (s : State) : State :=
  match s.log.stream with
  | some (ref, n, off, segs) =>
    let tot := segSum segs
    { s with log := { s.log with stream := some (ref, n + 1, if tot = 0 then 0 else (off + 16) % tot, segs) } }
  | none => s

/-- Put an entry into the stream of R410, when one runs: at the next offset of the circular buffer; for a client of another head it waits in the
trace buffer for the trace class of the ring (R374). -/
def State.streamOut (s : State) (e : TraceEnt) : State :=
  match s.log.stream with
  | some (ref, _, off, segs) =>
    match s.stubHead ref.client with
    | some _ => { s with log := { s.log with traceWait := min 4096 (s.log.traceWait + 1) } }
    | none =>
      let s := match segAddr segs off with
        | some a => s.hostWrite a e.bytes
        | none => s
      s.streamStep
  | none => s

/-- Add an entry to the trace buffer; when it is full, the oldest is overwritten and counted (R408, R409). -/
def State.traceAdd (s : State) (e : TraceEnt) : State :=
  let full := decide (4096 ≤ s.log.trace.length)
  let l := { s.log with trace := (e :: s.log.trace).take 4096, lost := s.log.lost + b2n full }
  let s := { s with log := l }
  let s := s.count 0x05C 5 1
  let s := if full then s.count 0x05C 6 1 else s
  s.streamOut e

/-- Write a trace entry of this device (R408). -/
def State.trace (s : State) (kind d0 d1 d2 : Nat) (d3 : Nat := 0) : State :=
  let e : TraceEnt := { beat := s.time.clk % 2 ^ 32, kind := kind, dev := s.ring.num, tseq := s.log.tseq, d0 := d0, d1 := d1,
                        d2 := d2, d3 := d3 }
  ({ s with log := { s.log with tseq := wrapAdd 16 s.log.tseq 1 } }).traceAdd e

/-! ### Clients and stubs -/

/-- A client as the device keeps it; one it has not met has an empty entry (R315). -/
def State.client (s : State) (c : Nat) : Client := (s.host.clients.find? fun x => x.id == c).getD { id := c }

/-- A client changed; one the device has not met is added. -/
def State.modClient (s : State) (c : Nat) (f : Client → Client) : State :=
  let l := s.host.clients
  let l' := if l.any (fun x => x.id == c) then l.map fun x => if x.id = c then f x else x else l ++ [f { id := c }]
  { s with host := { s.host with clients := l' } }

/-- A control packet of the ring's own in the alarm class; destination 64 is a broadcast (R401, log entry 37). -/
def State.ctrl (s : State) (dst code body : Nat) : State := s.send { kind := 2, src := s.ring.num, dst := dst, code := code, body := body }

/-- A ring port. -/
def State.linkAt (s : State) (p : Side) : LinkSt := s.ring.links[p.ix.val]

/-- A packet's CRC fails: it is discarded and counted, and the eighth failure of a frame takes the lane DOWN (R376, R388).
`cls` is the packet's kind: an alarm packet or a ticket-class packet is awaited. -/
def State.rxBad (s : State) (p : Side) (cls : Nat) : State :=
  let s := s.modLink p fun x =>
    let n := x.crcFrame + 1
    { x with crcFrame := n, crcRound := true, rxDown := x.rxDown || decide (8 ≤ n), wrapPend := x.wrapPend || decide (8 ≤ n)
             retrained := x.retrained && decide (n < 8)
             waitAlarm := x.waitAlarm || cls == 2, waitTicket := x.waitTicket || decide (cls < 2) }
  ({ s with ring := { s.ring with crc := satAdd 16 s.ring.crc 1 } }).count (0x056 + p.ix.val) 2 1

/-- A packet arrives at a port (R376): a failing one is discarded; after a failure the later packets of its class are discarded
until it arrives again; a good one in order is counted and has its effect. -/
def State.rxPkt (s : State) (rx : RxIn) (cls : Nat) (f : State → State) : State :=
  let l := s.linkAt rx.via
  let wait := if cls = 2 then l.waitAlarm else decide (cls < 2) && l.waitTicket
  if !rx.ok then s.rxBad rx.via cls
  else if wait && !rx.again then s
  else
    let s := s.modLink rx.via fun x =>
      if cls = 2 then { x with rxAlarm := wrapAdd 16 x.rxAlarm 1, waitAlarm := false }
      else if cls < 2 then { x with rxTicket := wrapAdd 16 x.rxTicket 1, waitTicket := false }
      else x
    f (s.count (0x056 + rx.via.ix.val) 1 1)

/-- A packet that may name another device arrives: it is passed on by the other port, or has its effect here (R377). -/
def State.rxFor (s : State) (rx : RxIn) (k : RingPkt) (f : State → State) : State :=
  s.rxPkt rx k.kind fun s => match rx.dst with
    | some d => if d = s.ring.num then f s else s.send { k with dst := d, via := some rx.via.other }
    | none => f s

/-- Pass a broadcast on: on ring E every device but the one just before the source sends a copy on; a broadcast travels on ring W
only behind a wrap and is passed on (R377, R388). -/
def State.relay (s : State) (via : Side) (src code body : Nat) : State :=
  if via = .west ∧ (s.ring.num + 1) % (s.ring.ndev + 1) = src then s
  else s.send { kind := 2, src := src, dst := 64, code := code, body := body, via := some via.other }

/-- The 16 bytes of a stub as a number, PHASE not set (Table 13.2). -/
def Stub.word (x : Stub) : Nat :=
  fld x.ref.seq 16 0 + fld x.ref.client 12 16 + fld x.ref.gen 8 32 + fld x.status 8 40 + fld x.extra 16 48 + fld x.value 64 64

/-- A client whose tickets travel through an SPI window (R331). -/
def isWindow (c : Nat) : Bool := decide (4094 ≤ c)

/-- The base-2 logarithm of a client's stub ring size: that of its table entry, 32 slots in a window (R315, R331). -/
def stubLog (c : Nat) (x : Client) : Nat := if isWindow c then 5 else bits x.entry 67 64

/-- A stub of a client is held because its stub ring is full: of those that wait one has no slot (R320). -/
def State.stubHeld (s : State) (c : Nat) : Bool :=
  let x := s.client c
  x.held != [] && decide (2 ^ stubLog c x < (x.stubTail + 2 ^ 16 - x.stubHead) % 2 ^ 16 + x.held.length)

/-- Give a client a stub, which waits for a slot of its ring; one that finds the ring full is held and counted (R320, R411). A ticket already
processed keeps its stub when its generation ends (R335). The stub of a client of another head goes to that head, with the data that its ticket
has read (R321, R333, log entry 116). -/
def State.stub (s : State) (st : Stub) (data : List Nat := []) : State :=
  let s := s.count 0x054 1 1
  let s := if st.status = 0x02 then s.count 0x054 2 1 else s
  match s.stubHead st.ref.client with
  | some h => s.send { kind := 1, src := s.ring.num, dst := h, body := st.word, data := data }
  | none =>
    let s := s.modClient st.ref.client fun c => { c with held := c.held ++ [{ st with since := s.time.clk }] }
    if s.stubHeld st.ref.client then s.count 0x054 7 1 else s

/-- Answer a ticket that waited for its final stub. -/
def State.final (s : State) (ref : TkRef) (status : Nat) (extra : Nat := 0) (value : Nat := 0) : State :=
  s.stub { ref := ref, status := status, extra := extra, value := value }

/-! ### Effects that wait for a boundary -/

/-- The intent fields of a rail (R167): VREQ, the floors, the envelope, the commanded on or off state, and its configuration
records in force. -/
def State.intentFields (s : State) (r : Rail) : List Nat :=
  let x := s.railAt r
  let o := fun (v : Option Nat) => match v with
    | some n => [1, n]
    | none => [0, 0]
  [x.vreq, b2n x.vreqAcc] ++ o x.lastSet ++ o x.envLo ++ o x.envHi ++ [b2n x.cmdOn]
    ++ [s.cfg.cfg.railCfg[r.val], s.cfg.cfg.railComp[r.val], s.cfg.cfg.railChain[r.val], s.cfg.cfg.fcCfg[r.val], s.cfg.cfg.supCfg[r.val],
        s.cfg.cfg.mpCfg[r.val]]
    ++ (x.floors.map fun f => [f.1, f.2]).flatten

/-- INTENT_CRC of every rail over its own intent fields, as Die P and each die in service hold it; a die out of service keeps
what it had (R167, R188, log entry 76). -/
def State.intentCrcs (s : State) : State :=
  let crc := Vector.ofFn fun (r : Rail) => Config.intentCrc (s.intentFields r) % 2 ^ 32
  let own := fun (r : Rail) (d : Cd) => if s.dieOut d then (s.arb.dieCrc[r.val])[d.ix.val] else crc[r.val]
  { s with arb := { s.arb with intentCrc := crc, dieCrc := Vector.ofFn fun (r : Rail) => #v[own r .a, own r .b] } }

/-- An intent posting reaches the control dies with the next intent sequence number, and INTENT_CRC is formed anew; a die out
of service takes none of it (R167, R188, log entry 76). -/
def State.intent (s : State) : State :=
  let n := wrapAdd 32 s.arb.intentSeq 1
  let f := fun (d : Cd) => if s.dieOut d then s.arb.intentSeen[d.ix.val] else n
  ({ s with arb := { s.arb with intentSeq := n, intentSeen := #v[f .a, f .b] } } : State).intentCrcs

/-- The INTENT_CRC that a die holds for a rail differs from Die P's (R176). -/
def State.intentBad (s : State) (r : Rail) (d : Cd) : Bool := (s.arb.dieCrc[r.val])[d.ix.val] != s.arb.intentCrc[r.val]

/-- Post an effect of a period, at the first boundary at or after a beat (R30). -/
def State.post (s : State) (nb : Nat) (per : Period) (act : Act) : State :=
  ({ s with sched := s.sched ++ [{ nb := nb, per := per, act := act }] } : State).intent

/-- The effects of a period that are due at a boundary, in the order they were posted. -/
def State.due (s : State) (per : Period) : List Act :=
  (s.sched.filter fun x => x.per == per && decide (x.nb ≤ s.time.clk)).map Sched.act

/-- The state without the effects that `State.due` answers. -/
def State.undue (s : State) (per : Period) : State :=
  { s with sched := s.sched.filter fun x => !(x.per == per && decide (x.nb ≤ s.time.clk)) }

end Sys2Proof.Machine
end

