-- ==== Sys2Proof/Machine/Operands.lean ====
section
/-! DEFINITION. The operands of a ticket and the checks of R340 in their order, the units that the configuration in force
describes, and the beat budget (R33 to R38). -/

namespace Sys2Proof.Machine

/-! ### The units of the configuration in force -/

/-- RAIL_CFG of a rail. -/
def State.rcfg (s : State) (r : Rail) : Nat := s.cfg.cfg.railCfg[r.val]
/-- RAIL_COMP of a rail. -/
def State.rcomp (s : State) (r : Rail) : Nat := s.cfg.cfg.railComp[r.val]
/-- RAIL_CHAIN of a rail. -/
def State.rchain (s : State) (r : Rail) : Nat := s.cfg.cfg.railChain[r.val]
/-- FC_CFG of a rail. -/
def State.fccfg (s : State) (r : Rail) : Nat := s.cfg.cfg.fcCfg[r.val]
/-- SUP_CFG of a rail. -/
def State.supcfg (s : State) (r : Rail) : Nat := s.cfg.cfg.supCfg[r.val]
/-- MP_CFG of a rail. -/
def State.mpcfg (s : State) (r : Rail) : Nat := s.cfg.cfg.mpCfg[r.val]
/-- PH_CFG of a phase. -/
def State.pcfg (s : State) (p : Ph) : Nat := s.cfg.cfg.phCfg[p.val]
/-- PH_POOL of a phase. -/
def State.pool (s : State) (p : Ph) : Nat := s.cfg.cfg.phPool[p.val]
/-- REGION_CFG of a region. -/
def State.gcfg (s : State) (g : Fin 6) : Nat := s.cfg.cfg.regionCfg[g.val]
/-- TWIN_CFG. -/
def State.tcfg (s : State) : Nat := s.cfg.cfg.twinCfg[0]
/-- FEED_CFG. -/
def State.fdcfg (s : State) : Nat := s.cfg.cfg.feedCfg[0]
/-- HK_CFG of a supply. -/
def State.hkcfg (s : State) (k : Hk) : Nat := s.cfg.cfg.hkCfg[k.val]
/-- PACK_CFG. -/
def State.pkcfg (s : State) : Nat := s.cfg.cfg.packCfg[0]
/-- THERM_CFG. -/
def State.thcfg (s : State) : Nat := s.cfg.cfg.thermCfg[0]
/-- METER_SEQ of a sequence. -/
def State.mcfg (s : State) (k : Fin 32) : Nat := s.cfg.cfg.meterSeq[k.val]
/-- SEQ_PROG of a programme. -/
def State.progcfg (s : State) (n : Prog) : Nat := s.cfg.cfg.seqProg[n.val]
/-- SEQ_STEP number `k`. -/
def State.stepcfg (s : State) (k : Nat) : Nat := s.cfg.cfg.seqStep.toArray.getD k 0
/-- OWN_CFG. -/
def State.owcfg (s : State) : Nat := s.cfg.cfg.ownCfg[0]
/-- RTC_CFG. -/
def State.rtccfg (s : State) : Nat := s.cfg.cfg.rtcCfg[0]
/-- RING_CFG. -/
def State.rgcfg (s : State) : Nat := s.cfg.cfg.ringCfg[0]
/-- The entry of slot `k` of a port, receive or transmit (Table 15.3). -/
def ringEntry (x : Nat) (p : Side) (rx : Bool) (k : Nat) : Nat :=
  match p, rx, k with
  | .east, false, 0 => RingCfg.eTx0 x | .east, false, 1 => RingCfg.eTx1 x | .east, false, _ => RingCfg.eTx2 x
  | .west, false, 0 => RingCfg.wTx0 x | .west, false, 1 => RingCfg.wTx1 x | .west, false, _ => RingCfg.wTx2 x
  | .east, true, 0 => RingCfg.eRx0 x | .east, true, 1 => RingCfg.eRx1 x | .east, true, _ => RingCfg.eRx2 x
  | .west, true, 0 => RingCfg.wRx0 x | .west, true, 1 => RingCfg.wRx1 x | .west, true, _ => RingCfg.wRx2 x
/-- START_CFG. -/
def State.stcfg (s : State) : Nat := s.cfg.cfg.startCfg[0]

/-- RAIL_EN of a rail in a configuration in force; with no image in force no rail is in use (R469). -/
def State.railEn (s : State) (r : Rail) : Bool := s.cfg.inForce.isSome && RailCfg.railEn (s.rcfg r)
/-- A stage is fitted: ISTAGE is not 0 (R73). -/
def State.fitted (s : State) (p : Ph) : Bool := s.cfg.inForce.isSome && PhCfg.istage (s.pcfg p) != 0
/-- The home rail of a phase (R117). -/
def State.home (s : State) (p : Ph) : Nat := PhPool.home (s.pool p)
/-- The phases whose HOME or ALT is the rail (R118, R148). -/
def State.reach (s : State) (r : Rail) : List Ph :=
  phases.filter fun p => s.fitted p && (s.home p == r.val || (PhPool.flex (s.pool p) && PhPool.alt (s.pool p) == r.val))
/-- The region that holds a rail (R116). -/
def State.regionOf (s : State) (r : Nat) : Option (Fin 6) :=
  (List.finRange 6).find? fun g => bit (RegionCfg.rails (s.gcfg g)) r
/-- The region that holds a phase: that of its home rail (R116). -/
def State.phRegion (s : State) (p : Ph) : Option (Fin 6) := s.regionOf (s.home p)
/-- The phases assigned to a rail (R120). -/
def State.phasesOf (s : State) (r : Rail) : List Ph := phases.filter fun p => (s.phAt p).asg == some r.val && s.fitted p
/-- The ACTIVE phases of a rail. -/
def State.activeOf (s : State) (r : Rail) : List Ph := (s.phasesOf r).filter fun p => (s.phAt p).st == .active
/-- STATE of a phase as a die computes it: the phase's, unless the standby's own currents have decided otherwise (R166, R170). -/
def State.phView (s : State) (d : Cd) (p : Ph) : PhState := (s.phDie d p).alt.getD (s.phAt p).st
/-- The ACTIVE and TEST phases of a rail as a die computes them (R166). -/
def State.drivenBy (s : State) (d : Cd) (r : Rail) : List Ph :=
  (s.phasesOf r).filter fun p => s.phView d p == .active || s.phView d p == .test
/-- The ACTIVE and TEST phases of a rail (RAIL_STAT.NACT). -/
def State.drivenOf (s : State) (r : Rail) : List Ph :=
  (s.phasesOf r).filter fun p => (s.phAt p).st == .active || (s.phAt p).st == .test
/-- The rail is benched (R213). -/
def State.railBenched (s : State) (r : Rail) : Bool := (s.railAt r).benched.isSome
/-- The control die that drives the balls (R166); Die A while none does. -/
def State.act (s : State) : Cd := s.arb.active.getD .a
/-- The rail as the active die holds it. -/
def State.railAct (s : State) (r : Rail) : RailDie := s.railDie s.act r
/-- The sum of ISTAGE over the phases whose HOME or ALT is the rail (R148), in A. -/
def State.rating (s : State) (r : Rail) : Nat := ((s.reach r).map fun p => PhCfg.istage (s.pcfg p)).sum
/-- The rail is ganged in the configuration in force (R132). -/
def State.ganged (s : State) (r : Rail) : Bool := RailChain.gangEn (s.rchain r)
/-- This device closes the loop of the rail: the rail is not ganged, or this device is the gang's leader in force (R138). -/
def State.leads (s : State) (r : Rail) : Bool := !s.ganged r || (s.gang[r.val]).role == .leader
/-- The members that a RAIL_CHAIN record names as (device, rail), in member order (Table 4.4). -/
def gangMembers (c : Nat) : List (Nat × Nat) :=
  ([RailChain.mem0 c, RailChain.mem1 c, RailChain.mem2 c, RailChain.mem3 c].take (RailChain.size c)).map fun e =>
    (bits e 5 0, bits e 9 6)

/-- The members of a ganged rail as (device, rail), in member order (Table 4.4). -/
def State.members (s : State) (r : Rail) : List (Nat × Nat) := gangMembers (s.rchain r)
/-- The stage rating in A, over all members for a ganged rail (R148, log entry 24). -/
def State.ratingG (s : State) (r : Rail) : Nat :=
  if s.ganged r then
    ((s.members r).map fun m => if m.1 = s.ring.num then s.rating r else Config.memberRating m.1 m.2 s.cfg.ovl).sum
  else s.rating r
/-- A temperature source is enabled (R273). -/
def State.srcEn (s : State) (k : Src) : Bool :=
  if k.val < 24 then true
  else if h : k.val < 72 then s.fitted ⟨k.val - 24, by omega⟩
  else s.cfg.inForce.isSome && bit (ThermCfg.ntcEn s.thcfg) (k.val - 72)

/-! ### The beat budget -/

/-- The beat sum in CTL cycles (Table 1.12). -/
def State.beatSum (s : State) : Nat :=
  let per := rails.map fun r =>
    if !s.railEn r then 0
    else if !RailChain.gangEn (s.rchain r) then 2
    else if RailChain.role (s.rchain r) = 2 then 1 else 3
  let act := phases.filter fun p => s.fitted p && (railOf (s.home p)).any s.railEn
  8 + per.sum + 6 + ceilDiv act.length 8 + 4

/-- The frame sum in CTL cycles (Table 1.13). -/
def State.frameSum (s : State) : Nat :=
  let r := countP s.railEn rails
  let p := countP (fun p => s.fitted p && (railOf (s.home p)).any s.railEn) phases
  let g := countP (fun g => s.cfg.inForce.isSome && RegionCfg.lendEn (s.gcfg g)) (List.finRange 6)
  let m := countP (fun (m : MeterSeq) => m.active) s.mseq.toList
  let k := countP (fun r => s.railEn r && RailChain.gangEn (s.rchain r)) rails
  let t := countP s.srcEn (List.finRange 76)
  120 + 8 * r + 16 * r + 2 * p + 24 * g + 12 * m + 16 * k + 4 * t + 160

/-- The round sum in MGT cycles (Table 1.14). -/
def State.roundSum (s : State) : Nat :=
  let t := countP s.srcEn (List.finRange 76)
  let w := countP (fun (x : SlotSt) => x.armed) s.wd.slots.toList
  60000 + 100 * t + 100 * (if s.host.en then 2000 else 250) + 50 * w + 12000 + 16000 + 4 * s.cfg.ovlMax
    + 40 * s.cfg.orders.length + 40000

/-- A configuration fits: no sum exceeds its capacity (R33). -/
def State.fits (s : State) : Bool := decide (s.beatSum ≤ 50 ∧ s.frameSum ≤ 1600 ∧ s.roundSum ≤ 400000)

/-- VALUE of a BUDGET status, bytes 8 to 14: the sums, exact (Table 13.3). -/
def State.sumsValue (s : State) : Nat :=
  fld s.beatSum 8 0 + fld s.frameSum 16 8 + fld s.roundSum 32 24

/-! ### Statuses -/

/-- A status with its EXTRA and VALUE (Table 13.3). -/
structure Reply where
  status : Nat
  extra  : Nat := 0
  value  : Nat := 0
deriving DecidableEq, Repr

/-- BAD_TARGET, target not acceptable. -/
def badTarget : Reply := { status := 0x21 }
/-- BAD_TARGET, time not acceptable. -/
def badTime : Reply := { status := 0x21, extra := 0x0001 }
/-- BAD_TARGET, malformed, with the offset of the first offending byte. -/
def malformed (off : Nat) : Reply := { status := 0x21, extra := 0x0002 + 256 * off }
/-- BUSY. -/
def busy : Reply := { status := 0x23 }
/-- BUSY, target benched. -/
def busyBenched : Reply := { status := 0x23, extra := 0x0001 }
/-- DENIED with a cause. -/
def denied (k : Nat) : Reply := { status := 0x14, extra := k }
/-- A status when a condition holds. -/
def failIf (c : Bool) (r : Reply) : Option Reply := if c then some r else none
/-- The RRAM programs no page: NVM_RO is set, or Die P's supply is below its power-fail level (R452, R453). -/
def State.noRram (s : State) : Bool := s.nvm.nvmRo || s.pwr.powerFail
/-- The answer to a ticket that needs an RRAM write: FAULT under NVM_RO (R453), BUSY while the power fails (log entry 128). -/
def nvmFault (s : State) : Option Reply :=
  if s.nvm.nvmRo then some { status := 0x3F, extra := 0x0004 } else failIf s.pwr.powerFail busy

/-- The beat whose low 32 bits are `low` and that lies from `b − 2³¹` to `b + 2³¹ − 1` (R338). -/
def resolve (b low : Nat) : Nat :=
  let d := (low + 2 ^ 32 - b % 2 ^ 32) % 2 ^ 32
  if d < 2 ^ 31 then b + d else b + d - 2 ^ 32

end Sys2Proof.Machine

namespace Sys2Proof

open Machine

/-! ### The ticket -/

/-- What a stub echoes of a ticket (R341). -/
def Tkt.ref (t : Tkt) : TkRef := { client := t.client, gen := t.gen, seq := t.seq }

/-- The rail that the target names. -/
def Tkt.rail (t : Tkt) : Option Rail := if t.railF = 0 then none else railOf (t.railF - 1)
/-- The phase that the target names. -/
def Tkt.phase (t : Tkt) : Option Ph := if t.phaseF = 0 then none else phOf (t.phaseF - 1)

/-- The not-before beat of a ticket; 0, met at once, when it carries none (R30, R338). -/
def Tkt.nbBeat (t : Tkt) (s : State) : Nat := if t.nb then resolve s.time.clk t.notBefore else 0

/-- The region against which a grant is checked: that of the named rail or phase, on another device as the chain's images give it (R337, log
entry 119). -/
def Tkt.grantRegion (t : Tkt) (s : State) : Option Nat :=
  if t.dev ≠ s.ring.num ∧ !t.chain then (if t.railF = 0 ∧ t.phaseF = 0 then none else some (Config.unitRegion t.dev t.railF t.phaseF % 6))
  else match t.rail, t.phase with
    | some r, _ => (s.regionOf r.val).map Fin.val
    | none, some p => (s.phRegion p).map Fin.val
    | none, none => none

/-- The target names a unit of the kind the opcode asks for, on this device (R337). -/
def Tkt.targetOk (t : Tkt) (s : State) (tgt : Target) : Bool :=
  let railOk := match t.rail with
    | some r => s.railEn r && t.phaseF == 0 && (t.regionF == 0 || s.regionOf r.val == (if h : t.regionF - 1 < 6 then some ⟨t.regionF - 1, h⟩ else none))
    | none => false
  let phOk := match t.phase with
    | some p => s.fitted p && t.railF == 0 && t.regionF == 0
    | none => false
  let devOk := t.railF == 0 && t.phaseF == 0 && t.regionF == 0
  match tgt with
  | .rail => railOk
  | .phase => phOk
  | .device => devOk
  | .railOrPhase => railOk || phOk
  | .railOrDevice => railOk || devOk
  | .none => devOk && t.dev == 0
  | .byKind => match t.byte 16 with
    | 0 => phOk
    | 1 => railOk
    | 4 => match t.rail with
      | some r => railOk && RailChain.gangEn (s.rchain r)
      | none => false
    | _ => devOk
  | .bySel => match t.byte 16 with
    | 0 => railOk
    | 1 => phOk
    | 2 => railOk
    | 7 => railOk
    | 8 => railOk
    | 9 => railOk || phOk
    | _ => devOk

end Sys2Proof

namespace Sys2Proof.Machine

/-- The bits of byte `i` that a ticket may set (R346): the header's are checked apart; with SG = 1, bytes 48 to 56 hold
the list and the opcode's own fields stand below (R336). -/
def allowedMask (row : OpRow) (sg : Bool) (i : Nat) : Nat :=
  if sg && decide (48 ≤ i) then (if i ≤ 56 then 0xFF else 0)
  else ((row.named.find? fun x => x.1 == i).map Prod.snd).getD 0

/-- The offending bytes of the header (Table 13.1, R336 to R339). A part of a chain ticket that a head has handed on names its device in DEV. -/
def headBad (t : Tkt) (row : OpRow) (nbOk fwd : Bool) : List Nat :=
  (if (t.nb && !nbOk) || (t.sg && row.sg == .never) || (!t.sg && row.sg == .must) || (t.chain && !row.chain)
      || bits t.raw 15 11 != 0 then [1] else [])
  ++ (if t.clientField = t.client then [] else [2])
  ++ (if bits t.raw 31 28 = 0 then [] else [3])
  ++ (if t.cls = row.cls ∧ bits t.raw 47 44 = 0 then [] else [5])
  ++ (if (t.chain && t.dev != 0 && !fwd) || t.regionF == 7 then [8] else [])
  ++ (if 12 < t.railF ∨ 48 < t.phaseF then [9] else [])
  ++ (if bits t.raw 87 83 = 0 then [] else [10])
  ++ (if bits t.raw 95 88 = 0 then [] else [11])
  ++ (if t.nb then [] else [12, 13, 14, 15].filter fun i => t.byte i != 0)

/-- The offending bytes of the payload: a bit outside the named fields, a field outside its range, a scatter list that
breaks Table 12.12 (R326, R346). -/
def payBad (t : Tkt) (row : OpRow) (rng : List (Nat × Bool)) : List Nat :=
  ((List.range 48).map (· + 16)).filter (fun i => (t.byte i &&& (0xFF - allowedMask row t.sg i)) != 0)
  ++ (rng.filter fun x => !x.2).map Prod.fst
  ++ (if t.sg && (t.client == 4094 || t.client == 4095 || t.le 48 8 % 16 != 0
        || (t.sgl.any fun e => bits e 127 89 != 0)
        || !t.segs.all fun x => decide (256 ≤ x.2 ∧ x.2 ≤ 16777216 ∧ x.2 % 256 = 0 ∧ x.1 % 64 = 0)) then [48] else [])
  ++ (if t.sg && t.byte 56 == 0 then [56] else [])

/-- The first offending byte of a malformed ticket. -/
def firstBad (l : List Nat) : Option Nat := l.min?

/-- A fetched ticket is the one at hand: client, bytes and the beat of the write that covers it. -/
def Fetched.is (f : Fetched) (t : Tkt) : Bool := f.client == t.client && f.raw == t.raw && f.ts == t.ts

/-- Whether the ticket at the front of the fetched ones came from another device, whose head has checked the client (R333, R378). -/
def State.isFwd (s : State) (t : Tkt) : Bool :=
  match s.host.fetched with
  | f :: _ => f.fwd && f.is t
  | [] => false

/-- The sender is the owner in force; without an ownership record for 2 rounds there is none (R351, R394). The
generation of a forwarded ticket's sender has been checked by its head. -/
def State.isOwner (s : State) (t : Tkt) : Bool :=
  s.own.valid && decide (s.own.noRec < 2) && s.own.client == t.client && (s.isFwd t || s.own.gen == t.gen)

/-- The client's entry carries a permission bit (Table 12.9). -/
def Client.has (c : Client) (b : Nat) : Bool := bit c.entry b

/-- One of the client's eight grants names the device and the region, or every region of it (R313). -/
def Client.granted (c : Client) (dev : Nat) (g : Option Nat) : Bool :=
  (List.range 8).any fun k =>
    let w := bits c.entry (171 + 12 * k) (160 + 12 * k)
    bits w 5 0 == dev && bits w 8 6 != 7 && (match g with
      | some r => bits w 8 6 == 6 || bits w 8 6 == r
      | none => true)

/-- A client holds a floor of some rail (R76). -/
def State.hasFloor (s : State) (c : Nat) : Bool := s.rail.toList.any fun (x : RailSt) => x.floors.any fun f => f.1 == c

/-- What moves an intent field reaches both dies as a posting (R167). -/
def State.intentIf (s : State) (b : Bool) : State := if b then s.intent else s

/-- A client's generation ends: its floors are withdrawn, its pending forecasts end without a stub, its trust entries are freed, and the
signed-ticket parts held of it are dropped (R78, R161, R322, R348). -/
def State.endClient (s : State) (c : Nat) : State :=
  let u : State := { s with rail := s.rail.map fun (x : RailSt) => { x with floors := x.floors.filter fun f => f.1 != c }
                            fc := { s.fc with fcs := s.fc.fcs.filter (fun x => x.client != c), trust := s.fc.trust.filter fun x => x.client != c } }
  (u.modClient c fun x => { x with parts := [] }).intentIf (s.hasFloor c)

/-- The tickets served in the barker state (Table 19.5, Table 18.4) and in the no-image state (R469), by row. -/
def served (noimg : Bool) (key : Nat) : Bool :=
  [0x600, 0x603, 0x610, 0x620, 0x630, 0x200, 0x220, 0x820, 0x900, 0xA00, 0x750, 0x120, 0x210, 0xE00, 0xA30, 0xE10, 0xE20, 0xE23].contains key
  || (noimg && [0x300, 0x310].contains key)

/-- The state of the device lets a row be served: in the barker state and with no image in force only some are. -/
def State.serves (s : State) (key : Nat) : Bool :=
  if s.start.barker then served false key else if s.start.noimg then served true key else true

/-- What a row adds to the checks of R340: whether it is for the owner only (in place of the table's mark), whether it may
carry NB = 1 (in place of the Effect column), field ranges (offset, holds), and failures of the steps 4, 5 and 6, and 7
and 8, each in order. `free` marks a row that a benched target does not stop: it has no effect there, or it is the
READMIT or CLEAR that mends it (R349). -/
structure TCheck where
  own  : Option Bool := none
  nb   : Option Bool := none
  perm : Option Nat := none
  grant : Option Bool := none
  rng  : List (Nat × Bool) := []
  den  : List (Option Reply) := []
  pre  : List (Option Reply) := []
  post : List (Option Reply) := []
  free : Bool := false
  bnd  : Option Nat := none
deriving DecidableEq, Repr

/-- The first failure of a list of checks. -/
def firstFail : List (Option Reply) → Option Reply
  | [] => none
  | some r :: _ => some r
  | none :: l => firstFail l

/-- The device that processes a ticket: the one it targets, or the keeper for the BENCH and READMIT of a chain device (R392, R395,
log entry 50). -/
def State.tktDst (s : State) (t : Tkt) : Nat :=
  if (t.op = 0x51 ∨ t.op = 0x52) ∧ t.byte 16 = 5 then s.own.keeper else t.dev

/-- A deposed owner keeps only read access: its votes, forecasts and check-ins are not allowed (R362, log entry 120). -/
def State.onlyReads (s : State) (t : Tkt) : Bool := s.own.deposed.contains t.client && [0x00, 0x10, 0x11, 0x70].contains t.op

/-- The checks 1 to 4 of R340, which the device that fetched the ticket makes. The target of a forwarded one makes those that need nothing of
the client's entry again (R378). -/
def headChecks (s : State) (t : Tkt) (row : OpRow) (c : TCheck) : List (Option Reply) :=
  let cl := s.client t.client
  let fwd := s.isFwd t
  let need := match c.perm with
    | some b => [some b, row.perm]
    | none => [row.perm]
  [ failIf (!fwd && t.gen != cl.gen) { status := 0x10 },
    (firstBad (headBad t row (c.nb.getD row.nb) fwd ++ payBad t row c.rng)).map malformed,
    failIf (c.own.getD row.owner && !s.isOwner t && s.own.deposed.contains t.client) { status := 0x12, value := s.own.epoch % 256 },
    failIf (c.own.getD row.owner && !s.isOwner t) { status := 0x11 },
    failIf (!fwd && (s.onlyReads t || need.any fun p => match p with
      | some b => !cl.has b
      | none => false)) (denied 0),
    failIf (!fwd && c.grant.getD row.grant && !cl.granted (if t.chain then s.ring.num else t.dev) (t.grantRegion s)) (denied 1) ]
  ++ (if row.tgt != .none && !t.chain && s.tktDst t != s.ring.num then [] else c.den)

/-- A ticket has an effect, by its class and row: every CONTROL one, and of the others FORECAST_TRUST as a set, IMAGE_WRITE, OVERLAY_WRITE and
TRACE_STREAM (R349, R393). -/
def hasEffect (cls key : Nat) : Bool := cls == 0 || [0x121, 0x300, 0x320, 0xA20, 0xA21].contains key

/-- The checks 5 to 8 of R340, which the target device makes. -/
def tailChecks (s : State) (t : Tkt) (key : Nat) (row : OpRow) (c : TCheck) : List (Option Reply) :=
  [ failIf (!t.targetOk s row.tgt) badTarget ]
  ++ c.pre
  ++ [ failIf (t.sg && decide (64 < t.byte 56)) { status := 0x20, value := 64 },
       failIf (!s.serves key) busy,
       failIf (hasEffect row.cls key && !c.free && (s.ring.benchedMe || (match t.rail with
         | some r => s.railBenched r
         | none => false))) busyBenched ]
  ++ c.post

/-- The ticket window of a round: the tickets of the device's rated rate (Table 1.14, R334). -/
def State.window (s : State) : Nat := if s.host.en then 2000 else 250

/-- A ticket is the next that the service order gives, the first of the fetched ones, and the round's ticket window has room for it (R319, R333,
R339). -/
def State.isNext (s : State) (t : Tkt) : Bool :=
  decide (s.host.ticketN < s.window) && (match s.host.fetched with
    | f :: _ => f.is t
    | [] => false)

/-- Take the next ticket out of the fetched ones: it is processed now (R339). -/
def State.takeTicket (s : State) : State :=
  let s : State := { s with host := { s.host with fetched := s.host.fetched.drop 1, ticketN := s.host.ticketN + 1 } }
  s.count 0x054 0 1

/-- A deposed owner speaks: OWNER_DEPOSED is posted once per round while it does, with its port and the epoch it sent (R362). -/
def State.deposedSpeaks (s : State) (t : Tkt) : State :=
  let r := roundOf s.time.clk
  if !s.own.deposed.contains t.client || s.own.depRound.contains (t.client, r) then s
  else
    let ep := if 0x60 ≤ t.op ∧ t.op ≤ 0x62 then t.le 20 4 else 0
    let l := (s.own.depRound.filter fun x => x.1 != t.client) ++ [(t.client, r)]
    ({ s with own := { s.own with depRound := l } } : State).postClient 0x7A t.client
      (match s.portOf s.ring.num t.client with
        | some p => p.val
        | none => 0xFF) ep

/-- Answer a ticket. A stale generation is counted in HOST_CNT (R323). -/
def State.reply (s : State) (t : Tkt) (r : Reply) : State :=
  let s := if r.status = 0x10 then
      ({ s with host := { s.host with stale := satAdd 16 s.host.stale 1 } }).count 0x054 3 1 else s
  let s := if r.status = 0x21 ∧ r.extra % 256 = 2 then s.count 0x054 4 1 else s
  let s := if r.status = 0x22 then s.count 0x054 6 1 else s
  let s := if r.status = 0x12 then s.deposedSpeaks t else s
  s.stub { ref := t.ref, status := r.status, extra := r.extra, value := r.value }

/-- Answer a ticket with OK. -/
def State.ok (s : State) (t : Tkt) (extra : Nat := 0) (value : Nat := 0) : State :=
  s.reply t { status := 0x00, extra := extra, value := value }

/-- Answer a ticket with QUEUED. -/
def State.queued (s : State) (t : Tkt) (extra : Nat := 0) : State := s.reply t { status := 0x02, extra := extra }

/-- Hand a ticket to the device it targets, with the forwarding count in bits [95:83] (R333, R378). The head keeps the segments for the data of
the answer (R321), and those of a trace stream (R410); a check-in carries its check-in beat (R420). -/
def State.forward (s : State) (t : Tkt) (d : Nat) : State :=
  let n := (s.devAt d).fwdTx
  let start := t.op == 0xA2 && t.byte 16 == 1 && (s.devAt d).stream.isNone
  let e : FwdEnt := { n := n, ref := t.ref, atBeat := s.time.clk, segs := t.segs, cur := t.cursor }
  let s := s.modDev d fun x => { x with fwdTx := wrapAdd 13 n 1, fwdOut := x.fwdOut ++ [e]
                                        stream := if start then some (t.ref, 0, t.segs) else x.stream }
  let beat := if t.op = 0x70 then fld t.ts 32 96 else 0
  (s.send { kind := 0, src := s.ring.num, dst := d, body := t.raw + fld n 13 83 + beat }).count 0x054 5 1

/-- The part of a chain ticket that one device takes: its number in DEV, and the boundary that all of them act at, when the
head has fixed one, as the not-before beat (R347, log entry 36). -/
def partOf (t : Tkt) (d : Nat) (nb : Option Nat) : Tkt :=
  let r := t.raw % 2 ^ 64 + fld d 6 64 + t.raw / 2 ^ 70 * 2 ^ 70
  { t with raw := match nb with
    | some b => r % 2 ^ 8 + fld 1 1 8 + r / 2 ^ 9 % 2 ^ 87 * 2 ^ 9 + fld b 32 96 + r / 2 ^ 128 * 2 ^ 128
    | none => r }

/-- Hand a ticket on with the next forwarding count and await no stub of it (R378, R488). -/
def State.handOn (s : State) (t : Tkt) (d : Nat) : State :=
  let n := (s.devAt d).fwdTx
  let s := s.modDev d fun x => { x with fwdTx := wrapAdd 13 n 1 }
  (s.send { kind := 0, src := s.ring.num, dst := d, body := t.raw + fld n 13 83 }).count 0x054 5 1

/-- The devices of the chain other than this one that it knows. -/
def State.others (s : State) : List Nat := (List.range 64).filter fun n => n != s.ring.num && (s.devAt n).known

/-- The other devices that take part in a chain ticket: every one; for OVERLAY_SELECT those in service (R345, R478, R488). -/
def State.askedFor (s : State) (t : Tkt) : List Nat :=
  if t.op = 0x34 then s.others.filter fun d => !(s.devAt d).benched && !(s.devAt d).barker else s.others

/-- VALUE of the answer to a chain ticket that a device refuses: byte 15 names the device (R347). -/
def refusedBy (value dev : Nat) : Nat := value % 2 ^ 56 + fld dev 8 56

/-- Hand the parts of a chain ticket to the other devices, and keep this device's part of the answer until the last of
them has answered (R347). `per`: the bytes of each device in the whole that a read makes (R345). -/
def State.chainPart (s : State) (t : Tkt) (r : Reply) (nb : Option Nat := none) (per : Nat := 0) : State :=
  let l := s.askedFor t
  if l.isEmpty then s.reply t (if r.status < 0x10 then r else { r with value := refusedBy r.value s.ring.num })
  else
    let s := l.foldl (fun s d => s.forward (partOf t d nb) d) s
    let c : ChainOut := { ref := t.ref, wait := l, status := r.status, extra := r.extra, value := r.value,
                          dev := if r.status < 0x10 then 64 else s.ring.num, segs := t.segs, cur := t.cursor, per := per }
    { s with ring := { s.ring with chainOut := s.ring.chainOut ++ [c] } }

/-- The ticket engine processes nothing: it moves to the other die, its core restarts or is halted, or, in the barker state, neither control die
passed LOGIC and MEM (R187, R425, R426, R473). -/
def State.engineStopped (s : State) : Bool :=
  (s.start.barker && s.start.failA % 4 != 0 && s.start.failB % 4 != 0) || s.arb.engineMove || s.wd.restart[s.arb.engine.ix.val] || s.wd.halted[s.arb.engine.ix.val]

/-- The ticket engine processes this ticket now: it runs, and the ticket is the next (R187, R319, R339). -/
def State.ready (s : State) (t : Tkt) : Bool := !s.engineStopped && s.isNext t

/-- Process a ticket of a row: the checks of R340 in order, the first that fails gives the stub; then the row's effect.
A ticket for another device is forwarded once the checks 1 to 4 have passed.
A ticket whose turn has not come is not processed, nor is any while the ticket engine moves to the other die, or its core restarts or is halted:
it stays with the fetched ones (R187, R339, R425, R426). -/
def runTicket (t : Tkt) (key : Nat) (s : State) (c : TCheck) (body : State → State) : Host.Outcome State Fault Refusal :=
  if t.rowKey ≠ key then .refused .illFormed
  else if s.ready t = false then .next s
  else match opRow t.op with
    | none => .refused .illFormed
    | some row =>
      let u := s.takeTicket
      match firstFail (headChecks s t row c) with
      | some r => .next (u.reply t r)
      | none =>
        if row.tgt != .none && !t.chain && s.tktDst t != s.ring.num then
          (if (s.devAt (s.tktDst t)).known then .next (u.forward t (s.tktDst t)) else .next (u.reply t badTarget))
        else match firstFail (tailChecks s t key row c) with
          | some r => .next (if t.chain && !s.isFwd t then u.chainPart t r c.bnd else u.reply t r)
          | none =>
            if t.failed then .next ((u.postClient 0x74 t.client t.op t.seq).reply t { status := 0x3F, extra := 0x0001 })
            else .next (body u)

/-- Write bytes into segments in list order, never past a segment's end (R327). -/
def State.segWrite (s : State) : List (Nat × Nat) → List Nat → State
  | [], _ => s
  | (a, n) :: r, bs => if bs = [] then s else (s.hostWrite a (bs.take n)).segWrite r (bs.drop n)

/-- What a list of segments leaves after its first bytes. -/
def segDrop : List (Nat × Nat) → Nat → List (Nat × Nat)
  | [], _ => []
  | (a, n) :: r, k => if k < n then (a + k, n - k) :: r else segDrop r (k - n)

/-- Data into segments, as many bytes as they hold (R321, R327). -/
def State.fill (s : State) (segs : List (Nat × Nat)) (bs : List Nat) : State :=
  (s.segWrite segs bs).count 0x055 2 (min (segSum segs) bs.length / 64)

/-- The answer to a read of `m` bytes from offset `cur` on with segments of `tot` bytes: SHORT when they do not all fit (R327). -/
def fitReply (tot cur m : Nat) : Reply :=
  if m ≤ tot then { status := 0x00, value := fld m 32 0 } else { status := 0x01, value := fld tot 32 0 + fld (cur + tot) 32 32 }

/-- Answer a ticket with data, which go into its segments ahead of the stub; the data of a ticket that another head has forwarded travel to that
head (R321, R327, log entry 116). `cur` is the offset of the first byte in the data asked for. -/
def State.answer (s : State) (t : Tkt) (cur : Nat) (bs : List Nat) : State :=
  if (s.stubHead t.client).isSome then s.stub { ref := t.ref, value := fld bs.length 32 0 } bs
  else (s.fill t.segs bs).reply t (fitReply (segSum t.segs) cur bs.length)

end Sys2Proof.Machine
end

