-- ==== Sys2Proof/Machine/Otp.lean ====
section
/-! DEFINITION. The fuse arrays: physical rows, the Hsiao code, read states, redirection (R437 to R442), the flag rows
(R441), key slots (R447), domain checks (R445), and the CRCs the spec names. -/

namespace Sys2Proof.Machine

/-! ### Codes -/

/-- The number of 1-bits of an `n`-bit word. -/
def popcount (n x : Nat) : Nat := countP (bit x) (List.range n)

/-- One step of a reflected CRC-32 register, polynomial 0x04C11DB7 (R440). -/
def crc32Bit (c : Nat) : Nat := if c % 2 = 1 then (c / 2) ^^^ 0xEDB88320 else c / 2

/-- CRC-32 register after one byte. -/
def crc32Byte (c b : Nat) : Nat := (List.range 8).foldl (fun c _ => crc32Bit c) (c ^^^ (b % 256))

/-- CRC-32 of bytes: reflected, initial value and final XOR 0xFFFF_FFFF (R440). -/
def crc32 (bs : List Nat) : Nat := (bs.foldl crc32Byte 0xFFFFFFFF) ^^^ 0xFFFFFFFF

/-- CRC of `w` bits over bytes, most significant bit first, no reflection, no final XOR (R331, R375). -/
def crcMsb (w poly init : Nat) (bs : List Nat) : Nat :=
  bs.foldl (fun c b => (List.range 8).foldl (fun c _ =>
    let c2 := c * 2 % 2 ^ w
    if c / 2 ^ (w - 1) % 2 = 1 then c2 ^^^ poly else c2) (c ^^^ (b % 256 * 2 ^ (w - 8)))) init

/-- CRC-8 of an SPI transaction (R331). -/
def crc8 (bs : List Nat) : Nat := crcMsb 8 0x07 0 bs

/-- CRC-16 of a ring packet (R375). -/
def crc16 (bs : List Nat) : Nat := crcMsb 16 0x1021 0xFFFF bs

/-- CRC-7 of a gang packet: polynomial x⁷ + x³ + 1, initial value 0, over bits [56:0] from the highest (R380). The spec
names no bit order: highest first is log entry 13. -/
def crc7 (pkt : Nat) : Nat :=
  (List.range 57).foldl (fun c i =>
    let top := (c / 64 % 2) ^^^ (b2n (bit pkt (56 - i)))
    let c2 := c * 2 % 128
    if top = 1 then c2 ^^^ 0x09 else c2) 0

/-! ### Rows -/

/-- The columns of the DATA bits: the 56 values of weight 3, then the first 8 of weight 5, ascending (R437). -/
def hsiaoCols : List Nat :=
  (List.range 256).filter (fun v => popcount 8 v == 3) ++ ((List.range 256).filter fun v => popcount 8 v == 5).take 8

/-- CHK of a DATA word (R437): the XOR of the columns of its 1-bits. -/
def hsiao (d : Nat) : Nat :=
  ((List.range 64).zip hsiaoCols).foldl (fun c x => if bit d x.1 then c ^^^ x.2 else c) 0

/-- Read states of a row (R438). -/
inductive RowRead
  | blank
  | complete (data : Nat) (corrected : Bool)
  | voided
  | torn
deriving DecidableEq, Repr

/-- The read state of 80 fuses, SEC-DED applied to a COMPLETE row (R438). -/
def readFuses (f : Nat) : RowRead :=
  let d := f % 2 ^ 64
  if f = 0 then .blank
  else if f = 2 ^ 80 - 1 then .voided
  else if popcount 8 (f / 2 ^ 72) < 5 then .torn
  else
    let syn := hsiao d ^^^ (f / 2 ^ 64 % 256)
    if syn = 0 then .complete d false
    else match hsiaoCols.findIdx? (· == syn) with
      | some i => .complete (d ^^^ 2 ^ i) true
      | none => if popcount 8 syn = 1 then .complete d true else .torn

/-- The 80 fuses of a programmed row (R438). -/
def fusesOf (d : Nat) : Nat := d % 2 ^ 64 + fld (hsiao d) 8 64 + fld 0xFF 8 72

/-- The fuses of a physical row; a row the array does not list is BLANK. Spare row k is 0x100 + k. -/
def OtpDie.phys (o : OtpDie) (row : Nat) : Nat := ((o.rows.find? fun x => x.1 == row).map Prod.snd).getD 0

/-- The array after blowing fuses of a physical row: a fuse never goes back to 0 (R437). -/
def OtpDie.blow (o : OtpDie) (row f : Nat) : OtpDie :=
  let v := o.phys row ||| f
  { o with rows := if v = 0 then o.rows else (o.rows.filter fun x => x.1 != row) ++ [(row, v)] }

/-- The redirection entry of a logical row and a spare (R442). -/
def redirEntry (row spare : Nat) : Nat :=
  let lo := fld row 8 0 + fld spare 3 8 + fld 1 1 11
  lo + fld (popcount 12 lo) 4 12

/-- A redirection entry is used: both copies equal, the count right (R442). -/
def redirUsed (e : Nat × Nat × Nat) : Bool :=
  e.2.1 == e.2.2 && bit e.2.1 11 && bits e.2.1 15 12 == popcount 12 (bits e.2.1 11 0)

/-- The used entries, in index order. -/
def OtpDie.used (o : OtpDie) : List (Nat × Nat × Nat) := o.redir.filter redirUsed

/-- The physical row a logical row reads from: its latest used redirection, else itself (R442). -/
def OtpDie.where_ (o : OtpDie) (row : Nat) : Nat :=
  match (o.used.filter fun e => bits e.2.1 7 0 == row).getLast? with
  | some e => 0x100 + bits e.2.1 10 8
  | none => row

/-- The read state of a logical row. -/
def OtpDie.read (o : OtpDie) (row : Nat) : RowRead := readFuses (o.phys (o.where_ row))

/-- DATA of a logical row as the domain checks read it: corrected in a COMPLETE row, else its fuses as they stand (R438, log
entry 67). -/
def OtpDie.data (o : OtpDie) (row : Nat) : Nat :=
  match o.read row with
  | .complete d _ => d
  | _ => o.phys (o.where_ row) % 2 ^ 64

/-- A logical row reads COMPLETE. -/
def OtpDie.isComplete (o : OtpDie) (row : Nat) : Bool :=
  match o.read row with
  | .complete _ _ => true
  | _ => false

/-- The spare rows consumed: not BLANK, whether or not an entry names them (R442). -/
def OtpDie.sparesUsed (o : OtpDie) (n : Nat) : Nat := countP (fun k => o.phys (0x100 + k) != 0) (List.range n)

/-- The first BLANK spare that no used entry names. -/
def OtpDie.freeSpare (o : OtpDie) (n : Nat) : Option Nat :=
  (List.range n).find? fun k => o.phys (0x100 + k) == 0 && !o.used.any fun e => bits e.2.1 10 8 == k

/-- The first redirection entry with no fuse blown. -/
def OtpDie.freeEntry (o : OtpDie) (n : Nat) : Option Nat := (List.range n).find? fun i => !o.redir.any fun e => e.1 == i

/-- The DATA words of rows `a … b` as the CRC reads them (R440). -/
def OtpDie.words (o : OtpDie) (a b : Nat) : List Nat := ((List.range (b + 1 - a)).map fun i => leBytes 8 (o.data (a + i))).flatten

/-! ### What the rows say of the device -/

/-- The fuses of a die: 0 Die A, 1 Die B, 2 Die P. -/
def State.otpDie (s : State) (d : Fin 3) : OtpDie := s.nvm.otp[d.val]

/-- The lock row of a control die is COMPLETE (R448). -/
def State.locked (s : State) (d : Cd) : Bool := (s.otpDie (if d = .a then 0 else 1)).isComplete 0xEF

/-- UNPROVISIONED: the lock row is not COMPLETE on both control dies (R448). -/
def State.unprovisioned (s : State) : Bool := !(s.locked .a && s.locked .b)

/-- State of key slot `k`: 0 EMPTY, 1 SET, 2 HELD (R447). -/
def State.keySlot (s : State) (k : Nat) : Nat :=
  let rows := (List.range 4).map (0x50 + 4 * k + ·)
  if rows.all fun r => (s.otpDie 0).read r == .blank && (s.otpDie 1).read r == .blank then 0
  else if rows.all fun r => (s.otpDie 0).isComplete r && (s.otpDie 1).isComplete r && (s.otpDie 0).data r == (s.otpDie 1).data r then 1
  else 2

/-- The hash of key slot `k`: hash bytes 0 to 7 in its first row (R439). The most significant byte is written first (R7). -/
def State.keyHash (s : State) (k : Nat) : Nat :=
  beNat ((List.range 4).map fun j => leBytes 8 ((s.otpDie 0).data (0x50 + 4 * k + j))).flatten

/-- Key slot `k` is revoked: its revoke row is not BLANK on a control die (R441). -/
def State.keyRevoked (s : State) (k : Nat) : Bool :=
  (s.otpDie 0).read (0x60 + k) != .blank || (s.otpDie 1).read (0x60 + k) != .blank

/-- The VOID row is set (R441). -/
def State.voidRow (s : State) : Bool := (s.otpDie 2).read 0x40 != .blank

/-- The policy row selects HOLD_RESET (R441). -/
def State.holdPolicy (s : State) : Bool := (s.otpDie 2).read 0x41 == .complete 0x5A5A5A5A5A5A5A5A false
  || (s.otpDie 2).read 0x41 == .complete 0x5A5A5A5A5A5A5A5A true

/-- COMPLETE rows among four (R455). -/
def State.resetRows (s : State) (base : Nat) : Nat := countP (fun i => (s.otpDie 2).isComplete (base + i)) (List.range 4)

/-- The serial number, byte 0 lowest: Die P rows 0x30 and 0x31 (R440). -/
def State.serialOtp (s : State) : Nat := (s.otpDie 2).data 0x30 + 2 ^ 64 * (s.otpDie 2).data 0x31

/-- A row of a control die reads TORN. -/
def OtpDie.isTorn (o : OtpDie) (row : Nat) : Bool := o.read row == .torn

/-- The integrity of R445 fails. -/
def State.integrityBad (s : State) : Bool :=
  let rowsH := (List.range 0x41)
  let rowsI := (List.range 0x70).map (· + 0x80)
  let torn := [(0 : Fin 3), 1].any (fun d => (rowsH ++ rowsI).any (s.otpDie d).isTorn)
    || ((List.range 0x33).any (s.otpDie 2).isTorn)
  let crcH := [(0 : Fin 3), 1].any (fun d => crc32 ((s.otpDie d).words 0 0x3F) != (s.otpDie d).data 0x40 % 2 ^ 32)
    || crc32 ((s.otpDie 2).words 0 0x31) != (s.otpDie 2).data 0x32 % 2 ^ 32
  let crcI := [(0 : Fin 3), 1].any fun d => (s.otpDie d).isComplete 0xEF
    && crc32 ((s.otpDie d).words 0x80 0xEE) != (s.otpDie d).data 0xEF % 2 ^ 32
  let diff := rowsI.any fun r => (s.otpDie 0).data r != (s.otpDie 1).data r
  torn || crcH || crcI || diff

/-- The rows that OTP_ECC is posted for: corrected or TORN (R445), as (die, row). -/
def State.eccRows (s : State) : List (Nat × Nat) :=
  let rowsOf := fun (d : Fin 3) (n : Nat) => ((List.range n).filter fun r => match (s.otpDie d).read r with
    | .torn => true
    | .complete _ c => c
    | _ => false).map fun r => (d.val, r)
  rowsOf 0 256 ++ rowsOf 1 256 ++ rowsOf 2 128

end Sys2Proof.Machine
end

