-- ==== Sys2Proof/Machine/Flags.lean ====
section
/-! DEFINITION. Every status word that the device shows, computed from the state that holds its fields: the set-up
registers (Table 22.1) and the telemetry words (Table 13.5). -/

namespace Sys2Proof.Machine

/-- The code of a rail state (Table 3.4). -/
def RailState.code : RailState → Nat
  | .off => 0 | .rampUp => 1 | .regulate => 2 | .rampDown => 3 | .hiccup => 4
/-- The code of a phase state (Table 2.4). -/
def PhState.code : PhState → Nat
  | .off => 0 | .idle => 1 | .active => 2 | .benched => 3 | .test => 4
/-- The code of a programme state (Table 7.12). -/
def SeqState.code : SeqState → Nat
  | .idle => 0 | .running => 1 | .holding => 2 | .done => 3 | .aborted => 4
/-- The code of a feed state (Table 8.3). -/
def FeedState.code : FeedState → Nat
  | .absent => 0 | .standby => 1 | .conducting => 2 | .blocked => 3
/-- The code of a charger state (Table 9.2). -/
def ChgState.code : ChgState → Nat
  | .off => 0 | .precharge => 1 | .fast => 2 | .cv => 3 | .done => 4 | .waitVin => 5 | .removed => 6 | .stopped => 7
/-- The code of a pack-switch state (Table 9.5). -/
def PswState.code : PswState → Nat
  | .armed => 0 | .closed => 1 | .open_ => 2
/-- The code of a port state (Table 15.7). -/
def LinkState.code : LinkState → Nat
  | .down => 0 | .training => 1 | .up => 2 | .wrapped => 3
/-- The code of a die state (Table 6.4). -/
def DieState.code : DieState → Nat
  | .active => 0 | .standby => 1 | .benched => 2 | .selftest => 3 | .resync => 4

/-! ### Telemetry words -/

/-- RAIL_STAT (Table 3.4), from the active die. VREF is rounded to nearest in mV, IOUT_F is in 0.5 A. Both fields are
unsigned and the spec says nothing of a negative value: they hold 0 then (DESIGN CHOICE, log entry 80). -/
def State.railStat (s : State) (r : Rail) : Nat :=
  let x := s.railAt r
  let d := s.railAct r
  let iq := roundNear d.ioutF.num (d.ioutF.den * 5)
  fld x.st.code 3 0 + fld (b2n x.catchLast) 1 3 + fld (b2n d.light) 1 4 + fld (b2n x.snsLocal) 1 5 + fld (b2n x.snsFault) 1 6
    + fld (b2n x.clamped) 1 7 + fld (b2n (RailCfg.avsEn (s.rcfg r))) 1 8 + fld (b2n x.wsatLast) 1 9
    + fld (s.drivenOf r).length 5 16 + fld x.vset 12 24 + fld (roundNear d.vref 8).toNat 12 36
    + fld (clampI 0 65535 iq).toNat 16 48

/-- PH_STAT (Table 2.8). -/
def State.phStat (s : State) (p : Ph) : Nat :=
  let x := s.phAt p
  let w := if x.st = .active then x.weff else 0
  fld x.st.code 3 0 + fld (b2n x.limitLast) 1 3 + fld (b2n x.deLast) 1 4 + fld (b2n x.suspect) 1 5
    + fld (b2n (decide (x.weff < PhCfg.wnom (s.pcfg p)))) 1 6 + fld (b2n x.tfltRange) 1 7
    + fld x.benchCause 3 8 + fld w 4 16 + fld ((x.temp.map fun q => (clampI 0 255 (q / 4 + 50)).toNat).getD 0) 8 24

/-- SUP_STAT (Table 7.4). -/
def State.supStat (s : State) (r : Rail) : Nat :=
  let x := s.railAt r
  fld x.latch 6 0 + fld x.left 6 8 + fld (b2n x.blankLast) 1 14 + fld x.chat 8 16

/-- SUP_CAP (Table 7.2), 16 bytes as a number. -/
def CapRec.word (c : CapRec) : Nat :=
  fld c.beat 32 0 + fld (b2n c.half) 1 32 + fld (b2n c.high) 1 33 + fld (b2n c.valid) 1 34 + fld (b2n c.trk) 1 35
    + fld (uword 16 c.extreme) 16 40 + fld c.len 16 56

/-- SEQ_STAT (Table 7.12). -/
def State.seqStat (s : State) (n : Prog) : Nat :=
  let x := s.seq[n.val]
  fld x.st.code 3 0 + fld x.step 7 4 + fld x.fails 4 12 + fld x.held 16 16

/-- FEED_STAT (Table 8.3). -/
def FeedSt.word (x : FeedSt) : Nat :=
  fld x.st.code 2 0 + fld (b2n x.uv) 1 2 + fld (b2n x.ov) 1 3 + fld (b2n x.rev) 1 4 + fld (b2n x.isns) 1 5 + fld (b2n x.fet) 1 6
    + fld x.vin 8 8 + fld (uword 16 x.iin) 16 16

/-- The middle of three readings (R276). -/
def median3 (a b c : Int) : Int := max (min a b) (min (max a b) c)

/-- Tq of a source in 0.25 °C: the median of its last 3 samples; until it has 3, its latest (log entry 14). -/
def SrcSt.tq (x : SrcSt) : Option Int :=
  match x.s0, x.s1, x.s2 with
  | some a, some b, some c => some (median3 a b c)
  | some a, _, _ => some a
  | none, _, _ => none

/-- A temperature in °C + 50 as an 8-bit field, rounded down (Tables 10.4, 10.5). -/
def tempField (q : Int) : Nat := (clampI 0 255 (q / 4 + 50)).toNat

/-- The highest of some temperatures. -/
def maxTemp (l : List Int) : Option Int := l.max?

/-- The qualified temperatures of the sources of a range that are enabled and not SUSPECT. -/
def State.temps (s : State) (lo hi : Nat) : List Int :=
  (List.finRange 76).filterMap fun k =>
    if lo ≤ k.val ∧ k.val ≤ hi ∧ s.srcEn k = true ∧ (s.therm.src[k.val]).suspect = false then (s.therm.src[k.val]).tq else none

/-- The sensors of a die that are not SUSPECT (R279). -/
def State.unmarked (s : State) (d : Fin 3) : Nat :=
  countP (fun k => !(s.therm.src.toArray.getD (8 * d.val + k) {}).suspect) (List.range 8)

/-- The critical threshold of a die's sensors in 0.25 °C (Table 10.2). -/
def State.dieCrit (s : State) (d : Fin 3) : Int :=
  4 * ((if d = 2 then ThermCfg.pCrit s.thcfg else ThermCfg.cdCrit s.thcfg : Nat) : Int) - 200

/-- The die maximum of R274, raised by 8 °C on a blind die and held at the critical threshold when no sensor remains (R279). -/
def State.dieMax (s : State) (d : Fin 3) : Option Int :=
  if s.unmarked d = 0 then some (s.dieCrit d)
  else (maxTemp (s.temps (8 * d.val) (8 * d.val + 7))).map fun m => if s.unmarked d < 4 then m + 32 else m

/-- The package maximum (R274). -/
def State.pkgMax (s : State) : Option Int := maxTemp ([(0 : Fin 3), 1, 2].filterMap s.dieMax)

/-- The stage temperatures of the phases assigned to a region's rails. -/
def State.regionMax (s : State) (g : Fin 6) : Option Int :=
  maxTemp ((List.finRange 76).filterMap fun k =>
    if h : 24 ≤ k.val ∧ k.val < 72 then
      let p : Ph := ⟨k.val - 24, by omega⟩
      if s.srcEn k && !(s.therm.src[k.val]).suspect
          && (match (s.phAt p).asg with
            | some r => bit (RegionCfg.rails (s.gcfg g)) r
            | none => false) then (s.therm.src[k.val]).tq else none
    else none)

/-- THERM_SRC (Table 10.4). -/
def State.thermSrc (s : State) (k : Src) : Nat :=
  let x := s.therm.src[k.val]
  fld ((x.tq.map tempField).getD 0) 8 0 + fld (b2n x.near) 1 8 + fld (b2n x.warn.above) 1 9 + fld (b2n (x.crit.above || (decide (k.val < 24) && s.therm.pkg.above))) 1 10
    + fld (b2n x.suspect) 1 11
    + fld (b2n (if h : 24 ≤ k.val ∧ k.val < 72 then (s.phAt ⟨k.val - 24, by omega⟩).tfltRange
        else if h : 72 ≤ k.val then s.pwr.ntcRange[k.val - 72]'(by omega) else false)) 1 12
    + fld x.chat 16 16

/-- THERM_STAT (Table 10.5), 16 bytes as a number. -/
def State.thermStat (s : State) : Nat :=
  let f := fun (o : Option Int) => (o.map tempField).getD 0
  let stg := s.temps 24 71
  let hot := maxTemp stg
  let hotPh := ((List.finRange 48).find? fun p => s.fitted p && hot.isSome
    && (s.therm.src[p.val + 24]'(by omega)).tq == hot && !(s.therm.src[p.val + 24]'(by omega)).suspect).map Fin.val
  fld (f (s.dieMax 0)) 8 0 + fld (f (s.dieMax 1)) 8 8 + fld (f (s.dieMax 2)) 8 16 + fld (f s.pkgMax) 8 24
    + fld (f hot) 8 32 + fld (hotPh.getD 0) 6 40
    + ((List.finRange 6).map fun g => fld (f (s.regionMax g)) 8 (48 + 8 * g.val)).sum
    + fld (b2n s.therm.blind[0] + 2 * b2n s.therm.blind[1] + 4 * b2n s.therm.blind[2]) 3 96
    + fld (countP (fun (x : SrcSt) => x.suspect) (s.therm.src.toList.take 24)) 8 104

/-- SOC in 0.1 %: the charge count over the learned capacity, 0 to 1,000 (R266, R271). One 10 mAh is 36,000,000 mA x ms. -/
def PackSt.soc (x : PackSt) : Nat :=
  if x.fcc = 0 then 0 else (clampI 0 1000 (x.count.num * 1000 / (x.count.den * x.fcc * 36000000))).toNat

/-- GAUGE_STAT (Table 9.5). -/
def PackSt.word (x : PackSt) : Nat :=
  fld x.soc 10 0 + fld x.chg.code 3 10 + fld x.psw.code 2 13 + fld (b2n x.unsure) 1 15 + fld (b2n x.rest) 1 16
    + fld (b2n x.missing) 1 17 + fld (b2n x.resLow) 1 18 + fld (b2n x.ship) 1 19 + fld x.fcc 16 32 + fld x.cycles 16 48

/-- METER_RES (Table 11.6). -/
def SeqRes.word (x : SeqRes) : Nat :=
  fld (uword 14 x.code) 14 0 + fld (b2n x.stale) 1 14 + fld (b2n x.impl) 1 15 + fld (b2n x.nonsim) 1 16 + fld (b2n x.sat) 1 17
    + fld (b2n x.unpaired) 1 18 + fld x.passes 6 24

/-- CV_STAT (Table 11.8). -/
def ConvSt.word (x : ConvSt) : Nat :=
  fld x.dropUrg 16 0 + fld x.dropQ 16 16 + fld x.ovrCnt 16 32 + fld (b2n x.ovr) 1 48 + fld (b2n x.suspect) 1 49
    + fld (b2n x.slotSat) 1 50

/-- The 64 alarm latches. -/
def LogSt.latches (l : LogSt) : Nat := ((List.finRange 64).map fun k => fld (b2n (l.alarms[k.val]).isSet) 1 k.val).sum

/-! ### Set-up registers -/

/-- The calendar words a path reads: its frozen shadows, or the calendar as it stands (R430). -/
def State.rtcView (s : State) (path : Path) : RtcShadow :=
  let x := s.wd.shadows[path.ix.val]
  if x.frozen then x
  else { x with cal := s.wd.cal, pre := s.wd.pre, valid := s.wd.valid, shifting := s.wd.shifting, supply := s.wd.supply }

/-- RTC_TIME0 (Table 17.2). -/
def RtcShadow.time0 (x : RtcShadow) : Nat :=
  fld (x.pre / 128) 8 0 + fld x.cal.sec 6 8 + fld x.cal.min 6 16 + fld x.cal.hour 5 24

/-- RTC_TIME1 (Table 17.3). -/
def RtcShadow.time1 (x : RtcShadow) : Nat :=
  fld x.cal.day 5 0 + fld x.cal.month 4 8 + fld x.cal.year 8 16 + fld (b2n x.valid) 1 24 + fld (b2n x.frozen) 1 25
    + fld (b2n x.shifting) 1 26 + fld (b2n x.supply) 1 27

/-- The device that is to be keeper and timing root: the lowest-numbered device in service that this device knows (R352, R383, R467). It becomes
so at a round boundary, when KEEPER moves (R396). -/
def State.root (s : State) : Nat :=
  ((List.range 64).find? fun n => if n = s.ring.num then !s.start.barker && !s.ring.benchedMe
    else (s.devAt n).known && !(s.devAt n).benched && !(s.devAt n).barker).getD s.ring.num

/-- The sectors of the image pool that an image of `ext` bytes takes with its stored overlay deltas (R450). -/
def poolSectors (ext : Nat) (ovl : List (Nat × Nat × Mem)) : Nat := ceilDiv (ext + (ovl.map fun x => x.2.1).sum) 4096

/-- Free sectors of the image pool (R450): 79 less those of both slots. -/
def State.poolFree (s : State) : Nat := 79 - (poolSectors s.nvm.extA s.nvm.ovlA + poolSectors s.nvm.extB s.nvm.ovlB)

/-- OWN_PORTk (Table 14.6). -/
def State.portWord (s : State) (k : Fin 4) : Nat :=
  let x := s.own.ports[k.val]
  fld x.fails 4 0 + fld x.level 4 4 + fld x.remain 22 8

/-- A die that holds registers answers for them: the active one, or a die that passed LOGIC and MEM (R473, R509). -/
def State.dieAnswers (s : State) : Bool :=
  s.arb.active.isSome || (s.start.doneA && s.start.failA % 4 == 0) || (s.start.doneB && s.start.failB % 4 == 0)

/-- The reset value of a register that a control die holds: 0, or what NVM holds of the lockouts (R368, R509). -/
def State.dieless (s : State) (off : Nat) : Nat :=
  let port := fun (x : Nat × Nat × Nat) => fld x.1 4 0 + fld x.2.1 4 4 + fld x.2.2 22 8
  match off with
  | 0x0150 => ((List.finRange 4).map fun k => fld (b2n (decide (0 < (s.nvm.portNvm[k.val]).2.2))) 1 (8 + k.val)).sum
  | 0x0158 => port s.nvm.portNvm[0] | 0x015C => port s.nvm.portNvm[1]
  | 0x0160 => port s.nvm.portNvm[2] | 0x0164 => port s.nvm.portNvm[3]
  | _ => 0

/-- A set-up register by the offset of its first byte, 4 bytes, as a path reads it (Table 22.1). Before step 3 has ended
the islands do not answer; the register then reads its reset value (R509). Offsets outside the map read 0 (R505). -/
def State.reg (s : State) (path : Path) (off : Nat) : Nat :=
  if s.dieAnswers = false ∧ [0x0100, 0x0104, 0x0108, 0x0150, 0x0158, 0x015C, 0x0160, 0x0164].contains off = true then s.dieless off
  else match off with
  | 0x0000 => 0x01C06480
  | 0x0004 => fld s.host.speed 2 0 + fld (b2n s.host.islA) 1 2 + fld (b2n s.host.islB) 1 3
  | 0x0010 => bits s.nvm.serial 31 0 | 0x0014 => bits s.nvm.serial 63 32
  | 0x0018 => bits s.nvm.serial 95 64 | 0x001C => bits s.nvm.serial 127 96
  | 0x0020 => fld s.start.step 4 0 + fld (b2n s.start.barker) 1 4 + fld (b2n s.start.noimg) 1 5 + fld (b2n s.start.noown) 1 6
      + fld (b2n (s.arb.active.isSome && (s.dieOut .a || s.dieOut .b))) 1 7 + fld (b2n s.start.solo) 1 8
  | 0x0028 => fld s.start.cause 3 0 + fld (b2n s.start.aonLost) 1 3
  | 0x002C => fld s.start.failA 8 0 + fld (b2n s.start.doneA) 1 8
  | 0x0030 => fld s.start.failB 8 0 + fld (b2n s.start.doneB) 1 8
  | 0x0034 => fld s.start.failP 8 0 + fld (b2n s.start.doneP) 1 8
  | 0x0100 => if s.cfg.inForce.isSome then
      fld s.beatSum 6 0 + fld s.frameSum 11 8 + fld (ceilDiv s.roundSum 100) 12 20 else 0
  | 0x0104 => fld s.ovr.beat 16 0 + fld s.ovr.frame 16 16
  | 0x0108 => fld s.ovr.round 16 0 + fld (b2n s.ovr.beatFlag) 1 16 + fld (b2n s.ovr.frameFlag) 1 17 + fld (b2n s.ovr.roundFlag) 1 18
  | 0x0110 => if s.time.counting then s.time.clk % 2 ^ 32 else 0
  | 0x0114 => s.time.hiShadow[path.ix.val]
  | 0x0140 => fld (match s.arb.active with
      | none => 0
      | some .a => 1
      | some .b => 2) 2 0
      + fld s.arb.st[0].code 3 2 + fld s.arb.st[1].code 3 5 + fld s.arb.cause[0] 4 8 + fld s.arb.cause[1] 4 12 + fld s.arb.trapezes 16 16
  | 0x0144 => fld s.arb.votes 16 0 + fld s.arb.unres 8 16 + fld s.arb.failed 8 24
  | 0x0150 => fld s.own.port 2 0 + fld (b2n s.own.valid) 1 2 + fld (b2n s.own.pend.isSome) 1 3
      + ((List.finRange 4).map fun k => fld (b2n (s.own.ports[k.val]).benched) 1 (4 + k.val)).sum
      + ((List.finRange 4).map fun k => fld (b2n (decide (0 < (s.own.ports[k.val]).remain))) 1 (8 + k.val)).sum
      + fld s.own.client 12 12 + fld s.own.keeper 6 24
  | 0x0154 => s.own.epoch
  | 0x0158 => s.portWord 0 | 0x015C => s.portWord 1 | 0x0160 => s.portWord 2 | 0x0164 => s.portWord 3
  | 0x0200 => fld s.host.baseLo 20 12
  | 0x0204 => s.host.baseHi
  | 0x0208 => fld s.host.first 12 0 + fld s.host.cnt 12 16
  | 0x020C => fld s.host.evtLog2 4 0 + fld s.host.evtLo 26 6
  | 0x0210 => s.host.evtHi
  | 0x0214 => fld (b2n s.host.en) 1 0 + fld (b2n s.host.evtEn) 1 1 + fld (b2n s.host.refused) 1 2
  | 0x0218 => fld s.host.stale 16 0 + fld s.host.badTs 16 16
  | 0x0300 => fld s.ring.num 6 0 + fld s.ring.ndev 6 8 + fld (s.ring.links[0]).st.code 2 16 + fld (s.ring.links[1]).st.code 2 18
      + fld (b2n s.ring.aligned) 1 20 + fld (b2n (s.time.counting && s.own.keeper == s.ring.num)) 1 21 + fld (b2n s.ring.benchedMe) 1 22
  | 0x0304 => fld (s.ring.links[0]).hop 16 0 + fld (s.ring.links[1]).hop 16 16
  | 0x0308 => fld s.ring.crc 16 0 + fld s.ring.resent 8 16 + fld s.ring.gap 8 24
  | 0x030C => match s.heads with
      | [] => 0
      | [a] => fld a 6 0 + fld 1 1 6
      | a :: b :: _ => fld a 6 0 + fld 1 1 6 + fld b 6 8 + fld 1 1 14
  | 0x0400 => fld s.log.ringQ.length 9 0 + fld s.log.jrnQ.length 9 9 + fld s.log.tokens 12 18 + fld (b2n s.log.jro) 1 30
      + fld (b2n s.log.stream.isSome) 1 31
  | 0x0500 => ((List.finRange 16).map fun k => fld (b2n (s.wd.slots[k.val]).armed) 1 k.val
      + fld (b2n (s.wd.slots[k.val]).missed) 1 (16 + k.val)).sum
  | 0x0504 => fld s.wd.rstCnt 16 0 + fld (b2n s.pwr.hostRst.isSome) 1 16
  | 0x0508 => fld (b2n s.wd.wakeRtc) 1 0 + fld (b2n s.wd.wakeBtn) 1 1 + fld (b2n s.wd.wakeWarn) 1 2 + fld (b2n s.wd.wakeFault) 1 3
  | 0x0520 => (s.rtcView path).time0
  | 0x0524 => (s.rtcView path).time1
  | 0x0600 => fld s.nvm.result 2 0 + fld (b2n s.nvm.unprov) 1 2 + fld (b2n s.nvm.hold) 1 3 + fld (b2n s.nvm.void) 1 4
      + fld (b2n s.nvm.debugOpen) 1 5 + fld (b2n s.nvm.voiding.isSome) 1 6
      + (if 4 ≤ s.start.step then ((List.range 4).map fun k => fld (b2n (s.keySlot k == 1)) 1 (8 + k) + fld (b2n (s.keyRevoked k)) 1 (12 + k)).sum
        + fld ((s.otpDie 0).sparesUsed 8) 4 16 + fld ((s.otpDie 1).sparesUsed 8) 4 20 + fld ((s.otpDie 2).sparesUsed 4) 3 24
        + fld (s.resetRows 0x48) 3 28 else 0)
  | 0x0604 => fld s.nvm.spares 5 0 + fld (b2n s.log.jro) 1 5 + fld (b2n s.nvm.nvmRo) 1 6
      + (if 4 ≤ s.start.step then fld s.poolFree 7 8 + fld (s.resetRows 0x4C) 3 16 else 0)
  | 0x0608 => s.nvm.cfgVer
  | _ =>
    if 0x0800 ≤ off ∧ off < 0x0A00 ∧ s.isHead = true then
      let n := (off - 0x0800) / 8
      let w := (s.devAt n).alm
      if off % 8 = 0 then w % 2 ^ 32 else w / 2 ^ 32
    else 0

end Sys2Proof.Machine
end

