-- ==== Sys2Proof/Machine/Phase.lean ====
section
/-! DEFINITION. Phase units: samples and detectors (R44 to R61), derating (R62, R63), states and benching (R64 to R68),
readmission (R69), wear and the carousel (R70 to R72). -/

namespace Sys2Proof.Machine

/-! ### Readings -/

/-- A code as a current in 0.1 A, the die's learned offset subtracted (R47, R49). -/
def PhDie.current (x : PhDie) (code : Nat) : Q := Q.sub (Q.ofInt (3 * ((code : Int) - 256))) (Q.mul (Q.ofInt 3) x.ofs)

/-- The code of an IMON voltage in µV: its distance above 0.816 V in steps of 1.5 mV, to the nearest whole code with
halves upward, limited to 0 to 1023 (R47). -/
def imonCode (uv : Nat) : Nat := (clampI 0 1023 ((2 * ((uv : Int) - 816000) + 1500) / 3000)).toNat

/-- The rail that a phase is assigned to. -/
def State.railOfPh (s : State) (p : Ph) : Option Rail := (s.phAt p).asg.bind railOf

/-- The weight with which a phase shares current, as a die sees it: WEFF when ACTIVE, WNOM in TEST, else 0 (R58, Table 2.6). -/
def State.weight (s : State) (d : Cd) (p : Ph) : Nat :=
  match s.phView d p with
  | .active => (s.phAt p).weff
  | .test => PhCfg.wnom (s.pcfg p)
  | _ => 0

/-- The sum of the weights of a rail's phases. -/
def State.weightSum (s : State) (d : Cd) (r : Rail) : Nat := ((s.phasesOf r).map (s.weight d)).sum

/-- The current that a rail's own phases carry on a die, in 0.1 A, from the samples of the capture point (R82, R135). -/
def State.ownCurrent (s : State) (d : Cd) (r : Rail) : Q :=
  (s.drivenBy d r).foldl (fun a p => let y := s.phDie d p; Q.add a (y.current y.cap)) {}

/-- The current that is shared out within a rail: IOUT, or what this member's own phases carry on a gang, whose sharing
between devices is trimmed per frame (R101, R136, log entry 81). -/
def State.sharedCurrent (s : State) (d : Cd) (r : Rail) : Q := if s.ganged r then s.ownCurrent d r else (s.railDie d r).iout

/-- The expected share of a phase as a die sees it, in 0.1 A (R58). -/
def State.share (s : State) (d : Cd) (p : Ph) : Q :=
  match s.railOfPh p with
  | some r => Q.divN (Q.mul (s.sharedCurrent d r) (Q.ofInt (s.weight d p : Int))) (s.weightSum d r)
  | none => {}

/-- A phase may be used: fitted and not BENCHED (R68). -/
def State.usable (s : State) (p : Ph) : Bool := s.fitted p && (s.phAt p).st != .benched

/-- The usable phases assigned to a rail. -/
def State.usableOf (s : State) (r : Rail) : List Ph := (s.phasesOf r).filter s.usable

/-- The rail lies inside its warn window: no warn window was left in the last evaluation (R197). -/
def State.insideWarn (s : State) (r : Rail) : Bool := (s.railAt r).left % 4 == 0

/-! ### Leaving and entering states -/

/-- The interleave of a phase's rail is respaced at the next frame boundary (R65, R128). -/
def State.respacePh (s : State) (p : Ph) : State :=
  match s.railOfPh p with
  | some r => s.modRail r fun x => { x with respace := true }
  | none => s

/-- A blanking signal starts or extends the blank of a rail by `n` beats from this boundary (R199). -/
def State.blank (s : State) (r : Rail) (n : Nat) : State :=
  s.modRail r fun x => { x with blankEnd := max x.blankEnd (s.time.clk + n) }

/-- The ADD signal: a phase of the rail enters ACTIVE or TEST (R199). -/
def State.blankAdd (s : State) (p : Ph) : State :=
  match s.railOfPh p with
  | some r => s.blank r (SupCfg.blkAdd (s.supcfg r))
  | none => s

/-- The SHED signal: a phase leaves ACTIVE other than by a bench (R199). -/
def State.blankShed (s : State) (p : Ph) : State :=
  if (s.phAt p).st = .active then
    match s.railOfPh p with
    | some r => s.blank r (SupCfg.blkShed (s.supcfg r))
    | none => s
  else s

/-- No cycle of the phase is in progress or to come: the ball rests at mid. -/
def PhaseSt.stop (x : PhaseSt) : PhaseSt :=
  { x with ball := .mid, cyc := none, nxt := none, nextAt := none, cut := false, rest := false, limCyc := false }

/-- The phase leaves its slot: no further cycle starts, one already written included, and the cycle in progress ends without truncation
where that one would have started (R128). -/
def PhaseSt.leave (x : PhaseSt) : PhaseSt :=
  let fin := match x.nxt with
    | some e => some e.start
    | none => x.nextAt
  { x with nxt := none, nextAt := fin, limCyc := false, ball := if x.cyc.isSome then x.ball else .mid }

/-- The current-share trim of a phase starts anew on both dies, which hold the phase's state alike (R101, R166). -/
def State.trimZero (s : State) (p : Ph) : State :=
  let f := fun (y : PhDie) => { y with trim := 0, alt := none }
  (s.modPhDie .a p f).modPhDie .b p f

/-- A die has decided a phase's STATE for itself (R166, R170). -/
def State.setView (s : State) (d : Cd) (p : Ph) (v : PhState) : State :=
  s.modPhDie d p fun y => { y with alt := if (s.phAt p).st = v then none else some v }

/-- A phase moves to IDLE: the ball goes to mid once its cycle in progress has ended (Table 2.4, R128). From a frame boundary on it is IDLE
for the full frame (R49). -/
def State.toIdle (s : State) (p : Ph) : State :=
  (((s.blankShed p).modPh p fun x => { x.leave with st := .idle, idleFull := s.time.clk % 32 == 0 }).trimZero p).respacePh p

/-- A phase moves to ACTIVE (Table 2.4): its first cycle starts at its slot (R128), with the trim at 0 (R101). -/
def State.toActive (s : State) (p : Ph) : State :=
  (((s.blankAdd p).modPh p fun x => { x with st := .active, nextAt := none, idleFull := false }).trimZero p).respacePh p

/-- A phase moves to OFF: its rail turns off (Table 2.4). A BENCHED phase stays BENCHED. -/
def State.toOff (s : State) (p : Ph) : State :=
  if (s.phAt p).st = .benched then s
  else ((s.blankShed p).modPh p fun x => { x.stop with st := .off, idleFull := false }).trimZero p

/-- A phase's readmit test ends: the final stub and the event (R69, code 0x08 with kind 0 and the status). -/
def State.testEnd (s : State) (p : Ph) (pass : Bool) (why : Nat) : State :=
  match (s.phAt p).test with
  | none => s
  | some tst =>
    let s := s.modPh p fun x => { x with test := none }
    let s := if pass then s.final tst.ref 0x00 else s.final tst.ref 0x3F 0x0003
    s.postPh 0x08 p 0 (if pass then 0x00 else 0x3F) why

/-- Drive the steering outputs of a flex phase's channel; with no die's gate passing both rest low (R124, R125). -/
def State.steer (s : State) (p : Ph) (a b : Bool) : State :=
  let c : Fin 16 := Fin.ofNat 16 (PhPool.flxCh (s.pool p))
  let on := s.arb.active.isSome
  if PhPool.flex (s.pool p) then
    { s with arb := { s.arb with steerA := s.arb.steerA.set c (a && on), steerB := s.arb.steerB.set c (b && on) } } else s

/-- Drive the steering output towards one of the two rails of a flex phase, the other one low. -/
def State.steerTo (s : State) (p : Ph) (r : Nat) : State := s.steer p (s.home p == r) (s.home p != r)

/-- Both steering outputs of a flex phase are low. -/
def State.steerLow (s : State) (p : Ph) : Bool :=
  let c : Fin 16 := Fin.ofNat 16 (PhPool.flxCh (s.pool p))
  PhPool.flex (s.pool p) && !s.arb.steerA[c.val] && !s.arb.steerB[c.val]

/-- The interleave of a rail, given by its number, is respaced at the next frame boundary (R65, R128). -/
def State.respaceAt (s : State) (n : Nat) : State :=
  match railOf n with
  | some r => s.modRail r fun x => { x with respace := true }
  | none => s

/-- A phase in transit that is benched is assigned again to the giving rail, both steering outputs low (Table 4.5); its slot on the receiving
rail is given up at the next frame boundary (R127, R128). -/
def State.unmove (s : State) (p : Ph) : State :=
  match (s.phAt p).move with
  | some m => ((s.modPh p fun x => { x with asg := some m.src, move := none }).steer p false false).respaceAt m.dst
  | none => s

/-- A bench of a phase takes effect on both dies (R59, R65, R67, R68). On a phase already BENCHED nothing changes. The
event carries the cause, and 1 when the rail is left below its minimum phase count. -/
def State.benchPh (s : State) (p : Ph) (cause : Nat) : State :=
  if (s.phAt p).st = .benched then s
  else
    let wasTest := (s.phAt p).st == .test
    let s := s.unmove p
    let s := s.respacePh p
    let s := (s.modPh p fun x => { x.stop with st := .benched, benchCause := cause, move := none, benchCap := [], idleFull := false }).trimZero p
    let below := match s.railOfPh p with
      | some r => decide ((s.usableOf r).length < RailCfg.nmin (s.rcfg r))
      | none => false
    let s := s.postPh 0x03 p cause (b2n below)
    if wasTest then s.testEnd p false cause else s

/-- A bench by two or more causes: the lowest code is recorded, and each is reported (Table 2.5). -/
def State.benchAll (s : State) (p : Ph) (c : Nat) (more : List Nat) : State :=
  if (s.phAt p).st = .benched then s
  else
    let s := s.benchPh p c
    let left := match s.railOfPh p with
      | some r => decide ((s.usableOf r).length < RailCfg.nmin (s.rcfg r))
      | none => false
    more.foldl (fun (s : State) (c : Nat) => s.postPh 0x03 p c (b2n left)) s

/-- A phase in its readmit test goes back to BENCHED with its recorded cause kept, and the test fails (R69). -/
def State.failTest (s : State) (p : Ph) (why : Nat) : State :=
  if (s.phAt p).test.isSome then
    let s := if (s.phAt p).st = .test then
      ((s.respacePh p).modPh p fun x => { x.stop with st := .benched, idleFull := false }).trimZero p else s
    s.testEnd p false why
  else s

/-- A cause put into a list of causes that rises by code. -/
def addCause (c : Nat) (l : List Nat) : List Nat :=
  if c ∈ l then l else (l.filter fun x => x < c) ++ c :: l.filter fun x => c < x

/-- A detector of a die raises a cause on a phase (R58 to R60, R66); a benched die only observes (R188). -/
def State.raiseCause (s : State) (d : Cd) (p : Ph) (cause : Nat) : State :=
  if s.dieOut d then s.emit { code := 0x03, scope := scPhase, unit := p.val, obs := true, arg0 := cause }
  else if (s.phAt p).st = .benched then
    let s := s.emit { code := 0x03, scope := scPhase, unit := p.val, obs := true, arg0 := cause }
    s.modPh p fun x => { x with test := x.test.map fun t => { t with bad := true } }
  else
    let lone := decide (d ≠ s.act ∧ cause ≠ 2 ∧ cause ≠ 5)
    s.modPhDie d p fun x => { x with causes := addCause cause x.causes, raised := x.raised || lone }

/-- SUSPECT: a cause that the standby die alone has raised by the capture marks the phase, and the mark is reported (R60). -/
def State.suspectMark (s : State) (p : Ph) : List Nat → State
  | [] => s
  | c :: _ =>
    if (s.phAt p).suspect || (s.phAt p).st == .benched then s
    else (s.modPh p fun x => { x with suspect := true, suspectIdle := 0 }).postPh 0x04 p c

/-- A detector that fires on `n` in a row stands at `run`. On a BENCHED phase and on a benched die a run is reported once,
and it fails a readmit test as long as it lasts (log entry 79). -/
def State.raiseRun (s : State) (d : Cd) (p : Ph) (cause n run : Nat) : State :=
  if run < n then s
  else if n < run ∧ (s.dieOut d = true ∨ (s.phAt p).st = .benched) then
    if s.dieOut d then s else s.modPh p fun x => { x with test := x.test.map fun t => { t with bad := true } }
  else s.raiseCause d p cause

/-! ### Detectors on a sample -/

/-- The OPEN run after a cycle (Table 2.3): a cycle without a full high interval is passed over; one at or above the
fraction resets the run; one below it counts while the expected share is at least OPEN_MIN. -/
def State.openRun (s : State) (d : Cd) (p : Ph) (i : Q) (hi run : Nat) : Nat :=
  let c := s.pcfg p
  let sh := s.share d p
  if hi < 16 * PhCfg.tonMin c ∨ hi = 0 then run
  else if Q.lt (Q.mul i (Q.ofInt (2 ^ PhCfg.openFrac c : Nat))) sh then
    (if Q.le (Q.ofInt (10 * (PhCfg.openMin c : Int))) sh then run + 1 else run)
  else 0

/-- STUCK is satisfied over the latest `n` samples (Table 2.3). -/
def stuckNow (n : Nat) (h : List (Nat × Nat)) : Bool :=
  let w := h.take n
  let codes := w.map Prod.fst
  let his := w.map Prod.snd
  match codes.max?, codes.min?, his.max?, his.min? with
  | some a, some b, some hx, some hn => decide (w.length = n ∧ 0 < n ∧ a ≤ b + 1 ∧ hx < 10 * (hx - hn))
  | _, _, _, _ => false

/-- The commanded high interval of the cycle in progress in 78.125 ps, 0 for none. -/
def PhaseSt.cycHi (x : PhaseSt) : Nat :=
  match x.cyc with
  | some e => (e.fall - e.rise).toNat
  | none => 0

/-- A current sample of one cycle on one die: the reading, the sums of the frame, the detectors, the live check. The
commanded high interval is that of the cycle in progress. -/
def State.phSample (s : State) (d : Cd) (p : Ph) (code : Nat) : State :=
  let x := s.phAt p
  let c := s.pcfg p
  let y := s.phDie d p
  let i := y.current code
  let hi := x.cycHi
  let mid := x.ball == .mid
  let driven := s.phView d p == .active || s.phView d p == .test
  let sh := s.share d p
  let openR := if driven then s.openRun d p i hi y.openRun else 0
  let shortR := if mid && Q.le (Q.ofInt (10 * (PhCfg.ishort c : Int))) i then y.shortRun + 1 else 0
  let n := 16 * PhCfg.stuckCyc c
  let hist := if driven then ((code, hi) :: y.stuck).take n else []
  let rangeR := if code ≤ 8 ∨ 1015 ≤ code then y.rangeRun + 1 else 0
  let two := Q.ofInt 20
  let badStatic := x.st == .benched && x.test.isSome && Q.lt two i.abs
  let badLive := x.st == .test && (Q.lt (Q.mul i (Q.ofInt 2)) sh || Q.lt (Q.mul sh (Q.ofInt 2)) i)
  let s := s.modPhDie d p fun y =>
    { y with code := code, newS := true, fSum := y.fSum + ((code : Int) - 256), fN := y.fN + 1,
             quiet := y.quiet && Q.le i.abs two, hSum := y.hSum + ((code : Int) - 256), hN := y.hN + 1,
             openRun := openR, shortRun := shortR, stuck := hist, rangeRun := rangeR,
             tripRun := if y.tripNow then y.tripRun else 0, tripNow := false }
  let s := if (badStatic || badLive) && !s.dieOut d then
    s.modPh p fun x => { x with test := x.test.map fun t => { t with bad := true } } else s
  let s := if driven then s.raiseRun d p 1 (PhCfg.openCyc c) openR else s
  let s := if x.st != .off then s.raiseRun d p 2 4 shortR else s
  let s := if driven && stuckNow n hist && !(s.dieOut d && stuckNow n y.stuck) then s.raiseCause d p 3 else s
  if x.st != .off then s.raiseRun d p 4 4 rangeR else s

/-- The cycle that the active die's sample stands for is judged: the cycles of a live check (R69), and the state it ended
in (R174). -/
def State.cycleEnd (s : State) (p : Ph) : State :=
  s.modPh p fun x =>
    { x with cycSt := x.st, test := x.test.map fun t => if t.live then { t with cycles := t.cycles + 1 } else t }

/-- CURRENT_SAMPLE: a converter of a die completes the sample of one cycle of a phase, `mv` and `uv` the whole millivolts and the
further microvolts of PHnn_IMON (R47, R48, R58, log entry 100). A phase that is OFF is not sampled (Table 2.4). -/
def execCurrentSample (d : Cd) (p : Ph) (mv uv : Nat) (s : State) : Host.Outcome State Fault Refusal :=
  if (s.phAt p).st = .off then .next s
  else
    let s := s.phSample d p (imonCode (1000 * mv + uv))
    .next (if d = s.act then s.cycleEnd p else s)

/-- STAGE_FAULT: TFLT has stood above 3.0 V for 100 ns on a die (Table 2.3). -/
def execStageFault (d : Cd) (p : Ph) (s : State) : Host.Outcome State Fault Refusal :=
  if (s.phAt p).st = .off then .next s else .next (s.raiseCause d p 5)

/-- PH_LIMIT_CROSSING: IMON passes ILIM on a die. During a high interval of a phase that die drives, the high interval
ends until the next cycle starts and the cycle counts as limited (R54, R57); while the ball is low, in two consecutive
cycles, it is SHORT_HS (b) (Table 2.3). The limit acting in a live check fails the check (Table 2.6). -/
def execPhLimitCrossing (d : Cd) (p : Ph) (low : Bool) (s : State) : Host.Outcome State Fault Refusal :=
  let x := s.phAt p
  if x.st ≠ .active ∧ x.st ≠ .test ∧ x.st ≠ .idle then .next s
  else if low then
    if (s.phDie d p).tripNow then .next s
    else
      let s := s.modPhDie d p fun y => { y with tripRun := y.tripRun + 1, tripNow := true }
      .next (s.raiseRun d p 2 2 (s.phDie d p).tripRun)
  else if d ≠ s.act ∨ x.st = .idle then .next s
  else
    let again := x.limCyc
    let s := s.modPh p fun x =>
      { x with ball := .low, cut := true, limitNow := true, limCyc := true, limRun := if again then x.limRun else satAdd 8 x.limRun 1,
               test := x.test.map fun t => { t with bad := true } }
    let s := if again then s else s.count p.val 0 1
    if PhCfg.limEvt (s.pcfg p) ≤ (s.phAt p).limRun ∧ (s.phAt p).limRaised = false then
      .next ((s.modPh p fun x => { x with limRaised := true }).postPh 0x02 p)
    else .next s

/-- NEGATIVE_LIMIT: the current sinks below −ILIM_NEG in a low interval; the die drives mid for the rest of it (R55), up to
the next rising edge, as it does for a phase that discharges its rail, up to its next cycle (R212). -/
def execNegativeLimit (d : Cd) (p : Ph) (s : State) : Host.Outcome State Fault Refusal :=
  let x := s.phAt p
  let dis : Bool := match s.railOfPh p with
    | some r => (s.railAt r).disch.any fun (y : Disch) => y.start.isSome
    | none => false
  if PhCfg.ilimNeg (s.pcfg p) ≠ 0 ∧ d = s.act ∧ (x.st = .active ∨ x.st = .test ∨ (dis = true ∧ x.st = .off)) then
    .next (s.modPh p fun x => { x with ball := .mid, rest := true })
  else .next s

/-- ZERO_CURRENT_TRIP: the zero-current comparator trips in a low interval; in light load with DE_EN = 1, and on
every ramp, the die drives mid until the next rising edge (R56, R109, R110). -/
def execZeroCurrentTrip (d : Cd) (p : Ph) (s : State) : Host.Outcome State Fault Refusal :=
  let x := s.phAt p
  let de := match s.railOfPh p with
    | some r => (PhCfg.deEn (s.pcfg p) && (s.railAct r).light) || (s.railAt r).st == .rampUp || (s.railAt r).st == .rampDown
    | none => false
  if de && d = s.act && (x.st == .active || x.st == .test) then
    .next ((s.modPh p fun x => { x with ball := .mid, rest := true, deNow := true }).count p.val 2 1)
  else .next s

/-! ### Readmission -/

/-- What refuses a READMIT of a phase with BUSY at the boundary at which its test would start: its rail off, outside its
warn window, or its mean share per ACTIVE phase below OPEN_MIN (R69). -/
def State.phReadmitBusy (s : State) (p : Ph) : Bool :=
  match s.railOfPh p with
  | none => true
  | some r =>
    (s.railAt r).st == .off || !s.insideWarn r
      || Q.lt (s.sharedCurrent s.act r) (Q.ofInt (10 * PhCfg.openMin (s.pcfg p) * (s.activeOf r).length : Nat)) || (s.activeOf r).isEmpty

/-- A phase is held out for the duration of a live check of its rail (Table 2.6). -/
def State.heldOut (s : State) (p : Ph) : Bool :=
  phases.any fun q => (s.phAt q).test.any fun (t : PhTest) => t.held == some p.val

/-- The idle phases of a rail that demand, a catch or a swap may make ACTIVE: not shed at TLIM, not held out (R63, R69). -/
def State.spare (s : State) (r : Rail) : List Ph :=
  (s.phasesOf r).filter fun p => (s.phAt p).st == .idle && !(s.phAt p).limHot && !s.heldOut p

/-- The readmit test of a phase starts at a frame boundary; a condition of R69 that fails there refuses it (log entry 20). -/
def State.readmitPh (s : State) (p : Ph) (ref : TkRef) : State :=
  if (s.phAt p).st ≠ .benched ∨ (s.phAt p).test.isSome = true ∨ s.phReadmitBusy p = true then s.final ref 0x23
  else
    s.modPh p fun x => { x with test := some { ref := ref, start := s.time.clk } }

/-- The phase of a list with the most wear; ties go to the higher number (R71). -/
def State.mostWorn (s : State) (l : List Ph) : Option Ph :=
  l.foldl (fun b p => match b with
    | none => some p
    | some q => if (s.phAt q).wear ≤ (s.phAt p).wear then some p else some q) none

/-- The phase of a list with the least wear; ties go to the higher number (R71). -/
def State.leastWorn (s : State) (l : List Ph) : Option Ph :=
  l.foldl (fun b p => match b with
    | none => some p
    | some q => if (s.phAt p).wear ≤ (s.phAt q).wear then some p else some q) none

/-- The phase a rail sheds: the most worn ACTIVE one with NO_ROT = 0, or the highest number when all have NO_ROT (R71). -/
def State.shedPick (s : State) (l : List Ph) : Option Ph :=
  let free := l.filter fun p => !PhCfg.noRot (s.pcfg p)
  if free = [] then l.getLast? else s.mostWorn free

/-- A phase in its static check whose TFLT is implausible or not 10 °C below TLIM (Table 2.6). -/
def State.tempBad (s : State) (p : Ph) : Bool :=
  let x := s.phAt p
  x.st == .benched && x.test.isSome && (x.tfltRange || x.temp.any fun q => decide (4 * (PhCfg.tlim (s.pcfg p) : Int) < q + 40))

/-- The static check passes at its end: no bad sample, no cause, TFLT plausible and 10 °C below TLIM (Table 2.6). -/
def State.staticOk (s : State) (p : Ph) : Bool :=
  (s.phAt p).test.any (fun t => !t.bad) && !s.tempBad p

/-- The beats from the steering of a phase to the start of its live check (Table 4.5). -/
def State.steerWait (s : State) (p : Ph) : Nat :=
  let g := match s.phRegion p with
    | some g => s.gcfg g
    | none => 0
  RegionCfg.flxDt g + RegionCfg.flxOn g

/-- The static check of a phase may end at this boundary: 4 frames after the test's start, at a frame boundary, or the wait of its steering
outputs later (Tables 2.6 and 4.5). -/
def State.staticDue (s : State) (p : Ph) (t : PhTest) : Bool :=
  match t.steered with
  | some b => decide (b + s.steerWait p ≤ s.bnd)
  | none => decide (t.start + 128 ≤ s.bnd ∧ s.bnd % 32 = 0)

/-- PHASE_STATIC_CHECK_END: 4 frames after the test's start, at a frame boundary (Table 2.6). On a pass the phase enters
TEST at WNOM; when its rail stands at NMAX the most worn ACTIVE phase goes to IDLE for the duration. A flex phase with both steering
outputs low is first steered to its rail, and the live check starts FLX_DT + FLX_ON beats later (Table 4.5). -/
def execPhaseStaticCheckEnd (p : Ph) (s : State) : Host.Outcome State Fault Refusal :=
  match (s.phAt p).test with
  | none => .next s
  | some t =>
    if t.live ∨ s.staticDue p t = false then .next s
    else .next (s.atBoundary fun s =>
      if s.staticOk p && s.steerLow p && t.steered.isNone then
        let s := s.steerTo p ((s.phAt p).asg.getD (s.home p))
        s.modPh p fun x => { x with test := some { t with steered := some s.time.clk } }
      else if s.staticOk p then
        let hold := match s.railOfPh p with
          | some r => if RailCfg.nmax (s.rcfg r) ≤ (s.drivenOf r).length then s.mostWorn (s.activeOf r) else none
          | none => none
        let s := match hold with
          | some q => s.toIdle q
          | none => s
        let t' : PhTest := { t with live := true, start := s.time.clk, cycles := 0, held := hold.map Fin.val }
        (((s.blankAdd p).modPh p fun x => { x with st := .test, nextAt := none, idleFull := false, test := some t' }).trimZero p).respacePh p
      else s.failTest p 0)

/-- PHASE_LIVE_CHECK_END: the frame boundary after the last of 64 live cycles (Table 2.6). IDLE on a pass, BENCHED on a
fail; a phase held out stays IDLE and is no longer held. -/
def execPhaseLiveCheckEnd (p : Ph) (s : State) : Host.Outcome State Fault Refusal :=
  match (s.phAt p).test with
  | none => .next s
  | some t =>
    if t.live = false ∨ t.cycles < 64 ∨ s.bnd % 32 ≠ 0 then .next s
    else .next (s.atBoundary fun s => if t.bad then s.failTest p 0 else (s.toIdle p).testEnd p true 0)

/-! ### Wear and the carousel -/

/-- One beat of wear of a phase: the charge it sources, doubled above TDER, in units of 0.01 A·h. One unit is
36 A·s, 1,440,000,000 beats of 0.1 A (R70). -/
def State.wearBeat (s : State) (p : Ph) : State :=
  let x := s.phAt p
  if x.st ≠ .active ∧ x.st ≠ .test then s
  else
    let y := s.phDie s.act p
    let i := y.current y.cap
    let hot := x.temp.any fun q => decide (4 * (PhCfg.tder (s.pcfg p) : Int) < q)
    let k := if Q.le i {} then ({} : Q) else if hot then Q.mul (Q.ofInt 2) i else i
    let tot := Q.add x.wearFrac k
    let n := (tot.floor / 1440000000).toNat
    s.modPh p fun x => { x with wearFrac := Q.sub tot (Q.ofInt (1440000000 * n : Nat)), wear := satAdd 32 x.wear n }

/-- PH_WEAR_COMMIT: every 60,000 rounds the wear counts are written to NVM (R70, log entry 82); an RRAM that programs no page takes none
(R452, R453). -/
def execPhWearCommit (s : State) : Host.Outcome State Fault Refusal :=
  if s.noRram ∨ s.bnd % (4000 * 60000) ≠ 0 then .next s
  else .next { s with nvm := { s.nvm with wearNvm := Vector.ofFn fun p : Fin 48 => (s.phAt p).wear } }

/-- The swap a rail would make: its most worn ACTIVE phase with NO_ROT = 0 and its least worn usable IDLE phase (R72). -/
def State.rotPair (s : State) (r : Rail) : Option (Ph × Ph) :=
  match s.mostWorn ((s.activeOf r).filter fun p => !PhCfg.noRot (s.pcfg p)), s.leastWorn (s.spare r) with
  | some a, some b => if (s.phAt b).wear + s.cfg.cfg.rotDelta < (s.phAt a).wear then some (a, b) else none
  | _, _ => none

/-- ROTATION_PERIOD: every ROT_PERIOD rounds each rail compares its phases; a difference above ROT_DELTA makes a swap
pending, so that a rail makes at most one swap per period (R72, log entry 82). -/
def execRotationPeriod (s : State) : Host.Outcome State Fault Refusal :=
  if s.cfg.cfg.rotPeriod = 0 ∨ s.bnd % (4000 * s.cfg.cfg.rotPeriod) ≠ 0 then .next s
  else
    let l := rails.filterMap fun r =>
      if s.railEn r then (s.rotPair r).map fun x => (r.val, x.1.val, x.2.val) else none
    .next { s with lend := { s.lend with rotPend := l } }

/-- Apply the pending swaps whose conditions hold at a frame boundary (R72): the rail inside its warn window, no limit
acted in the frame, no lending move of the rail at this boundary. A swap whose phases have changed is chosen again. -/
def State.rotApply (s : State) : State :=
  s.lend.rotPend.foldl (fun s x =>
    match railOf x.1 with
    | none => s
    | some r =>
      let lim := (s.phasesOf r).any fun p => (s.phAt p).limitLast
      let mv := phases.any fun p => match (s.phAt p).move with
        | some m => m.atBeat == s.time.clk && (m.src == r.val || m.dst == r.val)
        | none => false
      if !s.insideWarn r || lim || mv then s
      else
        let s := { s with lend := { s.lend with rotPend := s.lend.rotPend.filter fun y => y.1 != x.1 } }
        match s.rotPair r with
        | some (a, b) => ((s.toIdle a).toActive b).trace 0x03 r.val a.val b.val
        | none => s) s

/-! ### Work of the frame -/

/-- The effective weight of a phase at a temperature in 0.25 °C (R62), from WNOM or the applied revision of it (R292). -/
def State.weffAt (s : State) (p : Ph) (q : Int) : Nat :=
  let c := s.pcfg p
  let wn := if (s.phAt p).derate = 0 then PhCfg.wnom c else (s.phAt p).derate
  let lo : Int := 4 * (PhCfg.tder c : Int)
  let hi : Int := 4 * (PhCfg.tlim c : Int)
  let wm := PhCfg.wmin c
  if q ≤ lo then wn
  else if hi ≤ q then wm
  else max wm ((wn : Int) - ceilDiv ((wn - wm) * (q - lo).toNat) (hi - lo).toNat).toNat

/-- Derating and the shed at TLIM of one phase (R62, R63). A phase whose TFLT is implausible counts as standing at TLIM
(R61). The event carries 0 when the phase is shed, 1 when it is held at WMIN. -/
def State.derate (s : State) (p : Ph) : State :=
  if !s.fitted p then s
  else
    let src := s.therm.src[p.val + 24]'(by omega)
    let q : Option Int := if (s.phAt p).tfltRange then some (4 * (PhCfg.tlim (s.pcfg p) : Int)) else src.tq
    let s := s.modPh p fun x => { x with weff := s.weffAt p (q.getD (-200)) }
    let hot := src.tlim.above || (s.phAt p).tfltRange
    let s := if s.tempBad p then s.modPh p fun x => { x with test := x.test.map fun t => { t with bad := true } } else s
    let was := (s.phAt p).limHot
    let s := s.modPh p fun x => { x with limHot := hot }
    if hot && !was && (s.phAt p).st == .active then
      match s.railOfPh p with
      | some r =>
        if RailCfg.nmin (s.rcfg r) < (s.drivenOf r).length then (s.toIdle p).postPh 0x07 p 0 else s.postPh 0x07 p 1
      | none => s
    else s

/-- A die learns the IMON offset of an idle phase from the frame's samples, or reports one beyond ±3 A (R49). -/
def State.learnOfs (s : State) (d : Cd) (p : Ph) : State :=
  let y := s.phDie d p
  if !(s.phAt p).idleFull || y.fN == 0 then s
  else
    let q := Q.norm y.fSum y.fN
    if Q.le q.abs (Q.ofInt 10) then s.modPhDie d p fun y => { y with ofs := q }
    else s.postPh 0x05 p d.ix.val (argI (Q.mul q (Q.ofInt 3)).round)

/-- Both dies learn the offset of a phase that was IDLE through the frame that ends, before any phase changes state at the
boundary (R49). -/
def State.phLearn (s : State) (p : Ph) : State := (s.learnOfs .a p).learnOfs .b p

/-- The frame's work on one phase: the flags of the last frame, the SUSPECT mark (R57, R60, R75). -/
def State.phFrame (s : State) (p : Ph) : State :=
  let stby := (s.phDie s.act.other p).raised
  let s := s.modPh p fun x =>
    let idle := if stby then 0 else x.suspectIdle + 1
    { x with limitLast := x.limitNow, deLast := x.deNow, limitNow := false, deNow := false,
             limRaised := x.limRaised && x.limitNow, suspectIdle := idle, suspect := x.suspect && decide (idle < 16) && !s.dieOut s.act.other,
             idleFull := x.st == .idle }
  let clr := fun (y : PhDie) => { y with fSum := 0, fN := 0, quiet := true, raised := false }
  let s := (s.modPhDie .a p clr).modPhDie .b p clr
  if (s.phAt p).st = .active then s.count p.val 3 1 else s

/-- The benches that take effect at a beat boundary, and the capture of the causes raised since (R28, R59). -/
def State.phBeatCauses (s : State) (p : Ph) : State :=
  let s := match (s.phAt p).benchCap with
    | c :: more => s.benchAll p c more
    | [] => s
  let own := (s.phDie s.act p).causes
  let far := (s.phDie s.act.other p).causes
  let both := (far.filter fun c => c == 2 || c == 5).foldl (fun (l : List Nat) c => addCause c l) own
  let lone := far.filter fun c => c != 2 && c != 5 && !own.contains c
  let s := s.modPh p fun x => { x with benchCap := both }
  let clr := fun (y : PhDie) => { y with causes := [] }
  ((s.modPhDie .a p clr).modPhDie .b p clr).suspectMark p lone

/-- A bench of the phase takes effect at this boundary: a captured cause, or an owner's ticket (R59, R67, R68). -/
def State.benchDue (s : State) (p : Ph) : Bool :=
  !(s.phAt p).benchCap.isEmpty || s.sched.any fun x => decide (x.per = .beat ∧ x.nb ≤ s.bnd) && (match x.act with
    | .benchPhase q _ => q == p
    | _ => false)

/-- A bench of the phase waits for its boundary (R59, R68). -/
def State.benchWaits (s : State) (p : Ph) : Bool :=
  !(s.phAt p).benchCap.isEmpty || s.sched.any fun x => match x.act with
    | .benchPhase q _ => q == p
    | _ => false

/-- The usable phases of a rail that no waiting bench takes away (R68). -/
def State.stayingOf (s : State) (r : Rail) : List Ph := (s.usableOf r).filter fun p => !s.benchWaits p

/-- An owner bench of a phase meets the causes due at the same boundary: the lowest code is recorded, and each is
reported (Table 2.5, log entry 83). -/
def State.benchOwner (s : State) (p : Ph) (cause : Nat) : State :=
  match addCause cause (s.phAt p).benchCap with
  | c :: more => s.benchAll p c more
  | [] => s

/-! ### Tickets -/

/-- BENCH of a phase (R68): BUSY when it would leave the rail fewer usable phases than its minimum, the benches that wait counted; cause
OWNER. -/
def execBenchPhase (t : Tkt) (s : State) : Host.Outcome State Fault Refusal :=
  let low := match t.phase with
    | some p => match s.railOfPh p with
      | some r => s.usable p && !s.benchWaits p && decide ((s.stayingOf r).length ≤ RailCfg.nmin (s.rcfg r))
      | none => false
    | none => false
  runTicket t 0x510 s { rng := [(16, t.byte 16 = 0), (17, t.byte 17 = 0)], post := [failIf low busy] } fun u =>
    match t.phase with
    | some p => (u.post (t.nbBeat u) .beat (.benchPhase p 6)).ok t
    | none => u.ok t

/-- READMIT of a phase (R69): BAD_TARGET when it is not BENCHED and no test of it runs; BUSY while its test runs, in either
step (R17, before Table 2.5: DESIGN CHOICE, log entry 84). -/
def execReadmitPhase (t : Tkt) (s : State) : Host.Outcome State Fault Refusal :=
  let run := match t.phase with
    | some p => (s.phAt p).test.isSome
    | none => false
  let bad := match t.phase with
    | some p => (s.phAt p).st != .benched && !run
    | none => false
  runTicket t 0x520 s { rng := [(16, t.byte 16 = 0), (17, t.byte 17 = 0)], pre := [failIf bad badTarget], post := [failIf run busy] }
    fun u => match t.phase with
      | some p => (u.queued t).post (t.nbBeat u) .frame (.readmitPhase p t.ref)
      | none => u.ok t

end Sys2Proof.Machine
end

