-- ==== Sys2Proof/Machine/Forecast.lean ====
section
/-! DEFINITION. Forecast regulation: filing (R146 to R150), trust (R151, R152, R160), headroom and armed thresholds (R153
to R157), scoring (R159 to R163), trust control (R165). -/

namespace Sys2Proof.Machine

/-- First beat of the window, TS (R148). -/
def Fc.ts (f : Fc) : Nat := f.tstep - f.u
/-- Last beat of the window, TE (R148). -/
def Fc.te (f : Fc) : Nat := f.tstep + f.u
/-- The frame boundary at which a forecast is scored: the first after TE + 8 (Table 5.4). -/
def Fc.scoreAt (f : Fc) : Nat := nextFrame (f.te + 8)

/-- Beats that the headroom ramp takes: ceil(VHEAD / (SLEW_UP × 0.25 µs)) (Table 5.4). -/
def State.fcRamp (s : State) (f : Fc) : Nat :=
  match railOf f.rail with
  | some r => ceilDiv f.head.toNat (2 * RailCfg.slewUp (s.rcfg r))
  | none => 0

/-- The beat at which the headroom of a forecast starts (R154). -/
def State.fcStart (s : State) (f : Fc) : Nat := max (f.ts - s.fcRamp f) (f.filedAt + 1)

/-- The headroom of a forecast is in force at a beat (R154). -/
def State.fcHeads (s : State) (f : Fc) (n : Nat) : Bool := decide (0 < f.head ∧ s.fcStart f ≤ n ∧ n ≤ f.te)

/-- What a control die records of a forecast. -/
def Fc.scOf (f : Fc) (d : Cd) : FcScore := f.sc[d.ix.val]

/-- What both control dies record of a forecast, each changed from its own view. -/
def Fc.modSc (f : Fc) (g : Cd → FcScore → FcScore) : Fc := { f with sc := #v[g .a (f.scOf .a), g .b (f.scOf .b)] }

/-- A forecast arms its catch direction at a beat (R155). -/
def Fc.arms (f : Fc) (n : Nat) : Bool := decide (0 < f.wn ∧ f.ts ≤ n ∧ n ≤ f.te)

/-- The forecasts of a rail that have neither been scored nor ended. -/
def State.fcOf (s : State) (r : Rail) : List Fc := s.fc.fcs.filter fun f => f.rail == r.val && f.ended.isNone

/-- The pending forecasts of a rail: until their final stub (R149). -/
def State.fcPending (s : State) (r : Rail) : List Fc := s.fc.fcs.filter fun f => f.rail == r.val

/-! ### Trust -/

/-- The trust entry of a pair. -/
def State.trustEnt (s : State) (c r : Nat) : Option TrustEnt := s.fc.trust.find? fun e => e.client == c && e.rail == r

/-- FC_T0 of a rail number. -/
def State.fcT0 (s : State) (r : Nat) : Nat :=
  match railOf r with
  | some r => FcCfg.fcT0 (s.fccfg r)
  | none => 0

/-- The trust of a pair; FC_T0 when it has no entry (R151, R165). -/
def State.trustOf (s : State) (c r : Nat) : Nat :=
  match s.trustEnt c r with
  | some e => e.t
  | none => s.fcT0 r

/-- An entry may be replaced: its pair has no pending forecast and it holds T ≥ FC_T0 (R152). -/
def State.trustFree (s : State) (e : TrustEnt) : Bool :=
  decide (s.fcT0 e.rail ≤ e.t) && !s.fc.fcs.any fun f => f.client == e.client && f.rail == e.rail

/-- The least recently used entry of those that may be replaced. -/
def State.trustVictim (s : State) : Option TrustEnt :=
  (s.fc.trust.filter s.trustFree).foldl (fun b e => match b with
    | none => some e
    | some x => if e.used < x.used then some e else some x) none

/-- A trust entry can be held for a pair (R152). -/
def State.trustRoom (s : State) (c r : Nat) : Bool :=
  (s.trustEnt c r).isSome || decide (s.fc.trust.length < 64) || s.trustVictim.isSome

/-- Give a pair a trust value, making or replacing an entry when needed (R152, R165). A full table in which no entry may be
replaced keeps its entries: tickets are refused with BUSY before it comes to that, and a value that finds the table so at
its own boundary is dropped (DESIGN CHOICE, log entry 85). -/
def State.setTrust (s : State) (c r t : Nat) : State :=
  let e : TrustEnt := { client := c, rail := r, t := t, used := s.time.clk }
  let l := s.fc.trust
  let l' := if (s.trustEnt c r).isSome then
      l.map fun x => if x.client = c ∧ x.rail = r then { x with t := t, used := s.time.clk } else x
    else if l.length < 64 then l ++ [e]
    else match s.trustVictim with
      | some v => l.map fun x => if x = v then e else x
      | none => l
  { s with fc := { s.fc with trust := l' } }

/-- Report a trust entry when it passes FC_TREP, and again every 1,000 rounds while it stays below (R160). -/
def State.trustReport (s : State) (c r : Nat) : State :=
  match s.trustEnt c r, railOf r with
  | some e, some rl =>
    let low := decide (e.t < FcCfg.fcTrep (s.fccfg rl))
    let now := roundOf s.time.clk
    let say := if low then !e.below || decide (e.lastRep + 1000 ≤ now) else e.below
    let l := s.fc.trust.map fun x =>
      if x.client = c ∧ x.rail = r then { x with below := low, lastRep := if say then now else x.lastRep } else x
    let s := { s with fc := { s.fc with trust := l } }
    if say then s.postClient 0x11 c r e.t else s
  | _, _ => s

/-- The trust update of a score: T + trunc((q − T) × (c + 1) / 64), within 0 to 255 (R160). -/
def trustStep (t q conf : Nat) : Nat :=
  (clampI 0 255 ((t : Int) + Int.tdiv (((q : Int) - t) * (conf + 1)) 64)).toNat

/-- Update the trust of a pair and report it. -/
def State.trustUpdate (s : State) (c r q conf : Nat) : State :=
  (s.setTrust c r (trustStep (s.trustOf c r) q conf)).trustReport c r

/-- The weight of a forecast (R151). -/
def fcWeight (t conf toff : Nat) : Nat := if t < toff then 0 else min 255 (t * (conf + 1) / 16)

/-! ### Ending -/

/-- Results of Table 5.5. -/
abbrev fcScored : Nat := 0
/-- MISS. -/
abbrev fcMiss : Nat := 1
/-- CANCELLED. -/
abbrev fcCancelled : Nat := 2
/-- RAIL_LEFT. -/
abbrev fcRailLeftRes : Nat := 3
/-- WITHDRAWN. -/
abbrev fcWithdrawn : Nat := 4

/-- A forecast ends; it stays pending until its final stub, which waits for the next round's ticket window (R149, Tables
5.4, 5.5). -/
def State.fcEnd (s : State) (f : Fc) (result q : Nat) (dm : Int) (tx : Option Int) : State :=
  let v := fld (argI dm) 32 0
    + fld (match tx with
      | some x => uword 16 x
      | none => 0x8000) 16 32
    + fld (s.trustOf f.client f.rail) 8 48 + fld result 7 56 + fld (b2n f.curtailed) 1 63
  let st : Stub := { ref := { client := f.client, gen := f.gen, seq := f.seq }, status := 0x00, extra := fld q 8 0 + fld f.tag 8 8,
                     value := v }
  { s with fc := { s.fc with fcs := s.fc.fcs.map (fun x => if x = f then { x with ended := some result, live := false } else x)
                             finals := s.fc.finals ++ [st] } }

/-- Every running forecast of a rail ends without a score (R163). -/
def State.fcEndAll (s : State) (r : Rail) (result : Nat) : State :=
  (s.fcOf r).foldl (fun s f => s.fcEnd f result 0 0 none) s

/-- The generation of a client ended: its pending forecasts end with no final stub and its entries are freed (R161). -/
def State.fcGenEnd (s : State) (c : Nat) : State :=
  { s with fc := { s.fc with fcs := s.fc.fcs.filter fun f => f.client != c, trust := s.fc.trust.filter fun e => e.client != c } }

/-- A forecast withdrawn by its client before TS: trust as for q = 0 with c = 0 (R162). A ticket processed before TS is in
time; one whose not-before boundary lies after TS finds the window open and changes nothing (DESIGN CHOICE, log entry 86). -/
def State.fcCancel (s : State) (c seq r : Nat) : State :=
  match s.fc.fcs.find? fun f => f.client == c && f.seq == seq && f.rail == r && f.ended.isNone with
  | some f =>
    if f.ts < s.time.clk then s
    else (s.trustUpdate c r 0 0).fcEnd f fcCancelled 0 0 none
  | none => s

/-- The final stubs that waited for this round's ticket window; their forecasts are no longer pending (R149). -/
def State.fcFinals (s : State) : State :=
  let l := s.fc.finals
  l.foldl State.stub { s with fc := { s.fc with finals := [], fcs := s.fc.fcs.filter fun f => f.ended.isNone } }

/-! ### What the device prepares -/

/-- S of R153 in 0.1 A: the weighted rising steps whose windows overlap the frame that starts at `f0`. A window that has
closed adds nothing, so the demand falls with the last overlapped frame while R153 goes on holding the shed until Table
5.4's boundary (DESIGN CHOICE, log entry 87). A forecast counts at every boundary at which it is pending, also one processed less than 32
beats before F_pre, whose stub says NO_PHASE (R153 before the latest beat of Table 5.4: DESIGN CHOICE, log entry 103). -/
def State.fcSum (s : State) (r : Rail) (f0 : Nat) : Q :=
  ((s.fcOf r).filter fun f => decide (0 < f.di ∧ f.ts ≤ f0 + 31 ∧ f0 ≤ f.te)).foldl
    (fun a f => Q.add a (Q.norm (f.di * f.wn) 256)) {}

/-- The phase demand raised by forecasts (R153), as a die with the current `i` sees it; `f0` is the boundary of the frame
the demand is for, `nmax` the largest count: NMAX, or the gang's sum. -/
def State.fcDemand (s : State) (r : Rail) (i : Q) (nmax n106 f0 : Nat) : Nat :=
  let sm := s.fcSum r f0
  if Q.le sm {} then n106
  else
    let need := -(Q.floor (Q.divN (Q.mul (Q.ofInt (-1)) (Q.add i sm)) (10 * RailCfg.iphTgt (s.rcfg r))))
    min nmax (max n106 (min (n106 + FcCfg.fcNadd (s.fccfg r)) need.toNat))

/-- A forecast holds the rail's phase count at a frame boundary (R153, R156). A falling one holds it through the boundary at
which it is scored. R156 names no weight; a falling forecast whose weight is 0 holds nothing, since a forecast acts with its weight
(R151: DESIGN CHOICE, log entry 103). -/
def State.fcHolds (s : State) (r : Rail) (f0 : Nat) : Bool :=
  (s.fcPending r).any fun f => decide (0 < f.wn ∧ f.ts / 32 * 32 ≤ f0) &&
    (if 0 < f.di then f.ended.isNone && decide (f0 < f.scoreAt)
     else decide (f0 ≤ f.scoreAt) && (f.ended.isNone || f.ended == some fcScored || f.ended == some fcMiss))

/-- The threshold that a catch direction has at this beat: the lowest armed one, or that of RAIL_CFG (R155). -/
def State.catchThr (s : State) (r : Rail) (ov : Bool) : Nat :=
  let base := if ov then RailCfg.catchOv (s.rcfg r) else RailCfg.catchUv (s.rcfg r)
  let lo := FcCfg.fcCatchMin (s.fccfg r)
  ((s.fcOf r).filter fun f => f.live && f.arms s.time.clk && decide (0 < f.di) != ov).foldl
    (fun b f => min b (base - (base - lo) * f.wn / 256)) base

/-- Beats that a client has used on a rail in this round (R157). -/
def State.fcUsed (s : State) (c r : Nat) : Nat :=
  ((s.fc.usedCli.find? fun x => x.1 == c && x.2.1 == r).map fun x => x.2.2).getD 0

/-- One forecast beat of a client counted. -/
def State.fcUse (s : State) (c r : Nat) : State :=
  let l := s.fc.usedCli
  let l' := if l.any fun x => x.1 == c && x.2.1 == r then
      l.map fun x => if x.1 = c ∧ x.2.1 = r then (x.1, x.2.1, x.2.2 + 1) else x
    else l ++ [(c, r, 1)]
  { s with fc := { s.fc with usedCli := l' } }

/-- The forecast beat of a rail: which forecasts are in force, the step of VHEAD (R154), the counts of R157. Headroom counts
until it has fallen to 0, for the clients whose forecasts raised it. Where a limit is reached, headroom that only it would still hold is
withheld at once, so that no beat counts beyond the limit (DEDUCED, log entry 102). -/
def State.fcBeat (s : State) (r : Rail) : State :=
  let n := s.time.clk
  let bud := FcCfg.fcBudget (s.fccfg r)
  let used := s.fc.usedRail[r.val]
  let g := fun (f : Fc) =>
    if f.rail = r.val ∧ f.ended.isNone then
      let want := s.fcHeads f n || f.arms n
      let ok := decide (used < bud) && decide (s.fcUsed f.client r.val < bud / 2)
      { f with live := want && ok, curtailed := f.curtailed || (want && !ok) }
    else f
  let s := { s with fc := { s.fc with fcs := s.fc.fcs.map g } }
  let on : List Fc := (s.fcOf r).filter fun f => f.live
  let heads := on.filter fun f => s.fcHeads f n
  let tgt := heads.foldl (fun (b : Int) f => max b f.head) 0
  let up : Int := 2 * RailCfg.slewUp (s.rcfg r)
  let dn : Int := 2 * RailCfg.slewDn (s.rcfg r)
  let v := (s.railAt r).vhead
  let may := (s.railAt r).headCli.filter fun c => decide (s.fcUsed c r.val < bud / 2)
  let v' := if bud ≤ used then 0 else if v ≤ tgt then min tgt (v + up) else if may.isEmpty then tgt else max tgt (v - dn)
  let falling := if tgt < v' then may else []
  let cli := if v' = 0 then [] else (heads.map Fc.client ++ falling).eraseDups
  let s := s.modRail r fun x => { x with vhead := v', headCli := cli }
  let s := if on.isEmpty && v' == 0 then s else { s with fc := { s.fc with usedRail := s.fc.usedRail.set r.val (used + 1) } }
  (on.map Fc.client ++ cli).eraseDups.foldl (fun s c => s.fcUse c r.val) s

/-! ### Scoring -/

/-- The mean of 8 currents. -/
def mean8 (l : List Q) : Q := Q.divN ((l.take 8).foldl Q.add {}) 8

/-- The current of beat `n` reaches half the step (R159). -/
def Fc.crosses (f : Fc) (ib i : Q) : Bool :=
  let d := Q.sub i ib
  Q.le (Q.ofInt f.di.natAbs) (Q.mul (Q.ofInt (2 * f.di.sign)) d)

/-- What a die records of a beat for a forecast: `i` is IOUT of beat `n`, `hist` the beats before it, newest first (R159). -/
def Fc.sample (f : Fc) (n : Nat) (i : Q) (hist : List Q) (x : FcScore) : FcScore :=
  let x := if n = f.ts then { x with ib := mean8 hist } else x
  let x := if f.ts ≤ n ∧ n ≤ f.te ∧ x.cross.isNone ∧ f.crosses x.ib i then { x with cross := some ((n : Int) - f.tstep) } else x
  if f.te < n ∧ n ≤ f.te + 8 then { x with dmSum := Q.add x.dmSum i, dmN := x.dmN + 1 } else x

/-- The forecasts of a rail record a beat on both dies, each from its own IOUT (R159). -/
def State.fcSample (s : State) (r : Rail) : State :=
  { s with fc := { s.fc with fcs := s.fc.fcs.map fun f =>
      if f.rail = r.val then f.modSc fun d x => f.sample s.time.clk (s.railDie d r).iout ((s.railDie d r).iHist.drop 1) x else f } }

/-- DM of R159 in 0.1 A. -/
def FcScore.dm (x : FcScore) : Q := Q.sub (Q.divN x.dmSum (max 1 x.dmN)) x.ib

/-- The score q of R159, as a die makes it. -/
def Fc.score (f : Fc) (x : FcScore) : Nat :=
  if x.cross.isNone then 0
  else
    let e := Q.sub (Q.ofInt 1) (Q.divN (Q.sub x.dm (Q.ofInt f.di)).abs f.di.natAbs)
    (max 0 (Q.floor (Q.mul (Q.ofInt 255) e))).toNat

/-- Score a forecast by what the active die recorded: the trust update, then its end (R159 to R161). -/
def State.fcScoreOne (s : State) (f : Fc) : State :=
  let x := f.scOf s.act
  let q := f.score x
  let s := s.trustUpdate f.client f.rail q f.conf
  if x.cross.isNone then s.fcEnd f fcMiss 0 x.dm.round none
  else s.fcEnd f fcScored q x.dm.round x.cross

/-- A forecast comes before another in scoring: by TSTEP, then by sequence number (R160). -/
def fcBefore (a b : Fc) : Bool := decide (a.tstep < b.tstep ∨ (a.tstep = b.tstep ∧ a.seq ≤ b.seq))

/-- The forecasts due at a frame boundary are scored in the order of R160. -/
def State.fcScores (s : State) : State :=
  ((s.fc.fcs.filter fun f => f.ended.isNone && decide (f.scoreAt ≤ s.time.clk)).mergeSort fcBefore).foldl State.fcScoreOne s

/-- The new FC_CFG of an overlay: forecasts of a rail with FC_EN = 0 are withdrawn, the others take the new clamps of
headroom (R163). -/
def State.fcOverlay (s : State) : State :=
  rails.foldl (fun s r =>
    if !FcCfg.fcEn (s.fccfg r) then s.fcEndAll r fcWithdrawn
    else
      let c := s.fccfg r
      { s with fc := { s.fc with fcs := s.fc.fcs.map fun f =>
          if f.rail = r.val ∧ 0 < f.di then
            { f with head := min (4 * FcCfg.fcVheadMax c : Nat) (f.di * f.wn * FcCfg.fcRhead c / 320000) } else f } }) s

/-- A deputy that becomes leader holds the copied forecasts and trust of the gang's rail from that beat on (Table 5.6). What
they hold is the former leader's: free values (log entry 88). -/
def State.fcTakeover (s : State) (r : Rail) : State :=
  let c := s.fccfg r
  let d := s.fresh
  let s : State := { s with fresh := d + 1 }
  let s := (Config.copiedTrust d).foldl (fun (s : State) x => if s.trustRoom (x.1 % 4096) r.val then s.setTrust (x.1 % 4096) r.val (x.2 % 256) else s) s
  let mk := fun (k : Config.CopiedFc) =>
    let wn := k.wn % 256
    let u := min k.u (FcCfg.fcWmax c)
    let n := s.time.clk
    let sc : FcScore := if n ≤ k.tstep - u then {} else
      { ib := Q.norm k.ibNum (k.ibDen + 1), cross := k.cross, dmN := min 8 (n - 1 - (k.tstep + u))
        dmSum := if n ≤ k.tstep + u + 1 then {} else Q.norm k.dmNum (k.dmDen + 1) }
    { client := k.client % 4096, gen := k.gen % 256, seq := k.seq % 65536, rail := r.val, tstep := k.tstep, di := k.di,
      u := u, conf := k.conf % 16, tag := k.tag % 256, wn := wn, filedAt := s.time.clk, curtailed := k.curtailed, sc := #v[sc, sc]
      head := if 0 < k.di then min (4 * FcCfg.fcVheadMax c : Nat) (k.di * wn * FcCfg.fcRhead c / 320000) else 0 : Fc }
  { s with fc := { s.fc with fcs := s.fc.fcs ++ ((Config.copiedForecasts d).take 8).map mk } }

/-! ### Commands -/

/-- Where a ticket of a forecast comes too late or too early (R149). -/
def State.fcTimeBad (s : State) (tstep u : Nat) : Bool := decide (tstep < s.time.clk + u ∨ s.time.clk + 1048576 < tstep)

/-- FORECAST: file a forecast (R146 to R151). -/
def execForecast (t : Tkt) (s : State) : Host.Outcome State Fault Refusal :=
  let di := sint 32 (t.le 20 4)
  let u := t.le 24 2
  let conf := bits (t.byte 26) 3 0
  let tstep := resolve s.time.clk (t.le 16 4)
  let rng := [(20, decide (di ≠ 0 ∧ di.natAbs ≤ 115200)), (24, decide (4 ≤ u ∧ u ≤ 1023))]
  match t.rail with
  | none => runTicket t 0x100 s { rng := rng } fun x => x
  | some r =>
    let c := s.fccfg r
    let mine := (s.fcPending r).filter fun f => f.client == t.client
    let uc := min u (FcCfg.fcWmax c)
    let lim : Int := 10 * s.ratingG r
    let dc := clampI (-lim) lim di
    let filed := countP (fun x => x.1 == t.client && x.2 == r.val) s.fc.filed
    runTicket t 0x100 s
      { rng := rng, den := [failIf (!FcCfg.fcEn c) (denied 2)],
        pre := [failIf (!s.leads r) badTarget, failIf (s.fcTimeBad tstep uc) badTime],
        post := [failIf ((s.railAt r).st != .regulate) busy, failIf (decide (8 ≤ (s.fcPending r).length)) busy,
                 failIf (decide (2 ≤ mine.length)) busy, failIf (decide (FcCfg.fcRate c ≤ filed)) busy,
                 failIf (!s.trustRoom t.client r.val) busy] }
      fun x =>
        let tr := x.trustOf t.client r.val
        let wn := fcWeight tr conf (FcCfg.fcToff c)
        let head : Int := if 0 < dc then min (4 * FcCfg.fcVheadMax c : Nat) (dc * wn * FcCfg.fcRhead c / 320000) else 0
        let f : Fc :=
          { client := t.client, gen := t.gen, seq := t.seq, rail := r.val, tstep := tstep, di := dc, u := uc, conf := conf,
            tag := t.byte 27, wn := wn, head := head, filedAt := x.time.clk }
        let f := if x.time.clk = f.ts then
          f.modSc fun d y => f.sample x.time.clk (x.railDie d r).iout ((x.railDie d r).iHist.drop 1) y else f
        let pre := f.ts / 32 * 32
        let lead := if x.ganged r then 64 else 32
        let ex := b2n (decide (uc < u)) + 2 * b2n (decide (dc ≠ di)) + 4 * b2n (decide (0 < dc ∧ pre < x.time.clk + lead))
          + 8 * b2n (decide (0 < head ∧ f.ts < x.time.clk + x.fcRamp f)) + 16 * b2n (decide (tr < FcCfg.fcToff c))
        let x := x.setTrust t.client r.val tr
        let x := { x with fc := { x.fc with fcs := x.fc.fcs ++ [f], filed := x.fc.filed ++ [(t.client, r.val)] } }
        x.queued t ex

/-- FORECAST_CANCEL: BAD_TARGET for a sequence that is not pending, BUSY at or after TS (R162). One that has ended before TS
and waits for its final stub is still pending: OK, and nothing more happens (log entry 86). -/
def execForecastCancel (t : Tkt) (s : State) : Host.Outcome State Fault Refusal :=
  let seq := t.le 16 2
  let hit : Option Fc := match t.rail with
    | some r => s.fc.fcs.find? fun (f : Fc) => f.client == t.client && f.seq == seq && f.rail == r.val
    | none => none
  let late := match hit with
    | some f => decide (f.ts ≤ s.time.clk)
    | none => false
  runTicket t 0x110 s { pre := [failIf hit.isNone badTarget], post := [failIf late busy] } fun x =>
    match t.rail with
    | some r => (x.post (t.nbBeat x) .beat (.cancelFc t.client seq r)).ok t
    | none => x.ok t

/-- FORECAST_TRUST, read: own entry for every forecasting client, another's for the owner (R165). Byte 19 has a meaning for a
set only; a read in which it is not 0 is MALFORMED, as a byte without meaning (DESIGN CHOICE, log entry 89). -/
def execForecastTrustRead (t : Tkt) (s : State) : Host.Outcome State Fault Refusal :=
  let c := t.le 16 2
  runTicket t 0x120 s { own := some (c != t.client), nb := some false,
                        rng := [(17, decide (c < 4096)), (18, t.byte 18 = 0), (19, t.byte 19 = 0)] } fun x =>
    match t.rail with
    | some r =>
      let n := countP (fun f => f.client == c && f.rail == r.val) x.fc.fcs
      x.ok t 0 (fld (x.trustOf c r.val) 8 0 + fld n 8 8 + fld (x.fcUsed c r.val) 16 16)
    | none => x.ok t

/-- FORECAST_TRUST, set: for the owner only (R165); BUSY when a full table holds no entry that may be replaced (DESIGN CHOICE,
log entry 85). -/
def execForecastTrustSet (t : Tkt) (s : State) : Host.Outcome State Fault Refusal :=
  let c := t.le 16 2
  let full := match t.rail with
    | some r => !s.trustRoom c r.val
    | none => false
  runTicket t 0x121 s { own := some true, rng := [(17, decide (c < 4096))], post := [failIf full busy] } fun x =>
    match t.rail with
    | some r => (x.post (t.nbBeat x) .beat (.trustSet c r (t.byte 19))).ok t
    | none => x.ok t

/-- FORECAST_HEADROOM_RAMP: the headroom of a forecast starts at its beat, and rises from there one step a beat with the
beat boundaries (R154). Before its beat nothing changes. -/
def execForecastHeadroomRamp (c seq : Nat) (s : State) : Host.Outcome State Fault Refusal :=
  .next { s with fc := { s.fc with fcs := s.fc.fcs.map fun f =>
    if f.client = c ∧ f.seq = seq ∧ f.ended.isNone ∧ s.fcHeads f s.bnd = true ∧ f.curtailed = false then { f with live := true } else f } }

/-- FORECAST_WINDOW_OPEN: TS; the baseline of the scoring closes and the catch is armed (R155, R159). -/
def execForecastWindowOpen (c seq : Nat) (s : State) : Host.Outcome State Fault Refusal :=
  .next { s with fc := { s.fc with fcs := s.fc.fcs.map fun f =>
    if f.client = c ∧ f.seq = seq ∧ f.ended.isNone ∧ f.ts = s.bnd then
      let f := f.modSc fun d x => { x with ib := mean8 ((railOf f.rail).elim [] fun r => (s.railDie d r).iHist) }
      { f with live := f.live || (f.arms s.bnd && !f.curtailed) }
    else f } }

/-- FORECAST_WINDOW_CLOSE: TE + 1; thresholds are restored, headroom falls, the measurement starts (R154, R155, R159). -/
def execForecastWindowClose (c seq : Nat) (s : State) : Host.Outcome State Fault Refusal :=
  .next { s with fc := { s.fc with fcs := s.fc.fcs.map fun f =>
    if f.client = c ∧ f.seq = seq ∧ f.te < s.bnd then { f with live := false } else f } }

/-- FORECAST_SCORE: the frame boundary after TE + 8 (R159, R160). -/
def execForecastScore (c seq : Nat) (s : State) : Host.Outcome State Fault Refusal :=
  .next (s.atBoundary fun s =>
    match s.fc.fcs.find? (fun (f : Fc) => f.client == c && f.seq == seq && f.ended.isNone) with
    | some f => if f.scoreAt ≤ s.time.clk then s.fcScoreOne f else s
    | none => s)

end Sys2Proof.Machine
end

