-- ==== Sys2Proof/Machine/Rail.lean ====
section
/-! DEFINITION. Rail regulation: the voltage a rail aims at (R76 to R82), AVSBus (R84 to R87), sensing and its fallback
(R88 to R95), the compensator and the duty (R96 to R101), the catch path (R102 to R105), rail states (R108 to R110), and
the window comparators that watch every sample (R193 to R202). Voltages of the loop are in 0.125 mV. -/

namespace Sys2Proof.Machine

/-! ### The set point -/

/-- VLO of the envelope in force in mV (R77). -/
def State.vlo (s : State) (r : Rail) : Nat := (s.railAt r).envLo.getD (RailCfg.vminOwn (s.rcfg r))
/-- VHI of the envelope in force in mV (R77). -/
def State.vhi (s : State) (r : Rail) : Nat := (s.railAt r).envHi.getD (RailCfg.vmaxOwn (s.rcfg r))
/-- FLOOR: the highest floor held, 0 for none (R76). -/
def RailSt.floor (x : RailSt) : Nat := (x.floors.map Prod.snd).foldl max 0
/-- VREQ in mV (R76, R87). -/
def State.vreqOf (s : State) (r : Rail) : Nat :=
  let x := s.railAt r
  let vboot := RailCfg.vboot (s.rcfg r)
  if RailCfg.avsEn (s.rcfg r) then (if x.vreqAcc then x.vreq else vboot) else x.lastSet.getD vboot

/-- Compose VSET (R76). A change starts the STEP blank (R199). -/
def State.compose (s : State) (r : Rail) : State :=
  let want := max (s.vreqOf r) (s.railAt r).floor
  let v := clampN (s.vlo r) (s.vhi r) want
  let s := if v = (s.railAt r).vset then s else s.blank r (SupCfg.blkStep (s.supcfg r))
  s.modRail r fun x => { x with vset := v, clamped := decide (v ≠ want) }

/-- A rail changes state, on both dies (R108). In OFF and HICCUP no remote comparison is made, and its count returns to 0 (R93). -/
def State.setSt (s : State) (r : Rail) (v : RailState) : State :=
  (s.modRail r fun x => { x with st := v }).modRailDies r fun x =>
    { x with st := v, snsRun := if v = .off ∨ v = .hiccup then 0 else x.snsRun }

/-- A rail is not in light load any more, on both dies (R107). -/
def State.lightOff (s : State) (r : Rail) : State := s.modRailDies r fun x => { x with light := false, lightRun := 0, lightExit := false }

/-- The rising rate in force in 0.25 mV a beat (R80). -/
def State.rateUp (s : State) (r : Rail) : Nat :=
  let f := RailCfg.slewUp (s.rcfg r)
  if (s.railAt r).avsUp = 0 then f else min f (s.railAt r).avsUp
/-- The falling rate in force in 0.25 mV a beat (R80). -/
def State.rateDn (s : State) (r : Rail) : Nat :=
  let f := RailCfg.slewDn (s.rcfg r)
  if (s.railAt r).avsDn = 0 then f else min f (s.railAt r).avsDn

/-! ### Rail states -/

/-- The rail leaves REGULATE: its forecasts end, readmit tests of its phases fail, a running catch ends (R69, R105, R163). -/
def State.leaveRegulate (s : State) (r : Rail) : State :=
  if (s.railAt r).st ≠ .regulate then s
  else
    let s := s.fcEndAll r fcRailLeftRes
    let s := (s.phasesOf r).foldl (fun s p => s.failTest p 1) s
    s.modRailDies r fun x => { x with ctch := none, rearm := x.ctch.map fun _ => s.time.clk + 4 }

/-- The rail enters OFF: all phases at mid (R108, Table 2.4). -/
def State.enterOff (s : State) (r : Rail) : State :=
  let s := s.leaveRegulate r
  let s := (s.phasesOf r).foldl State.toOff s
  ((s.modRail r fun x => { x with slots := [], hiccupEnd := none }).setSt r .off).lightOff r

/-- The tracking sample that a die's regulation goes by: remote, or VLOC less D after a fallback (R90, R109). -/
def State.sensedRaw (s : State) (d : Cd) (r : Rail) : Nat :=
  if (s.railAt r).snsLocal then (s.railDie d r).vLoc else (s.railDie d r).vRemote

/-- Add phases of a rail to the ACTIVE ones, the least worn first, up to a number (R71). -/
def State.addPhases (s : State) (r : Rail) : Nat → State
  | 0 => s
  | n + 1 =>
    match s.leastWorn (s.spare r) with
    | some p => (s.toActive p).addPhases r n
    | none => s

/-- The IDLE phases of a rail that a die may make ACTIVE in its own view (R63, R69, R166). -/
def State.spareBy (s : State) (d : Cd) (r : Rail) : List Ph :=
  (s.phasesOf r).filter fun p => s.phView d p == .idle && !(s.phAt p).limHot && !s.heldOut p

/-- A die adds phases of a rail in its own view, the least worn first (R71, R166). -/
def State.viewAdd (s : State) (d : Cd) (r : Rail) : Nat → State
  | 0 => s
  | n + 1 =>
    match s.leastWorn (s.spareBy d r) with
    | some p => (s.setView d p .active).viewAdd d r n
    | none => s

/-- The die that computes beside the active one: STANDBY, or in RESYNC (R166, R168). -/
def State.shadowDie (s : State) : Option Cd :=
  match s.arb.active with
  | some d => if s.arb.st[d.other.ix.val] = .standby ∨ s.arb.st[d.other.ix.val] = .resync then some d.other else none
  | none => none

/-- A decision about the phases of a rail: the active die's, `own`, moves the phases; the other die's, `view`, made from the same state, stands
beside it as that die's own view of them (R166). -/
def State.standbyDecides (s : State) (r : Rail) (view : State → Cd → State) (own : State → State) : State :=
  match s.shadowDie with
  | none => own s
  | some o =>
    let u := view s o
    (s.phasesOf r).foldl (fun (t : State) p => t.setView o p (u.phView o p)) (own s)

/-- Turn a rail on: the ramp starts on each die at its latest tracking sample, with NMIN phases ACTIVE; IOUT_F starts at 0 A where the rail
leaves OFF (R82, R109). -/
def State.rampOn (s : State) (r : Rail) : State :=
  let a := s.sensedRaw .a r
  let b := s.sensedRaw .b r
  let off := (s.railAt r).st == .off
  let s := (s.phasesOf r).foldl (fun s p =>
    if (s.phAt p).st = .off then s.modPh p fun x => { x.stop with st := .idle, idleFull := s.time.clk % 32 == 0 } else s) s
  let s := (s.modRail r fun x => { x with rampFrom := s.time.clk, cmdOn := true, hiccupEnd := none }).setSt r .rampUp
  let s := s.modRailDie .a r fun x => { x with ioutF := if off then {} else x.ioutF, slew := 4 * (a : Int) }
  let s := s.modRailDie .b r fun x => { x with ioutF := if off then {} else x.ioutF, slew := 4 * (b : Int) }
  s.addPhases r (RailCfg.nmin (s.rcfg r) - (s.drivenOf r).length)

/-- Turn a rail off (R110). -/
def State.turnOff (s : State) (r : Rail) : State :=
  let s := s.modRail r fun x => { x with cmdOn := false }
  match (s.railAt r).st with
  | .off => s
  | .hiccup => s.enterOff r
  | .rampDown => s
  | _ =>
    if RailCfg.softOff (s.rcfg r) then
      let s := s.leaveRegulate r
      ((s.modRail r fun x => { x with rampFrom := s.time.clk }).setSt r .rampDown).lightOff r
    else s.enterOff r

/-- The rail enters HICCUP: its phases go to mid, the output is not discharged (R211). -/
def State.enterHiccup (s : State) (r : Rail) (frames : Nat) : State :=
  let s := s.leaveRegulate r
  let s := (s.phasesOf r).foldl (fun s p =>
    if (s.phAt p).st = .active ∨ (s.phAt p).st = .test ∨ (s.phAt p).st = .idle then (s.toIdle p).modPh p PhaseSt.stop else s) s
  ((s.modRail r fun x => { x with hiccupEnd := some (s.time.clk + 32 * frames) }).setSt r .hiccup).lightOff r

/-- Bench a rail: turned off and held out under R17; RAIL_BENCH with the action code (R213, R214). -/
def State.benchRail (s : State) (r : Rail) (code : Nat) : State :=
  if (s.railAt r).benched.isSome then s
  else
    let s := (s.turnOff r).modRail r fun x => { x with benched := some code }
    s.postRail 0x0B r code

/-- VSET_SLEW of a die one beat on, towards `t` (R80, R109, R110); `go`: the boundary after the ramp's own has come. -/
def RailDie.slewNext (x : RailDie) (t up dn : Int) (go : Bool) : Int :=
  if x.st = .regulate ∨ (x.st = .rampUp ∧ go = true) then (if x.slew ≤ t then min t (x.slew + up) else max t (x.slew - dn))
  else if x.st = .rampDown ∧ go = true then (if x.slew ≤ 1000 then x.slew else max 1000 (x.slew - dn))
  else x.slew

/-- VSET_SLEW moves on each die towards the VSET of the beat before, or towards the end of a ramp down; a ramp moves it from the boundary after
its own on (R80, R109, R110, and the beats of the worked cases of R224 and R349). -/
def State.slewMove (s : State) (r : Rail) : State :=
  let t : Int := 4 * ((s.railAt r).vset : Int)
  let go := decide ((s.railAt r).rampFrom < s.time.clk)
  s.modRailDies r fun x => { x with slew := x.slewNext t (s.rateUp r) (s.rateDn r) go }

/-- A ramp ends on a die at the boundary at which its VSET_SLEW equals VSET, or reaches 0.250 V; the rail goes with the
active die (R109, R110, R166). -/
def State.slewEndDie (s : State) (d : Cd) (r : Rail) : State :=
  let x := s.railDie d r
  let own := decide (d = s.act)
  match x.st with
  | .rampUp =>
    if x.slew = 4 * ((s.railAt r).vset : Int) then
      let s := s.modRailDie d r fun x => { x with st := .regulate }
      if own then s.modRail r fun x => { x with st := .regulate, regFrom := s.time.clk } else s
    else s
  | .rampDown =>
    if x.slew ≤ 1000 then (if own then s.enterOff r else s.modRailDie d r fun x => { x with st := .off, light := false }) else s
  | _ => s

/-- A ramp ends at a boundary (R109, R110). -/
def State.slewEnd (s : State) (r : Rail) : State := (s.slewEndDie .a r).slewEndDie .b r

/-! ### Sensing -/

/-- D(I) in 0.125 mV: D0 + G × I with the current in 0.1 A; 0 with SNS_LOCAL set or before a fit (R94, R95). -/
def State.dropOf (s : State) (d : Cd) (r : Rail) : Q :=
  let x := s.railDie d r
  if RailCfg.snsLocal (s.rcfg r) || !x.hasFit then {}
  else Q.add (Q.divN (Q.mul x.d0 (Q.ofInt 4)) 5) (Q.divN (Q.mul x.g x.ioutF) 1250)

/-- The rail makes remote comparisons: it is on, uses or watches the remote pair, and VLOC is trusted (R93, R95, R242). -/
def State.compares (s : State) (r : Rail) : Bool :=
  let x := s.railAt r
  (x.st == .rampUp || x.st == .regulate || x.st == .rampDown) && !RailCfg.snsLocal (s.rcfg r) && !x.locFault

/-- One remote comparison of a die (R93, R94). -/
def State.compareSns (s : State) (d : Cd) (r : Rail) : State :=
  let x := s.railDie d r
  let s := s.modRailDie d r fun x => { x with snsCmp := true }
  let out := Q.lt (Q.ofInt (8 * RailCfg.snsDev (s.rcfg r) : Nat)) (Q.sub (Q.ofInt (8 * x.vRemote : Nat)) x.vest).abs
  if out then
    let s := s.modRailDie d r fun x => { x with snsRun := min 4 (x.snsRun + 1), snsOut := true, snsIn := 0, snsIdle := false }
    let s := if d = s.act then s.count (0x040 + r.val) 3 1 else s
    if (s.railDie d r).snsRun < 4 ∨ (s.railAt r).snsFault = true then s
    else if d = s.act then s.modRail r fun x => { x with snsPend := true }
    else if s.arb.st[d.ix.val] = .standby then s.modRail r fun x => { x with snsLone := true }
    else s
  else
    let learn := !(s.railAt r).snsLocal
    s.modRailDie d r fun x =>
      { x with snsRun := 0, snsOut := false, snsIn := min 4 (x.snsIn + 1),
               dropRound := if learn then x.dropRound + ((x.vLoc : Int) - x.vRemote) else x.dropRound,
               dropN := if learn then x.dropN + 1 else x.dropN }

/-- The beat boundary after the samples: fallback to local sense on both dies where the active die has raised the sense fault, the mark of
a sense disagreement where only the standby die has (R94). -/
def State.fallback (s : State) (r : Rail) : State :=
  let x := s.railAt r
  let s := if x.snsLone then s.modRail r fun x => { x with snsLone := false } else s
  if x.snsPend then
    let s := s.modRail r fun x => { x with snsPend := false, snsLocal := true, snsFault := true }
    s.postRail 0x09 r s.act.ix.val 0
  else if x.snsLone && !x.snsDis && !x.snsFault then (s.modRail r fun x => { x with snsDis := true }).postRail 0x09 r s.act.other.ix.val 1
  else s

/-- The disagreement mark of a rail clears, reported by a closing event (R94). -/
def State.snsUnmark (s : State) (r : Rail) (d : Cd) : State :=
  if (s.railAt r).snsDis then
    let s := s.modRail r fun x => { x with snsDis := false }
    s.emit { code := 0x09, close := true, scope := scRail, unit := r.val, arg0 := d.ix.val, arg1 := 1 }
  else s

/-- Which control die biases the remote sense pair of each rail: the active die of the device that closes the rail's loop
(R91, R137, R138). -/
def State.biasSense (s : State) : State :=
  rails.foldl (fun s r =>
    let d := if s.railEn r && s.leads r then s.arb.active else none
    s.modRail r fun x => { x with bias := d }) s

/-- A VLOC sample: Vest is refreshed unless VLOC is implausible in REGULATE or LOC_FAULT stands; LOC_FAULT (R92, R242). -/
def State.vlocSample (s : State) (d : Cd) (r : Rail) (code : Nat) : State :=
  let low := (s.railAt r).st == .regulate && decide (code < 100)
  let s := s.modRailDie d r fun x => { x with vLoc := code }
  let held := (s.railAt r).locFault && !((s.railAt r).locClr && decide (100 ≤ code))
  let s := if low || held then s else
    s.modRailDie d r fun x => { x with vest := Q.sub (Q.ofInt (8 * code : Nat)) (s.dropOf d r) }
  if d ≠ s.act then s
  else if low then
    let s := s.modRail r fun x => { x with locRun := min 2 (x.locRun + 1) }
    if 2 ≤ (s.railAt r).locRun ∧ (s.railAt r).locFault = false then
      (s.modRail r fun x => { x with locFault := true, locClr := false }).postRail 0x3A r
    else s
  else
    s.modRail r fun x =>
      { x with locRun := 0, locFault := x.locFault && !(x.locClr && decide (100 ≤ code)),
               locClr := x.locClr && !decide (100 ≤ code) }

/-- The off thresholds that a tracking sample of the rail is held against: a holding RAIL_OFF step's and a discharge's,
2 consecutive samples below each (R212, R220). -/
def State.offSample (s : State) (r : Rail) (code : Nat) : State :=
  s.modRail r fun x =>
    { x with offAt := if code < x.offThr ∨ 2 ≤ x.offAt then min 2 (x.offAt + 1) else 0,
             disch := x.disch.map fun y => { y with run := if code < y.thr ∨ 2 ≤ y.run then min 2 (y.run + 1) else 0 } }

/-! ### Window comparators -/

/-- A comparator after a sample: the run, and the largest deviation of it (R194, R202). -/
def Cmp.step (c : Cmp) (cross : Bool) (d : Int) (trk : Bool) : Cmp :=
  if !cross then {}
  else if c.n = 0 ∨ c.ext.natAbs < d.natAbs then { n := c.n + 1, ext := d, trk := trk }
  else { c with n := c.n + 1 }

/-- A deviation in 0.125 mV as whole units of 0.5 mV (Table 7.2, log entry 25). -/
def halfUnits (d : Int) : Int := roundNear d 4

/-- The SUP_CAP record of a window when its latch sets (R201, R202). -/
def capFill (clk : Nat) (half high : Bool) (c : Cmp) : CapRec :=

  { beat := clk % 2 ^ 32, half := half, high := high, valid := true, trk := c.trk, extreme := halfUnits c.ext, len := min c.n 65535,
    live := true }

/-- A record that goes on while the excursion lasts, in STICKY mode (R202). -/
def CapRec.follow (k : CapRec) (sticky high : Bool) (c : Cmp) : CapRec :=
  if !k.live || k.high != high then k
  else if c.n = 0 then { k with live := false }
  else if sticky then { k with trk := c.trk, extreme := halfUnits c.ext, len := min c.n 65535 }
  else k

/-- A comparator of the active die has qualified: the frame result, the latch, capture, event and wake (R197, R201).
`k` is 0 WL, 1 WH, 2 FL, 3 FH. -/
def State.qualify (s : State) (r : Rail) (k : Nat) (half : Bool) (c : Cmp) : State :=
  let cfg := s.supcfg r
  let fault := decide (2 ≤ k)
  let high := k % 2 == 1
  let s := s.modRailDie s.act r fun x => { x with seen := x.seen ||| 2 ^ k }
  if bit (s.railAt r).latch k then s
  else
    let s := s.modRail r fun x => { x with latch := x.latch ||| 2 ^ k }
    let s := if fault then
        (if SupCfg.fCap cfg && !(s.railAt r).capF.valid then
          s.modRail r fun x => { x with capF := capFill s.time.clk half high c } else s)
      else
        (if SupCfg.wCap cfg && !(s.railAt r).capW.valid then
          s.modRail r fun x => { x with capW := capFill s.time.clk half high c } else s)
    let sticky := if fault then SupCfg.flatch cfg else SupCfg.wlatch cfg
    let s := if sticky && (fault || SupCfg.wEvt cfg) then s.postRail (0x20 + k) r else s
    if fault then (if SupCfg.fWake cfg then { s with wd := { s.wd with wakeFault := true } } else s)
    else if SupCfg.wWake cfg then { s with wd := { s.wd with wakeWarn := true } } else s

/-- The thresholds evaluated in a rail state on window samples: WL, WH, FL, FH from bit 0 (Table 7.1). -/
def evalMask : RailState → Nat
  | .regulate => 0xF
  | .rampUp => 0xA
  | .rampDown => 0xA
  | .off => 0
  | .hiccup => 0

/-- One threshold against a window sample: `w` the code, `d` the deviation, `dt` the deviation of the latest tracking sample,
all in 0.125 mV (R194). -/
def crosses (high : Bool) (off : Nat) (w d dt : Int) : Bool :=
  let sat := decide (255 ≤ w.natAbs)
  let beyond := fun (x : Int) => if high then decide ((off : Int) < x) else decide (x < -(off : Int))
  if sat && decide (off ≤ 1020) then decide (0 < w) == high
  else if sat then beyond dt
  else beyond d

/-- The comparators of a die after a sample. A threshold that the rail state does not evaluate restarts (log entry 26), but
for those of `keep`, which samples of the other kind decide; a blanked sample neither advances nor resets a count (R199). -/
def RailDie.compare (x : RailDie) (mask keep : Nat) (bw bf : Bool) (cr : Nat → Bool) (d : Int) (trk : Bool) : RailDie :=
  let f := fun (k : Nat) (blank : Bool) (c : Cmp) =>
    if bit keep k then c else if !bit mask k then {} else if blank then c else c.step (cr k) d trk
  { x with wl := f 0 bw x.wl, wh := f 1 bw x.wh, fl := f 2 bf x.fl, fh := f 3 bf x.fh }

/-- What follows from the comparators of the active die: latches of the comparators that this sample advanced to their count
or beyond, the records that go on, the peaks that the margin plan learns from (R197, R198, R202, R290). -/
def State.compared (s : State) (r : Rail) (half : Bool) (d : Int) (blankW blankF : Bool) : State :=
  let x := s.railAct r
  let cfg := s.supcfg r
  let q := fun (s : State) (k : Nat) (c : Cmp) (n : Nat) (blank : Bool) => if 0 < c.n ∧ n ≤ c.n ∧ blank = false then s.qualify r k half c else s
  let s := q s 0 x.wl (SupCfg.warnN cfg) blankW
  let s := q s 1 x.wh (SupCfg.warnN cfg) blankW
  let s := q s 2 x.fl (SupCfg.fltN cfg) blankF
  let s := q s 3 x.fh (SupCfg.fltN cfg) blankF
  let s := s.modRail r fun y =>
    { y with capW := ((y.capW.follow (SupCfg.wlatch cfg) false x.wl).follow (SupCfg.wlatch cfg) true x.wh)
             capF := ((y.capF.follow (SupCfg.flatch cfg) false x.fl).follow (SupCfg.flatch cfg) true x.fh) }
  if blankW || (s.railAt r).st != .regulate then s
  else
    let up := ceilDiv d.natAbs 4
    s.modRail r fun y => if d < 0 then { y with peakLo := max y.peakLo (min up 255) } else { y with peakHi := max y.peakHi (min up 255) }

/-! ### The catch path -/

/-- The period P of R50 in 78.125 ps. -/
def State.periodOf (s : State) (r : Rail) : Nat := (roundNear 2560000 (max 1 (RailCfg.fswCode (s.rcfg r)))).toNat

/-- A high interval shorter than TON_MIN is not issued: the cycle stays low (R52). -/
def State.issued (s : State) (p : Ph) (h : Nat) : Nat := if h < 16 * PhCfg.tonMin (s.pcfg p) then 0 else h

/-- The largest high interval that R100 allows a phase in a cycle of `len` units: DMAX, and TOFF_MIN left (R100, R103). -/
def State.hiMax (s : State) (r : Rail) (p : Ph) (len : Nat) : Nat :=
  s.issued p (min (len * RailCfg.dmax (s.rcfg r) / 256) (len - 16 * PhCfg.toffMin (s.pcfg p)))

/-- CRC-7 over bits [56:0] of a gang packet (R380, log entry 13). -/
def gangCrc (pkt : Nat) : Nat := crc7 (bits pkt 56 0)

/-- The command packet of a beat (Table 15.4): u, the rail state, the catch, the byte of the frame packet. -/
def State.commandPkt (s : State) (r : Rail) (u : Int) : Nat :=
  let n := s.time.clk
  let g := s.gang[r.val]
  let (c, k) := match (s.railAct r).ctch with
    | some c => (if c.ov then 2 else 1, if c.ov then 0 else RailCfg.catchN (s.rcfg r))
    | none => (0, 0)
  let w := fld n 16 0 + fld (uword 24 u) 24 16 + fld (s.railAt r).st.code 3 40 + fld c 2 43 + fld k 4 45
    + fld (g.fout.getD (n % 32) 0) 8 49
  w + fld (gangCrc w) 7 57

/-- The command packet of a gang's leader takes up a catch that triggers before the packet leaves, at CTL cycle 40 of the beat (R133). -/
def State.gangRefresh (s : State) (r : Rail) : State :=
  if s.ganged r && (s.gang[r.val]).role == .leader then
    let w := s.commandPkt r (s.railAct r).u0
    s.modGang r fun g => { g with cmdOut := w }
  else s

/-- A written cycle starts: its edges are loaded (R51). A skipped pulse leaves the ball low, or at mid where it rests. A cycle in which the
limit has not acted ends the run of R57. -/
def PhaseSt.load (x : PhaseSt) (e : Edges) : PhaseSt :=
  let up := decide (e.rise < e.fall)
  { x with cyc := some e, nxt := none, cut := false, rest := x.rest && x.cyc.isSome && !up, limRun := if x.limCyc then x.limRun else 0,
           limCyc := false, ball := if up then .high else if x.rest && x.cyc.isSome then .mid else .low }

/-- The ball of a phase that the catch drives in the reserve slot, the last 4 CTL cycles of the beat: low for catch-OV, for
catch-UV the next rising edge pulled forward, with the largest high interval (R51, R103, R104). -/
def PhaseSt.pull (x : PhaseSt) (ov : Bool) (hi : Nat) : PhaseSt :=
  if ov then { x with ball := .low, cut := true } else x.load { start := 2944, rise := 0, fall := hi, len := 0 }

/-- A catch of a die triggers (R102 to R104). Only the active die of the device that closes the loop drives (R134, R191). -/
def State.catchStart (s : State) (d : Cd) (r : Rail) (ov : Bool) (thr : Nat) (low high : List Ph) : State :=
  let s := s.modRailDie d r fun x =>
    { x with ctch := some { ov := ov, thr := thr, start := s.time.clk, w1 := x.w1, w2 := x.w2 }, catchSeen := true, lightExit := true
             catchAdd := if ov then 0 else RailCfg.catchN (s.rcfg r) }
  if s.arb.active ≠ some d ∨ s.leads r = false then s
  else
    let s := s.count (0x040 + r.val) 0 1
    let hit := (s.activeOf r).filter fun p => if ov then high.contains p else low.contains p
    let s := s.count (0x050 + d.ix.val) 2 hit.length
    hit.foldl (fun s p => s.modPh p fun x => x.pull ov (s.hiMax r p (s.periodOf r))) s

/-- The catch path sees a window sample: it triggers when armed. Of the two samples of one beat that cross on both sides the
later decides, and a catch that runs is ended by it (R102, Table 3.5). -/
def State.catchSample (s : State) (d : Cd) (r : Rail) (half : Bool) (w : Int) (low high : List Ph) : State :=
  let x := s.railDie d r
  if (s.railAt r).st ≠ .regulate ∨ RailCfg.catchEn (s.rcfg r) = false then s
  else
    let crossUv := fun (w : Int) => decide ((s.catchThr r false : Int) < -w)
    let crossOv := fun (w : Int) => decide ((s.catchThr r true : Int) < w)
    match x.ctch with
    | none =>
      if x.rearm.isSome then s
      else if crossUv w then s.catchStart d r false (s.catchThr r false) low high
      else if crossOv w then s.catchStart d r true (s.catchThr r true) low high
      else s
    | some c =>
      if half && c.ov && crossOv c.w1 && crossUv w then s.catchStart d r false (s.catchThr r false) low high
      else if half && !c.ov && crossUv c.w1 && crossOv w then s.catchStart d r true (s.catchThr r true) low high
      else s

/-- A quotient rounded to the nearest integer with halves away from zero (R88, R96). -/
def roundAway (n : Int) (d : Nat) : Int := n.sign * ((2 * n.natAbs + d) / (2 * d) : Nat)

/-- The code of a window converter for a sensed input in µV: its distance from the window reference over 0.5 mV, rounded to the nearest
whole code with halves away from zero, then limited to ±255 (R88). -/
def RailDie.windowCode (y : RailDie) (uv : Int) : Int := clampI (-255) 255 (roundAway (uv - 125 * y.wref) 500)

/-- WINDOW_SAMPLE: a window converter of a die completes a sample, at CTL cycle 12 (`half` false) or 37, of the sensed input, the remote pair
or VLOC after a fallback, `uv` its voltage in µV (R88). `low` and `high` are the phases whose balls the catch may pull in: those low with
their last falling edge TOFF_MIN back, those high (R103, R104). -/
def execWindowSample (d : Cd) (r : Rail) (half : Bool) (uv : Int) (low high : List Ph) (s : State) : Host.Outcome State Fault Refusal :=
  if s.railEn r = false then .next s
  else
    let w := (s.railDie d r).windowCode uv
    let s := s.modRailDie d r fun x =>
      { x with w1 := if half then x.w1 else w, w2 := if half then w else x.w2, wsat := x.wsat || decide (255 ≤ w.natAbs),
               ctch := x.ctch.map fun c => if half then { c with w2 := w } else { c with w1 := w } }
    let x := s.railAt r
    let y := s.railDie d r
    let vc := y.vref - x.vhead
    let trk : Int := if x.snsLocal then (Q.sub (Q.ofInt (8 * y.vLoc : Nat)) (s.dropOf d r)).round else 8 * (y.vRemote : Int)
    let sat := decide (255 ≤ w.natAbs)
    let dv : Int := if sat then trk - vc else x.vhead + 4 * w
    let cfg := s.supcfg r
    let cr := fun (k : Nat) => match k with
      | 0 => crosses false (4 * SupCfg.warnLo cfg) w dv dv
      | 1 => crosses true (4 * SupCfg.warnHi cfg) w dv dv
      | 2 => crosses false (8 * SupCfg.fltLo cfg) w dv dv
      | _ => crosses true (8 * SupCfg.fltHi cfg) w dv dv
    let off := x.st == .off || x.st == .hiccup
    let s := s.modRailDie d r fun y => y.compare (evalMask x.st) (if off then 8 else 0) x.blankW x.blankF cr dv sat
    let s := if d = s.act ∧ off = false then s.compared r half dv x.blankW x.blankF else s
    .next ((s.catchSample d r half w low high).gangRefresh r)

/-- The fault high threshold of a rail in OFF or HICCUP, on a tracking sample, against VMAX_OWN + FLT_HI (Table 7.1). -/
def State.offCompare (s : State) (d : Cd) (r : Rail) (code : Nat) : State :=
  let x := s.railAt r
  if x.st ≠ .off ∧ x.st ≠ .hiccup then s
  else
    let dv : Int := 8 * ((code : Int) - RailCfg.vmaxOwn (s.rcfg r))
    let cr := fun (_ : Nat) => decide ((8 * SupCfg.fltHi (s.supcfg r) : Nat) < dv)
    let s := s.modRailDie d r fun y => y.compare 8 0 x.blankW x.blankF cr dv true
    if d = s.act then s.compared r false dv true x.blankF else s

/-- The beat of a tracking sample: the remote pair on multiples of 16, VLOC 8 beats later (R89). -/
def State.trackBeat (s : State) (remote : Bool) : Bool := s.time.clk % 16 == (if remote then 0 else 8)

/-- TRACKING_SAMPLE: the tracking converter of a die completes a sample, `uv` the voltage in µV of the remote pair on a
multiple of 16 beats, or of VLOC 8 beats later; its code is in whole mV, halves upward, at most 4095 (R89). On any other
beat the converter does not take that input. -/
def execTrackingSample (d : Cd) (r : Rail) (remote : Bool) (uv : Nat) (s : State) : Host.Outcome State Fault Refusal :=
  if s.railEn r = false ∨ s.trackBeat remote = false then .next s
  else
    let code := min ((uv + 500) / 1000) 4095
    let s := if remote then
        let s := s.modRailDie d r fun x => { x with vRemote := code }
        if s.compares r then s.compareSns d r else s.modRailDie d r fun x => { x with snsRun := 0 }
      else s.vlocSample d r code
    if remote = (s.railAt r).snsLocal then .next s
    else
      let s := s.offCompare d r code
      .next (if d = s.act then s.offSample r code else s)

/-- A running catch has reached its end at the end of this beat: both samples within half the threshold, or its longest
time (R105). -/
def State.catchDue (s : State) (r : Rail) (c : CatchSt) : Bool :=
  let inside := fun (w : Int) => if c.ov then decide (2 * w < (c.thr : Int)) else decide (-(2 * w) < (c.thr : Int))
  (inside c.w1 && inside c.w2) || decide (c.start + RailCfg.catchHold (s.rcfg r) ≤ s.time.clk)

/-- CATCH_END: a running catch of a die ends at the end of a beat (R105). The trace carries the rail, UV or OV and the beats. -/
def execCatchEnd (d : Cd) (r : Rail) (s : State) : Host.Outcome State Fault Refusal :=
  match (s.railDie d r).ctch with
  | none => .next s
  | some c =>
    if s.catchDue r c = false then .next s
    else
      let s := s.modRailDie d r fun x => { x with ctch := none, rearm := some (s.time.clk + 5) }
      if d ≠ s.act then .next s
      else
        let s := s.modRail r fun x => { x with respace := true }
        .next (s.trace 0x02 r.val (b2n c.ov) (s.time.clk + 1 - c.start))

/-- CATCH_REARM: 4 beats after the end of a catch the path is armed again (R105). -/
def execCatchRearm (d : Cd) (r : Rail) (s : State) : Host.Outcome State Fault Refusal :=
  match (s.railDie d r).rearm with
  | none => .next s
  | some b => if b ≤ s.bnd then .next (s.modRailDie d r fun x => { x with rearm := none }) else .next s

/-- SENSE_WATCH_END: 16 consecutive good frames resume remote sense at this frame boundary; 64 frames without them leave the
rail local (R95). -/
def execSenseWatchEnd (r : Rail) (s : State) : Host.Outcome State Fault Refusal :=
  match (s.railAt r).watch with
  | none => .next s
  | some w =>
    if s.bnd % 32 ≠ 0 then .next s
    else if 16 ≤ w.good then
      .next (s.atBoundary fun s =>
        let s := s.modRail r fun x =>
          { x with watch := none, snsLocal := RailCfg.snsLocal (s.rcfg r), snsFault := false, snsPend := false }
        let s := s.modRailDies r fun x => { x with snsRun := 0 }
        (s.postRail 0x09 r s.act.ix.val 2).final w.ref 0x00)
    else if 64 ≤ w.frames then
      .next (s.atBoundary fun s =>
        let s := s.modRail r fun x => { x with watch := none }
        (s.postRail 0x09 r s.act.ix.val 3).final w.ref 0x3F 0x0003)
    else .next s

/-! ### The beat of a rail -/

/-- The capture of R28 for a phase on a die. -/
def PhDie.capture (y : PhDie) : PhDie :=
  { y with cap := y.code, fresh := y.newS, newS := false, sum8 := (((y.code : Int) - 256) :: y.sum8).take 8 }

/-- IOUT in 0.1 A on a die: the ACTIVE and TEST phases, over the whole gang for a ganged rail, with sums of the other members
that are at most 2 beats old (R82, R135). -/
def State.ioutOf (s : State) (d : Cd) (r : Rail) : Q :=
  let own := s.ownCurrent d r
  if s.ganged r then
    let g := s.gang[r.val]
    let far := ((s.members r).zip (g.isum.toList.zip g.age.toList)).foldl (fun (a : Int) m =>
      if m.1.1 = s.ring.num ∨ 2 < m.2.2 then a else a + 5 * m.2.1) 0
    Q.add own (Q.ofInt far)
  else own

/-- The current filter and the sums taken of IOUT (R82, R94, R136, R159). -/
def State.currentStep (s : State) (d : Cd) (r : Rail) : State :=
  let i := s.ioutOf d r
  let learn := !(s.railAt r).snsLocal
  s.modRailDie d r fun x =>
    let f := Q.add x.ioutF (Q.divN (Q.sub i x.ioutF) (2 ^ RailCfg.llTau (s.rcfg r)))
    { x with iout := i, ioutF := f, iHist := (i :: x.iHist).take 9,
             ioutRound := if learn && !x.snsOut then Q.add x.ioutRound i else x.ioutRound,
             iN := if learn && !x.snsOut then x.iN + 1 else x.iN }

/-- The wave of chirp tone `k` at a beat, as a part of its amplitude (R288): 2 kHz × 2^k, which is a period of 2,000 / 2^k beats,
computed from the chain clock with its rising zero at count 0 (log entry 44). -/
def toneWave (k clk : Nat) : Q :=
  let ph := clk * 2 ^ k % 2000
  let x := ph % 1000
  let y := if x ≤ 500 then x else 1000 - x
  let v := if y = 0 then {} else if y = 500 then Q.ofInt 1 else Q.norm (clampI 0 (2 ^ 30) (Config.toneQuarter y)) (2 ^ 30)
  if ph < 1000 then v else Q.sub {} v

/-- The chirp tone of a rail in 0.125 mV (R288): its amplitude is 0.5 % of VSET exact, which is VSET / 25 in this unit. -/
def State.toneOf (s : State) (r : Rail) : Q :=
  match s.therm.chirps[r.val] with
  | none => {}
  | some c => Q.mul (Q.norm (s.railAt r).vset 25) (toneWave c.tone s.time.clk)

/-- VREF in 0.125 mV (R81), with the tone of a chirp (R288). -/
def State.vrefOf (s : State) (d : Cd) (r : Rail) : Int :=
  let x := s.railAt r
  let y := s.railDie d r
  let drop := Q.divN (Q.mul (Q.ofInt (RailCfg.rll (s.rcfg r) : Int)) y.ioutF) 1250
  let v := (Q.sub (Q.add (Q.ofInt (2 * y.slew + x.vhead)) (s.toneOf r)) drop).round
  if y.st = .regulate then clampI 2000 (8 * (s.vhi r : Int)) v else v

/-- The error e in 0.125 mV from the captured samples: R90, bounded by R92. -/
def State.errorOf (s : State) (d : Cd) (r : Rail) : Int :=
  let x := s.railAt r
  let y := s.railDie d r
  let sat := decide (255 ≤ y.cw1.natAbs ∨ 255 ≤ y.cw2.natAbs)
  let v : Q := Q.ofInt y.vref
  let e : Q := if sat then
      let t := if x.snsLocal then Q.sub (Q.ofInt (8 * y.vLoc : Nat)) (s.dropOf d r) else Q.ofInt (8 * y.vRemote : Nat)
      let e := Q.sub v t
      if Q.lt (Q.ofInt 4096) e then Q.ofInt 4096 else if Q.lt e (Q.ofInt (-4096)) then Q.ofInt (-4096) else e
    else Q.ofInt (-2 * (y.cw1 + y.cw2))
  let dev := Q.ofInt (8 * RailCfg.snsDev (s.rcfg r) : Nat)
  let sensed := Q.sub v e
  let lo := Q.sub y.vest dev
  let hi := Q.add y.vest dev
  let b := if Q.lt hi sensed then hi else if Q.lt sensed lo then lo else sensed
  (Q.sub v b).round

/-- A partial sum of the accumulator saturates at ±(2⁵⁵ − 1) (R96). -/
def accSat (x : Int) : Int := clampI (-(2 ^ 55 - 1)) (2 ^ 55 - 1) x

/-- u[n] in µV before R97, from the histories of a die and the new error (R96). -/
def compStep (c : Nat) (x : RailDie) (e : Int) : Int :=
  let b := fun (k : Nat) (v : Int) => sint 24 (bits c (24 * k + 23) (24 * k)) * v * 4000
  let a := fun (k : Nat) (v : Int) => -(sint 24 (bits c (24 * k + 23) (24 * k)) * v)
  let terms := [b 0 e, b 1 x.e0, b 2 x.e1, b 3 x.e2, a 4 x.u0, a 5 x.u1, a 6 x.u2]
  let acc := terms.foldl (fun a t => accSat (a + t)) 0
  clampI (-8388608) 8388607 (roundAway acc (2 ^ 21))

/-- VIN_FF in µV (R99). -/
def State.vinOf (s : State) (r : Rail) : Q :=
  let nom := Q.ofInt (10000 * RailCfg.vinNom (s.rcfg r) : Nat)
  if RailCfg.ffEn (s.rcfg r) && decide (0 < (s.railAt r).vinFF.num) then (s.railAt r).vinFF else nom

/-- The largest u of R97 in whole µV: DMAX/256 × VIN_FF, rounded down (log entry 29). -/
def State.uMax (s : State) (r : Rail) : Int := (Q.divN (Q.mul (Q.ofInt (RailCfg.dmax (s.rcfg r) : Int)) (s.vinOf r)) 256).floor

/-- Q in 78.125 ps, exact (R127). -/
def State.qOf (s : State) (r : Rail) : Q := Q.norm 12800000 (5 * max 1 (RailCfg.fswCode (s.rcfg r)))

/-- The first cycle start of a grid at or after `t`: cycle k starts at round(k × Q), moved by an offset, all in 78.125 ps from
the round boundary (R127). -/
def gridStart (q : Q) (ofs t : Int) : Int :=
  let k := (t - ofs) * q.den / q.num
  let a := roundNear (k * q.num) q.den + ofs
  if t ≤ a then a else roundNear ((k + 1) * q.num) q.den + ofs

/-- The first cycle of a rail's grid with an offset that starts at or after `t`, both counted from the start of the present beat,
3,200 units long (R127). -/
def State.gridFrom (s : State) (r : Rail) (ofs t : Int) : Int :=
  let base : Int := (s.time.clk % 4000 * 3200 : Nat)
  gridStart (s.qOf r) ofs (base + t) - base

/-- The high interval of a phase for a cycle of `len` units, as a die makes it (R100, R52); `u` is in µV, scaled by
(1 + k_d) on a gang (R136). -/
def State.hiOf (s : State) (d : Cd) (r : Rail) (p : Ph) (u k : Int) (len : Nat) : Nat :=
  let us := Q.norm (u * (32768 + k)) 32768
  let h := Q.add (Q.div (Q.mul us (Q.ofInt (len : Int))) (s.vinOf r)) (Q.norm (s.phDie d p).trim 65536)
  let h := ((2 * h.num + h.den) / (2 * h.den : Nat)).toNat
  s.issued p (min h (s.hiMax r p len))

/-- The current-share trim of a phase on a die in 2⁻¹⁶ PWM units after a new sample of its own (R101, R166). -/
def State.trimStep (s : State) (d : Cd) (r : Rail) (p : Ph) : State :=
  let y := s.phDie d p
  let x := s.phAt p
  if !y.fresh || !(x.st == .active || x.st == .test) then s
  else
    let gap := Q.sub (s.share d p) (y.current y.cap)
    let inc := (Q.divN (Q.mul gap (Q.ofInt 65536)) (10 * 2 ^ RailCfg.cbK (s.rcfg r))).round
    let lim : Int := s.periodOf r * 2048
    s.modPhDie d p fun y => { y with trim := clampI (-lim) lim (y.trim + inc) }

/-- The control die that drives the catch state a rail's phases follow. -/
def State.catchOf (s : State) (r : Rail) : Option CatchSt := (s.railAct r).ctch

/-- The catch that a rail's phases follow, 0 none, 1 UV, 2 OV, and whether this is its first boundary: the active die's own, or
on a gang's other members that of the latched command packet (R103, R104, R134). -/
def State.gangCatch (s : State) (r : Rail) : Nat × Bool :=
  if s.leads r then
    match s.catchOf r with
    | some c => (if c.ov then 2 else 1, decide (c.start + 1 = s.time.clk))
    | none => (0, false)
  else ((s.gang[r.val]).ctch, (s.gang[r.val]).cfresh)

/-- The edges of a cycle, from its start, for a high interval (R51). A low interval since the last falling edge, at `last`,
that is shorter than TOFF_MIN is extended and the rising edge moves later by as much (R52). In a cycle in which the delay
lines are calibrated both edges lie on the counter's grid of 16 units, and a high interval that is issued stays (R53). -/
def cycleEdges (start : Int) (len hi toff : Nat) (last : Option Int) (calib : Bool) : Edges :=
  let ext := match last with
    | some f => max 0 ((toff : Int) - (start - f))
    | none => 0
  let snap := fun (x : Int) => if calib then 16 * roundNear (start + x) 16 - start else x
  let rise := snap ext
  let fall := snap (ext + hi)
  { start := start, rise := rise, fall := if 0 < hi then max fall (rise + (if calib then 16 else 1)) else rise, len := len, grid := calib }

/-- The last falling edge of the cycle in progress, counted from the start of the present beat; none for a skipped one. -/
def PhaseSt.lastFall (x : PhaseSt) : Option Int :=
  match x.cyc with
  | some e => if e.rise < e.fall then some (e.start + e.fall) else none
  | none => none

/-- Every ACTIVE phase of a rail in catch-UV runs at the largest high interval, its cycles back to back (R103). -/
def State.catchDriven (s : State) (p : Ph) (uv : Bool) : Bool := uv && (s.phAt p).st == .active

/-- Write the edges of the cycle of a driven phase that starts in the next beat, if one does (R51): `f` gives the high interval
of a die for a cycle's length, `uv` says that a catch-UV drives the rail. A cycle starts at its slot (R127), a gliding one up
to Q/4 away from where it would (R128), one of a catch-UV where the last one ends (R103, log entry 90). -/
def State.schedule (s : State) (r : Rail) (f : Cd → Nat → Nat) (uv : Bool) (p : Ph) : State :=
  let x := s.phAt p
  let catchUp := s.catchDriven p uv
  let per := s.periodOf r
  let q := s.qOf r
  let g := x.glide
  let start := match x.nextAt with
    | none => s.gridFrom r x.ofs 3200
    | some n => if catchUp then max 3200 n else max 3200 (s.gridFrom r x.ofs (max 3200 n + g - 4) - g)
  if 6400 ≤ start then s.modPh p fun x => { x with nextAt := some start }
  else
    let q4 := (Q.divN q 4).floor
    let g' := if g.natAbs ≤ q4 then 0 else g - g.sign * q4
    let next := if catchUp then start + per else s.gridFrom r x.ofs (start + g + (Q.divN q 2).floor) - g'
    let len := if g = 0 ∨ catchUp = true then per else (next - start).toNat
    let hiD := fun (d : Cd) => if catchUp then s.hiMax r p len else f d len
    let mk := fun (d : Cd) => cycleEdges start len (hiD d) (16 * PhCfg.toffMin (s.pcfg p)) x.lastFall x.calib
    let e := { mk s.act with twin := (mk s.act.other).fall }
    let s := s.modPh p fun x => { x with nxt := some e, nextAt := some next, glide := if catchUp then x.glide else g', calib := false }
    (s.modPhDie .a p fun y => { y with hi := hiD .a }).modPhDie .b p fun y => { y with hi := hiD .b }

/-- The edges written for the next cycle are written anew within the beat, when the latched command of a gang comes after
them (R133, R134). -/
def State.rewrite (s : State) (f : Cd → Nat → Nat) (p : Ph) : State :=
  let x := s.phAt p
  match x.nxt with
  | none => s
  | some e =>
    let mk := fun (d : Cd) => cycleEdges e.start e.len (f d e.len) (16 * PhCfg.toffMin (s.pcfg p)) x.lastFall e.grid
    let e' := { mk s.act with twin := (mk s.act.other).fall }
    let s := s.modPh p fun x => { x with nxt := some e' }
    (s.modPhDie .a p fun y => { y with hi := f .a e.len }).modPhDie .b p fun y => { y with hi := f .b e.len }

/-- At a handover a cycle in progress completes under the new die's edges, for the same cycle start (R185). -/
def PhaseSt.handOver (x : PhaseSt) : PhaseSt :=
  let f := fun (e : Edges) => { e with fall := e.twin, twin := e.fall }
  { x with cyc := x.cyc.map f, nxt := x.nxt.map f }

/-- The base of a phase's cycle times moves to the beat that starts. -/
def PhaseSt.beatOn (x : PhaseSt) : PhaseSt :=
  let f := fun (e : Edges) => { e with start := e.start - 3200 }
  { x with cyc := x.cyc.map f, nxt := x.nxt.map f, nextAt := x.nextAt.map (· - 3200) }

/-- The ball of a phase at the start of a beat in which no cycle of it starts: high up to the falling edge, then low, or
at mid when it rests there (R54 to R56). -/
def PhaseSt.level (x : PhaseSt) : Ball :=
  match x.cyc with
  | none => .mid
  | some e => if x.rest then .mid else if x.cut = false ∧ e.rise < e.fall ∧ 0 < e.start + e.fall then .high else .low

/-- At the first boundary of a catch-UV a phase whose ball is low starts a cycle, and one that is high stays so for the
largest interval (R103, log entry 90). -/
def PhaseSt.catchUp (x : PhaseSt) (hi per toff : Nat) : PhaseSt :=
  match x.cyc with
  | none => x
  | some e =>
    if x.ball = .high then
      { x with cyc := some { e with fall := max e.fall (e.rise + hi) }, nxt := none, nextAt := some (e.start + per) }
    else { x.load (cycleEdges 0 per hi toff x.lastFall false) with nextAt := some (per : Int) }

/-- The balls of a phase at a beat boundary: the cycles that start in the beat are loaded, those in progress go on, a
phase that has left its slot goes to mid when its cycle ends (R51, R54 to R56, R103, R104, R128). With no die in service
every ball rests at mid (R191). -/
def State.cycleBeat (s : State) (p : Ph) : State :=
  if s.arb.active.isNone then s.modPh p PhaseSt.stop
  else
    let s := s.modPh p PhaseSt.beatOn
    let x := s.phAt p
    match s.railOfPh p, x.st == .active || x.st == .test with
    | some r, true =>
      let c := s.gangCatch r
      let per := s.periodOf r
      let s := match x.nxt with
        | some e =>
          let e := if c.1 == 2 then { e with fall := e.rise } else e
          let s := s.modPh p fun x => x.load e
          if x.st = .active ∧ e.fall ≤ e.rise then s.count p.val 1 1 else s
        | none => s.modPh p fun x => { x with ball := x.level }
      if c.1 == 1 && c.2 && x.st == .active then
        s.modPh p fun x => x.catchUp (s.hiMax r p per) per (16 * PhCfg.toffMin (s.pcfg p))
      else s
    | _, _ =>
      if x.cyc.isNone then s
      else if x.nextAt.all fun n => decide (n ≤ 0) then s.modPh p PhaseSt.stop
      else s.modPh p fun x => { x with ball := x.level }

/-- The compensator of a die for a beat, in every rail state: the error, u saturated to R97, the histories (R96, log entry
27). `late` leaves them as they stood (R39). -/
def State.regulate (s : State) (d : Cd) (r : Rail) (late : Bool) : State :=
  let v := s.vrefOf d r
  let w := if (s.railAt r).snsLocal then (Q.add (Q.ofInt v) (s.dropOf d r)).round else v
  let s := s.modRailDie d r fun x => { x with cw1 := x.w1, cw2 := x.w2, vref := v, wref := w, late := late }
  if late then s
  else
    let e := s.errorOf d r
    let x := s.railDie d r
    let u := clampI 0 (s.uMax r) (compStep (s.rcomp r) x e)
    s.modRailDie d r fun x =>
      { x with e0 := e, e1 := x.e0, e2 := x.e1, e3 := x.e2, u0 := u, u1 := x.u0, u2 := x.u1, u3 := x.u2,
               vs8 := ((x.vref - e) :: x.vs8).take 8 }

/-- The blank of this beat within the limits of the frame (R199, R200). -/
def State.blankBeat (s : State) (r : Rail) : State :=
  s.modRail r fun x =>
    let on := decide (s.time.clk < x.blankEnd)
    let w := on && decide (x.blanked < 24)
    let f := on && decide (x.fBlanked < SupCfg.fblk (s.supcfg r))
    { x with blankW := w, blankF := f, blanked := x.blanked + b2n w, fBlanked := x.fBlanked + b2n f }

/-- The phases that a catch-UV of a die adds at the next beat boundary, up to NMAX (R103). -/
def State.catchAdds (s : State) (d : Cd) (r : Rail) : Nat :=
  if RailCfg.fixedN (s.rcfg r) ∨ s.leads r = false ∨ (s.railAt r).st ≠ .regulate then 0
  else min (s.railDie d r).catchAdd (RailCfg.nmax (s.rcfg r) - (s.drivenBy d r).length)

/-- A catch-UV of the active die adds phases at the next beat boundary; what the standby's own catch adds is in its own view (R103, R166). -/
def State.catchAddStep (s : State) (r : Rail) : State :=
  let s := s.standbyDecides r (fun s d => s.viewAdd d r (s.catchAdds d r)) fun s => s.addPhases r (s.catchAdds s.act r)
  s.modRailDies r fun x => { x with catchAdd := 0 }

/-- The rail leaves light load on a die at a beat boundary, when a catch has triggered or IOUT_F lies above LLM_EXIT (R107). -/
def State.lightStep (s : State) (r : Rail) : State :=
  let lim := Q.ofInt (10 * RailCfg.llmExit (s.rcfg r) : Nat)
  s.modRailDies r fun x =>
    if x.light && (x.lightExit || Q.lt lim x.ioutF) then { x with light := false, lightExit := false, lightRun := 0 }
    else { x with lightExit := false }

/-! ### AVSBus -/

/-- The rails that a select of a port reaches: the one bound to it, or all of the port for select 15 (R84). -/
def State.avsRails (s : State) (port : Avs) (sel : Nat) : List Rail :=
  rails.filter fun r =>
    s.railEn r && RailCfg.avsEn (s.rcfg r) && RailCfg.avsPort (s.rcfg r) == port.val
      && (sel == 15 || RailCfg.avsSel (s.rcfg r) == sel) && s.leads r

/-- Acknowledge an AVSBus request (R86). -/
def State.avsAck (s : State) (a : Nat) : State := { s with host := { s.host with avsAck := some a } }

/-- Answer an AVSBus read: 16 bits with acknowledge 0b00; a broadcast read is not answered (R84, R86). -/
def State.avsRead (s : State) (port : Avs) (sel : Nat) (f : State → Rail → Nat × State) : State :=
  if sel = 15 then { s with host := { s.host with avsAck := none, bus := none } }
  else match s.avsRails port sel with
    | r :: _ =>
      let v := f s r
      (({ v.2 with host := { v.2.host with bus := some (v.1 % 65536) } } : State)).avsAck 0
    | [] => s.avsAck 3

/-- Take an AVSBus write for every rail that the select reaches (R84, R86). -/
def State.avsWrite (s : State) (port : Avs) (sel : Nat) (f : State → Rail → State) : State :=
  match s.avsRails port sel with
  | [] => s.avsAck 3
  | l => (l.foldl f s).avsAck 0

/-- AVS_TARGET_VOLTAGE_WRITE: VREQ in mV, from 0.250 V to 3.300 V, at the next beat boundary (R79, R85, R86). -/
def execAvsTargetVoltageWrite (port : Avs) (sel v : Nat) (s : State) : Host.Outcome State Fault Refusal :=
  if v < 250 ∨ 3300 < v then .next (s.avsAck 3)
  else .next (s.avsWrite port sel fun s r => s.post 0 .beat (.avsVreq r v))

/-- AVS_TARGET_VOLTAGE_READ: VSET in force (R85). -/
def execAvsTargetVoltageRead (port : Avs) (sel : Nat) (s : State) : Host.Outcome State Fault Refusal :=
  .next (s.avsRead port sel fun s r => ((s.railAt r).vset, s))

/-- AVS_TRANSITION_RATE_WRITE: up rate in the high byte, down rate in the low byte; 0 clears that direction (R80, R85). -/
def execAvsTransitionRateWrite (port : Avs) (sel v : Nat) (s : State) : Host.Outcome State Fault Refusal :=
  .next (s.avsWrite port sel fun s r => s.post 0 .beat (.avsRate r (bits v 15 8) (bits v 7 0)))

/-- AVS_TRANSITION_RATE_READ: the rates in force (R85). -/
def execAvsTransitionRateRead (port : Avs) (sel : Nat) (s : State) : Host.Outcome State Fault Refusal :=
  .next (s.avsRead port sel fun s r => (fld (s.rateDn r) 8 0 + fld (s.rateUp r) 8 8, s))

/-- AVS_READ_RAIL_CURRENT: IOUT_F in 10 mA, saturating at 0xFFFF (R85); the spec says nothing of a negative current, which
reads 0 (DESIGN CHOICE, log entry 80). -/
def execAvsReadRailCurrent (port : Avs) (sel : Nat) (s : State) : Host.Outcome State Fault Refusal :=
  .next (s.avsRead port sel fun s r => ((clampI 0 65535 (Q.mul (s.railAct r).ioutF (Q.ofInt 10)).round).toNat, s))

/-- AVS_READ_TEMPERATURE: the hottest qualified stage temperature of the rail's ACTIVE phases in 0.1 °C (R85); with no such
temperature the spec states no value (log entry 4). -/
def execAvsReadTemperature (port : Avs) (sel : Nat) (s : State) : Host.Outcome State Fault Refusal :=
  .next (s.avsRead port sel fun s r =>
    match maxTemp ((s.activeOf r).filterMap fun p => (s.therm.src[p.val + 24]'(by omega)).tq) with
    | some q => (uword 16 (roundNear (5 * q) 2), s)
    | none => s.draw 65536)

/-- AVS_RESET_VOLTAGE: VREQ becomes the VBOOT in force at the command, as an accepted request (R85). -/
def execAvsResetVoltage (port : Avs) (sel : Nat) (s : State) : Host.Outcome State Fault Refusal :=
  .next (s.avsWrite port sel fun s r => s.post 0 .beat (.avsVreq r (RailCfg.vboot (s.rcfg r))))

/-- AVS_STATUS_READ: VDone in bit 15, while VSET_SLEW equals VSET, and the alert bits (R85, log entry 28). The spec names the
alert bits and no happening that sets one, so none does (DESIGN CHOICE, log entry 28). -/
def execAvsStatusRead (port : Avs) (sel : Nat) (s : State) : Host.Outcome State Fault Refusal :=
  .next (s.avsRead port sel fun s r =>
    let x := s.railAt r
    (fld (b2n (decide ((s.railAct r).slew = 4 * (x.vset : Int)))) 1 15 + fld x.alert 15 0, s))

/-- AVS_STATUS_WRITE: the alert bits written with 1 clear (R85). -/
def execAvsStatusWrite (port : Avs) (sel v : Nat) (s : State) : Host.Outcome State Fault Refusal :=
  .next (s.avsWrite port sel fun s r => s.modRail r fun x => { x with alert := x.alert &&& (0x7FFF - (v &&& 0x7FFF)) })

/-- AVS_VERSION_READ: 0 (R85). -/
def execAvsVersionRead (port : Avs) (sel : Nat) (s : State) : Host.Outcome State Fault Refusal :=
  .next (s.avsRead port sel fun s _ => (0, s))

/-- AVS_UNSUPPORTED: every other command is answered 0b11, with no action (R85). -/
def execAvsUnsupported (_port : Avs) (s : State) : Host.Outcome State Fault Refusal := .next (s.avsAck 3)

/-- AVS_CRC_ERROR: answered 0b10, with no action (R86). -/
def execAvsCrcError (_port : Avs) (s : State) : Host.Outcome State Fault Refusal := .next (s.avsAck 2)

/-- AVS_PORT_FAULT: a port clock fault is reported against the port; rails keep their last VREQ (R23, R87). -/
def execAvsPortFault (port : Avs) (s : State) : Host.Outcome State Fault Refusal := .next (s.postDev 0x1B port.val)

/-! ### Tickets -/

/-- The floors of a rail after a vote: 0 withdraws (R78). -/
def RailSt.vote (x : RailSt) (c mv : Nat) : List (Nat × Nat) :=
  let l := x.floors.filter fun f => f.1 != c
  if mv = 0 then l else l ++ [(c, mv)]

/-- The clients that hold a floor of a rail, or will with the votes that wait for their boundary (R78). -/
def State.floorClients (s : State) (r : Rail) : List Nat :=
  ((s.railAt r).floors.map Prod.fst ++ s.sched.filterMap fun x => match x.act with
    | .setFloor q c mv => if q = r ∧ mv ≠ 0 then some c else none
    | _ => none).eraseDups

/-- VOTE_FLOOR: at most 32 clients hold a floor; a floor above VHI is accepted and marked clamped (R78). -/
def execVoteFloor (t : Tkt) (s : State) : Host.Outcome State Fault Refusal :=
  let mv := t.le 16 2
  let full := match t.rail with
    | some r => mv != 0 && !(s.floorClients r).contains t.client && decide (32 ≤ (s.floorClients r).length)
    | none => false
  runTicket t 0x000 s { rng := [(16, decide (mv = 0 ∨ (250 ≤ mv ∧ mv ≤ 3300)))], post := [failIf full busy] } fun u =>
    match t.rail with
    | some r =>
      let l := (u.railAt r).vote t.client mv
      let top := (l.map Prod.snd).foldl max 0
      (u.post (t.nbBeat u) .beat (.setFloor r t.client mv)).ok t (b2n (decide (u.vhi r < mv))) (fld top 16 0 + fld l.length 8 16)
    | none => u.ok t

/-- SET_TARGET: the owner's VREQ; BUSY for a rail with AVS_EN = 1 (R76, R78). -/
def execSetTarget (t : Tkt) (s : State) : Host.Outcome State Fault Refusal :=
  let mv := t.le 16 2
  let avs := match t.rail with
    | some r => RailCfg.avsEn (s.rcfg r)
    | none => false
  runTicket t 0x010 s { rng := [(16, decide (250 ≤ mv ∧ mv ≤ 3300))], post := [failIf avs busy] } fun u =>
    match t.rail with
    | some r => (u.post (t.nbBeat u) .beat (.setVreq r mv)).ok t
    | none => u.ok t

/-- SET_ENVELOPE: DENIED beyond VMIN_OWN or VMAX_OWN, BAD_TARGET with VLO above VHI (R77). -/
def execSetEnvelope (t : Tkt) (s : State) : Host.Outcome State Fault Refusal :=
  let lo := t.le 16 2
  let hi := t.le 18 2
  let wide := match t.rail with
    | some r => decide (lo < RailCfg.vminOwn (s.rcfg r) ∨ RailCfg.vmaxOwn (s.rcfg r) < hi)
    | none => false
  runTicket t 0x020 s { den := [failIf wide (denied 3)], pre := [failIf (decide (hi < lo)) badTarget] } fun u =>
    match t.rail with
    | some r => (u.post (t.nbBeat u) .beat (.setEnv r lo hi)).ok t
    | none => u.ok t

end Sys2Proof.Machine
end

