-- ==== Sys2Proof/Machine/Lend.lean ====
section
/-! DEFINITION. Phase demand and light load (R106, R107), lending (R120 to R126), slot tables (R127, R128), region budgets
(R129), ganged rails (R131 to R142). -/

namespace Sys2Proof.Machine

/-! ### Slot tables -/

/-- ILV_OFS: the leader's record on a gang, under the overlay in force (R127, R140, R142). -/
def State.ilv (s : State) (r : Rail) : Nat :=
  if s.leads r then RailChain.ilvOfs (s.rchain r)
  else match s.members r with
    | m :: _ => Config.leaderIlv m.1 m.2 s.cfg.ovl % 256
    | [] => 0

/-- The offset of slot `j` of `n` from the start of a cycle (R127); on a gang slot `b + j` of N_gang (R140). -/
def State.slotOfs (s : State) (r : Rail) (j n : Nat) : Nat :=
  let q := s.qOf r
  let g := s.gang[r.val]
  let (i, m) := if s.ganged r then (g.myB + j, max 1 g.myNg) else (j, max 1 n)
  (Q.add (Q.divN (Q.mul q (Q.ofInt (s.ilv r : Int))) 256) (Q.divN (Q.mul q (Q.ofInt (i : Int))) m)).round.toNat

/-- The smaller shift, modulo Q, from one offset to another. -/
def State.shift (s : State) (r : Rail) (old new : Nat) : Int :=
  let q := (s.qOf r).round
  let d := ((new : Int) - old) % (max 1 q)
  if q < 2 * d then d - q else d

/-- Phases that have become ACTIVE or TEST since the last table take the slots after those of the existing phases, in
ascending number, and start at their slots; the existing phases keep their offsets (R105, R128). -/
def State.slotJoin (s : State) (r : Rail) : State :=
  let old := (s.railAt r).slots
  let new := (s.drivenOf r).filter fun p => !old.contains p.val
  if new = [] then s
  else
    let tab := old ++ new.map Fin.val
    let s := s.modRail r fun x => { x with slots := tab }
    new.foldl (fun s p => s.modPh p fun x => { x with ofs := s.slotOfs r (tab.idxOf p.val) tab.length, glide := 0 }) s

/-- Respace a rail at a frame boundary: kept phases keep their order and glide from where they are, joining ones follow
(R128). `extra` are phases on their way to the rail, which have a slot from the start of their move. -/
def State.respace (s : State) (r : Rail) (extra : List Ph) : State :=
  let on := s.drivenOf r
  let kept := (s.railAt r).slots.filter fun n => on.any fun p => p.val == n
  let new := (on ++ extra).filter fun p => !kept.contains p.val
  let tab := kept ++ (new.map Fin.val).mergeSort
  let s := s.modRail r fun x => { x with slots := tab, respace := false }
  (on ++ extra).foldl (fun s p =>
    let o := s.slotOfs r (tab.idxOf p.val) tab.length
    let q : Int := max 1 (s.qOf r).round
    s.modPh p fun x =>
      { x with ofs := o, glide := if kept.contains p.val then s.shift r (((x.ofs : Int) - x.glide) % q).toNat o else 0 }) s

/-- Phases in transit to a rail. -/
def State.coming (s : State) (r : Rail) : List Ph :=
  phases.filter fun p => match (s.phAt p).move with
    | some m => m.dst == r.val
    | none => false

/-- The respacing of a rail at a frame boundary, once no catch runs on it (R105, R128). -/
def State.respaceFrame (s : State) (r : Rail) : State :=
  if (s.railAt r).respace && (s.gangCatch r).1 == 0 then s.respace r (s.coming r) else s

/-! ### Phase demand -/

/-- N_dem of R106 alone, as a die with the current `i` sees it. -/
def State.demand106 (s : State) (r : Rail) (i : Q) : Nat :=
  let c := s.rcfg r
  if RailCfg.fixedN c then RailCfg.nmax c
  else clampN (RailCfg.nmin c) (RailCfg.nmax c)
    (-(Q.floor (Q.divN (Q.mul (Q.ofInt (-1)) i) (10 * RailCfg.iphTgt c)))).toNat

/-- IOUT_F of a die lies below (N_act − 1) × IPH_TGT − IPH_HYST (R106). -/
def State.shedOk (s : State) (d : Cd) (r : Rail) (nact : Nat) : Bool :=
  let c := s.rcfg r
  Q.lt (s.railDie d r).ioutF (Q.ofInt (10 * (((nact : Int) - 1) * RailCfg.iphTgt c - RailCfg.iphHyst c)))

/-- What R106 does with the phases of a rail on a die's own demand, current and view: phases added, or one shed (R106, R153, R156). -/
def State.demandStep (s : State) (d : Cd) (r : Rail) (add : State → Nat → State) (shed : State → Ph → State) : State :=
  let n := (s.railDie d r).ndem
  let on := s.drivenBy d r
  if (s.railDie d r).st ≠ .regulate then s
  else if on.length < n then add s (n - on.length)
  else if n < on.length && s.shedOk d r on.length && !s.fcHolds r s.time.clk && !RailCfg.fixedN (s.rcfg r) then
    match s.shedPick (on.filter fun p => s.phView d p == .active) with
    | some p => shed s p
    | none => s
  else s

/-- The phase demand of a rail that is not ganged, as a die computes it (R106, R153). -/
def State.demandDie (s : State) (d : Cd) (r : Rail) : State :=
  let i := (s.railDie d r).ioutF
  let n1 := s.demand106 r i
  let n := if RailCfg.fixedN (s.rcfg r) then n1 else s.fcDemand r i (RailCfg.nmax (s.rcfg r)) n1 s.time.clk
  s.modRailDie d r fun x => { x with nR106 := n1, ndem := n }

/-- The phase demand of a rail that is not ganged, at a frame boundary: both dies compute it and decide for themselves, and the active die's
decision moves the phases (R106, R153, R166). -/
def State.demandFrame (s : State) (r : Rail) : State :=
  if s.ganged r then s
  else
    let s := (s.demandDie .a r).demandDie .b r
    s.standbyDecides r (fun s d => s.demandStep d r (fun u n => u.viewAdd d r n) fun u p => u.setView d p .idle)
      fun s => s.demandStep s.act r (fun u n => u.addPhases r n) fun u p => u.toIdle p

/-- Light load at a frame boundary, on each die: entry after 4 evaluations below LLM_ENTER; a forecast that raises the demand
or holds the count ends it or keeps the rail out of it (R107, R153, R156). -/
def State.lightFrame (s : State) (r : Rail) : State :=
  let c := s.rcfg r
  let may := (s.railAt r).st == .regulate && RailCfg.llmEn c && !RailCfg.fixedN c
  let lim := Q.ofInt (10 * RailCfg.llmEnter c : Nat)
  let held := s.fcHolds r s.time.clk
  s.modRailDies r fun x =>
    let n := if may && Q.lt x.ioutF lim then min 4 (x.lightRun + 1) else 0
    { x with lightRun := n, light := if x.nR106 < x.ndem then false else x.light || (decide (4 ≤ n) && !held) }

/-! ### Lending -/

/-- A die proposes for a rail that holds a lending request (R121, R126). -/
def State.lendWants (s : State) (d : Cd) (r : Rail) : Bool :=
  let x := s.railAt r
  let fixedOk := !RailCfg.fixedN (s.rcfg r)
    || ((s.phasesOf r).any (fun p => (s.phAt p).st == .benched) && decide ((s.drivenBy d r).length < RailCfg.nmax (s.rcfg r)))
  s.railEn r && decide ((s.drivenBy d r).length < (s.railDie d r).nR106)
    && !((s.phasesOf r).any fun p => s.phView d p == .idle && !(s.phAt p).limHot)
    && x.st == .regulate && s.insideWarn r && !s.ganged r && !s.ovr.heldRails[r.val] && fixedOk

/-- The phase can serve a lending request of a rail, as a die sees it; its current must lie within ±2 A on both dies in
service (R122, R188). LEND_HOLD counts from the boundary at which the last move arrived (DESIGN CHOICE, log entry 92). -/
def State.lendServes (s : State) (d : Cd) (g : Nat) (r : Rail) (p : Ph) : Bool :=
  let x := s.phAt p
  let flex := PhPool.flex (s.pool p) && s.fitted p && (s.home p == r.val || PhPool.alt (s.pool p) == r.val)
  match x.asg.bind railOf with
  | none => false
  | some gv =>
    flex && gv != r && x.st == .idle && !x.limHot && !s.heldOut p && ((s.phDie .a p).quiet || s.dieOut .a)
      && ((s.phDie .b p).quiet || s.dieOut .b)
      && (match x.lastMove with
        | some b => decide (b + 4000 * RegionCfg.lendHold g ≤ s.time.clk)
        | none => true)
      && (s.railAt gv).st == .regulate && (s.railDie d gv).ctch.isNone && s.insideWarn gv
      && decide (max (RailCfg.nmin (s.rcfg gv)) (s.railDie d gv).ndem + 1 ≤ (s.usableOf gv).length)
      && !RailCfg.fixedN (s.rcfg gv) && !s.ganged gv && !s.ovr.heldRails[gv.val]

/-- A move starts at a frame boundary: the phase is in transit, both rails respace (Table 4.3). -/
def State.lendStart (s : State) (p : Ph) (src dst : Rail) : State :=
  let s := s.modPh p fun x =>
    { x with asg := none, move := some { src := src.val, dst := dst.val, atBeat := s.time.clk }, idleFull := false }
  let s := s.steer p false false
  (s.modRail src fun x => { x with respace := true }).modRail dst fun x => { x with respace := true }

/-- A request comes before another: by PRIO, then shortfall, then the lower rail number (R123). -/
def State.lendBefore (s : State) (d : Cd) (g : Nat) (a b : Rail) : Bool :=
  let pr := fun (r : Rail) => RegionCfg.prio g / 4 ^ r.val % 4
  let sh := fun (r : Rail) => (s.railDie d r).nR106 - (s.drivenBy d r).length
  decide (pr b < pr a ∨ (pr a = pr b ∧ (sh b < sh a ∨ (sh a = sh b ∧ a ≤ b))))

/-- Serve the requests of a region in order, at most LEND_MAX of them (R123): the moves, as phase, from and to. -/
def State.lendServe (s : State) (d : Cd) (g : Nat) : List Rail → Nat → List (Ph × Rail × Rail) → List (Ph × Rail × Rail)
  | [], _, done => done
  | r :: rs, left, done =>
    if left = 0 then done
    else match s.leastWorn (phases.filter (s.lendServes d g r)) with
      | some p => match (s.phAt p).asg.bind railOf with
        | some src => (s.lendStart p src r).lendServe d g rs (left - 1) (done ++ [(p, src, r)])
        | none => s.lendServe d g rs left done
      | none => s.lendServe d g rs left done

/-- The requests of a region as a die orders them (R121, R123). -/
def State.lendRequests (s : State) (d : Cd) (g : Nat) : List Rail :=
  (rails.filter fun r => bit (RegionCfg.rails g) r.val && s.lendWants d r).mergeSort (s.lendBefore d g)

/-- The moves that the frame engine of a die proposes for a region, in order (R121 to R123). -/
def State.lendMoves (s : State) (d : Cd) (g : Nat) : List (Ph × Rail × Rail) :=
  s.lendServe d g (s.lendRequests d g) (RegionCfg.lendMax g) []

/-- A move that one die alone proposed: counted and traced, not scheduled (R169, Table 16.6). -/
def State.lendOneSided (s : State) (d : Cd) (m : Ph × Rail × Rail) : State :=
  let s : State := { s with lend := { s.lend with oneSided := s.lend.oneSided + 1 } }
  (s.count (0x052 + d.ix.val) 3 1).trace 0x06 m.2.2.val m.1.val 0

/-- The lending decision of a region (R121 to R123): the moves that both dies propose, in the order of the active die's
proposals (R169); with one die in service its proposals alone decide (R188). -/
def State.lendRegion (s : State) (gi : Fin 6) : State :=
  let g := s.gcfg gi
  if s.cfg.inForce.isNone || !RegionCfg.lendEn g then s
  else
    let d := s.act
    let mine := s.lendMoves d g
    let theirs := if s.dieOut d.other then mine else s.lendMoves d.other g
    let both := mine.filter theirs.contains
    let req := s.lendRequests d g
    let s := (mine.filter fun m => !theirs.contains m).foldl (fun s m => s.lendOneSided d m) s
    let s := (theirs.filter fun m => !mine.contains m).foldl (fun s m => s.lendOneSided d.other m) s
    let s := both.foldl (fun s m => s.lendStart m.1 m.2.1 m.2.2) s
    (rails.filter fun r => bit (RegionCfg.rails g) r.val).foldl (fun s r =>
      if req.contains r && !both.any fun m => m.2.2 == r then
        let n := s.lend.waitN[r.val] + 1
        let say := decide (125 ≤ n) && !s.lend.waitSaid[r.val]
        let l := { s.lend with waitN := s.lend.waitN.set r.val (min n 125), waitSaid := s.lend.waitSaid.set r.val (decide (125 ≤ n)) }
        let s := { s with lend := l }
        if say then s.postRail 0x0C r else s
      else
        { s with lend := { s.lend with waitN := s.lend.waitN.set r.val 0, waitSaid := s.lend.waitSaid.set r.val false } }) s

/-- Lending of the frame; an overlay switch at this boundary discards the decisions of the last frame (R29). -/
def State.lendFrame (s : State) : State :=
  let off := s.lend.noLend
  let s : State := { s with lend := { s.lend with noLend := false, oneSided := 0 } }
  if off then s else (List.finRange 6).foldl State.lendRegion s

/-- REGION_CFG of the region that holds a phase, 0 for none. -/
def State.phRegCfg (s : State) (p : Ph) : Nat :=
  match s.phRegion p with
  | some g => s.gcfg g
  | none => 0

/-- LEND_STEER_ON: FLX_DT beats after the boundary of a move the steering output to the receiving rail is driven high (Table 4.3). -/
def execLendSteerOn (p : Ph) (s : State) : Host.Outcome State Fault Refusal :=
  match (s.phAt p).move with
  | none => .next s
  | some m =>
    if s.bnd < m.atBeat + RegionCfg.flxDt (s.phRegCfg p) then .next s
    else .next (s.steerTo p m.dst |>.modPh p fun x => { x with move := some { m with steered := true } })

/-- LEND_ARRIVE: FLX_DT + FLX_ON beats after the boundary the phase is assigned to the receiver and becomes ACTIVE at its
slot; the trace carries phase, from and to (Table 4.3). LEND_HOLD of R122 counts from here (log entry 92). A bench of the phase that
takes effect at this boundary cancels the move (Table 2.5). -/
def execLendArrive (p : Ph) (s : State) : Host.Outcome State Fault Refusal :=
  match (s.phAt p).move with
  | none => .next s
  | some m =>
    let g := s.phRegCfg p
    if s.bnd < m.atBeat + RegionCfg.flxDt g + RegionCfg.flxOn g ∨ m.steered = false ∨ s.benchDue p = true then .next s
    else .next (s.atBoundary fun s =>
      let s := s.modPh p fun x => { x with asg := some m.dst, move := none, lastMove := some s.time.clk }
      let s := match railOf m.dst with
        | some r => if (s.railAt r).st = RailState.off then s.modPh p fun x => { x with st := PhState.off }
            else (((s.blankAdd p).modPh p fun x => { x with st := .active, nextAt := none, idleFull := false })).trimZero p
        | none => s
      let s := (s.count 0x052 2 1).count 0x053 2 1
      s.trace 0x01 p.val m.src m.dst)

/-! ### Region budgets -/

/-- The budget of a region at a frame evaluation (R129). -/
def State.regionBudget (s : State) (g : Fin 6) : State :=
  let ib := RegionCfg.ibud (s.gcfg g)
  let sum := (rails.filter fun r => bit (RegionCfg.rails (s.gcfg g)) r.val).foldl (fun a r => Q.add a (s.railAct r).ioutF) {}
  let upR := fun (s : State) (f : RegionSt → RegionSt) => ({ s with region := upd s.region g f } : State)
  if ib = 0 ∨ s.cfg.inForce.isNone = true then upR s fun x => { x with budRun := 0, budRound := none }
  else if Q.le sum (Q.ofInt (10 * ib : Nat)) then upR s fun x => { x with budRun := 0, budRound := none }
  else
    let s := upR s fun x => { x with budRun := min 4 (x.budRun + 1) }
    let x := s.region[g.val]
    let now := roundOf s.time.clk
    if x.budRun < 4 ∨ x.budRound = some now then s
    else (upR s fun x => { x with budRound := some now }).postRegion 0x0D g.val (argI (Q.divN sum 10).round)

/-! ### Ganged rails -/

/-- The number of this device among the members of a gang (R381). -/
def State.myIx (s : State) (r : Rail) : Nat := ((s.members r).map Prod.fst).idxOf s.ring.num

/-- Member `d` of a gang: NMIN and NMAX, which this device's image holds for itself only (log entry 24). -/
def State.memberN (s : State) (r : Rail) (m : Nat × Nat) : Nat × Nat :=
  if m.1 = s.ring.num then (RailCfg.nmin (s.rcfg r), RailCfg.nmax (s.rcfg r))
  else (Config.memberNmin m.1 m.2 s.cfg.ovl, Config.memberNmax m.1 m.2 s.cfg.ovl)

/-- The member's own phase current sum in 0.5 A units, at its capture point (R135, Table 15.5). -/
def State.ownSum (s : State) (d : Cd) (r : Rail) : Int := (Q.divN (s.ownCurrent d r) 5).round

/-- The return packet of a beat (Table 15.5). -/
def State.returnPkt (s : State) (r : Rail) : Nat :=
  let w := fld s.time.clk 16 0 + fld (uword 16 (s.ownSum s.act r)) 16 16 + fld (s.railAt r).st.code 3 32
    + fld (b2n (s.catchOf r).isSome) 1 35 + fld (s.drivenOf r).length 5 36
  w + fld (gangCrc w) 7 57

/-- A member detaches: its gang phases go to mid and it stays benched (R138). The event carries the role it had. -/
def State.gangDetach (s : State) (r : Rail) : State :=
  let code := match (s.gang[r.val]).role with
    | .leader => 0
    | .deputy => 1
    | _ => 2
  if (s.gang[r.val]).role = .detached ∨ (s.gang[r.val]).role = .none then s
  else
    let s := (s.enterOff r).modGang r fun g =>
      { g with role := .detached, holdFrom := none, miss := 0, retMiss := 0, pend := none, noDep := g.noDep || decide (code ≤ 1) }
    ((s.postRail 0x0E r code).modRail r fun x => { x with benched := some 0 }).biasSense

/-- A rail on a follower or deputy takes a rail state from the command packets (R133, R216). -/
def State.gangFollow (s : State) (r : Rail) (code : Nat) : State :=
  if (s.railAt r).st.code = code then s
  else match code with
    | 0 => s.enterOff r
    | 1 => s.rampOn r
    | 2 =>
      let s := if (s.railAt r).st = .off ∨ (s.railAt r).st = .hiccup then s.rampOn r else s
      (s.modRail r fun x => { x with regFrom := s.time.clk }).setSt r .regulate
    | 3 => ((s.leaveRegulate r).modRail r fun x => { x with rampFrom := s.time.clk }).setSt r .rampDown
    | 4 => s.enterHiccup r 0 |>.modRail r fun x => { x with hiccupEnd := none }
    | _ => s

/-- Bring the ACTIVE phases of a member to its target (R136). -/
def State.gangTarget (s : State) (r : Rail) (tgt : Nat) : State :=
  let n := (s.drivenOf r).length
  if n < tgt then s.addPhases r (tgt - n)
  else (List.range (n - tgt)).foldl (fun s _ => match s.shedPick (s.activeOf r) with
    | some p => s.toIdle p
    | none => s) s

/-- A frame packet takes effect on this member: target, trim and slots (R136, R140, R381). -/
def State.gangApply (s : State) (r : Rail) (bytes : List Nat) : State :=
  let d := s.myIx r
  let le2 := fun i => bytes.getD i 0 + 256 * bytes.getD (i + 1) 0
  let s := s.modGang r fun g =>
    { g with myTgt := bytes.getD (2 + 6 * d) 0, myK := sint 16 (le2 (3 + 6 * d)), myB := bytes.getD (5 + 6 * d) 0, myNg := bytes.getD 1 0 }
  let s := if (s.railAt r).st = .regulate then s.gangTarget r (s.gang[r.val]).myTgt else s
  s.modRail r fun x => { x with respace := true }

/-- Hand out what is left, each member up to its limit, in order. -/
def gangFill (left : Nat) : List (Nat × Nat) → List Nat
  | [] => []
  | (b, hi) :: r =>
    let add := min left (hi - b)
    (b + add) :: gangFill (left - add) r

/-- Take back what exceeds the demand, down to each member's least, from the last member on. -/
def gangCut (excess : Nat) : List (Nat × Nat) → List Nat
  | [] => []
  | (b, lo) :: r =>
    let later := (r.map fun x => x.1 - x.2).sum
    let cut := min (b - lo) (excess - later)
    (b - cut) :: gangCut (excess - cut) r

/-- Divide a gang demand among the members in proportion to NMAX, each within NMIN to NMAX; what rounding down leaves goes to
the members in order, and what raising to NMIN adds is taken from the last ones (R136, log entry 30). -/
def gangDivide (d : Nat) (ms : List (Nat × Nat)) : List Nat :=
  let tot := max 1 (ms.map Prod.snd).sum
  let base := ms.map fun m => clampN m.1 m.2 (d * m.2 / tot)
  let up := gangFill (d - base.sum) (base.zip (ms.map Prod.snd))
  gangCut (up.sum - d) (up.zip (ms.map Prod.fst))

/-- The members that take part in a gang's frame: this device, and those whose latest sum is at most 2 beats old (R135); a lost
or detached one takes none of the demand. -/
def State.gangHere (s : State) (r : Rail) (d : Nat) : Bool :=
  d == s.myIx r || decide ((s.gang[r.val]).age.toArray.getD d 3 ≤ 2)

/-- The ACTIVE count of a member as the leader knows it (R135). -/
def State.gangAct (s : State) (r : Rail) (d : Nat) : Nat :=
  if d = s.myIx r then (s.drivenOf r).length else if s.gangHere r d then (s.gang[r.val]).nact.toArray.getD d 0 else 0

/-- NMIN and NMAX of a member for the division: 0 for one that takes no part (R136). -/
def State.gangLim (s : State) (r : Rail) (m : Nat × Nat) (d : Nat) : Nat × Nat := if s.gangHere r d then s.memberN r m else (0, 0)

/-- The limits of a member with what it has shown it can drive (R142, log entry 91). -/
def State.gangCap (s : State) (r : Rail) (l : Nat × Nat) (d : Nat) : Nat × Nat :=
  (l.1, max l.1 (min l.2 ((s.gang[r.val]).cap.toArray.getD d 24)))

/-- A member that stayed below its target through the frame has shown what it can drive, until it drives more (R142, log entry 91). -/
def State.gangCaps (s : State) (r : Rail) : State :=
  s.modGang r fun g =>
    { g with cap := Vector.ofFn fun (d : Fin 4) =>
               let n := s.gangAct r d.val
               if s.gangHere r d.val = true ∧ (n < g.nold[d.val] ∨ g.cap[d.val] < n) then n else g.cap[d.val] }

/-- The gang's phase demand as a die of the leader computes it, from the gang IOUT_F and the sums of NMIN and NMAX; a
forecast counts one frame ahead (R136, R153). -/
def State.gangDemand (s : State) (d : Cd) (r : Rail) (lim : List (Nat × Nat)) : Nat × Nat :=
  let i := (s.railDie d r).ioutF
  let hi := (lim.map Prod.snd).sum
  let n1 := if RailCfg.fixedN (s.rcfg r) then hi
    else clampN ((lim.map Prod.fst).sum) hi (-(Q.floor (Q.divN (Q.mul (Q.ofInt (-1)) i) (10 * RailCfg.iphTgt (s.rcfg r))))).toNat
  (n1, if RailCfg.fixedN (s.rcfg r) then n1 else s.fcDemand r i hi n1 (s.time.clk + 32))

/-- What the gang is to drive: its demand, or the phases that it drives where a falling forecast holds the count (R136, R156, log entry 93). -/
def State.gangCount (s : State) (r : Rail) (nact dem : Nat) : Nat := if s.fcHolds r (s.time.clk + 32) then max nact dem else dem

/-- Divide a demand within what the members can drive; what exceeds that is asked of them up to NMAX (R136, R142, log entry 91). -/
def gangParts (dem : Nat) (lim cap : List (Nat × Nat)) : List Nat :=
  let base := gangDivide (min dem (cap.map Prod.snd).sum) cap
  gangFill (dem - base.sum) (base.zip (lim.map Prod.snd))

/-- The gang's work of the leader at a frame boundary: demand, division, trims, slots, the next frame packet (R136, R140). -/
def State.gangTrim (s : State) (r : Rail) : State :=
  if !s.ganged r || !s.leads r then s
  else
    let s := if (s.gang[r.val]).fout = [] then s else s.gangApply r (s.gang[r.val]).fout
    let s := s.gangCaps r
    let g := s.gang[r.val]
    let ms := s.members r
    let ix := List.range ms.length
    let lim := ix.map fun d => s.gangLim r (ms.getD d (0, 0)) d
    let iOf := fun (d : Nat) => g.iframe.toArray.getD d 0
    let nact := (ix.map (s.gangAct r)).sum
    let isum := (ix.map iOf).sum
    let da := s.gangDemand .a r lim
    let db := s.gangDemand .b r lim
    let cap := ix.map fun d => s.gangCap r (lim.getD d (0, 0)) d
    let parts := gangParts (s.gangCount r nact (if s.act = .a then da.2 else db.2)) lim cap
    let drives := ix.map fun d => min (parts.getD d 0) (cap.getD d (0, 0)).2
    let kOf := fun (d : Nat) =>
      let share := Q.divN (Q.ofInt (isum * s.gangAct r d)) nact
      let k := g.k.toArray.getD d 0
      if share.num = 0 then k
      else clampI (-2048) 2048
        (k + (Q.div (Q.divN (Q.mul (Q.sub share (Q.ofInt (iOf d))) (Q.ofInt 32768)) (2 ^ RailChain.gtK (s.rchain r))) share).round)
    let bOf := fun (d : Nat) => ((List.range d).map fun i => drives.getD i 0).sum
    let ng := drives.sum
    let k4 := Vector.ofFn fun (d : Fin 4) => kOf d.val
    let n4 := Vector.ofFn fun (d : Fin 4) => parts.getD d.val 0
    let b4 := Vector.ofFn fun (d : Fin 4) => bOf d.val
    let body := [s.time.clk / 32 % 256, ng % 256]
      ++ ((List.range 4).map fun d => [parts.getD d 0 % 256] ++ leBytes 2 (uword 16 (k4.toArray.getD d 0))
        ++ [bOf d % 256] ++ [0, 0]).flatten ++ [0, 0, 0, 0]
    let pkt := body ++ leBytes 2 (crc16 body)
    let s := s.modRailDie .a r fun x => { x with nR106 := da.1, ndem := da.2 }
    let s := s.modRailDie .b r fun x => { x with nR106 := db.1, ndem := db.2 }
    s.modGang r fun g =>
      { g with k := k4, nold := g.ntgt, ntgt := n4, b := b4, ngang := ng, fout := pkt, iframe := Vector.replicate 4 0 }

/-- Report a gang without a deputy once per round, and a member whose grid has lost alignment (R138, R141). -/
def State.gangReport (s : State) (r : Rail) : State :=
  let g := s.gang[r.val]
  let now := roundOf s.time.clk
  if s.ganged r && g.role == .leader && g.noDep && g.noDepRound != some now then
    (s.modGang r fun g => { g with noDepRound := some now }).postRail 0x0F r
  else s

/-- A frame packet is discarded and counted (R381). -/
def State.gangGap (s : State) (r : Rail) : State :=
  let s := s.modGang r fun g => { g with fpart := [], fbad := false }
  { s with ring := { s.ring with gap := satAdd 8 s.ring.gap 1 } }

/-- The frame packet's byte of a latched command joins its frame. The whole packet takes effect in the beat that starts at F + 32, in which
its last byte is latched, and the slots glide from there (R136, R140, R381, log entry 91). -/
def State.gangPart (s : State) (r : Rail) (pkt : Nat) : State :=
  let b := bits pkt 15 0 % 32
  let s := s.modGang r fun g =>
    { g with fpart := (if b = 0 then [] else g.fpart) ++ [bits pkt 56 49], fbad := if b = 0 then false else g.fbad }
  let g := s.gang[r.val]
  if b ≠ 31 then s
  else if g.fbad = false ∧ g.fpart.length = 32 ∧ crc16 (g.fpart.take 30) = g.fpart.getD 30 0 + 256 * g.fpart.getD 31 0 then
    (s.gangApply r g.fpart).respaceFrame r
  else s.gangGap r

/-- The command packet latched in the last beat takes effect at this boundary: the rail state, the catch and the phases it
adds (R25, R64, R133, R134). -/
def State.gangTake (s : State) (r : Rail) : State :=
  let s := s.modGang r fun g => { g with cfresh := false }
  match (s.gang[r.val]).pend with
  | none => s
  | some pkt =>
    let c := bits pkt 44 43
    let new := decide (c = 1 ∧ (s.gang[r.val]).ctch ≠ 1)
    let s := s.modGang r fun g => { g with pend := none, rst := bits pkt 42 40, ctch := c, cnadd := bits pkt 48 45, cfresh := new }
    let s := s.gangFollow r (bits pkt 42 40)
    if new then s.addPhases r (min (bits pkt 48 45) (RailCfg.nmax (s.rcfg r) - (s.drivenOf r).length)) else s

/-- The gang's work of a member at a beat boundary, before the schedule: the command latched in the last beat, whether the last
beat's packets arrived, the ages of the other members' sums, and the sums of the frame (R135, R136, R137). -/
def State.gangBeat (s : State) (r : Rail) : State :=
  if !s.ganged r then s
  else
    let s := s.gangTake r
    let g := s.gang[r.val]
    let me := s.myIx r
    let own := s.ownSum s.act r
    let f := fun (g : GangSt) =>
      { g with iframe := Vector.ofFn fun (i : Fin 4) => g.iframe[i.val] + (if i.val = me then own else if 2 < g.age[i.val] then 0 else g.isum[i.val])
               age := g.age.map fun n => min 3 (n + 1)
               got := false, gotRet := false }
    let s : State := match g.role with
      | .leader => s.modGang r fun g => { g with retMiss := if g.gotRet then 0 else min 255 (g.retMiss + 1) }
      | .deputy => s.modGang r fun g => { g with miss := if g.got then 0 else min 255 (g.miss + 1), fbad := g.fbad || !g.got }
      | .follower => s.modGang r fun g =>
          { g with miss := if g.got then 0 else min 255 (g.miss + 1), fbad := g.fbad || !g.got,
                   holdFrom := if g.got then none else some (g.holdFrom.getD (s.time.clk - 1)) }
      | _ => s
    let s : State := if (g.role = .deputy ∨ g.role = .follower) ∧ g.got = false then
        let s : State := s.count (0x050 + s.act.ix.val) 6 1
        if s.time.clk % 32 = 1 then s.gangGap r else s
      else s
    s.modGang r f

/-- The packets a member sends in a beat: every member its return, the leader the command as well (R133, R135); the leader of a gang without a
deputy sends no return (R137). A detached member sends none. -/
def State.gangSend (s : State) (r : Rail) (u : Int) : State :=
  if !s.ganged r then s
  else match (s.gang[r.val]).role with
    | .leader =>
      let s := s.modGang r fun g => { g with cmdOut := s.commandPkt r u, retOut := if g.noDep then g.retOut else s.returnPkt r, u := u }
      s.count (0x050 + s.act.ix.val) 4 (if (s.gang[r.val]).noDep then 1 else 2)
    | .deputy => (s.modGang r fun g => { g with retOut := s.returnPkt r }).count (0x050 + s.act.ix.val) 4 1
    | .follower => (s.modGang r fun g => { g with retOut := s.returnPkt r }).count (0x050 + s.act.ix.val) 4 1
    | _ => s

/-- The device of a gang's member is benched (R393). -/
def State.memberBenched (s : State) (r : Rail) (m : GMem) : Bool :=
  match (s.members r)[m.val]? with
  | some d => (s.devAt d.1).benched
  | none => false

/-- The entry of RING_CFG by which a gang packet arrives: valid for the rail and the kind of its stream, on a link that is UP; 0 for none
(Table 15.3, R379). -/
def State.gangEntry (s : State) (r : Rail) (ret : Bool) (x : GangRx) : Nat :=
  let e := ringEntry s.rgcfg x.via true x.slot.val
  if (s.linkAt x.via).st = .up ∧ bit e 7 = true ∧ bits e 3 0 = r.val ∧ bit e 4 = ret then e else 0

/-- A gang packet is passed on in the same slot of the other port's transmit lane, where its entry says so (R379). -/
def State.gangPass (s : State) (e : Nat) (x : GangRx) : State :=
  if bit e 6 then s.modLink x.via.other fun l => { l with pass := l.pass.set x.slot.val (some x.pkt) } else s

/-- The packet that a port sends in a gang slot: of a stream that this device's transmit entry names, the command of a leader or the return of a
member, else one that it passes on; none for K23.7. A deputy sends no command until it leads (R373, R379). -/
def State.gangSlot (s : State) (p : Side) (k : Fin 3) : Option Nat :=
  let e := ringEntry s.rgcfg p false k.val
  if bit e 7 then
    match railOf (bits e 3 0) with
    | none => none
    | some r =>
      let g := s.gang[r.val]
      if bit e 4 then (if g.role = .deputy ∨ g.role = .follower ∨ (g.role = .leader ∧ g.noDep = false) then some g.retOut else none)
      else if g.role = .leader then some g.cmdOut else none
  else (s.linkAt p).pass[k.val]

/-- The high interval that a gang's member makes of a latched u, for each die and cycle length; none during a
catch-OV (R134). -/
def State.gangHi (s : State) (r : Rail) (p : Ph) (u : Int) (d : Cd) (len : Nat) : Nat :=
  if (s.gangCatch r).1 = 2 then 0 else s.hiOf d r p u (s.gang[r.val]).myK len

/-- GANG_COMMAND_RECEIVE: a follower or deputy latches a command packet at CTL cycle 40 (R133). A packet whose CRC fails or
whose beat is not the expected one is missed (R380). The latched u enters this beat's edge scheduling (R134); the deputy
overwrites its u history with it (R137). Its byte of the frame packet is taken in, and a phase that a whole frame packet makes ACTIVE is
scheduled with the others. The rail state and the catch take effect at the next beat boundary (R25, R64).
`m` is the member whose command stream the slot carries; RING_CFG says whether the packet is delivered here and whether it is passed on (R379);
a benched device's packets are ignored (R393). -/
def execGangCommandReceive (r : Rail) (m : GMem) (x : GangRx) (s : State) : Host.Outcome State Fault Refusal :=
  let e := s.gangEntry r false x
  let pkt := x.pkt
  let s := s.gangPass e x
  let g := s.gang[r.val]
  let good := bits pkt 63 57 == gangCrc pkt && (bits pkt 15 0 + 1) % 65536 == s.time.clk % 65536
  if bit e 5 = false ∨ s.ganged r = false ∨ (g.role ≠ .deputy ∧ g.role ≠ .follower) ∨ good = false ∨ s.memberBenched r m = true then .next s
  else
    let u := sint 24 (bits pkt 39 16)
    let s := s.modGang r fun g => { g with u := u, pend := some pkt, got := true, holdFrom := none }
    let s := s.count (0x050 + s.act.ix.val) 5 1
    let s := if g.role = .deputy then s.modRailDies r fun x => { x with u0 := u } else s
    let was := s.drivenOf r
    let s := s.gangPart r pkt
    let uv := (s.gangCatch r).1 == 1
    .next ((s.drivenOf r).foldl (fun s p =>
      if s.catchDriven p uv then s
      else if was.contains p then s.rewrite (s.gangHi r p u) p
      else s.schedule r (s.gangHi r p u) uv p) s)

/-- GANG_RETURN_RECEIVE: the leader or deputy receives a member's return packet, at most 2 beats old (R135, R380). A return
of a member wired to the sense pair shows that the gang has a deputy again (R138). RING_CFG delivers it and passes it on (R379). -/
def execGangReturnReceive (r : Rail) (m : GMem) (x : GangRx) (s : State) : Host.Outcome State Fault Refusal :=
  let e := s.gangEntry r true x
  let pkt := x.pkt
  let s := s.gangPass e x
  let g := s.gang[r.val]
  let age := (s.time.clk % 65536 + 65536 - bits pkt 15 0) % 65536
  let good := bits pkt 63 57 == gangCrc pkt && decide (age ≤ 2)
  if bit e 5 = false ∨ s.ganged r = false ∨ (g.role ≠ .leader ∧ g.role ≠ .deputy) ∨ good = false ∨ m.val = s.myIx r
      ∨ RailChain.size (s.rchain r) ≤ m.val ∨ s.memberBenched r m = true then .next s
  else
    let wired := decide (m.val ≤ 1)
    .next (s.modGang r fun g =>
      { g with isum := g.isum.set m.val (sint 16 (bits pkt 31 16)), nact := g.nact.set m.val (bits pkt 40 36), age := g.age.set m.val age,
               gotRet := g.gotRet || (g.role == .leader && wired), noDep := g.noDep && !(g.role == .leader && wired) })

/-- Consecutive misses of command packets by the end of this beat. -/
def GangSt.misses (g : GangSt) : Nat := if g.got then 0 else g.miss + 1
/-- Consecutive misses of return packets by the end of this beat. -/
def GangSt.retMisses (g : GangSt) : Nat := if g.gotRet then 0 else g.retMiss + 1

/-- GANG_COMMAND_MISS: after MISS_N consecutive misses the deputy becomes leader at the next beat boundary, with the forecasts
copied to it and the remote-sense bias on its active die; the leader that missed the deputy's returns detaches, a follower
goes on holding (R137, R138, Table 5.6). -/
def execGangCommandMiss (r : Rail) (s : State) : Host.Outcome State Fault Refusal :=
  let g := s.gang[r.val]
  let n := RailChain.missN (s.rchain r)
  if s.ganged r = false then .next s
  else match g.role with
    | .deputy =>
      if g.misses < n then .next s
      else .next (s.atBoundary fun s =>
        ((s.modGang r fun g => { g with role := .leader, noDep := true, miss := 0, retMiss := 0, gotRet := true, got := true }).fcTakeover r).biasSense)
    | .leader => if g.noDep ∨ g.retMisses < n then .next s else .next (s.atBoundary fun s => s.gangDetach r)
    | .follower =>
      if g.misses < n then .next s
      else .next (s.modGang r fun g => { g with holdFrom := some (g.holdFrom.getD s.time.clk) })
    | _ => .next s

/-- GANG_HOLD_EXPIRY: a follower that has held for HOLD beats drives its gang phases to mid and detaches (R137). -/
def execGangHoldExpiry (r : Rail) (s : State) : Host.Outcome State Fault Refusal :=
  let g := s.gang[r.val]
  match g.role, g.holdFrom with
  | .follower, some b =>
    if s.bnd < b + RailChain.hold (s.rchain r) ∨ g.got = true then .next s else .next (s.atBoundary fun s => s.gangDetach r)
  | _, _ => .next s

/-- The configured roles of RAIL_CHAIN apply (R138: at the load of a base image); a member that stays benched stays detached until it is
readmitted (R17, log entry 91). -/
def State.gangRoles (s : State) : State :=
  rails.foldl (fun s r =>
    s.modGang r fun g =>
      { g with role := if !s.ganged r || !s.railEn r then .none
                       else if g.role == .detached && s.railBenched r then .detached
                       else match RailChain.role (s.rchain r) with
                         | 0 => .leader
                         | 1 => .deputy
                         | _ => .follower
               noDep := false, miss := 0, retMiss := 0, got := true, gotRet := true, holdFrom := none, fout := []
               cap := Vector.replicate 4 24 }) s

/-- READMIT of a gang member: BAD_TARGET for one that has not detached, BUSY while its self-test runs or the device is benched (R138, R349). -/
def execReadmitGangMember (t : Tkt) (s : State) : Host.Outcome State Fault Refusal :=
  let bad := match t.rail with
    | some r => (s.gang[r.val]).role != .detached
    | none => false
  let run := match t.rail with
    | some r => (s.gang[r.val]).readmit.isSome
    | none => false
  runTicket t 0x524 s
    { rng := [(17, t.byte 17 = 0)], pre := [failIf bad badTarget], post := [failIf s.ring.benchedMe busyBenched, failIf run busy], free := true } fun u =>
    match t.rail with
    | some r => (u.queued t).post (t.nbBeat u) .frame (.readmitGang r t.ref)
    | none => u.ok t

/-- GANG_MEMBER_SELFTEST_END: on a pass the member rejoins: a member wired to the sense pair as deputy when the gang has
none, else as follower; never as leader (R138). -/
def execGangMemberSelftestEnd (r : Rail) (pass : Bool) (s : State) : Host.Outcome State Fault Refusal :=
  let g := s.gang[r.val]
  match g.readmit with
  | none => .next s
  | some ref =>
    if pass then
      let wired := decide (RailChain.role (s.rchain r) ≤ 1)
      let role := if wired && g.noDep then GangRole.deputy else GangRole.follower
      let s := s.modGang r fun g =>
        { g with role := role, readmit := none, noDep := false, miss := 0, retMiss := 0, got := true, holdFrom := none }
      let s := s.modRail r fun x => { x with benched := none }
      .next ((s.postRail 0x08 r 4 0x00).final ref 0x00)
    else
      let s := s.modGang r fun g => { g with readmit := none }
      .next ((s.postRail 0x08 r 4 0x3F).final ref 0x3F 0x0003)

end Sys2Proof.Machine
end

