-- ==== Sys2Proof/Machine/Meter.lean ====
section
/-! DEFINITION. The meter: converters, channels and triggers (R294 to R297), sequences and their frame step (R298 to R302),
priority, urgent passes and the queue (R305 to R307), and the meter's tickets (Table 11.7). Instants within a beat are
settled at the next beat boundary (log entry 32). -/

namespace Sys2Proof.Machine

/-! ### Channels and codes -/

/-- The converters in order. -/
def convs : List Conv := [.a, .b, .p]

/-- A converter. -/
def State.convAt (s : State) (c : Conv) : ConvSt := s.conv[c.ix.val]

/-- The sequences. -/
def mseqs : List (Fin 32) := List.finRange 32

/-- A channel whose code is two's complement (Table 11.1). -/
def chSigned (ch : Nat) : Bool := ch == 34 || ch == 35 || ch == 38

/-- A code at an end of its range (R295). -/
def codeSat (ch : Nat) (code : Int) : Bool :=
  if chSigned ch then code ≤ -8192 || 8191 ≤ code else code ≤ 0 || 16383 ≤ code

/-- The 14-bit code of a channel for a converter's value (R294, R295). -/
def convCode (ch : Nat) (v : Int) : Int := if chSigned ch then clampI (-8192) 8191 v else clampI 0 16383 v

/-- CVP reaches the channel for a decision or a pair: an AIN channel or a reference (R301). -/
def cvpReach (ch : Nat) : Bool := decide (ch < 32 ∨ (120 ≤ ch ∧ ch ≤ 122))

/-- The channels that a converter has (Table 11.1); channel 61 serves only the vote. -/
def chOf (c : Conv) (ch : Nat) : Bool :=
  decide (ch < 32 ∨ (112 ≤ ch ∧ ch ≤ 123)) ||
    (match c with
    | .p => decide (32 ≤ ch ∧ ch ≤ 60)
    | _ => decide (64 ≤ ch ∧ ch ≤ 111))

/-- The converters that a sequence names. -/
def State.seqConvs (s : State) (k : Fin 32) : List Conv :=
  convs.filter fun c => bit (MeterSeqCfg.conv (s.mcfg k)) c.ix.val

/-- A converter's control die is out of service (R302). -/
def State.convOut (s : State) : Conv → Bool
  | .a => s.dieOut .a
  | .b => s.dieOut .b
  | .p => false

/-- One of the control dies is out of service, so SAFETY entries go without their pair (R302). -/
def State.unpairedNow (s : State) : Bool := s.dieOut .a || s.dieOut .b

/-- The converters on which a pass under a sequence's record runs: a SAFETY pass leaves out the benched die's (R302). -/
def State.recConvs (s : State) (w : Nat) : List Conv :=
  let l := convs.filter fun c => bit (MeterSeqCfg.conv w) c.ix.val
  if MeterSeqCfg.cls w = 1 then l.filter fun c => !s.convOut c else l

/-- The converters on which a new pass of a sequence runs. -/
def State.passConvs (s : State) (k : Fin 32) : List Conv := s.recConvs (s.mcfg k)

/-- The converter of the active die. -/
def State.actConv (s : State) : Conv :=
  match s.act with
  | .a => .a
  | .b => .b

/-! ### Passes -/

/-- The record of a pass's next entry: of its sequence as it stood at the trigger (R308), or of a queued single conversion at the
shortest sampling. -/
def passEnt (p : Pass) : Nat :=
  match p.seq with
  | some _ => MeterSeqCfg.ent p.cfg p.ent
  | none => p.single + 0x7F00

/-- The channel that a pass converts next. -/
def passCh (p : Pass) : Nat := MeterEnt.ch (passEnt p)

/-- A conversion in ADC cycles: the sampling time, and 36 for each sample-and-hold input (R294). -/
def entCycles (e : Nat) : Nat := 4 * (MeterEnt.st e + 1) + 36 + (if MeterEnt.ch2 e = 0x7F then 0 else 36)

/-- The thermal periods of a frame, of 500 ns each (R305). -/
def thermPeriods : Conv → Nat
  | .p => 4
  | _ => 8

/-- The present beat in ADC cycles of 12.5 ns, 20 to the beat (R294). -/
def State.adcNow (s : State) : Nat := 20 * s.time.clk

/-- A conversion of some ADC cycles that starts at an ADC cycle ends before the instant of every urgent pass that has reserved the converter
(R306). -/
def ConvSt.clears (x : ConvSt) (now n : Nat) : Bool := x.urg.all fun u => decide (now + n ≤ u.inst)

/-- A queued pass may start on a converter: its sampling instant has come, no thermal period and no vote holds the converter, and it ends
before the instant of every urgent pass that has reserved the converter (R305, R306). -/
def State.mayStart (s : State) (c : Conv) (p : Pass) : Bool :=
  let x := s.convAt c
  x.run.isNone && decide (p.inst ≤ s.adcNow) && decide (x.thermLeft = 0 ∧ x.heldUntil ≤ s.adcNow)
    && x.clears s.adcNow (entCycles (passEnt p))

/-- The oldest queued pass of a converter whose sampling instant has come (R305). -/
def State.convNext (s : State) (c : Conv) : Option Pass := (s.convAt c).queue.find? fun p => decide (p.inst ≤ s.adcNow)

/-- The converters that start an entry together with converter `c` (R301, R304): those the pass names, or `c` alone for a
queued single conversion and for an entry that runs again after a vote abort. -/
def partners (c : Conv) (p : Pass) : List Conv :=
  match p.seq with
  | some _ => if p.again then [c] else p.on
  | none => [c]

/-- Start the oldest queued pass of a converter, on all its converters at once, when every one of them can (R304). -/
def State.convStart (s : State) (c : Conv) : State :=
  match s.convNext c with
  | none => s
  | some p =>
    let l := partners c p
    let same := fun (q : Pass) => q.seq == p.seq && q.id == p.id && q.ent == p.ent && q.single == p.single
    let ok := fun (d : Conv) => (s.convNext d).any fun q => same q && s.mayStart d q
    if l.all ok then
      l.foldl (fun s d => match s.convNext d with
        | some q => s.modConv d fun x => { x with run := some { q with again := false }, queue := x.queue.erase q }
        | none => s) s
    else s

/-- Start what can start on each converter. -/
def State.convStarts (s : State) : State := convs.foldl State.convStart s

/-- A converter is busy: it converts, its thermal periods or a vote hold it, or a pass waits for it (R306). -/
def State.convBusy (s : State) (c : Conv) : Bool :=
  let x := s.convAt c
  x.run.isSome || decide (0 < x.thermLeft ∨ s.adcNow < x.heldUntil) || (s.convNext c).isSome

/-- A pass whose trigger finds the converter busy finds its 4 places taken (R306). -/
def State.queueFull (s : State) (c : Conv) : Bool :=
  s.convBusy c && decide (4 ≤ countP (fun (q : Pass) => q.ent == 0 && q.inQ) (s.convAt c).queue)

/-- A drop at a full queue, counted on a converter (R306). -/
def State.countDropQ (s : State) (c : Conv) : State :=
  (s.modConv c fun x => { x with dropQ := satAdd 16 x.dropQ 1 }).count (0x058 + c.ix.val) 2 1

/-- Put a pass into a converter's queue: one whose trigger finds the converter busy takes one of 4 places (R306). -/
def State.toQueue (s : State) (c : Conv) (p : Pass) : State :=
  let busy := s.convBusy c
  s.modConv c fun x => { x with queue := x.queue ++ [{ p with inQ := busy }] }

/-- A single conversion takes its place in a queue, or is dropped when all are taken (R301, R302, R306). -/
def State.enqueue (s : State) (c : Conv) (p : Pass) : State := if s.queueFull c then s.countDropQ c else s.toQueue c p

/-- A new pass of a sequence, triggered now. The sampling instant is the first ADC edge DELAY CTL cycles of 5 ns or more after the trigger
(R297). -/
def State.newPass (s : State) (k : Fin 32) (id : Nat) : Pass :=
  let cfg := s.mcfg k
  { seq := some k.val, inst := s.adcNow + ceilDiv (2 * MeterSeqCfg.delay cfg) 5, urgent := MeterSeqCfg.urg cfg, cfg := cfg, on := s.passConvs k, id := id }

/-- A pass is dropped as a whole: it leaves every converter that holds it, and one whose trigger is still to come on a converter is lost there too
(R306). -/
def State.losePass (s : State) (k : Fin 32) (p : Pass) : State :=
  let mine := fun (q : Pass) => q.seq == some k.val && q.id == p.id
  let s : State := { s with conv := s.conv.map fun x => { x with queue := x.queue.filter fun q => !mine q, urg := x.urg.filter fun q => !mine q } }
  s.modMseq k fun q => if p.on.any fun c => decide (q.trigN[c.ix.val] < p.id) then { q with lost := q.lost ++ [p.id] } else q

/-- A pass that finds a queue full is dropped on every converter it names, and DROP_Q counts it (R306). -/
def State.dropQueued (s : State) (k : Fin 32) (p : Pass) : State :=
  (p.on.foldl State.countDropQ (s.losePass k p)).modMseq k fun q => { q with dropQ := satAdd 16 q.dropQ 1 }

/-- A pass goes to a converter: an urgent one reserves it, another waits in its queue (R306). -/
def State.toConv (s : State) (p : Pass) (c : Conv) : State :=
  if p.urgent then s.modConv c fun x => { x with urg := x.urg ++ [p] } else s.toQueue c p

/-- The number of the pass that the next trigger on a converter starts, or joins when another converter of the sequence has had its trigger. One
whose die was out for passes joins the latest (R302). -/
def State.passNum (s : State) (k : Fin 32) (c : Conv) : Nat :=
  let n := (s.mseq[k.val]).trigN
  let m := ((s.passConvs k).map fun d => n[d.ix.val]).foldl max 0
  if n[c.ix.val] + 2 ≤ m then m else n[c.ix.val] + 1

/-- A trigger of a sequence on one converter, from the edge of the lane as that converter sees it (R297, R306). -/
def State.trigger (s : State) (k : Fin 32) (c : Conv) : State :=
  let id := s.passNum k c
  let p := s.newPass k id
  let gone := (s.mseq[k.val]).lost.contains id
  let last := fun (q : MeterSeq) => p.on.all fun d => d == c || decide (id ≤ q.trigN[d.ix.val])
  let s := s.modMseq k fun q => { q with trigN := q.trigN.set c.ix.val id, lost := if last q then q.lost.erase id else q.lost }
  if gone then s else if !p.urgent && s.queueFull c then s.dropQueued k p else s.toConv p c

/-- A trigger of a sequence on all its converters at once (R297, R306). -/
def State.triggerAll (s : State) (k : Fin 32) : State :=
  let l := s.passConvs k
  let id := (l.map fun d => (s.mseq[k.val]).trigN[d.ix.val]).foldl max 0 + 1
  let p := s.newPass k id
  let s := s.modMseq k fun q => { q with trigN := l.foldl (fun (v : Vector Nat 3) c => v.set c.ix.val id) q.trigN }
  if !p.urgent && l.any s.queueFull then s.dropQueued k p else l.foldl (fun (s : State) c => s.toConv p c) s

/-- A sequence takes triggers: it runs, and no METER_STOP waits for its last pass (R308). -/
def MeterSeq.takes (q : MeterSeq) : Bool := q.active && !q.stopPend

/-- An urgent pass is dropped on a converter (R306). -/
def State.dropUrgent (s : State) (c : Conv) : State :=
  (s.modConv c fun x => { x with dropUrg := satAdd 16 x.dropUrg 1 }).count (0x058 + c.ix.val) 1 1

/-- An urgent pass of a sequence whose sampling instant has come by the ADC cycle `t` runs, or is dropped on every converter it names when one of
them is converting, for a pass, a thermal period or a vote (R306). -/
def State.settleUrgent (s : State) (t : Nat) (k : Fin 32) : State :=
  let mine := fun (p : Pass) => p.seq == some k.val && decide (p.inst ≤ t)
  let l := convs.filter fun c => (s.convAt c).urg.any mine
  let busy := l.any fun c => (s.convAt c).run.isSome || decide (t < (s.convAt c).heldUntil)
  match ((l.flatMap fun c => (s.convAt c).urg).find? mine) with
  | none => s
  | some p =>
    if busy then
      (p.on.foldl State.dropUrgent (s.losePass k p)).modMseq k fun q => { q with dropU := satAdd 16 q.dropU 1 }
    else l.foldl (fun s c => s.modConv c fun x => { x with urg := x.urg.filter fun p => !mine p, run := x.urg.find? mine }) s

/-- The ADC cycles of the last beat at which an urgent pass has its sampling instant, in order, and the beat's last cycle. -/
def State.urgCycles (s : State) : List Nat :=
  let l := convs.flatMap fun c => (s.convAt c).urg.map Pass.inst
  (((List.range 19).map fun j => s.adcNow - 20 + j).filter fun t => l.contains t) ++ [s.adcNow - 1]

/-- The urgent passes whose instant came in the last beat are settled in the order of their instants, lower sequence numbers first at
one instant (R306). -/
def State.settleAll (s : State) : State := s.urgCycles.foldl (fun s t => mseqs.foldl (fun s k => s.settleUrgent t k) s) s

/-- The pair of codes of a SAFETY entry that the step compares, once both have been converted: those of CVA and CVB, or, while a
control die is benched, that of the active die's converter and that of CVP (R301, R302). -/
def State.pairUp (s : State) (k : Fin 32) (i : Fin 16) : State :=
  let v := (s.mseq[k.val]).res[i.val]
  let x := if s.unpairedNow then s.actConv.ix else 0
  let y : Fin 3 := if s.unpairedNow then 2 else 1
  match v[x.val].last, v[y.val].last with
  | some a, some b => s.modMseq k fun q =>
      { q with pairs := q.pairs ++ [(i.val, a, b)],
               res := upd q.res i fun v => upd (upd v x fun x => { x with last := none }) y fun x => { x with last := none } }
  | _, _ => s

/-- What a converter has measured of an entry, under the sequence's record `cfg`, is added to the frame (R299). -/
def State.addCode (s : State) (k : Fin 32) (cfg : Nat) (c : Conv) (e : Nat) (code code2 : Int) (nonsim : Bool) : State :=
  if h : e < 16 then
    let i : Fin 16 := ⟨e, h⟩
    let w := MeterSeqCfg.ent cfg e
    let sat := codeSat (MeterEnt.ch w) code || (MeterEnt.ch2 w != 0x7F && codeSat (MeterEnt.ch2 w) code2)
    let s := s.modMseq k fun q =>
      { q with res := upd q.res i fun v => upd v c.ix fun x =>
          { x with acc := x.acc + code, accN := x.accN + 1, acc2 := x.acc2 + code2, accP := x.accP + code * code2,
                   accSat := x.accSat || sat, accNs := x.accNs || nonsim, last := some code } }
    if MeterSeqCfg.cls cfg = 1 then s.pairUp k i else s
  else s

/-- CVP has converted the channel of an entry once: it decides which code of an implausible pair is wrong, or acts as the
pair of the only converter in service (R301, R302). -/
def State.cvpSingle (s : State) (p : Pass) (code : Int) : State :=
  if h : p.forSeq < 32 ∧ p.forEnt < 16 then
    let k : Fin 32 := ⟨p.forSeq, h.1⟩
    let i : Fin 16 := ⟨p.forEnt, h.2⟩
    let tol := MeterSeqCfg.tol (s.mcfg k)
    if p.pair then
      if s.unpairedNow then
        (s.modMseq k fun q => { q with res := upd q.res i fun v => upd v 2 fun x => { x with last := some code } }).pairUp k i
      else s
    else
      let ab := (s.mseq[k.val]).plCode[i.val]
      let badA := decide (tol < (ab.1 - code).natAbs)
      let badB := decide (tol < (ab.2 - code).natAbs)
      let name : Option Nat := if badA && !badB then some (if s.unpairedNow then s.actConv.ix.val else 0)
        else if badB && !badA && !s.unpairedNow then some 1 else none
      let s := s.modMseq k fun q => { q with named := q.named.set i.val name }
      match name with
      | some d => s.postDie 0x60 d (p.forSeq + 256 * p.forEnt) (argI ab.1) (argI ab.2)
      | none => s
  else s

/-- An entry of a pass has been converted: the pass goes on to its next entry, or is complete (R298, R299). -/
def State.entryDone (s : State) (c : Conv) (p : Pass) (code code2 : Int) (lost : Bool) : State :=
  match p.seq with
  | none => if lost then s else s.cvpSingle p code
  | some kn =>
    if h : kn < 32 then
      let k : Fin 32 := ⟨kn, h⟩
      let p := if lost then p else { p with codes := p.codes ++ [(p.ent, code, code2)] }
      if p.ent < MeterSeqCfg.nent p.cfg then
        let n := { p with ent := p.ent + 1 }
        if p.urgent then s.modConv c fun x => { x with run := some n } else s.modConv c fun x => { x with queue := n :: x.queue }
      else p.codes.foldl (fun s e => s.addCode k p.cfg c e.1 e.2.1 e.2.2 (p.nsEnts.contains e.1)) s
    else s

/-- A stalled result that the mover has read: it counts with the pass that measured it (R307). -/
def State.moveStalled (s : State) (c : Conv) : State :=
  match (s.convAt c).stalled with
  | none => s
  | some y =>
    let s := s.modConv c fun x => { x with stalled := none }
    let mine := fun (p : Pass) => p.seq == y.pass.seq && p.id == y.pass.id
    let add := fun (p : Pass) => if mine p then { p with codes := p.codes ++ [(y.pass.ent, y.code, y.code2)] } else p
    let x := s.convAt c
    match y.pass.seq with
    | none => s.cvpSingle y.pass y.code
    | some k =>
      if x.run.any mine || x.queue.any mine then
        s.modConv c fun x => { x with run := x.run.map add, queue := x.queue.map add }
      else if h : k < 32 then s.addCode ⟨k, h⟩ y.pass.cfg c y.pass.ent y.code y.code2 (y.pass.nsEnts.contains y.pass.ent)
      else s

/-- The next thermal period of a converter starts at a beat boundary when the converter is free for it and no urgent pass has reserved it; it takes
40 ADC cycles (R305, R306). -/
def ConvSt.thermBeat (x : ConvSt) (now : Nat) : ConvSt :=
  if x.run.isNone && decide (0 < x.thermLeft ∧ x.heldUntil ≤ now) && x.clears now 40 then { x with thermLeft := x.thermLeft - 1, heldUntil := now + 40 }
  else x

/-- The meter's work at a beat boundary: stalled moves that have ended, the passes of SEQ 0 and SEQ 1 (R300), urgent passes
whose instant came in the last beat, lower sequence numbers first (R306), the passes that can start, and the thermal periods,
which begin when the conversion in progress at the frame boundary has ended (R305). -/
def State.meterBeat (s : State) : State :=
  let s := convs.foldl (fun s c => match (s.convAt c).stalled with
    | some y => if y.beat + 2 ≤ s.time.clk then s.moveStalled c else s
    | none => s) s
  let s := if s.mseq[0].takes && s.time.clk % 16 == 0 then s.triggerAll 0 else s
  let s := if s.mseq[1].takes && s.time.clk % 32 == 8 then s.triggerAll 1 else s
  let s := s.settleAll.convStarts
  { s with conv := s.conv.map fun x => x.thermBeat s.adcNow }

/-- METER_TIMER_TICK: timer n ticks at CTL cycle 0 of every beat b with (b − OFS) mod PER = 0; it triggers a pass of each
active sequence that names it (R297). -/
def execMeterTimerTick (n : Tmr) (s : State) : Host.Outcome State Fault Refusal :=
  let w := s.cfg.cfg.meterTmr[n.val]
  let per := MeterTmr.per w
  if per = 0 ∨ ((s.time.clk : Int) - MeterTmr.ofs w) % per ≠ 0 then .next s
  else .next (mseqs.foldl (fun s k =>
    if 2 < k.val ∧ (s.mseq[k.val]).takes = true ∧ MeterSeqCfg.tsrc (s.mcfg k) = n.val then s.triggerAll k else s) s).convStarts

/-- METER_PWM_TRIGGER: an edge of a phase's lane as a converter sees it; every DEC-th edge triggers a pass on it. A phase
that is not ACTIVE or TEST gives no edges (R297). -/
def execMeterPwmTrigger (c : Conv) (p : Ph) (falling : Bool) (s : State) : Host.Outcome State Fault Refusal :=
  if (s.phAt p).st ≠ .active ∧ (s.phAt p).st ≠ .test then .next s
  else .next (mseqs.foldl (fun s k =>
    let cfg := s.mcfg k
    if 2 < k.val ∧ (s.mseq[k.val]).takes = true ∧ MeterSeqCfg.tsrc cfg = 8 ∧ MeterSeqCfg.phase cfg = p.val
        ∧ MeterSeqCfg.edge cfg = falling ∧ (s.passConvs k).contains c = true then
      let n := (s.mseq[k.val]).dec[c.ix.val] + 1
      if MeterSeqCfg.dec cfg < n then (s.modMseq k fun q => { q with dec := q.dec.set c.ix.val 0 }).trigger k c
      else s.modMseq k fun q => { q with dec := q.dec.set c.ix.val n }
    else s) s).convStarts

/-- A stalled result is overwritten in CVx_DATA before the mover has read it: it is lost (R307). -/
def State.overwrite (s : State) (c : Conv) : State :=
  if (s.convAt c).stalled.isSome then
    let s := (s.modConv c fun x => { x with stalled := none, ovr := true, ovrCnt := satAdd 16 x.ovrCnt 1 }).count (0x058 + c.ix.val) 3 1
    if (s.convAt c).ovrRound = some (roundOf s.time.clk) then s
    else (s.modConv c fun x => { x with ovrRound := some (roundOf s.time.clk) }).postDie 0x62 c.ix.val c.ix.val
  else s

/-- A conversion of channel `ch` ends on a converter: it writes CVx_DATA (R307). -/
def State.convWrite (s : State) (c : Conv) (ch : Nat) (code : Int) : State :=
  ((s.overwrite c).modConv c fun x => { x with data := code, chan := x.chan.set (Fin.ofNat 128 ch) code }).count (0x058 + c.ix.val) 0 1

/-- CONVERSION_COMPLETE: a converter completes a conversion of channel `ch`, `code2` that of S/H1, each limited to its 14 bits.
Each goes into CVx_DATA, and the result is moved to the sequence or the decision that owns it; a stalled result that a conversion overwrites is
lost (R294, R307). `stalled`: the move of this result, to the control dies, stalls. A conversion that no pass asked for is one of the
thermal periods', whose readings of channels 120 to 122 are those of R303. -/
def execConversionComplete (c : Conv) (ch : Nat) (code code2 : Int) (stalled : Bool) (s : State) : Host.Outcome State Fault Refusal :=
  let code := convCode ch code
  let s := s.convWrite c ch code
  match (s.convAt c).run with
  | some p =>
    if passCh p = ch then
      let ch2 := MeterEnt.ch2 (passEnt p)
      let code2 := convCode ch2 code2
      let s := s.modConv c fun x => { x with run := none }
      let s := if ch2 = 0x7F then s else s.convWrite c ch2 code2
      let stall := stalled && c == .p
      let s := if stall then s.modConv c fun x => { x with stalled := some { pass := p, code := code, code2 := code2, beat := s.time.clk } } else s
      .next (s.entryDone c p code code2 stall).convStarts
    else .next s
  | none =>
    .next (s.modConv c fun x =>
      if h : 120 ≤ ch ∧ ch ≤ 122 then
        { x with refs := x.refs.set (ch - 120) code (by omega), plan := x.plan.erase (ch - 44), due := x.due.erase (ch - 44) }
      else x).convStarts

/-- A MEAS entry has lost its common instant, on every converter of its sequence: a converter whose pass still runs carries the
mark to the pass's end, and one whose pass has ended shows it in this frame (R299, R306). -/
def State.markNonsim (s : State) (k : Fin 32) (e : Nat) : State :=
  (s.seqConvs k).foldl (fun (s : State) c =>
    let x := s.convAt c
    let mark := fun (b : Bool) (p : Pass) => if p.seq == some k.val && b then { p with nsEnts := p.nsEnts ++ [e] } else p
    let run := x.run.map fun p => mark (p.ent == e) p
    let queue := x.queue.map fun p => mark ((p.again && p.ent == e) || p.ent == e + 1) p
    if run ≠ x.run ∨ queue ≠ x.queue then s.modConv c fun x => { x with run := run, queue := queue }
    else if h : e < 16 then
      s.modMseq k fun q => { q with res := upd q.res ⟨e, h⟩ fun v => upd v c.ix fun x => { x with accNs := true } }
    else s) s

/-- A vote aborts the conversion that runs on CVP (R306): a non-urgent entry runs again at once after it, an urgent pass
drops its rest; a MEAS entry that runs again has lost its common instant. A thermal sample under way is taken again in the next period
(Table 11.10). The vote's conversions hold CVP for this beat (log entry 32). -/
def State.voteAbort (s : State) : State :=
  let held := s.adcNow + 20
  let s := s.modConv .p fun x => { x with heldUntil := held }
  match (s.convAt .p).run with
  | none => s
  | some p =>
    if p.urgent then
      let s := (s.modConv .p fun x => { x with run := none }).dropUrgent .p
      match p.seq with
      | some k => if h : k < 32 then s.modMseq ⟨k, h⟩ fun q => { q with dropU := satAdd 16 q.dropU 1 } else s
      | none => s
    else
      let s := s.modConv .p fun x => { x with run := none, queue := { p with again := true } :: x.queue }
      match p.seq with
      | some k => if h : k < 32 then (if MeterSeqCfg.cls p.cfg = 2 then s.markNonsim ⟨k, h⟩ p.ent else s) else s
      | none => s

/-! ### The frame step -/

/-- The code that an IMPL entry publishes for the active die: its own, unless CVP names its converter (R301). -/
def State.implCode (s : State) (v : Vector SeqRes 3) (named : Option Nat) : Int :=
  let d := s.act
  if named = some d.ix.val then v[d.other.ix.val].code else v[d.ix.val].code

/-- The result of a frame for one entry on one converter (Table 11.6). -/
def SeqRes.publish (x : SeqRes) (unpaired : Bool) : SeqRes :=
  let n := x.accN
  { x with code := if n = 0 then x.code else roundNear x.acc n, code2 := if n = 0 then x.code2 else roundNear x.acc2 n,
           stale := n == 0, nonsim := x.accNs, sat := x.accSat, unpaired := unpaired, passes := min n 63,
           acc := 0, accN := 0, acc2 := 0, accP := 0, accSat := false, accNs := false, last := none }

/-- One compared pair of an entry (R301): IMPL sets after PL_N consecutive disagreeing passes and clears after PL_N agreeing
ones. -/
def State.plausible (s : State) (k : Fin 32) (x : Nat × Int × Int) : State :=
  if h : x.1 < 16 then
    let i : Fin 16 := ⟨x.1, h⟩
    let cfg := s.mcfg k
    let q := s.mseq[k.val]
    let impl := (q.res[i.val])[0].impl
    let setImpl := fun (q : MeterSeq) (b : Bool) =>
      { q with res := upd q.res i fun v => (v.set 0 { v[0] with impl := b }).set 1 { v[1] with impl := b } }
    if MeterSeqCfg.tol cfg < (x.2.1 - x.2.2).natAbs then
      let n := min 7 (q.plN[i.val] + 1)
      let s := s.modMseq k fun q => { q with plN := q.plN.set i.val n, okN := q.okN.set i.val 0 }
      if !impl && decide (MeterSeqCfg.plN cfg ≤ n) then
        let s := s.modMseq k fun q => setImpl { q with plCode := q.plCode.set i.val x.2, named := q.named.set i.val none } true
        let s := s.postDie 0x60 s.act.ix.val (k.val + 256 * x.1) (argI x.2.1) (argI x.2.2)
        let ch := MeterEnt.ch (MeterSeqCfg.ent cfg x.1)
        if cvpReach ch then s.enqueue .p { single := ch, forSeq := k.val, forEnt := x.1, inst := s.adcNow } else s
      else s
    else
      let n := min 7 (q.okN[i.val] + 1)
      let s := s.modMseq k fun q => { q with okN := q.okN.set i.val n, plN := q.plN.set i.val 0 }
      if impl && decide (MeterSeqCfg.plN cfg ≤ n) then s.modMseq k fun q => setImpl { q with named := q.named.set i.val none } false else s
  else s

/-- The MTR_DROP events of a sequence, each kind at most once per round with its count (R306). -/
def State.dropReport (s : State) (k : Fin 32) : State :=
  let rd := roundOf (s.time.clk - 1)
  let unit := ((s.seqConvs k).map fun c => c.ix.val).headD 2
  let q := s.mseq[k.val]
  let s := if 0 < q.dropU ∧ q.dropRoundU ≠ some rd then
      (s.modMseq k fun q => { q with dropU := 0, dropRoundU := some rd }).postDie 0x61 unit k.val 0 q.dropU else s
  if 0 < q.dropQ ∧ q.dropRoundQ ≠ some rd then
    (s.modMseq k fun q => { q with dropQ := 0, dropRoundQ := some rd }).postDie 0x61 unit k.val 1 q.dropQ
  else s

/-- A pass of a sequence runs on some converter. -/
def State.passRuns (s : State) (k : Fin 32) : Bool :=
  convs.any fun c => ((s.convAt c).run.any fun p => p.seq == some k.val)
    || ((s.convAt c).queue.any fun p => p.seq == some k.val && p.ent != 0)

/-- The step of one active sequence at a frame boundary (R299): publish, compare, decide, and stop when asked to and no pass of it runs (R308). -/
def State.meterStep (s : State) (k : Fin 32) : State :=
  let q := s.mseq[k.val]
  if !q.active then s
  else
    let cfg := s.mcfg k
    let safety := MeterSeqCfg.cls cfg == 1
    let out := safety && s.unpairedNow
    let s := s.modMseq k fun q => { q with res := q.res.map fun v => v.map fun x => x.publish out, pairs := [] }
    let s := q.pairs.foldl (fun s x => s.plausible k x) s
    let s := s.modMseq k fun q =>
      { q with res := Vector.ofFn fun e : Fin 16 =>
          let v := q.res[e.val]
          if v[0].impl then upd v s.actConv.ix fun x => { x with code := s.implCode v q.named[e.val] } else v }
    let s := if out then
        (List.range (MeterSeqCfg.nent cfg + 1)).foldl (fun s e =>
          let ch := MeterEnt.ch (MeterSeqCfg.ent cfg e)
          if cvpReach ch then s.enqueue .p { single := ch, forSeq := k.val, forEnt := e, pair := true, inst := s.adcNow } else s) s
      else s
    let s := s.dropReport k
    if (s.mseq[k.val]).stopPend && !s.passRuns k then s.modMseq k fun q => { q with active := false, stopPend := false } else s

/-- The frame step is discarded with an overrun: nothing is published and no count moves (Table 11.10). -/
def State.meterDiscard (s : State) : State :=
  { s with mseq := s.mseq.map fun q =>
      { q with pairs := [], res := q.res.map fun v => v.map fun x =>
          { x with acc := 0, accN := 0, acc2 := 0, accP := 0, accSat := false, accNs := false, last := none } } }

/-- The meter's work at a frame boundary: the steps, then the passes that the frame triggers and the thermal periods of the frame
(R297, R299, R300, R305). -/
def State.meterFrame (s : State) (overran : Bool) : State :=
  let s := if overran then s.meterDiscard else mseqs.foldl State.meterStep s
  let s := mseqs.foldl (fun s k =>
    if (s.mseq[k.val]).takes && 2 ≤ k.val && (k.val == 2 || MeterSeqCfg.tsrc (s.mcfg k) == 9) then s.triggerAll k else s) s
  convs.foldl (fun s c => s.modConv c fun x => { x with thermLeft := thermPeriods c }) s

/-- VIN_FF of a rail for the next frame, from SEQ 2 as published, scaled by METER_AIN (R99, R300). A reading that is not
plausible is not used (R301); one outside 0.5 to 1.5 of VIN_NOM is replaced by VIN_NOM and reported once per round. -/
def State.vinFrame (s : State) (r : Rail) : State :=
  let c := s.rcfg r
  if !s.railEn r || !RailCfg.ffEn c then s
  else
    let nom := Q.ofInt (10000 * RailCfg.vinNom c : Nat)
    let ch := RailCfg.ffCh c
    let ent := fun (e : Nat) => MeterSeqCfg.ent (s.mcfg 2) e
    match (List.finRange 16).find? fun e => e.val ≤ MeterSeqCfg.nent (s.mcfg 2) && MeterEnt.ch (ent e.val) == ch with
    | none => s.modRail r fun x => { x with vinFF := nom }
    | some e =>
      let x := ((s.mseq[2]).res[e.val])[s.actConv.ix.val]
      if x.impl && ((s.mseq[2]).named[e.val]).isNone then s.modRail r fun x => { x with vinFF := nom }
      else
        let scale := MeterAin.scale (s.cfg.cfg.meterAin[ch % 32]'(by omega))
        let v := Q.norm (x.code * (2400000 * scale : Nat)) (16384 * 2 ^ MeterEnt.gain (ent e.val) * 256)
        if Q.lt (Q.mul v (Q.ofInt 2)) nom || Q.lt (Q.mul nom (Q.ofInt 3)) (Q.mul v (Q.ofInt 2)) then
          let rd := roundOf (s.time.clk - 1)
          let s := s.modRail r fun x => { x with vinFF := nom }
          if (s.railAt r).ffRound = some rd then s
          else (s.modRail r fun x => { x with ffRound := some rd }).postRail 0x0A r (argI (Q.divN v 10000).round)
        else s.modRail r fun x => { x with vinFF := v }

/-! ### The round -/

/-- The three references of a round: a converter whose readings all differ by more than 0.1 % from the mean of the other two
converters' is SUSPECT after 16 consecutive rounds (R303). -/
def State.cvRound (s : State) (c : Conv) : State :=
  let others := convs.filter fun d => d != c
  let off := (List.finRange 3).all fun k =>
    let sum := (others.map fun d => (s.convAt d).refs[k.val]).sum
    let own := (s.convAt c).refs[k.val]
    decide (sum.natAbs < 1000 * (2 * own - sum).natAbs)
  let s := s.modConv c fun x => { x with susRun := if off then min 16 (x.susRun + 1) else 0 }
  if 16 ≤ (s.convAt c).susRun ∧ (s.convAt c).suspect = false then
    (s.modConv c fun x => { x with suspect := true }).postDie 0x64 c.ix.val c.ix.val
  else s

/-- A converter samples a source (R305): the sensors of its die and, on CVA and CVB, the stage temperatures; on CVP the NTC inputs. -/
def convSrc (c : Conv) (k : Src) : Bool :=
  match c with
  | .a => decide (k.val < 8 ∨ (24 ≤ k.val ∧ k.val < 72))
  | .b => decide ((8 ≤ k.val ∧ k.val < 16) ∨ (24 ≤ k.val ∧ k.val < 72))
  | .p => decide ((16 ≤ k.val ∧ k.val < 24) ∨ 72 ≤ k.val)

/-- The near-limit sources that a converter samples (R305). -/
def State.nearSrcs (s : State) (c : Conv) : List Src :=
  (List.finRange 76).filter fun k => (s.therm.src[k.val]).near && s.srcEn k && convSrc c k

/-- The near-limit sources that a converter serves in a frame: one of its periods is kept for round samples (R305). -/
def slotLim (c : Conv) : Nat :=
  match c with
  | .p => 3
  | _ => 7

/-- The near-limit sources beyond a converter's thermal periods in a frame (R305). -/
def State.slotFrame (s : State) (c : Conv) : State :=
  let n := (s.nearSrcs c).length
  if slotLim c < n then s.modConv c fun x => { x with slotMax := max x.slotMax n } else s

/-- More sources near a limit than a converter's thermal periods served in a frame of the round, reported once per round (R305). -/
def State.slotRound (s : State) (c : Conv) : State :=
  let n := (s.convAt c).slotMax
  let s := s.modConv c fun x => { x with slotSat := decide (0 < n), slotMax := 0 }
  if 0 < n then s.postDie 0x63 c.ix.val c.ix.val n else s

/-- The samples of a new round: every enabled source of a converter, and the three references as numbers 76 to 78 (R275, R303). -/
def State.dueRound (s : State) (c : Conv) : State :=
  s.modConv c fun x =>
    { x with due := [76, 77, 78] ++ ((List.finRange 76).filter fun k => s.srcEn k && convSrc c k).map Fin.val }

/-- The meter's work of a round. -/
def State.meterRound (s : State) : State := convs.foldl (fun s c => ((s.cvRound c).slotRound c).dueRound c) s

/-! ### Occupancy, images and overlays -/

/-- Passes of a sequence per frame at the fastest trigger rate (R298). -/
def State.passRate (s : State) (k : Fin 32) : Q :=
  let cfg := s.mcfg k
  let t := MeterSeqCfg.tsrc cfg
  if k = 0 then Q.ofInt 2
  else if k = 1 ∨ k = 2 then Q.ofInt 1
  else if h : t < 8 then
    let per := MeterTmr.per (s.cfg.cfg.meterTmr[t])
    if per = 0 then {} else Q.norm 32 per
  else if t = 8 then
    let p := MeterSeqCfg.phase cfg
    let f := rails.filterMap fun r => match phOf p with
      | some ph => if (s.reach r).contains ph then some (RailCfg.fswCode (s.rcfg r)) else none
      | none => none
    Q.norm (f.foldl max 0 : Nat) (25 * (MeterSeqCfg.dec cfg + 1))
  else Q.ofInt 1

/-- The occupancy of a converter in ADC cycles of a frame, in the worst case (R298): a frame of 8 µs holds 640. -/
def State.occupancy (s : State) (c : Conv) : Q :=
  let therm : Nat := match c with
    | .p => 160
    | _ => 320
  mseqs.foldl (fun a k =>
    let cfg := s.mcfg k
    if MeterSeqCfg.defd cfg && bit (MeterSeqCfg.conv cfg) c.ix.val then
      let time := ((List.range (MeterSeqCfg.nent cfg + 1)).map fun e =>
        40 + (if MeterEnt.ch2 (MeterSeqCfg.ent cfg e) = 0x7F then 0 else 36)).sum
      Q.add a (Q.mul (s.passRate k) (Q.ofInt (time : Nat)))
    else a) (Q.ofInt (therm : Nat))

/-- No converter's occupancy exceeds 8 µs per frame (R298). -/
def State.meterFits (s : State) : Bool := convs.all fun c => Q.le (s.occupancy c) (Q.ofInt 640)

/-- The sequences that run once an image is in force: those with AUTO, and the system sequences (R298, R300). -/
def State.meterLoad (s : State) : State :=
  let q := Vector.ofFn fun k : Fin 32 =>
    ({ active := MeterSeqCfg.defd (s.mcfg k) && (MeterSeqCfg.auto (s.mcfg k) || decide (k.val < 3)) } : MeterSeq)
  { s with mseq := q, conv := s.conv.map fun x => { x with run := none, urg := [], queue := [], stalled := none } }

/-- Queued passes of a sequence are removed uncounted (Table 11.7, Table 11.10); one that a converter has yet to be triggered for is lost there. -/
def State.unqueue (s : State) (k : Fin 32) : State :=
  let s : State := { s with conv := s.conv.map fun x =>
      { x with queue := x.queue.filter fun p => !(p.seq == some k.val && p.ent == 0),
               urg := x.urg.filter fun p => !(p.seq == some k.val) } }
  let l := s.passConvs k
  s.modMseq k fun q =>
    let m := (l.map fun c => q.trigN[c.ix.val]).foldl max 0
    if l.any fun c => decide (q.trigN[c.ix.val] < m) then { q with lost := q.lost ++ [m] } else q

/-- A control die is benched: the SAFETY passes on its converter end there and go on without it (R302). -/
def State.convBench (s : State) (c : Conv) : State :=
  let saf := fun (p : Pass) => p.seq.isSome && MeterSeqCfg.cls p.cfg == 1
  let f := fun (p : Pass) => if saf p then { p with on := p.on.erase c } else p
  let s : State := { s with conv := s.conv.map fun x => { x with run := x.run.map f, urg := x.urg.map f, queue := x.queue.map f } }
  s.modConv c fun x =>
    { x with run := x.run.filter fun p => !saf p, urg := x.urg.filter fun p => !saf p, queue := x.queue.filter fun p => !saf p }

/-- METER_STOP takes effect: queued passes go, a running one completes, and the step that publishes the last pass stops the sequence (R308). -/
def State.meterStop (s : State) (k : Fin 32) : State := (s.unqueue k).modMseq k fun q => { q with stopPend := q.active }

/-- METER_START takes effect at a frame boundary (Table 11.7). -/
def State.meterStart (s : State) (k : Fin 32) : State :=
  s.modMseq k fun q => if q.active then { q with stopPend := false } else { active := true }

/-- METER_CLEAR takes effect: OVR flags and SUSPECT marks of the mask clear (R303, Table 11.7). -/
def State.meterClear (s : State) (mask : Nat) : State :=
  convs.foldl (fun s c => s.modConv c fun x =>
    { x with ovr := x.ovr && !bit mask c.ix.val, suspect := x.suspect && !bit mask (3 + c.ix.val),
             susRun := if bit mask (3 + c.ix.val) then 0 else x.susRun }) s

/-! ### Tickets -/

/-- The sequence that byte 16 of a ticket names. -/
def seqOf (n : Nat) : Option (Fin 32) := if h : n < 32 then some ⟨n, h⟩ else none

/-- METER_STOP: DENIED for SEQ 0 to SEQ 2 (Table 11.7). -/
def execMeterStop (t : Tkt) (s : State) : Host.Outcome State Fault Refusal :=
  let n := t.byte 16
  runTicket t 0x810 s { rng := [(16, decide (n < 32))], den := [failIf (decide (n < 3)) (denied 3)] } fun u =>
    (u.post (t.nbBeat u) .frame (.meterStop n)).ok t

/-- The METER_RES words of a sequence: 4 bytes per entry and converter, entry by entry (Table 13.7). -/
def State.seqWords (s : State) (k : Fin 32) : List Nat :=
  let q := s.mseq[k.val]
  (((List.finRange 16).filter fun e => e.val ≤ MeterSeqCfg.nent (s.mcfg k)).map fun e =>
    ((s.seqConvs k).map fun c => leBytes 4 ((q.res[e.val])[c.ix.val]).word).flatten).flatten

/-- METER_READ: the results of a sequence in a segment, or CV_STAT of a converter in VALUE (Table 11.7). -/
def execMeterRead (t : Tkt) (s : State) : Host.Outcome State Fault Refusal :=
  let kind := t.byte 16
  let n := t.byte 17
  let ok17 := if kind = 1 then decide (n < 3) else decide (n < 32)
  let sgOk := kind != 0 || t.sg
  runTicket t 0x820 s { rng := [(1, sgOk), (16, decide (kind < 2)), (17, ok17)], free := true } fun u =>
    if kind = 1 then u.ok t 0 (u.conv.toArray.getD n {}).word
    else match seqOf n with
      | some k => u.answer t 0 (u.seqWords k)
      | none => u.ok t

/-- METER_CLEAR (Table 11.7). -/
def execMeterClear (t : Tkt) (s : State) : Host.Outcome State Fault Refusal :=
  runTicket t 0x830 s {} fun u => (u.post (t.nbBeat u) .frame (.meterClear (t.byte 16))).ok t

end Sys2Proof.Machine
end

