-- ==== Sys2Proof/Machine/Twin.lean ====
section
/-! DEFINITION. Twin dies: shadowing and half-records (R168 to R172), fast detectors (R173, R174), the vote (R175 to R178),
gates and the trapeze (R179 to R187), benched dies and their return (R188 to R190), the clock sources of R22 and R26. -/

namespace Sys2Proof.Machine

/-! ### Which dies serve -/

/-- The standby die, when one is in service. -/
def State.standby (s : State) : Option Cd :=
  match s.arb.active with
  | some d => if (s.arb.st[d.other.ix.val]) = .standby then some d.other else none
  | none => none

/-- A die changes its state. -/
def State.setDie (s : State) (d : Cd) (st : DieState) : State := { s with arb := { s.arb with st := s.arb.st.set d.ix st } }

/-- The bias supply of a die (R181). -/
def State.setBias (s : State) (d : Cd) (on : Bool) : State := { s with arb := { s.arb with bias := s.arb.bias.set d.ix on } }

/-- The closing of the sense-disagreement marks, when the standby die is benched or becomes active (R94). -/
def State.snsUnmarkAll (s : State) (d : Cd) : State := rails.foldl (fun s r => s.snsUnmark r d) s

/-- A die is benched at a beat boundary: its bias is removed, every vote is dropped, the ticket engine moves away from it at
the next round boundary (R175, R181, R187, R188). -/
def State.benchDie (s : State) (d : Cd) (cause : Nat) : State :=
  if (s.arb.st[d.ix.val]) = .benched then s
  else
    let s := (s.setDie d .benched).setBias d false
    let s := { s with arb := { s.arb with cause := s.arb.cause.set d.ix cause, voteQ := [],
                                          engineMove := s.arb.engineMove || s.arb.engine == d } }
    let s := phases.foldl (fun (s : State) p => s.setView d p (s.phAt p).st) s
    ((s.snsUnmarkAll d).convBench (if d = .a then .a else .b)).postDie 0x13 d.ix.val cause

/-- No control die drives: every PWM ball rests at mid, every steering output low; twin-lost (R191). -/
def State.twinLost (s : State) : State :=
  if s.arb.twinLost then s
  else
    let s := phases.foldl (fun s p => s.modPh p PhaseSt.stop) s
    let a : ArbSt := { s.arb with active := none, twinLost := true, handover := none, voteQ := [], dueVotes := [],
                                  steerA := Vector.replicate 16 false, steerB := Vector.replicate 16 false }
    (({ s with arb := a } : State).biasSense).postDev 0x15

/-- A fast detector faults a die without a vote (R173, Table 6.11): the standby die is benched, the active die hands over;
with no standby die in service no die drives any more. A die out of service is only observed (R188). -/
def State.faultDie (s : State) (d : Cd) (cause : Nat) : State :=
  if s.dieOut d then
    let s := s.emit { code := 0x13, scope := scDie, unit := d.ix.val, obs := true, arg0 := cause }
    match s.arb.readmit with
    | some (e, _, _) => if e = d then { s with arb := { s.arb with obsBad := true } } else s
    | none => s
  else if s.arb.active = some d then
    match s.standby with
    | some _ => { s with arb := { s.arb with handover := some (cause, cause, 0), voteQ := [] } }
    | none => (s.benchDie d cause).twinLost
  else s.benchDie d cause

/-- A vote is raised, unless one for the unit waits or no two dies are in service (R171, R175). -/
def State.raiseVote (s : State) (v : VoteReq) : State :=
  if s.standby.isNone || (s.arb.voteQ.any fun w => w.phase == v.phase && w.unit == v.unit) then s
  else
    { s with arb := { s.arb with voteQ := s.arb.voteQ ++ [v], voteFrom := if s.arb.voteQ.isEmpty then s.time.clk else s.arb.voteFrom } }

/-- What the arbiter decided within the last beat takes effect at the beat boundary: the bench of the standby die by a vote,
the votes of LANE, the end of a die's self-test (R173, R177, R182, R189). -/
def State.arbBeat (s : State) : State :=
  let f := fun (s : State) (d : Cd) => match s.arb.dueBench[d.ix.val] with
    | some c => if (s.arb.st[d.ix.val]) = .standby then s.benchDie d c else s
    | none => s
  let l := s.arb.dueVotes
  let s := f (f s .a) .b
  let s := l.foldl State.raiseVote ({ s with arb := { s.arb with dueBench := Vector.replicate 2 none, dueVotes := [] } } : State)
  match s.arb.readmit, s.arb.testEnd with
  | some (d, _, _), some true => (({ s with arb := { s.arb with testEnd := none } } : State).setDie d .resync)
  | _, _ => s

/-- The fast detectors at a beat boundary: SELF, and SILENT after the second missing token. Both dies faulted in the same
beat leave no active die (R173, R191). -/
def State.fastDetect (s : State) (noTokA noTokB : Bool) : State :=
  let na := if noTokA then min 2 (s.arb.silent[0] + 1) else 0
  let nb := if noTokB then min 2 (s.arb.silent[1] + 1) else 0
  let ca : Option Nat := if s.arb.selfPend[0] then some 1 else if na = 2 ∧ s.arb.silent[0] < 2 then some 2 else none
  let cb : Option Nat := if s.arb.selfPend[1] then some 1 else if nb = 2 ∧ s.arb.silent[1] < 2 then some 2 else none
  let s := { s with arb := { s.arb with silent := #v[na, nb], selfPend := Vector.replicate 2 false } }
  match ca, cb with
  | some a, some b =>
    if s.dieOut .a || s.dieOut .b then (s.faultDie .a a).faultDie .b b
    else ((s.benchDie .a a).benchDie .b b).twinLost
  | some a, none => s.faultDie .a a
  | none, some b => s.faultDie .b b
  | none, none => s

/-- DIE_SELF_REPORT: a die's own checkers signal its control link; the arbiter acts at the next beat boundary (R173). -/
def execDieSelfReport (d : Cd) (s : State) : Host.Outcome State Fault Refusal :=
  .next { s with arb := { s.arb with selfPend := s.arb.selfPend.set d.ix true } }

/-! ### The half-records -/

/-- What a die adds to the half-record of a rail in a beat (Table 6.1). The standby's u is the one it keeps after the overwrite
of R168, which R170 leaves open (DESIGN CHOICE, log entry 95). -/
def RailDie.halfAdd (x : RailDie) (nact : Nat) : RailDie :=
  { x with half := { x.half with vref := x.half.vref + x.vref, vs := x.half.vs + (x.vref - x.e0), u := x.half.u + x.u0,
                                 iout := Q.add x.half.iout x.ioutF, catchBeats := x.half.catchBeats + b2n x.ctch.isSome,
                                 n := x.half.n + 1, st := x.st, nact := nact } }

/-- The first half-record of a frame closes, at its beat 16 (R170). -/
def State.halfClose (s : State) : State :=
  { s with raild := s.raild.map fun v => v.map fun x => { x with h1 := x.half, half := {} }
           phd := s.phd.map fun v => v.map fun x => { x with h1Sum := x.hSum, h1N := x.hN, h1Alt := x.alt.isSome, hSum := 0, hN := 0 } }

/-- The half-records of a frame are done with. -/
def State.halfClear (s : State) : State :=
  { s with raild := s.raild.map fun v => v.map fun x => { x with h1 := {}, half := {} }
           phd := s.phd.map fun v => v.map fun x => { x with h1Sum := 0, h1N := 0, h1Alt := false, hSum := 0, hN := 0 } }

/-- Two means differ by at most a band. -/
def within (sa : Q) (na : Nat) (sb : Q) (nb : Nat) (band : Q) : Bool :=
  if na = 0 ∨ nb = 0 then true else Q.le (Q.sub (Q.divN sa na) (Q.divN sb nb)).abs band

/-- The items of a rail agree in one half-record (Table 6.1). VSET, SNS_LOCAL and the sense mark take effect on both dies
at once, so the state holds one value of each (log entry 94). -/
def State.railAgrees (s : State) (r : Rail) (a b : HalfRec) : Bool :=
  let c := s.tcfg
  let n : Int := (s.drivenOf r).length
  let i4 : Int := TwinCfg.iBand c
  s.arb.intentSeen[0] == s.arb.intentSeen[1] && (s.arb.dieCrc[r.val])[0] == (s.arb.dieCrc[r.val])[1] && !(s.railAt r).snsDis
    && a.st == b.st && a.nact == b.nact
    && within (Q.ofInt a.vref) a.n (Q.ofInt b.vref) b.n
        (Q.add (Q.ofInt (4 * TwinCfg.vrefBand c : Nat)) (Q.norm (RailCfg.rll (s.rcfg r) * i4 * 5 * n) 2500))
    && within (Q.ofInt a.vs) a.n (Q.ofInt b.vs) b.n (Q.ofInt (4 * TwinCfg.vsBand c : Nat))
    && within (Q.ofInt a.u) a.n (Q.ofInt b.u) b.n (Q.divN (Q.mul (Q.ofInt (TwinCfg.uBand c : Int)) (s.vinOf r)) 400)
    && within a.iout a.n b.iout b.n (Q.norm (i4 * 5 * n) 2)
    && decide ((a.catchBeats : Int) - b.catchBeats ≤ TwinCfg.catchBand c ∧ (b.catchBeats : Int) - a.catchBeats ≤ TwinCfg.catchBand c)
    && !a.shadowRefused && !b.shadowRefused

/-- The items of a phase agree in one half-record (Table 6.1): STATE as each die computes it, `alt` where they differ, SUSPECT clear, the mean
current within PI_BAND. BENCH_CAUSE takes effect on both dies at once, so the state holds one value of it (R59, log entry 94). -/
def State.phAgrees (s : State) (p : Ph) (alt : Bool) (sa : Int) (na : Nat) (sb : Int) (nb : Nat) : Bool :=
  let ofs := fun (d : Cd) => Q.mul (Q.ofInt 3) (s.phDie d p).ofs
  !alt && !(s.phAt p).suspect &&
    (na == 0 || nb == 0 ||
      Q.le (Q.sub (Q.sub (Q.norm (3 * sa) na) (ofs .a)) (Q.sub (Q.norm (3 * sb) nb) (ofs .b))).abs
        (Q.ofInt (5 * TwinCfg.piBand s.tcfg : Nat)))

/-- The count of R171 after one half-record. -/
def disStep (n : Nat) (ok : Bool) : Nat := if ok then 0 else min 2 (n + 1)

/-- The comparison of a rail over the two half-records of a frame; 2 consecutive disagreements raise a vote (R171). -/
def State.railCompare (s : State) (r : Rail) : State :=
  let a := s.railDie .a r
  let b := s.railDie .b r
  let ok1 := s.railAgrees r a.h1 b.h1
  let ok2 := s.railAgrees r a.half b.half
  let n1 := disStep (s.railAt r).disagree ok1
  let n2 := disStep n1 ok2
  let k := b2n (!ok1) + b2n (!ok2)
  let s := if k = 0 then s else s.count (0x052 + s.act.ix.val) 4 k
  let s := s.modRail r fun x => { x with disagree := n2 }
  if n1 = 2 ∨ n2 = 2 then s.raiseVote { phase := false, unit := r.val, lane := false } else s

/-- The comparison of a phase over the two half-records of a frame (R171). -/
def State.phCompare (s : State) (p : Ph) : State :=
  let a := s.phDie .a p
  let b := s.phDie .b p
  let ok1 := s.phAgrees p (a.h1Alt || b.h1Alt) a.h1Sum a.h1N b.h1Sum b.h1N
  let ok2 := s.phAgrees p (a.alt.isSome || b.alt.isSome) a.hSum a.hN b.hSum b.hN
  let n1 := disStep (s.phAt p).disagree ok1
  let n2 := disStep n1 ok2
  let k := b2n (!ok1) + b2n (!ok2)
  let s := if k = 0 then s else s.count (0x052 + s.act.ix.val) 4 k
  let s := s.modPh p fun x => { x with disagree := n2 }
  if n1 = 2 ∨ n2 = 2 then s.raiseVote { phase := true, unit := p.val, lane := false } else s

/-- Whether some item of the two dies disagreed in this frame (R188, R189). -/
def State.observed (s : State) : Bool :=
  (rails.filter s.railEn).any (fun r =>
      let a := s.railDie .a r
      let b := s.railDie .b r
      !s.railAgrees r a.h1 b.h1 || !s.railAgrees r a.half b.half)
    || (phases.filter s.fitted).any (fun p =>
      let a := s.phDie .a p
      let b := s.phDie .b p
      !s.phAgrees p (a.h1Alt || b.h1Alt) a.h1Sum a.h1N b.h1Sum b.h1N || !s.phAgrees p (a.alt.isSome || b.alt.isSome) a.hSum a.hN b.hSum b.hN)

/-- The standby die takes the trims of the active die's frame-state record (R168). -/
def State.shadowTrims (s : State) : State :=
  match s.shadowDie with
  | none => s
  | some o => phases.foldl (fun s p => s.modPhDie o p fun y => { y with trim := (s.phDie o.other p).trim }) s

/-- The intent fields of a rail are corrupted on a die in service: the INTENT_CRC that the die forms of them is another than Die P's
(Table 6.10). -/
def State.intentCorrupt (s : State) (x : Cd × Rail) : State :=
  if s.dieOut x.1 then s
  else
    let w := s.draw (2 ^ 32 - 1)
    let c := (s.arb.intentCrc[x.2.val] + 1 + w.1) % 2 ^ 32
    let t := w.2
    { t with arb := { t.arb with dieCrc := t.arb.dieCrc.set x.2.val ((t.arb.dieCrc[x.2.val]).set x.1.ix c) } }

/-- The records of a die out of service: those of a BENCHED die are logged as observations when an item disagrees; those of
the 16 frames of a resync's observation count against it (R188, R189, Table 6.4, log entry 94). -/
def State.observeDie (s : State) : State :=
  match s.arb.active with
  | none => s
  | some d =>
    let o := d.other
    if s.observed = false then s
    else if (s.arb.st[o.ix.val]) = .benched then s.emit { code := 0x13, scope := scDie, unit := o.ix.val, obs := true, arg0 := 4 }
    else match s.arb.readmit with
      | some (_, _, b) =>
        if 0 < b ∧ b < s.time.clk ∧ s.time.clk ≤ b + 512 then { s with arb := { s.arb with obsBad := true } } else s
      | none => s

/-- The hall of mirrors at a frame boundary: a frame that overran on a die, and rails that a beat overrun of one die touched, are unscored (R39, R41, R172); records
missing in 2 consecutive frames bench the standby die with cause LINK (R191). -/
def State.twinFrame (s : State) (noRecords overA overB : Bool) : State :=
  let one := overA || overB
  let n := if noRecords then min 2 (s.arb.recMiss + 1) else 0
  let s := { s with arb := { s.arb with recMiss := n } }
  let s := match s.standby with
    | none => if noRecords || one then s else s.observeDie
    | some d =>
      if n = 2 then s.benchDie d 8
      else if noRecords then s
      else
        let s := rails.foldl (fun (s : State) (r : Rail) =>
          if !s.railEn r || one || (s.railAt r).railOverrun then s else s.railCompare r) s
        phases.foldl (fun (s : State) (p : Ph) =>
          let late := match s.railOfPh p with
            | some r => (s.railAt r).railOverrun
            | none => false
          if !s.fitted p || one || late then s else s.phCompare p) s
  let s := if noRecords then s else s.shadowTrims
  ({ s with rail := s.rail.map fun (x : RailSt) => { x with railOverrun := false } } : State).halfClear

/-- STALL: a control die whose frame engine overruns in 3 consecutive frames reports itself (R172). -/
def State.stallFrame (s : State) (overA overB : Bool) : State :=
  let na := if overA then s.ovr.stall[0] + 1 else 0
  let nb := if overB then s.ovr.stall[1] + 1 else 0
  let pend := #v[s.arb.selfPend[0] || decide (3 ≤ na), s.arb.selfPend[1] || decide (3 ≤ nb)]
  { s with ovr := { s.ovr with stall := #v[na % 3, nb % 3] }, arb := { s.arb with selfPend := pend } }

/-- The beat record of a rail reaches the standby die: VSET_SLEW of the rail's state, which the standby goes on from (Table 6.11, log entry
95), and u, which it shadows when it lies within 4 × U_BAND; otherwise it keeps its own and flags the rail (R168).
The trace carries the rail and the difference in µV, at most 65,535. -/
def State.shadow (s : State) (r : Rail) : State :=
  match s.shadowDie with
  | none => s
  | some o =>
    let y := s.railDie o.other r
    let s := s.modRailDie o r fun x => { x with slew := y.slew }
    let u := y.u0
    let v := (s.railDie o r).u0
    let band := Q.divN (Q.mul (Q.ofInt (4 * TwinCfg.uBand s.tcfg : Nat)) (s.vinOf r)) 400
    if Q.le (Q.ofInt (u - v).natAbs) band then s.modRailDie o r fun x => { x with u0 := u }
    else
      let s := s.modRailDie o r fun x => { x with half := { x.half with shadowRefused := true } }
      (s.count (0x050 + o.ix.val) 7 1).trace 0x05 r.val (min (u - v).natAbs 65535) 0

/-! ### Lanes -/

/-- LANE is blanked for a rail while a catch is active on either die and for 4 beats after both have ended (R174). -/
def State.laneBeat (s : State) (r : Rail) : State :=
  if (s.railDie .a r).ctch.isSome || (s.railDie .b r).ctch.isSome then s.modRail r fun x => { x with laneBlank := s.time.clk + 4 }
  else s

/-- The high times of the active lane and of its twin differ in one switching cycle by more than LANE_TOL × P; a lane that stays
at mid throughout, `none`, differs from one that is driven (R173). Times are in 78.125 ps. -/
def State.laneDiffers (s : State) (r : Rail) (t : LaneTimes) : Bool :=
  match t.act, t.twin with
  | some a, some b => decide (s.periodOf r < 2 ^ (TwinCfg.laneTol s.tcfg + 3) * ((a : Int) - b).natAbs)
  | none, none => false
  | _, _ => true

/-- LANE is blanked for a rail: a catch is active on either die, or ended on both within the last 4 beats (R174). -/
def State.laneBlanked (s : State) (r : Rail) : Bool :=
  decide (s.time.clk ≤ (s.railAt r).laneBlank) || (s.railDie .a r).ctch.isSome || (s.railDie .b r).ctch.isSome

/-- LANE_MISMATCH: one switching cycle of a phase that the active die drives, with the high times of both lanes as the arbiter
saw them (R173, R174). LANE_N consecutive cycles that differ by more than LANE_TOL × P raise a vote for the rail at the
next beat boundary. A blanked cycle ends a run of differing cycles (DESIGN CHOICE, log entry 96). -/
def execLaneMismatch (p : Ph) (t : LaneTimes) (s : State) : Host.Outcome State Fault Refusal :=
  let x := s.phAt p
  match s.railOfPh p, s.arb.active with
  | some r, some d =>
    if (x.st ≠ .active ∧ x.st ≠ .test) ∨ s.laneBlanked r = true ∨ x.cycSt ≠ x.st then
      .next (s.modPh p fun x => { x with laneRun := 0 })
    else
      let n := if s.laneDiffers r t then min 3 (x.laneRun + 1) else 0
      let s := s.modPh p fun x => { x with laneRun := n }
      if n = 0 ∨ n < TwinCfg.laneN s.tcfg then .next s
      else if (s.arb.st[d.other.ix.val]) = .resync then .next { s with arb := { s.arb with obsBad := true } }
      else
        let s := s.modPh p fun x => { x with laneRun := 0 }
        .next { s with arb := { s.arb with dueVotes := s.arb.dueVotes ++ [{ phase := false, unit := r.val, lane := true }] } }
  | _, _ => .next s

/-! ### The vote -/

/-- The rail that a vote concerns. -/
def State.voteRail (s : State) (v : VoteReq) : Option Rail :=
  if v.phase then (phOf v.unit).bind s.railOfPh else railOf v.unit

/-- A die is inconsistent in the measurement step (R176): `v` is CVP's mean in mV. -/
def State.measBad (s : State) (d : Cd) (v : VoteReq) (mv : Q) : Bool :=
  if v.phase then
    match phOf v.unit with
    | some p =>
      let y := s.phDie d p
      let n := y.sum8.length
      let own := Q.sub (Q.norm (3 * y.sum8.sum) (max 1 n)) (Q.mul (Q.ofInt 3) y.ofs)
      let ref := Q.mul (Q.sub mv (Q.ofInt 1200)) (Q.ofInt 2)
      Q.lt (Q.ofInt (5 * TwinCfg.voteItol s.tcfg : Nat)) (Q.sub own ref).abs
    | none => false
  else
    match railOf v.unit with
    | some r =>
      let y := s.railDie d r
      let n := y.vs8.length
      let own := Q.norm y.vs8.sum (max 1 n)
      let own := if (s.railAt r).snsLocal then Q.add own (s.dropOf d r) else own
      Q.lt (Q.ofInt (4 * TwinCfg.voteTol s.tcfg : Nat)) (Q.sub own (Q.mul mv (Q.ofInt 8))).abs
    | none => false

/-- The counts of a vote that benches nothing (R177, R178). -/
def State.voteOpen (s : State) (v : VoteReq) (failed : Bool) : State :=
  let s := if failed then
      { s with arb := { s.arb with failed := satAdd 8 s.arb.failed 1, roundFailed := satAdd 8 s.arb.roundFailed 1 } }
    else
      { s with arb := { s.arb with unres := satAdd 8 s.arb.unres 1, roundUnres := satAdd 16 s.arb.roundUnres 1 } }
  let s := if failed then s
    else if v.phase then (match phOf v.unit with
      | some p => s.modPh p fun x => { x with disagree := 0 }
      | none => s)
    else (match railOf v.unit with
      | some r => s.modRail r fun x => { x with disagree := 0 }
      | none => s)
  let s := if 4 ≤ s.arb.roundFailed ∧ s.arb.cvpRep = false then
      ({ s with arb := { s.arb with cvpRep := true } } : State).postDev 0x16 else s
  if TwinCfg.unresN s.tcfg < s.arb.roundUnres ∧ s.arb.unresPosted = false then
    ({ s with arb := { s.arb with unresPosted := true } } : State).postDev 0x14
  else s

/-- The outcome of a vote (Table 6.3): the standby die benched at the next beat boundary, the handover due there, or a count.
The trace carries the unit (a phase as 64 + its number), the step that decided (1 intent, 2 measurement) and the row. -/
def State.voteDecide (s : State) (v : VoteReq) (o : Cd) (intent ba bo : Bool) : State :=
  let cause := if intent then 5 else if v.lane then 3 else 4
  let mask := match s.voteRail v with
    | some r => 2 ^ r.val
    | none => 0
  let step := if intent then 1 else 2
  let u := if v.phase then 64 + v.unit else v.unit
  match ba, bo with
  | false, true =>
    let s := s.trace 0x07 u step 0
    { s with arb := { s.arb with dueBench := s.arb.dueBench.set o.ix (some cause), voteQ := [] } }
  | true, false =>
    let s := s.trace 0x07 u step 1
    { s with arb := { s.arb with handover := some (cause, cause, mask), voteQ := [] } }
  | false, false => (s.trace 0x07 u step 2).voteOpen v false
  | true, true => (s.trace 0x07 u step 3).voteOpen v true

/-- VOTE: the running vote ends; `c1` and `c2` are CVP's two conversions of channel 61 (R176, Table 6.3). Intent decides by
itself when it separates the dies; otherwise the vote's conversions abort the one that runs on CVP and the measurement
decides. -/
def execVote (c1 c2 : Nat) (s : State) : Host.Outcome State Fault Refusal :=
  match s.arb.voteQ, s.arb.active, s.standby with
  | v :: rest, some d, some o =>
    let s := { s with arb := { s.arb with voteQ := rest, votes := satAdd 16 s.arb.votes 1, voteFrom := s.time.clk } }
    let s := s.count (0x052 + d.ix.val) 5 1
    let bad := fun (e : Cd) => match s.voteRail v with
      | some r => s.intentBad r e
      | none => false
    if bad d != bad o then .next (s.voteDecide v o true (bad d) (bad o))
    else
      let s := (s.voteAbort.convWrite .p 61 (convCode 61 c1)).convWrite .p 61 (convCode 61 c2)
      let mv := Q.norm ((c1 + c2 : Nat) * 4800) (2 * 16384)
      .next (s.voteDecide v o false (s.measBad d v mv) (s.measBad o v mv))
  | _, _, _ => .next s

/-- The votes of the round start anew (R177, R178). -/
def State.voteRound (s : State) : State :=
  { s with arb := { s.arb with roundUnres := 0, roundFailed := 0, unresPosted := false, cvpRep := false } }

/-- The rail state that the new active die has computed governs from a handover on (R166, R185). -/
def State.railFollow (s : State) (d : Cd) (r : Rail) : State :=
  let v := (s.railDie d r).st
  if v = (s.railAt r).st then s
  else if v = .off then s.enterOff r
  else (s.leaveRegulate r).modRail r fun x => { x with st := v }

/-- The phases follow the view of the die that drives from a handover on, and both dies hold it (R166, R185). -/
def State.phFollow (s : State) (d : Cd) (p : Ph) : State :=
  match (s.phDie d p).alt with
  | some .active => s.toActive p
  | some .idle => s.toIdle p
  | _ => s.setView d.other p (s.phAt p).st

/-! ### The trapeze -/

/-- TRAPEZE: the handover that is due takes effect at this beat boundary (R185). The former active die is benched, or stands
by after a SWAP; the sense bias moves (R91); cycles in progress complete under the new die's edges. The event's unit is the
former active die, with the detector (the codes of CAUSE_A) and the rails voted. -/
def execTrapeze (s : State) : Host.Outcome State Fault Refusal :=
  match s.arb.handover, s.arb.active, s.standby with
  | some (cause, det, mask), some d, some o =>
    let s := s.snsUnmarkAll o
    let s := (s.setDie o .active).setBias o true
    let s := { s with arb := { s.arb with active := some o, handover := none, gateOff := [], trapezes := satAdd 16 s.arb.trapezes 1 } }
    let s := if cause = 0 then (s.setDie d .standby) else s.benchDie d cause
    let s := phases.foldl (fun s p => (s.modPh p PhaseSt.handOver).phFollow o p) s
    let s := (rails.foldl (fun s r => s.railFollow o r) s).biasSense
    .next (s.postDie 0x12 d.ix.val det mask)
  | some (cause, _, _), some d, none =>
    let s := { s with arb := { s.arb with handover := none } }
    .next (if cause = 0 then s else (s.benchDie d cause).twinLost)
  | _, _, _ => .next s

/-- The ticket engine moves at the round boundary (R187). -/
def State.engineRound (s : State) : State :=
  if s.arb.engineMove then { s with arb := { s.arb with engine := s.arb.engine.other, engineMove := false } } else s

/-- GATE_MONITOR_FAULT: a gate of the non-active die is found conducting: lanes 0 to 47 PWM, 48 to 79 steering. The driver of
that lane is ordered to mid and the gate is reported; no handover follows (R180). -/
def execGateMonitorFault (lane : Nat) (s : State) : Host.Outcome State Fault Refusal :=
  if s.arb.active.isNone || s.arb.gateOff.contains lane || decide (80 ≤ lane) then .next s
  else .next (({ s with arb := { s.arb with gateOff := s.arb.gateOff ++ [lane] } } : State).postDie 0x17 2 lane)

/-- REFOSC_LOST: a control die moves its PLL to its local oscillator and reports the loss (R22). -/
def execRefoscLost (d : Cd) (s : State) : Host.Outcome State Fault Refusal :=
  if s.time.pllLocal[d.ix.val] then .next s
  else .next (({ s with time := { s.time with pllLocal := s.time.pllLocal.set d.ix true } } : State).postDie 0x18 d.ix.val 0)

/-- BEAT_STROBE_LOST: each control die generates beats from its own PLL, continuing the count, and reports the loss (R26). -/
def execBeatStrobeLost (s : State) : Host.Outcome State Fault Refusal :=
  let f := fun (s : State) (d : Cd) =>
    if s.time.strobeOwn[d.ix.val] then s
    else ({ s with time := { s.time with strobeOwn := s.time.strobeOwn.set d.ix true } } : State).postDie 0x18 d.ix.val 1
  .next (f (f s .a) .b)

/-! ### Readmission of a die -/

/-- The readmission of a die ends (Table 6.9): READMIT with kind 2, the status and the cause. -/
def State.dieEnd (s : State) (d : Cd) (ref : TkRef) (pass : Bool) : State :=
  let s := { s with arb := { s.arb with readmit := none, testEnd := none, obsBad := false } }
  if pass then ((s.setDie d .standby).setBias d true |>.final ref 0x00).postDie 0x08 d.ix.val 2 0x00 0
  else
    let s := (s.setDie d .benched).setBias d false
    let s := { s with arb := { s.arb with cause := s.arb.cause.set d.ix 7 } }
    (s.final ref 0x3F 0x0003 7).postDie 0x08 d.ix.val 2 0x3F 7

/-- A failed self-test or resync has its result at the next frame boundary (Table 6.9). -/
def State.dieTestFrame (s : State) : State :=
  match s.arb.readmit, s.arb.testEnd with
  | some (d, ref, _), some false => s.dieEnd d ref false
  | _, _ => s

/-- A READMIT of a die starts at a frame boundary; a condition that no longer holds there refuses it (R189, log entry 20). -/
def State.readmitDieStart (s : State) (d : Cd) (ref : TkRef) : State :=
  if (s.arb.st[d.ix.val]) ≠ .benched ∨ s.arb.active ≠ some d.other ∨ s.arb.voteQ.isEmpty = false then s.final ref 0x23
  else
    let s := s.setDie d .selftest
    { s with arb := { s.arb with readmit := some (d, ref, 0), obsBad := false } }

/-- DIE_SELFTEST_END: the control-core tests of a die under readmission end: RESYNC at the next beat boundary, or the result at
the next frame boundary (R182, Table 6.9). -/
def execDieSelftestEnd (pass : Bool) (s : State) : Host.Outcome State Fault Refusal :=
  match s.arb.readmit with
  | some (d, _, _) =>
    if (s.arb.st[d.ix.val]) ≠ .selftest then .next s else .next { s with arb := { s.arb with testEnd := some pass } }
  | none => .next s

/-- Table 6.9: the compensator and shadow state of the rails, and the learned fit, copied from the other die. -/
def State.resyncRails (s : State) (d : Cd) : State :=
  let o := d.other
  rails.foldl (fun s r =>
    let y := s.railDie o r
    s.modRailDie d r fun x =>
      { x with e0 := y.e0, e1 := y.e1, e2 := y.e2, e3 := y.e3, u0 := y.u0, u1 := y.u1, u2 := y.u2, u3 := y.u3,
               ioutF := y.ioutF, iout := y.iout, iHist := y.iHist, vref := y.vref, d0 := y.d0, g := y.g, hasFit := y.hasFit,
               fit := y.fit, st := y.st, slew := y.slew, ndem := y.ndem, nR106 := y.nR106, light := y.light, lightRun := y.lightRun,
               ctch := none, rearm := none }) s

/-- Table 6.9: the trims of a die, copied from the other, and the phases' states, which it holds as the other does. -/
def State.resyncTrims (s : State) (d : Cd) : State :=
  phases.foldl (fun s p => s.modPhDie d p fun y => { y with trim := (s.phDie d.other p).trim, alt := none }) s

/-- What the state copy carries to a die under resync: compensator and shadow state, the learned fit, trims, the scores of
forecasts, the intent sequence number (Table 6.9). What both dies hold in common needs no copy. -/
def State.resyncCopy (s : State) (d : Cd) : State :=
  let o := d.other
  let s := (s.resyncRails d).resyncTrims d
  let l := s.fc.fcs.map fun f => { f with sc := f.sc.set d.ix (f.scOf o) }
  let s : State := { s with fc := { s.fc with fcs := l } }
  { s with arb := { s.arb with intentSeen := s.arb.intentSeen.set d.ix s.arb.intentSeq,
                               dieCrc := Vector.ofFn fun (r : Rail) => (s.arb.dieCrc[r.val]).set d.ix s.arb.intentCrc[r.val] } }

/-- DIE_RESYNC_END: the state copy is complete; the observation of 16 frames starts at the next frame boundary. A failed copy
has its result there (Table 6.9). -/
def execDieResyncEnd (ok : Bool) (s : State) : Host.Outcome State Fault Refusal :=
  match s.arb.readmit with
  | some (d, ref, b) =>
    if (s.arb.st[d.ix.val]) ≠ .resync ∨ 0 < b then .next s
    else if ok then
      let s := s.resyncCopy d
      .next { s with arb := { s.arb with readmit := some (d, ref, nextFrame s.time.clk), obsBad := false } }
    else .next { s with arb := { s.arb with testEnd := some false } }
  | none => .next s

/-- DIE_OBSERVATION_END: the frame boundary after the 16 frames of the observation (Table 6.9). -/
def execDieObservationEnd (s : State) : Host.Outcome State Fault Refusal :=
  match s.arb.readmit with
  | some (d, ref, b) =>
    if b = 0 ∨ s.bnd < b + 544 ∨ s.bnd % 32 ≠ 0 then .next s
    else .next (s.atBoundary fun s => s.dieEnd d ref (!s.arb.obsBad))
  | none => .next s

/-! ### Tickets -/

/-- The control die that byte 17 of a ticket names. -/
def dieOf (t : Tkt) : Cd := cdOf (t.byte 17)

/-- An owner BENCH of a die takes effect at a beat boundary: only a STANDBY die is benched; a running vote completes first
(R189, Table 6.11). The second result says that the bench still waits. -/
def State.benchDieAct (s : State) (d : Cd) : State × Bool :=
  if (s.arb.st[d.ix.val]) = .standby ∧ s.arb.active = some d.other then
    (if s.arb.voteQ.isEmpty then (s.benchDie d 6, false) else (s, true))
  else (s, false)

/-- BENCH of a control die: BUSY unless it is STANDBY, or BENCHED already and stays so (R189, log entry 76). -/
def execBenchControlDie (t : Tkt) (s : State) : Host.Outcome State Fault Refusal :=
  let d := dieOf t
  runTicket t 0x512 s { rng := [(17, decide (t.byte 17 ≤ 1))], post := [failIf (s.arb.st[d.ix.val] != .standby && s.arb.st[d.ix.val] != .benched) busy] } fun u =>
    (u.post (t.nbBeat u) .beat (.benchDie d 6)).ok t

/-- READMIT of a control die: BAD_TARGET for one that is not BENCHED, BUSY when the other die is not ACTIVE or a vote runs (R189). -/
def execReadmitControlDie (t : Tkt) (s : State) : Host.Outcome State Fault Refusal :=
  let d := dieOf t
  let bad := s.arb.st[d.ix.val] != .benched
  let no := s.arb.active != some d.other || !s.arb.voteQ.isEmpty
  runTicket t 0x522 s { rng := [(17, decide (t.byte 17 ≤ 1))], pre := [failIf bad badTarget], post := [failIf no busy] } fun u =>
    (u.queued t).post (t.nbBeat u) .frame (.readmitDie d t.ref)

/-- SWAP: BUSY unless both dies are in service and no vote runs (R190). -/
def execSwap (t : Tkt) (s : State) : Host.Outcome State Fault Refusal :=
  let no := s.standby.isNone || !s.arb.voteQ.isEmpty
  runTicket t 0x530 s { post := [failIf no busy] } fun u => (u.post (t.nbBeat u) .frame (.swap t.ref)).ok t

/-- A SWAP takes effect at a frame boundary: the handover is due at once, with detector OWNER (R190). -/
def State.swapAct (s : State) : State :=
  if s.standby.isSome && s.arb.voteQ.isEmpty && s.arb.handover.isNone then
    { s with arb := { s.arb with handover := some (0, 6, 0) } }
  else s

end Sys2Proof.Machine
end

