-- ==== Sys2Proof/Machine/Sup.lean ====
section
/-! DEFINITION. Supervision at the frame boundary: window results, latches and their events (R195 to R205), the CLEAR_LATCH
ticket (R198), the ends of hiccup and discharge (R211, R212), benching and readmitting a rail (R213, R214). -/

namespace Sys2Proof.Machine

/-! ### Windows at the frame boundary -/

/-- A current threshold in sixteenths of the stage rating lies below IOUT_F (R196). -/
def State.currentLeft (s : State) (r : Rail) (sixteenths : Nat) : Bool :=
  s.leads r && Q.lt (Q.ofInt (10 * sixteenths * s.ratingG r : Nat)) (Q.mul (s.railAct r).ioutF (Q.ofInt 16))

/-- The windows left in the frame just ended: WL, WH, FL, FH, IW, IF from bit 0 (R196, R197). -/
def State.leftNow (s : State) (r : Rail) : Nat :=
  let c := s.supcfg r
  (s.railAct r).seen % 16 + fld (b2n (s.currentLeft r (SupCfg.iwarn c))) 1 4 + fld (b2n (s.currentLeft r (SupCfg.iflt c))) 1 5

/-- The latch of window `k` is in STICKY mode: the warn windows and IW follow WLATCH, the fault windows and IF FLATCH (R197). -/
def stickyOf (c k : Nat) : Bool := if k < 2 ∨ k = 4 then SupCfg.wlatch c else SupCfg.flatch c

/-- The event of window `k` is posted: always for a fault window, under W_EVT or I_EVT for a warn window (R201). -/
def evtOf (c k : Nat) : Bool := if k < 2 then SupCfg.wEvt c else if k = 4 then SupCfg.iEvt c else true

/-- A SUP_CAP record arms again when its latch is cleared (R202). -/
def CapRec.rearm (x : CapRec) (lowCleared highCleared : Bool) : CapRec :=
  if (x.high && highCleared) || (!x.high && lowCleared) then { x with valid := false, live := false } else x

/-- Clear latches of a mask and arm their records again (R198, R202). -/
def RailSt.clearLatch (x : RailSt) (mask : Nat) : RailSt :=
  { x with latch := ((List.range 6).map fun k => fld (b2n (bit x.latch k && !bit mask k)) 1 k).sum,
           capW := x.capW.rearm (bit mask 0) (bit mask 1), capF := x.capF.rearm (bit mask 2) (bit mask 3) }

/-- The evaluation of one window of a rail (R197): in PERIOD mode an event in the first frame of a run and a closing event,
with the run length, in the first frame after it; in STICKY mode the current windows' latches set here. -/
def State.windowEval (s : State) (r : Rail) (left was : Nat) (k : Nat) : State :=
  let c := s.supcfg r
  if h : k < 6 then
    let i : Fin 6 := ⟨k, h⟩
    let now := bit left k
    if stickyOf c k then
      if 4 ≤ k ∧ now = true ∧ bit (s.railAt r).latch k = false then
        let s := s.modRail r fun x => { x with latch := x.latch ||| 2 ^ k }
        if evtOf c k then s.postRail (0x20 + k) r else s
      else s
    else if now then
      let n := if bit was k then min 65535 ((s.railAt r).runLen[i.val] + 1) else 1
      let s := s.modRail r fun x => { x with runLen := x.runLen.set i n }
      if !bit was k && evtOf c k then s.postRail (0x20 + k) r else s
    else if bit was k then
      let n := (s.railAt r).runLen[i.val]
      let s := s.modRail r fun x => { x with runLen := x.runLen.set i 0 }
      if evtOf c k then s.emit { code := 0x20 + k, close := true, scope := scRail, unit := r.val, arg0 := n } else s
    else s
  else s

/-- The frame evaluation of a rail (R195 to R202): the frame results, the latches of PERIOD mode cleared, the chatter count. -/
def State.supEval (s : State) (r : Rail) : State :=
  let c := s.supcfg r
  let left := s.leftNow r
  let was := (s.railAt r).left
  let s := (List.range 6).foldl (fun s k => s.windowEval r left was k) s
  let per := ((List.range 6).map fun k => fld (b2n (!stickyOf c k)) 1 k).sum
  let warn := left % 4 != 0
  let s := s.modRail r fun x =>
    { x.clearLatch per with left := left, chat := if warn then satAdd 8 x.chat 1 else x.chat }
  let s := s.modRailDies r fun x => { x with seen := 0 }
  if warn then s.count (0x040 + r.val) 2 1 else s

/-- The watch of R95 sees one frame that lies after its start, `inside`: remote comparisons were made in it, and every one lay
inside SNS_DEV. -/
def RailSt.watchFrame (x : RailSt) (now : Nat) (inside : Bool) : RailSt :=
  { x with watch := x.watch.map fun w =>
      if now ≤ w.since ∨ 64 ≤ w.frames then w else { w with frames := min 64 (w.frames + 1), good := if inside then min 16 (w.good + 1) else 0 } }

/-- The readmit ramp of a rail sees one evaluation (R213). -/
def RailSt.rampFrame (x : RailSt) : RailSt :=
  { x with ramp := x.ramp.map fun y => { y with good := if x.st = .regulate ∧ x.left % 4 = 0 then min 16 (y.good + 1) else 0 } }

/-- The work of a frame boundary on a rail. `held`: the frame overran, so nothing is evaluated and the latches keep their
state (R39, R225). A catch that goes on is active in the frame that begins as well (R114). -/
def State.supFrame (s : State) (held : Bool) (r : Rail) : State :=
  if !s.railEn r then s
  else
    let s := if held then s else s.supEval r
    let d := s.act
    let y := s.railDie d r
    let s := s.modRail r fun x =>
      { (x.watchFrame s.time.clk (y.snsIdle && y.snsCmp)).rampFrame with
          catchLast := y.catchSeen, wsatLast := y.wsat, blankLast := decide (s.time.clk ≤ x.blankEnd ∧ 0 < x.blankEnd),
          blanked := 0, fBlanked := 0 }
    let s := match s.standby with
      | some o => if 4 ≤ (s.railDie o r).snsIn then s.snsUnmark r o else s
      | none => s
    s.modRailDies r fun x => { x with catchSeen := x.ctch.isSome, wsat := false, snsIdle := true, snsCmp := false }

/-! ### CLEAR_LATCH -/

/-- CLEAR_LATCH takes effect at a frame boundary: the latches clear; a ticket that found a sense fault latched when it was
processed starts the watch of R95, and LOC_FAULT clears once VLOC reads plausibly (R198, R242). -/
def State.clearLatch (s : State) (r : Rail) (mask : Nat) (ref : Option TkRef) (watch : Bool) : State :=
  let s := s.modRail r fun x => { x.clearLatch mask with locClr := x.locClr || (bit mask 6 && x.locFault) }
  match ref with
  | none => s
  | some t =>
    if watch then s.modRail r fun x => { x with watch := some { ref := t, since := s.time.clk, frames := 0, good := 0 } }
    else s.final t 0x00

/-- A watch of R95 runs on a rail, or waits for its frame boundary. -/
def State.watching (s : State) (r : Rail) : Bool :=
  (s.railAt r).watch.isSome || s.sched.any fun x => match x.act with
    | .clearLatch q _ _ w => w && q == r
    | _ => false

/-- CLEAR_LATCH: QUEUED with SNS_FAULT set while a sense fault is latched; with the bit set and none latched, one OK once
the other latches are cleared (R198). A watch that runs or waits already makes a second one BUSY (log entry 35). -/
def execClearLatch (t : Tkt) (s : State) : Host.Outcome State Fault Refusal :=
  let mask := t.byte 16
  let sns := bit mask 6
  let flt := match t.rail with
    | some r => (s.railAt r).snsFault
    | none => false
  let run := match t.rail with
    | some r => sns && flt && s.watching r
    | none => false
  runTicket t 0x500 s { post := [failIf run busy] } fun u =>
    match t.rail with
    | some r =>
      let nb := t.nbBeat u
      if sns && flt then (u.queued t).post nb .frame (.clearLatch r mask (some t.ref) true)
      else if sns then u.post nb .frame (.clearLatch r mask (some t.ref) false)
      else (u.post nb .frame (.clearLatch r mask none false)).ok t
    | none => u.ok t

/-! ### Hiccup and discharge -/

/-- HICCUP_OFF_END: after PARAM1 frames the rail ramps again (R211). -/
def execHiccupOffEnd (r : Rail) (s : State) : Host.Outcome State Fault Refusal :=
  match (s.railAt r).hiccupEnd with
  | none => .next s
  | some b => if (s.railAt r).st ≠ .hiccup ∨ s.bnd < b then .next s else .next (s.atBoundary fun s => s.rampOn r)

/-- The rail that a unit of a scope belongs to: a phase's rail, or the rail itself (R209). -/
def State.unitRail (s : State) (scope unit : Nat) : Option Rail :=
  if scope = scPhase then (phOf unit).bind s.railOfPh else if scope = scRail then railOf unit else none

/-- An order in force by its index. -/
def State.orderAt (s : State) (idx : Nat) : Option Order := s.cfg.orders.find? fun o => o.idx == idx

/-- HICCUP_GOOD_TIME: a rail that has stayed in REGULATE for an order's good time gets the order's attempts back (R211). -/
def execHiccupGoodTime (r : Rail) (s : State) : Host.Outcome State Fault Refusal :=
  let x := s.railAt r
  if x.st ≠ .regulate then .next s
  else
    let f := fun (o : OrderRun) => match s.orderAt o.idx with
      | some w =>
        if PbOrder.action w.word = 1 ∧ s.unitRail (PbOrder.scope w.word) o.unit = some r
            ∧ x.regFrom + 4000 * bits (PbOrder.param2 w.word) 15 8 ≤ s.bnd then { o with used := 0 } else o
      | none => o
    .next { s with orders := s.orders.map f }

/-- The default off threshold in mV: the lower of 10 % of VSET and 300 mV; a sample below the exact tenth is below this (R212,
R220). -/
def offDefault (vset : Nat) : Nat := min (ceilDiv vset 10) 300

/-- A discharge is ordered (R212): it acts once the rail is OFF. A rail in another state first enters OFF as under RAIL_OFF, but not
when the order waits for a hiccup that fires with it (Table 7.13). -/
def State.dischargeOrder (s : State) (r : Rail) (frames thr : Nat) (wait : Bool) : State :=
  let s := s.modRail r fun x => { x with disch := some { thr := thr, frames := frames, start := none, run := 0 } }
  if wait then s else s.turnOff r

/-- The phases that discharge a rail at the start of a cycle: each usable one is driven low (R212). With no die
in service every ball rests at mid (R191). -/
def State.dischargeLow (s : State) (r : Rail) : State :=
  if s.arb.active.isNone then s
  else (s.usableOf r).foldl (fun s p => s.modPh p fun x => { x with ball := .low, rest := false }) s

/-- The discharge of a rail in a beat: it starts on a rail that is OFF, and every usable phase is driven low at the start of
each of its cycles (R212); it ends when the rail leaves OFF. -/
def State.dischargeBeat (s : State) (r : Rail) : State :=
  match (s.railAt r).disch with
  | none => s
  | some y =>
    if (s.railAt r).st == .off then
      let s := if y.start.isNone then s.modRail r fun x => { x with disch := some { y with start := some s.time.clk, run := 0 } } else s
      if s.gridFrom r 0 0 < 3200 then s.dischargeLow r else s
    else if y.start.isSome then s.modRail r fun x => { x with disch := none }
    else s

/-- DISCHARGE_END: the first frame boundary after 2 samples below the threshold, or after PARAM1 frames; the phases return
to mid (R212). -/
def execDischargeEnd (r : Rail) (s : State) : Host.Outcome State Fault Refusal :=
  match (s.railAt r).disch with
  | none => .next s
  | some y =>
    match y.start with
    | none => .next s
    | some b =>
      if s.bnd % 32 ≠ 0 ∨ (y.run < 2 ∧ s.bnd < b + 32 * y.frames) then .next s
      else
        let s := s.modRail r fun x => { x with disch := none }
        .next ((s.usableOf r).foldl (fun s p => s.modPh p PhaseSt.stop) s)

/-! ### Benching and readmitting a rail -/

/-- The member of a gang that its rail actions name is the leader (R214, R215). -/
def State.followsGang (s : State) (r : Rail) : Bool := s.ganged r && !s.leads r

/-- BENCH of a rail: BAD_TARGET on a follower or deputy of a gang; one already benched answers OK (R214). -/
def execBenchRail (t : Tkt) (s : State) : Host.Outcome State Fault Refusal :=
  let fol := match t.rail with
    | some r => s.followsGang r
    | none => false
  runTicket t 0x511 s { rng := [(17, t.byte 17 = 0)], pre := [failIf fol badTarget], post := [failIf s.ring.benchedMe busyBenched], free := true }
    fun u => match t.rail with
      | some r => (u.post (t.nbBeat u) .beat (.benchRail r 0)).ok t
      | none => u.ok t

/-- The readmit ramp of a rail starts at a frame boundary (R213); a rail that is not benched and OFF there refuses it (log
entry 20). The time allowed is the ramp time at SLEW_UP and 64 frames. -/
def State.readmitRail (s : State) (r : Rail) (ref : TkRef) : State :=
  let x := s.railAt r
  if x.benched.isNone || x.ramp.isSome || x.st != .off then s.final ref 0x23
  else
    let s := (s.compose r).rampOn r
    let x := s.railAt r
    let beats := ceilDiv (4 * (x.vset : Int) - (s.railAct r).slew).natAbs (max 1 (RailCfg.slewUp (s.rcfg r)))
    s.modRail r fun x => { x with ramp := some { ref := ref, limit := s.time.clk + beats + 2048, good := 0 } }

/-- RAIL_READMIT_RAMP_END: 16 consecutive frames in REGULATE inside the warn window pass; the time allowed past without them
fails, and the rail returns to OFF benched (R213). READMIT carries kind 1 and the status. With a rail back in service the device that
BENCH_DEVICE put out is in service again (DESIGN CHOICE, log entry 105). -/
def execRailReadmitRampEnd (r : Rail) (s : State) : Host.Outcome State Fault Refusal :=
  match (s.railAt r).ramp with
  | none => .next s
  | some y =>
    if 16 ≤ y.good then
      .next (s.atBoundary fun s =>
        let s := s.modRail r fun x => { x with ramp := none, benched := none }
        let s : State := { s with ring := { s.ring with outMe := false } }
        (s.final y.ref 0x00).postRail 0x08 r 1 0x00 0)
    else if y.limit ≤ s.bnd then
      .next (s.atBoundary fun s =>
        let s := (s.modRail r fun x => { x with ramp := none, cmdOn := false }).enterOff r
        (s.final y.ref 0x3F 0x0003).postRail 0x08 r 1 0x3F 0)
    else .next s

/-- READMIT of a rail: BAD_TARGET when it is not benched, or on a follower or deputy; BUSY while its ramp runs (R17, R213). -/
def execReadmitRail (t : Tkt) (s : State) : Host.Outcome State Fault Refusal :=
  let bad := match t.rail with
    | some r => (s.railAt r).benched.isNone || s.followsGang r
    | none => false
  let run := match t.rail with
    | some r => (s.railAt r).ramp.isSome
    | none => false
  runTicket t 0x521 s
    { rng := [(17, t.byte 17 = 0)], pre := [failIf bad badTarget], post := [failIf s.ring.benchedMe busyBenched, failIf run busy], free := true }
    fun u => match t.rail with
      | some r => (u.queued t).post (t.nbBeat u) .frame (.readmitRail r t.ref)
      | none => u.ok t

end Sys2Proof.Machine
end

