-- ==== Sys2Proof/Machine/Seq.lean ====
section
/-! DEFINITION. Sequencing: programmes and their steps (R216 to R221), barriers of chain programmes (R222), the sequencing
tickets (R223). -/

namespace Sys2Proof.Machine

/-- A programme runs. -/
def SeqSt.running (x : SeqSt) : Bool := x.st == .running || x.st == .holding

/-- The record of a programme's current step (Table 7.10). -/
def State.stepRec (s : State) (n : Prog) : Nat := s.stepcfg (s.seq[n.val]).step

/-- The groups of two programmes overlap (R216). -/
def State.groupsOverlap (s : State) (a b : Prog) : Bool :=
  let g := SeqProg.group (s.progcfg a)
  let h := SeqProg.group (s.progcfg b)
  g == 7 || h == 7 || g == h

/-- A running programme's group overlaps that of programme `n` (R216, R223). -/
def State.seqBusy (s : State) (n : Prog) : Bool :=
  (List.finRange 8).any fun m => (s.seq[m.val]).running && s.groupsOverlap m n

/-- Post an event with the scope and unit of a playbook order (Table 16.2). -/
def State.postOrder (s : State) (code idx unit : Nat) (a1 a2 : Nat := 0) : State :=
  let sc := match s.orderAt idx with
    | some o => PbOrder.scope o.word
    | none => scDev
  s.emit { code := code, scope := sc, unit := unit, arg0 := idx, arg1 := a1, arg2 := a2 }

/-! ### The effects of a step -/

/-- RAIL_ON takes effect: an OFF rail, or one in RAMP_DOWN, ramps (R109); one in HICCUP is left to its order (R108). A follower or
deputy of a gang takes the rail's state from the command packets (R216). -/
def State.railOnAct (s : State) (r : Rail) : State :=
  if s.railBenched r || !s.railEn r || s.followsGang r then s
  else match (s.railAt r).st with
    | .off => (s.compose r).rampOn r
    | .rampDown => (s.compose r).rampOn r
    | _ => s.modRail r fun x => { x with cmdOn := true }

/-- RAIL_OFF takes effect (R110), but for a follower or deputy of a gang (R216). -/
def State.railOffAct (s : State) (r : Rail) : State := if s.followsGang r then s else s.turnOff r

/-- PG takes effect: the output pulls low or is released (Table 7.11). -/
def State.pgAct (s : State) (k : Nat) (on : Bool) : State :=
  let others := ((List.range 8).map fun i => fld (b2n (i != k && bit s.pwr.pg i)) 1 i).sum
  { s with pwr := { s.pwr with pg := others + fld (b2n on) 1 k } }

/-! ### Steps -/

/-- RISE_FAIL: the event, the count, and the programme continues (R219). -/
def State.riseFailed (s : State) (n : Prog) (r : Rail) : State :=
  let s := s.modSeq n fun x =>
    { x with done := some s.time.clk, fails := satAdd 4 x.fails 1, risesAll := satAdd 8 x.risesAll 1 }
  s.postRail 0x26 r

/-- A programme ends at END: SEQ_DONE, and the final stub of its ticket with the counts of the run (R223). -/
def State.seqEnd (s : State) (n : Prog) : State :=
  let x := s.seq[n.val]
  let s := (s.modSeq n fun x => { x with st := .done, ref := none, done := some s.time.clk }).postDev 0x29
  match x.ref with
  | some t => s.final t 0x00 0 (fld x.risesAll 8 0 + fld x.stalls 8 8 + fld x.skips 8 16 + fld x.btos 8 24)
  | none => s

/-- The current step of a programme starts at this boundary; its effect is posted for the beat after it (R218). A BARRIER step
announces its number and the beat of arrival (R222). -/
def State.seqStart (s : State) (n : Prog) : State :=
  let w := s.stepRec n
  let now := s.time.clk
  let s := s.modSeq n fun x => { x with st := .running, started := some now, done := none, held := 0, stalled := false,
                                        skipPend := false, release := none }
  match SeqStep.op w with
  | 0 => s.seqEnd n
  | 1 =>
    match railOf (SeqStep.unit w) with
    | some r =>
      if s.railBenched r then s.riseFailed n r
      else if (s.railAt r).st = .regulate then s.modSeq n fun x => { x with done := some now }
      else s.post (now + 1) .beat (.railOn r)
    | none => s
  | 2 =>
    match railOf (SeqStep.unit w) with
    | some r =>
      let thr := if SeqStep.arg w = 0 then offDefault (s.railAt r).vset else SeqStep.arg w
      (s.modRail r fun x => { x with offThr := thr, offAt := 0, seqThr := some thr }).post (now + 1) .beat (.railOff r)
    | none => s
  | 4 =>
    let s := s.modSeq n fun x => { x with done := some now }
    s.post (now + 1) .beat (.pgSet (SeqStep.unit w % 8) (bit (SeqStep.arg w) 0))
  | 5 =>
    let k := SeqStep.arg w % 16
    let s := s.modSeq n fun x => { x with arrived := x.arrived ++ [(k, s.ring.num, now)] }
    if (s.seq[n.val]).parts = [] then s else s.ctrl 64 71 (fld n.val 8 0 + fld now 64 8 + fld k 4 72)
  | _ => s

/-- A device that started a run is still in the set: it was not benched during the run (R222). -/
def State.seqStays (s : State) (d : Nat) : Bool := d == s.ring.num || (!(s.devAt d).benched && !(s.devAt d).dead)

/-- The participants of a run that are still in the set (R222). -/
def State.seqParts (s : State) (n : Prog) : List Nat := (s.seq[n.val]).parts.filter s.seqStays

/-- A device benched during a chain run leaves the set for the rest of the run (R222). -/
def State.seqLeave (s : State) (n : Prog) : State :=
  let out := (s.seq[n.val]).parts.filter fun d => !s.seqStays d
  if out = [] then s else s.modSeq n fun x => { x with parts := x.parts.filter s.seqStays, left := x.left ++ out }

/-- The arrivals at the barrier that a programme's current step names, as (device, beat) (Table 7.11, R222). -/
def State.arrivals (s : State) (n : Prog) : List (Nat × Nat) :=
  let k := SeqStep.arg (s.stepRec n) % 16
  ((s.seq[n.val]).arrived.filter fun e => e.1 == k).map Prod.snd

/-- The participants that the barrier of a programme's current step still waits for (R222). -/
def State.barrierMiss (s : State) (n : Prog) : List Nat := (s.seqParts n).filter fun d => !((s.arrivals n).any fun e => e.1 == d)

/-- The round boundary at which a barrier releases: at least 250 beats after the latest arrival, once every participant has
arrived (R222). -/
def State.barrierAt (s : State) (n : Prog) : Option Nat :=
  match (s.seq[n.val]).release with
  | some b => some b
  | none =>
    if s.barrierMiss n = [] then some (ceilDiv (((s.arrivals n).map Prod.snd).foldl max 0 + 250) 4000 * 4000) else none

/-- The rail of a RAIL_ON step has risen: it is in REGULATE, and its warn window was not left in the last
evaluation (Table 7.11). -/
def State.risen (s : State) (r : Rail) : Bool := (s.railAt r).st == .regulate && (s.railAt r).left % 4 == 0

/-- What completes of a programme's current step by a boundary (Table 7.11). A step that completed within the frame just
ended has completed before the boundary; END, PG, a skip and a barrier's release complete at it. -/
def State.seqCheck (s : State) (n : Prog) : State :=
  let w := s.stepRec n
  let now := s.time.clk
  match SeqStep.op w with
  | 1 =>
    match railOf (SeqStep.unit w) with
    | some r => if s.risen r then s.modSeq n fun x => { x with done := some (now - 1) } else s
    | none => s
  | 2 =>
    match railOf (SeqStep.unit w) with
    | some r =>
      if 2 ≤ (s.railAt r).offAt then
        (s.modRail r fun x => { x with seqThr := none }).modSeq n fun x => { x with done := some (now - 1) }
      else s
    | none => s
  | 5 =>
    match s.barrierAt n with
    | some b =>
      if b ≤ now ∧ now % 4000 = 0 then
        s.modSeq n fun x => { x with done := some now, arrived := x.arrived.filter fun e => e.1 != SeqStep.arg w % 16 }
      else s
    | none => s
  | _ => s

/-- One frame more that the current step has held: a RAIL_OFF or BARRIER step that still waits reads HOLDING (R224, log
entry 38). -/
def State.seqHeld (s : State) (n : Prog) : State :=
  let op := SeqStep.op (s.stepRec n)
  s.modSeq n fun x =>
    if x.started.isNone || x.done.isSome then x
    else { x with held := satAdd 16 x.held 1, st := if op = 2 ∨ op = 5 then .holding else .running }

/-- The owner's abort acts: no further step runs (R223). -/
def State.seqAborted (s : State) (n : Prog) : State :=
  let x := s.seq[n.val]
  let s := s.modSeq n fun x => { x with st := .aborted, abortPend := false, skipPend := false, ref := none, done := some s.time.clk }
  match x.ref with
  | some t => s.final t 0x30
  | none => s

/-- A programme at its boundary: abort, skip, completion, the next step (R218, R223). No step follows step 127 (R217). -/
def State.seqAdvance (s : State) (n : Prog) : State :=
  let x := s.seq[n.val]
  if x.abortPend then s.seqAborted n
  else if x.started.isNone then s.seqStart n
  else
    let s : State := if x.done.isSome then s
      else if x.skipPend then
        s.modSeq n fun x => { x with done := some s.time.clk, skipPend := false, skips := satAdd 8 x.skips 1 }
      else s.seqCheck n
    match (s.seq[n.val]).done with
    | some d =>
      if d < s.time.clk ∧ x.step < 127 then (s.modSeq n fun x => { x with step := x.step + 1 }).seqStart n else s
    | none => s

/-- The work of a frame boundary on a programme; a chain programme starts its steps at round boundaries, and its steps complete
when they do (R218). -/
def State.seqFrame (s : State) (n : Prog) : State :=
  let x := s.seq[n.val]
  if !x.running then s
  else
    let step := !SeqProg.chain (s.progcfg n) || s.time.clk % 4000 == 0
    let s := s.seqLeave n
    let s := if step then s.seqAdvance n
      else if x.started.isSome && x.done.isNone && !x.skipPend && !x.abortPend then s.seqCheck n else s
    if (s.seq[n.val]).running ∧ (s.seq[n.val]).started = x.started then s.seqHeld n else s

/-! ### Starting a run -/

/-- A programme is set running; its first step starts at the boundary of R218 that this one is, or the next (R223). -/
def State.seqSet (s : State) (n : Prog) (ref : Option TkRef) (parts : List Nat) : State :=
  s.modSeq n fun _ => { st := .running, step := SeqProg.start (s.progcfg n), ref := ref, parts := parts }

/-- SEQ_RUN acts: a programme whose group a running one overlaps does not start; its ticket then ends BUSY, and an order is
suppressed (R223, R225, log entry 20). -/
def State.seqRunAct (s : State) (n : Prog) (ref : Option TkRef) (ord : Option (Nat × Nat)) : State :=
  if s.seqBusy n || !SeqProg.defd (s.progcfg n) then
    let s := match ref with
      | some t => s.final t 0x23
      | none => s
    match ord with
    | some o => s.postOrder 0x1A o.1 o.2
    | none => s
  else s.seqSet n ref []

/-- Which of the other devices in service start a chain run with this one: those whose image defines the chain
programme, which no message tells a device. A free value (R222, log entry 36). -/
def State.seqStarters (s : State) : List Nat × State :=
  (s.others.filter fun d => !(s.devAt d).benched && !(s.devAt d).dead && Config.freeNat (s.fresh + d) % 2 == 1,
   { s with fresh := s.fresh + 64 })

/-- A chain run starts; its participants are the devices that start it (R222, log entry 36). -/
def State.seqRunChainAct (s : State) (n : Prog) (ref : Option TkRef) : State :=
  if s.seqBusy n || !SeqProg.defd (s.progcfg n) then
    match ref with
    | some t => s.final t 0x23
    | none => s
  else
    let x := s.seqStarters
    x.2.seqSet n ref (s.ring.num :: x.1)

/-- A programme number as a programme. -/
def progOf (n : Nat) : Option Prog := if h : n < 8 then some ⟨n, h⟩ else none

/-- SEQ_RUN: BAD_TARGET for a programme not defined, or one that is no chain programme under chain scope; BUSY when a running
programme's group overlaps, or before step 8 (R222, R223, Table 19.10). A chain run starts at the first round boundary at
least 2 rounds after processing; the head hands that boundary to the other devices, also when it refuses its own part. A device whose image
lacks the chain programme refuses its part with BAD_TARGET (DESIGN CHOICE, log entry 104). -/
def execSeqRun (t : Tkt) (s : State) : Host.Outcome State Fault Refusal :=
  let p := progOf (t.byte 16)
  let bad := match p with
    | some n => !SeqProg.defd (s.progcfg n) || s.cfg.inForce.isNone || (t.chain && !SeqProg.chain (s.progcfg n))
    | none => true
  let run := match p with
    | some n => s.seqBusy n
    | none => false
  let b := ceilDiv (max (s.time.clk + 8000) (t.nbBeat s)) 4000 * 4000
  runTicket t 0x400 s
    { rng := [(16, t.byte 16 < 8)], pre := [failIf bad badTarget], post := [failIf (decide (s.start.step < 8)) busy, failIf run busy], bnd := some b }
    fun u => match p with
      | some n =>
        if t.chain then
          if s.isFwd t then (u.queued t).post (ceilDiv (t.nbBeat u) 4000 * 4000) .round (.seqRunChain n none)
          else (u.chainPart t { status := 0x02 } (some b)).post b .round (.seqRunChain n (some t.ref))
        else (u.queued t).post (t.nbBeat u) .frame (.seqRun n (some t.ref) none)
      | none => u.ok t

/-- What SEQ_SKIP and SEQ_ABORT share: BAD_TARGET when the programme does not run (R223). -/
def State.seqNone (s : State) (t : Tkt) : Bool :=
  match progOf (t.byte 16) with
  | some n => !(s.seq[n.val]).running
  | none => true

/-- SEQ_SKIP: the current step ends at the next boundary of R218; the stub's VALUE reports its index (R223, log entry 38). -/
def execSeqSkip (t : Tkt) (s : State) : Host.Outcome State Fault Refusal :=
  runTicket t 0x410 s { rng := [(16, t.byte 16 < 8)], pre := [failIf (s.seqNone t) badTarget] } fun u =>
    match progOf (t.byte 16) with
    | some n => (u.post (t.nbBeat u) .frame (.seqSkip n)).ok t 0 (s.seq[n.val]).step
    | none => u.ok t

/-- SEQ_ABORT: the programme stops at the next boundary; its run's final stub is VOID (R223). -/
def execSeqAbort (t : Tkt) (s : State) : Host.Outcome State Fault Refusal :=
  runTicket t 0x420 s { rng := [(16, t.byte 16 < 8)], pre := [failIf (s.seqNone t) badTarget] } fun u =>
    match progOf (t.byte 16) with
    | some n => (u.post (t.nbBeat u) .frame (.seqAbort n)).ok t
    | none => u.ok t

/-! ### The timed commands -/

/-- The beat at which a running step with an operation has run for some beats; none when no such step runs. -/
def State.stepUntil (s : State) (n : Prog) (op beats : Nat) : Option Nat :=
  let x := s.seq[n.val]
  if x.running && x.done.isNone && SeqStep.op (s.stepRec n) == op then x.started.map (· + beats) else none

/-- RISE_FAIL: the rise timeout of a RAIL_ON step has passed and the rail has not risen (R219). -/
def execRiseFail (n : Prog) (s : State) : Host.Outcome State Fault Refusal :=
  match s.stepUntil n 1 (32 * SeqStep.arg (s.stepRec n)), railOf (SeqStep.unit (s.stepRec n)) with
  | some b, some r => if s.bnd < b ∨ s.risen r = true then .next s else .next (s.atBoundary fun s => s.riseFailed n r)
  | _, _ => .next s

/-- SEQ_WAIT_END: a WAIT step completes after ARG frames (Table 7.11). -/
def execSeqWaitEnd (n : Prog) (s : State) : Host.Outcome State Fault Refusal :=
  match s.stepUntil n 3 (32 * SeqStep.arg (s.stepRec n)) with
  | some b => if s.bnd < b then .next s else .next (s.modSeq n fun x => { x with done := some s.bnd })
  | none => .next s

/-- SEQ_STALL: a RAIL_OFF step has held for STALL_T frames, its rail not below the threshold; posted once, and the step goes on
holding (R221). -/
def execSeqStall (n : Prog) (s : State) : Host.Outcome State Fault Refusal :=
  match s.stepUntil n 2 (32 * SeqProg.stallT (s.progcfg n)), railOf (SeqStep.unit (s.stepRec n)) with
  | some b, some r =>
    if s.bnd < b ∨ (s.seq[n.val]).stalled = true ∨ 2 ≤ (s.railAt r).offAt then .next s
    else .next (s.atBoundary fun s =>
      (s.modSeq n fun x => { x with stalled := true, stalls := satAdd 8 x.stalls 1 }).postRail 0x27 r)
  | _, _ => .next s

/-- BARRIER_ARRIVAL: another device announces its arrival at a barrier of a programme, which it runs then; that of a benched
device, or of one that was benched during the run, is ignored (R222, R393). -/
def execBarrierArrival (rx : RxIn) (dev : Nat) (n : Prog) (a : Arrival) (s : State) : Host.Outcome State Fault Refusal :=
  .next (s.rxPkt rx 2 fun s =>
    let s := s.relay rx.via dev 71 (fld n.val 8 0 + fld a.beat 64 8 + fld a.bar 4 72)
    if (s.seq[n.val]).running && !((s.seq[n.val]).arrived.any fun e => e.1 == a.bar && e.2.1 == dev) && dev != s.ring.num
        && s.seqStays dev && !(s.seq[n.val]).left.contains dev then
      s.modSeq n fun x => { x with arrived := x.arrived ++ [(a.bar, dev, a.beat)], parts := if x.parts.contains dev then x.parts else x.parts ++ [dev] }
    else s)

/-- The operation of the first RAIL step of a programme from step `k` on, looking at most `fuel` steps ahead (R222). -/
def State.firstRail (s : State) : Nat → Nat → Nat
  | 0, _ => 0
  | fuel + 1, k =>
    let op := SeqStep.op (s.stepcfg k)
    if op = 1 ∨ op = 2 then op else if op = 0 then 0 else s.firstRail fuel (k + 1)

/-- BARRIER_TIMEOUT: the timeout of a barrier has passed; the event names the lowest missing device and how many there are. A
programme that turns rails on releases at the next round boundary; one that turns them off holds (R222). -/
def execBarrierTimeout (n : Prog) (s : State) : Host.Outcome State Fault Refusal :=
  match s.stepUntil n 5 (4000 * (SeqStep.arg (s.stepRec n) / 16)) with
  | none => .next s
  | some b =>
    let miss := s.barrierMiss n
    if s.bnd < b ∨ (s.seq[n.val]).stalled = true ∨ miss = [] then .next s
    else .next (s.atBoundary fun s =>
      let rel := if s.firstRail 128 (SeqProg.start (s.progcfg n)) = 1 then some (nextRound s.time.clk) else none
      (s.modSeq n fun x => { x with stalled := true, btos := satAdd 8 x.btos 1, release := rel }).postDev 0x28
        (miss.min?.getD 0) miss.length)

/-! ### A rail that leaves under a running step -/

/-- A rail is benched: a running RAIL_ON step that names it raises RISE_FAIL at once (R214, R225). -/
def State.benchRailOut (s : State) (r : Rail) (code : Nat) : State :=
  if s.railBenched r then s
  else
    let s := s.benchRail r code
    (List.finRange 8).foldl (fun (s : State) (n : Prog) =>
      if (s.stepUntil n 1 0).isSome && SeqStep.unit (s.stepRec n) == r.val then s.riseFailed n r else s) s

end Sys2Proof.Machine
end

