-- ==== Sys2Proof/Machine/Feeds.lean ====
section
/-! DEFINITION. The feeds and their pairs (R226 to R238), currents and budgets of the feeds (R235 to R239), connection
faults of the feeds (R241), and the housekeeping supplies (R245 to R249). -/

namespace Sys2Proof.Machine

/-! ### The pairs -/

/-- A feed. -/
def State.feedAt (s : State) (f : Feed) : FeedSt := s.feed[f.ix.val]

/-- FEED_STAT.STATE follows the pair and the conditions (Table 8.3). -/
def FeedSt.settle (x : FeedSt) : FeedSt :=
  { x with st := if x.pairOn then .conducting else if x.rev || x.ov then .blocked else if x.present then .standby else .absent }

/-- A feed changed, its STATE with it. -/
def State.setFeed (s : State) (f : Feed) (g : FeedSt → FeedSt) : State := s.modFeed f fun x => (g x).settle

/-- A feed seen at a level at a beat: a reversal that lasted until now ends here (R229, log entry 39). -/
def FeedSt.seen (x : FeedSt) (now : Nat) : FeedSt :=
  { x with revAt := if x.revOn then some now else x.revAt, revOn := false, lvlAt := some now }

/-- Both pairs are held off: during the hold-off of an SVC_BTN reset and in ship mode (R264, R265). -/
def State.feedsHeld (s : State) : Bool := s.pack.hold.isSome || s.pack.shipIn

/-- The preferred feed of the mode in force; none in SHARE (R228). -/
def State.prefFeed (s : State) : Option Feed := if s.pwr.mode = 1 then some .a else if s.pwr.mode = 2 then some .b else none

/-- BOTH_LOST when no feed is present and none conducts, once a feed had been present (R231, log entry 39). -/
def State.bothLostCheck (s : State) : State :=
  let a := s.feedAt .a
  let b := s.feedAt .b
  if a.present || b.present || a.pairOn || b.pairOn || s.pwr.bothLost || !s.pwr.everPresent then s
  else ({ s with pwr := { s.pwr with bothLost := true } } : State).postDev 0x36

/-- A conducting feed is declared lost (R229): its pair turns off, and the other feed takes over when it is present (R230).
The causes are numbered in the order of R229 (log entry 39). -/
def State.feedDeclare (s : State) (f : Feed) (cause : Nat) (g : FeedSt → FeedSt) : State :=
  let s := s.setFeed f fun x => { g x with pairOn := false }
  let s := { s with pwr := { s.pwr with declAt := some s.time.clk } }
  let s := s.postDev 0x30 f.ix.val cause
  if (s.feedAt f.other).present then
    (s.setFeed f.other fun x => { x with pairOn := x.pairOn || !s.feedsHeld }).postDev 0x31
  else s.bothLostCheck

/-- FEED_LOST: the conditions of R229. A feed that does not conduct is not declared; it stops being present when it leaves
its window. OV needs the other feed present, and the 2 V drop is the preferred feed's. A reverse-current trip counts as a reversal: REV, BLOCKED,
and no presence within the round after it (DESIGN CHOICE, log entry 108). After a loss by the 2 V drop, RET_T counts from the declaration
(DESIGN CHOICE, log entry 109). -/
def execFeedLost (f : Feed) (cause : FeedCause) (s : State) : Host.Outcome State Fault Refusal :=
  let x := s.feedAt f
  let other := (s.feedAt f.other).present
  match cause with
  | .reverse =>
    if x.pairOn then .next (s.feedDeclare f 0 fun x => { x with present := false, rev := true, revAt := some s.time.clk })
    else .next s
  | .under =>
    let g := fun (x : FeedSt) => { x.seen s.time.clk with present := false, uv := true, ov := false }
    if x.pairOn then .next (s.feedDeclare f 1 g) else .next ((s.setFeed f g).bothLostCheck)
  | .overv =>
    let g := fun (x : FeedSt) => { x.seen s.time.clk with present := false, ov := true, uv := false }
    if x.pairOn && other then .next ((s.feedDeclare f 2 g).postDev 0x33 f.ix.val)
    else if x.pairOn then .next (s.setFeed f fun y => y.seen s.time.clk)
    else .next (s.setFeed f g)
  | .droop =>
    if x.pairOn && s.prefFeed == some f then .next (s.feedDeclare f 3 fun x => { x with presentFrom := s.time.clk })
    else .next s

/-- The pair of a feed that becomes present conducts: in SHARE; in the PRIO modes when the other pair does not, and, for the alternate feed, when
the preferred one is not present (R228, R231, R233). -/
def State.feedTakes (s : State) (f : Feed) : Bool :=
  !s.feedsHeld && (s.pwr.mode == 0 || (!(s.feedAt f.other).pairOn && (s.prefFeed == some f || !(s.feedAt f.other).present)))

/-- FEED_PRESENT: a feed not reversed within the last round lies in its window (R229). In SHARE its pair conducts; in the
PRIO modes it conducts when the other does not, and otherwise stands by (R228, R231, R233). A feed whose reversal lasted until now is not yet
present. -/
def execFeedPresent (f : Feed) (s : State) : Host.Outcome State Fault Refusal :=
  let x := s.feedAt f
  if x.present then .next s
  else if x.revOn || x.revAt.any fun b => decide (s.time.clk < b + 4000) then
    .next (s.setFeed f fun x => { x.seen s.time.clk with uv := false, ov := false })
  else
    let on := s.feedTakes f
    let s := s.setFeed f fun x =>
      { x with present := true, presentFrom := s.time.clk, uv := false, ov := false, rev := false, pairOn := x.pairOn || on, lvlAt := some s.time.clk }
    .next { s with pwr := { s.pwr with everPresent := true, bothLost := false } }

/-- FEED_RETURN: at a round boundary the device returns to the preferred feed once it has stayed present for RET_T rounds;
the alternate pair is off before the preferred one conducts (R233). -/
def execFeedReturn (s : State) : Host.Outcome State Fault Refusal :=
  match s.prefFeed with
  | none => .next s
  | some f =>
    let x := s.feedAt f
    if s.bnd % 4000 ≠ 0 ∨ x.present = false ∨ x.pairOn = true
        ∨ s.bnd < x.presentFrom + 4000 * FeedCfg.retT s.fdcfg ∨ s.feedsHeld = true then .next s
    else .next (s.atBoundary fun s =>
      ((s.setFeed f.other fun x => { x with pairOn := false }).setFeed f fun x => { x with pairOn := true }).postDev 0x31)

/-- FEED_REV: FEEDx_IN below −1 V, and below FEED_UV; the pair is held off, and a conducting one draws reverse current, so its
feed is lost (R229, R241, Table 8.4). The reversal lasts until the feed is seen to lie elsewhere (log entry 39). -/
def execFeedRev (f : Feed) (s : State) : Host.Outcome State Fault Refusal :=
  let g := fun (x : FeedSt) =>
    { x with present := false, pairOn := false, rev := true, revAt := some s.time.clk, revOn := true, uv := true, ov := false, lvlAt := some s.time.clk }
  if (s.feedAt f).pairOn then .next ((s.feedDeclare f 0 g).postDev 0x32 f.ix.val)
  else .next (((s.setFeed f g).postDev 0x32 f.ix.val).bothLostCheck)

/-- FEED_OV: a feed above FEED_OV while the other is absent keeps conducting (R234). -/
def execFeedOv (f : Feed) (s : State) : Host.Outcome State Fault Refusal :=
  if (s.feedAt f.other).present then .next s
  else .next ((s.setFeed f fun x => { x.seen s.time.clk with present := false, ov := true, uv := false }).postDev 0x33 f.ix.val)

/-- The mode of the configuration in force takes effect; a change within 64 beats after a declaration waits until they have
passed (R238). A reversal is over one round after its end (R229). -/
def State.feedBeat (s : State) : State :=
  let past := fun (x : FeedSt) => x.rev && !x.revOn && x.revAt.any fun b => decide (b + 4000 ≤ s.time.clk)
  let s := [Feed.a, Feed.b].foldl (fun (s : State) f =>
    if past (s.feedAt f) then s.setFeed f fun x => { x with rev := false } else s) s
  let m := FeedCfg.mode s.fdcfg
  if s.pwr.mode = m ∨ s.pwr.declAt.any (fun d => decide (s.time.clk < d + 64)) = true then s
  else
    let s := { s with pwr := { s.pwr with mode := m } }
    if s.feedsHeld then s
    else match s.prefFeed with
    | none => [Feed.a, Feed.b].foldl (fun (s : State) f => s.setFeed f fun x => { x with pairOn := x.pairOn || x.present }) s
    | some f =>
      if (s.feedAt f).present then
        (s.setFeed f.other fun x => { x with pairOn := false }).setFeed f fun x => { x with pairOn := true }
      else if (s.feedAt f.other).present then
        (s.setFeed f fun x => { x with pairOn := false }).setFeed f.other fun x => { x with pairOn := true }
      else s

/-! ### Currents and power -/

/-- The shunt of a feed in 10 µΩ (Table 8.1). -/
def State.feedShunt (s : State) (f : Feed) : Nat := if f = .a then FeedCfg.shuntA s.fdcfg else FeedCfg.shuntB s.fdcfg

/-- VSYS in mV: the latest code of channel 36; while that has not been converted, the highest frame mean of the feeds whose pairs
conduct, 0 with none, less the 20 mV that an ideal diode drops (R228, Table 11.1, log entry 39). -/
def State.vsysMv (s : State) : Nat :=
  let c := ((s.conv[2]).chan[36]).toNat
  if c ≠ 0 then c * 64000 / 16384
  else ([Feed.a, Feed.b].map fun f => if (s.feedAt f).pairOn then (((s.feedAt f).lastV.getD {}).round).toNat - 20 else 0).foldl max 0

/-- What a frame's mean voltage says of UV and OV: a feed whose level was last reported before the frame, and whose mean lies at or above FEED_UV or
at or below FEED_OV, is no longer below or above it (Table 8.3). -/
def FeedSt.levels (x : FeedSt) (cfg now : Nat) (v : Q) : FeedSt :=
  if x.lvlAt.any fun b => decide (now < b + 32) then x
  else { x with uv := x.uv && Q.lt v (Q.ofInt (250 * FeedCfg.feedUv cfg : Nat)), ov := x.ov && Q.lt (Q.ofInt (250 * FeedCfg.feedOv cfg : Nat)) v }

/-- The frame means of a feed, from the pairs that SEQ 0 converted in the frame (R235, R300), and the connection faults of
its shunt and pair (Table 8.4). A frame without a pass leaves the readings as they were; one above 0 V ends a reversal. -/
def State.feedFrame (s : State) (f : Feed) : State :=
  let e : Fin 16 := if f = .a then 0 else 1
  let x := ((s.mseq[0]).res[e.val])[2]
  let g := 2 ^ MeterEnt.gain (MeterSeqCfg.ent (s.mcfg 0) e.val)
  let sh := max 1 (s.feedShunt f)
  if x.accN = 0 then s
  else
    let i := Q.norm (x.acc * 80000) (8192 * g * sh * x.accN)
    let v := Q.norm (x.acc2 * 64000) (16384 * g * x.accN)
    let p := Q.norm (x.accP * 80000 * 64000) (8192 * g * sh * 10 * 16384 * g * x.accN)
    let vs := s.vsysMv
    let fet := (s.feedAt f).pairOn && vs != 0 && Q.lt (Q.ofInt (vs + 500)) v && Q.lt (Q.ofInt 50) i
    let was := s.feedAt f
    let ends := was.revOn && Q.lt {} v
    let s := s.setFeed f fun y =>
      { y with vin := (clampI 0 255 (Q.divN v 250).round).toNat, iin := clampI (-32768) 32767 i.round, power := p,
               prevV := y.lastV, prevI := y.lastI, lastV := some v, lastI := i,
               iRound := Q.add y.iRound i, nRound := y.nRound + 1, revOn := y.revOn && !ends,
               revAt := if ends then some s.time.clk else y.revAt,
               isnsRun := if x.accSat then min 4 (y.isnsRun + 1) else 0, fetRun := if fet then min 4 (y.fetRun + 1) else 0 }
    let now := s.feedAt f
    let s := s.setFeed f fun y => { y.levels s.fdcfg s.time.clk v with isns := decide (4 ≤ y.isnsRun ∨ 4 ≤ y.shortRun), fet := decide (4 ≤ y.fetRun) }
    let s := if (s.feedAt f).isns && !was.isns then s.postDev 0x34 f.ix.val else s
    if decide (4 ≤ now.fetRun) && !was.fet then s.postDev 0x35 f.ix.val else s

/-- The ideal diodes of R228, of both feeds in SHARE and of the preferred feed in the PRIO modes: a pair is off while VSYS lies more than 10 mV
above its feed, and conducts as soon as VSYS falls below it (R230); a preferred feed that has yet to return leaves the alternate pair its turn
(R233). The comparator is analogue; the model goes by the frame's readings (log entry 39). -/
def State.shareFrame (s : State) : State :=
  if s.feedsHeld = true then s
  else
    let vs : Int := s.vsysMv
    [Feed.a, Feed.b].foldl (fun (s : State) f =>
      let x := s.feedAt f
      if s.pwr.mode ≠ 0 ∧ s.prefFeed ≠ some f then s
      else match x.lastV with
      | some v =>
        if x.pairOn && Q.lt (Q.add v (Q.ofInt 10)) (Q.ofInt vs) then s.setFeed f fun x => { x with pairOn := false }
        else if !x.pairOn && x.present && s.feedTakes f && Q.lt (Q.ofInt vs) v then s.setFeed f fun x => { x with pairOn := true }
        else s
      | none => s) s

/-- The input-power budget at a frame boundary (R236): PIN_BUD after 4 consecutive frames above it, repeated at most once a round
while that lasts. -/
def State.pinFrame (s : State) : State :=
  let sum := [Feed.a, Feed.b].foldl (fun q f => if (s.feedAt f).isns then q else Q.add q (s.feedAt f).power) {}
  let bud := FeedCfg.pinBud s.fdcfg
  let run := if bud ≠ 0 ∧ Q.lt (Q.ofInt (1000 * bud)) sum = true then min 4 (s.pwr.pinRun + 1) else 0
  let s := { s with pwr := { s.pwr with pinRun := run, pinRound := if run = 0 then none else s.pwr.pinRound } }
  let r := roundOf s.time.clk
  if run = 4 ∧ s.pwr.pinRound ≠ some r then ({ s with pwr := { s.pwr with pinRound := some r } } : State).postDev 0x37 else s

/-- The sense lines of a shunt shorted together: a round mean below 0.5 A on the only conducting feed while VSYS draws above 2 A
(Table 8.4). The device has no measurement of the VSYS current, so that condition is a free value (log entry 39). -/
def State.shuntRound (s : State) (f : Feed) (mean : Q) : State :=
  let x := s.feedAt f
  if x.nRound ≠ 0 ∧ x.pairOn = true ∧ (s.feedAt f.other).pairOn = false ∧ Q.lt mean.abs (Q.ofInt 5) = true then
    let d := s.draw 2
    d.2.setFeed f fun x => { x with shortRun := if d.1 = 1 then min 4 (x.shortRun + 1) else 0 }
  else s.setFeed f fun x => { x with shortRun := 0 }

/-- The latest values of a device's feeds, taken in by a head (R237). -/
def State.chainTake (s : State) (dev ga : Nat) (ia : Int) (gb : Nat) (ib : Int) : State :=
  let l := s.pwr.chainI.filter fun e => e.1 != dev
  { s with pwr := { s.pwr with chainI := l ++ [(dev, ga, ia, gb, ib, roundOf s.time.clk)] } }

/-- A group's sum of the latest values in 0.1 A (R237). -/
def State.chainSum (s : State) (g : Nat) : Int :=
  (s.pwr.chainI.map fun e => (if e.2.1 = g then e.2.2.1 else 0) + (if e.2.2.2.1 = g then e.2.2.2.2.1 else 0)).sum

/-- One feed group on a head at a round boundary: CHAIN_BUD after 4 consecutive rounds above its entry, repeated at most once per
1,000 rounds while that lasts, from the head that serves the owner, with the group, the devices counted at an old value and
the sum in A. A mask of devices exceeds an argument, so it holds the lowest, 64 for none, and their count (R237, R398, log
entry 39). -/
def State.chainGroup (s : State) (g : Fin 15) : State :=
  let r := roundOf s.time.clk
  let lim := ChainFeed.ichain (ChainFeed.entry (s.cfg.cfg.chainFeed[0]) g.val)
  let sum : Int := s.chainSum g.val
  let run : Nat := if lim ≠ 0 ∧ (10 * lim : Int) < sum then min 4 (s.pwr.chainRun[g.val] + 1) else 0
  let rep : Option Nat := if run = 0 then none else s.pwr.chainRound[g.val]
  let s : State := { s with pwr := { s.pwr with chainRun := s.pwr.chainRun.set g.val run, chainRound := s.pwr.chainRound.set g.val rep } }
  let due : Bool := match rep with
    | some q => decide (q + 1000 ≤ r)
    | none => true
  if decide (run = 4) && due && s.own.valid && s.own.ownDev == s.ring.num then
    let late := (s.pwr.chainI.filter fun e => (e.2.1 == g.val || e.2.2.2.1 == g.val) && decide (e.2.2.2.2.2 + 2 ≤ r)).map Prod.fst
    ({ s with pwr := { s.pwr with chainRound := s.pwr.chainRound.set g.val (some r) } } : State).postChain 0x38 g.val
      (fld (late.min?.getD 64) 16 0 + fld late.length 16 16) (argI (sum / 10))
  else s

/-- The telemetry packet of a device's round-mean feed currents, 8 bytes: each feed's group and mean (R237). -/
def chainPkt (dev ga : Nat) (ia : Int) (gb : Nat) (ib : Int) : RingPkt :=
  { kind := 3, src := dev, len := 2, body := fld ga 4 0 + fld gb 4 4 + fld (uword 16 ia) 16 8 + fld (uword 16 ib) 16 24 }

/-- The feeds at a round boundary: round means go to both heads, a head sums its groups (R237). A feed with a current-sense fault goes as one of no
group, so that the heads count it no more (Table 8.4). -/
def State.feedRound (s : State) : State :=
  let mean := fun (f : Feed) => Q.divN (s.feedAt f).iRound (max 1 (s.feedAt f).nRound)
  let ma := mean .a
  let mb := mean .b
  let s := (s.shuntRound .a ma).shuntRound .b mb
  let grp := fun (f : Feed) (g : Nat) => if (s.feedAt f).isns then 15 else g
  let ga := grp .a (FeedCfg.groupA s.fdcfg)
  let gb := grp .b (FeedCfg.groupB s.fdcfg)
  let carries := decide (FeedCfg.groupA s.fdcfg ≠ 15 ∨ FeedCfg.groupB s.fdcfg ≠ 15)
  let s := (s.setFeed .a fun x => { x with iRound := {}, nRound := 0 }).setFeed .b fun x => { x with iRound := {}, nRound := 0 }
  let k := chainPkt s.ring.num ga ma.round gb mb.round
  let s : State := if !carries then s
    else s.heads.foldl (fun (s : State) h =>
      if h = s.ring.num then s.chainTake h ga ma.round gb mb.round
      else s.send { k with dst := h }) s
  if s.isHead then (List.finRange 15).foldl State.chainGroup s else s

/-! ### Housekeeping supplies -/

/-- A housekeeping supply starts, with its soft start (R247). -/
def State.hkStart (s : State) (k : Hk) : State :=
  let now := s.time.clk
  s.modHk k fun x => { x with on := true, good := false, ended := false, since := now }

/-- A housekeeping supply turns off. -/
def State.hkStop (s : State) (k : Hk) : State := s.modHk k fun x => { x with on := false, good := false, ended := false }

/-- Every housekeeping supply turns off (R248, R284). -/
def State.hkAllOff (s : State) : State := (List.finRange 14).foldl State.hkStop s

/-- HK_POWER_GOOD: a supply reaches its power-good level, or its soft start of 0.25 ms × 2^SS, 1,000 beats × 2^SS, ends below
it, which is HK_FAULT (R247). -/
def execHkPowerGood (k : Hk) (good : Bool) (s : State) : Host.Outcome State Fault Refusal :=
  let x := s.hk[k.val]
  if x.on = false ∨ x.good = true ∨ (good = false ∧ (x.ended = true ∨ s.bnd < x.since + 1000 * 2 ^ HkCfg.ss (s.hkcfg k))) then .next s
  else
    let s := s.modHk k fun x => { x with good := good, ended := true }
    .next (if good then s else s.postDev 0x3C k.val)

/-- HK_EXCURSION: the output of a supply that has ended its soft start leaves its window after the deglitch; HK_FAULT (R248).
The pulses a buck skips above its OV level are analogue (log entry 21). -/
def execHkExcursion (k : Hk) (_above : Bool) (s : State) : Host.Outcome State Fault Refusal :=
  let x := s.hk[k.val]
  if x.on && x.ended then .next (s.postDev 0x3C k.val) else .next s

/-- The supplies that belong to a start slot in the configuration in force. -/
def State.slotOf (s : State) (n : Nat) : List Hk :=
  (List.finRange 14).filter fun k => s.cfg.inForce.isSome && HkCfg.en (s.hkcfg k) && HkCfg.slot (s.hkcfg k) == n

/-- The next start slot above `n` that holds a supply. -/
def State.nextSlot (s : State) (n : Nat) : Option Nat :=
  (List.range 16).find? fun m => decide (n < m) && !(s.slotOf m).isEmpty

/-- Programmes with AUTO = 1 and CHAIN = 0 start, in number order; one whose group overlaps does not (R471). -/
def State.autoStart (s : State) : State :=
  (List.finRange 8).foldl (fun (s : State) n =>
    let w := s.progcfg n
    if SeqProg.defd w && SeqProg.auto w && !SeqProg.chain w then s.seqRunAct n none none else s) s

/-- The next start slot starts; after the last one the AUTO programmes do (R247). A supply that is on already keeps its state. -/
def State.slotStart (s : State) : State :=
  match s.nextSlot s.pwr.slot with
  | some n =>
    let s := { s with pwr := { s.pwr with slot := n } }
    (s.slotOf n).foldl (fun s k => if (s.hk[k.val]).skip || (s.hk[k.val]).on then s else s.hkStart k) s
  | none => ({ s with pwr := { s.pwr with slot := 16 } } : State).autoStart

/-- The start slots at a round boundary: once the first slot has started, the next starts when every supply of the one before has ended its
soft start (R247). -/
def State.hkRound (s : State) : State :=
  if s.start.step ≠ 8 ∨ s.cfg.inForce.isNone = true ∨ s.pwr.slot = 0 ∨ s.pwr.slot = 16 then s
  else if (s.slotOf s.pwr.slot).any fun k => (s.hk[k.val]).on && !(s.hk[k.val]).ended then s
  else s.slotStart

/-- HK_SWITCH takes effect at a round boundary; a slot that has not yet started then skips the supply (R248, R249). -/
def State.hkSwitchAct (s : State) (k : Hk) (on : Bool) : State :=
  let s := s.modHk k fun x => { x with skip := true }
  if on then (if (s.hk[k.val]).on then s else s.hkStart k) else s.hkStop k

/-- An overlay switch changes a supply only when it changes its EN (R248). -/
def State.hkOverlay (s : State) (was : Cfg) : State :=
  (List.finRange 14).foldl (fun (s : State) k =>
    let a := HkCfg.en (was.hkCfg[k.val])
    let b := HkCfg.en (s.hkcfg k)
    if a && !b then s.hkStop k else if !a && b && !(s.hk[k.val]).on then s.hkStart k else s) s

/-- HK_SWITCH: for the owner; BAD_TARGET for a supply with EN = 0 (R248). -/
def execHkSwitch (t : Tkt) (s : State) : Host.Outcome State Fault Refusal :=
  let k : Option Hk := if h : t.byte 16 < 14 then some ⟨t.byte 16, h⟩ else none
  let bad := match k with
    | some k => !HkCfg.en (s.hkcfg k) || s.cfg.inForce.isNone
    | none => true
  runTicket t 0x430 s { rng := [(16, t.byte 16 < 14), (17, t.byte 17 < 2)], pre := [failIf bad badTarget] } fun u =>
    match k with
    | some k => (u.post (t.nbBeat u) .round (.hkSwitch k (t.byte 17 == 1))).ok t
    | none => u.ok t

end Sys2Proof.Machine
end

