-- ==== Sys2Proof/Machine/Pack.lean ====
section
/-! DEFINITION. The backup pack: charger (R252 to R258), pack removal (R259, R260), pack switch (R261), service button and
ship mode (R263 to R265), gauge (R266 to R271). -/

namespace Sys2Proof.Machine

/-- The pack changed. -/
def State.modPack (s : State) (f : PackSt → PackSt) : State := { s with pack := f s.pack }

/-- A pack is configured: CHEM is not 0 in the image in force (R251). -/
def State.packOn (s : State) : Bool := s.cfg.inForce.isSome && PackCfg.chem s.pkcfg != 0

/-- CELLS. -/
def State.cells (s : State) : Nat := PackCfg.cells s.pkcfg
/-- The pack voltage of a per-cell voltage in mV. -/
def State.packMv (s : State) (cell : Nat) : Q := Q.ofInt (s.cells * cell : Nat)
/-- VCV per cell in mV. -/
def State.vcvMv (s : State) : Nat := 3000 + 10 * PackCfg.vcv s.pkcfg
/-- VPRE per cell in mV. -/
def State.vpreMv (s : State) : Nat := 2000 + 10 * PackCfg.vpre s.pkcfg
/-- The pack thermistor, NTC0 (R243). -/
def State.ntc0 (s : State) : SrcSt := s.therm.src[72]

/-! ### Pack switch -/

/-- A feed lies below RES_TH: by its frame-mean voltage, or, with no reading yet, by not being present (R261, log entry 40). -/
def State.feedBelowRes (s : State) (f : Feed) : Bool :=
  match (s.feedAt f).lastV with
  | some v => Q.lt v (Q.ofInt (250 * PackCfg.resTh s.pkcfg : Nat))
  | none => !(s.feedAt f).present

/-- Both feeds lie below RES_TH. -/
def State.bothBelowRes (s : State) : Bool := s.feedBelowRes .a && s.feedBelowRes .b

/-- The pack switch opens for a cause: 0 SVC_BTN, 1 order, 2 ticket, 3 ship mode, 4 STRICT_DEFAULTS; PACK_OPENED when it was
not OPEN (R261, log entry 40). -/
def State.pswOpen (s : State) (cause : Nat) : State :=
  let was := s.pack.psw
  let s := s.modPack fun x => { x with psw := .open_, holds := x.holds ||| 2 ^ cause }
  if was = .open_ then s else s.postDev 0x47 cause

/-- The armed switch closes; with CHEM = 0, or on a reversed pack, it is never turned on (R251, R261, Table 8.4). -/
def State.pswClose (s : State) : State :=
  if s.pack.psw = .armed ∧ s.packOn = true ∧ s.pack.revPosted = false then
    (s.modPack fun x => { x with psw := .closed }).postDev 0x46
  else s

/-- Causes of a mask no longer hold the switch; with none left it returns to ARMED, and closes at once when both feeds lie
below RES_TH (R261, Table 9.8). -/
def State.pswRelease (s : State) (mask : Nat) : State :=
  let s := s.modPack fun x =>
    { x with holds := ((List.range 5).map fun k => fld (b2n (bit x.holds k && !bit mask k)) 1 k).sum }
  if s.pack.psw = .open_ ∧ s.pack.holds = 0 then
    let s := s.modPack fun x => { x with psw := .armed, openEnd := none }
    if s.bothBelowRes then s.pswClose else s
  else s

/-- A PACK_OPEN order holds the switch OPEN for some rounds, or until the owner releases it (R261). -/
def State.packOpenOrder (s : State) (rounds : Nat) : State :=
  (s.pswOpen 1).modPack fun x => { x with openEnd := if rounds = 0 then none else some (s.time.clk + 4000 * rounds) }

/-- PACK_ON: both feeds have lain below RES_TH for 1 µs; the armed switch closes (R261). -/
def execPackOn (s : State) : Host.Outcome State Fault Refusal := .next s.pswClose

/-- PACK_OPEN_TIME_END: the open time of an order ends (R261). -/
def execPackOpenTimeEnd (s : State) : Host.Outcome State Fault Refusal :=
  match s.pack.openEnd with
  | none => .next s
  | some b => if s.bnd < b then .next s else .next ((s.modPack fun x => { x with openEnd := none }).pswRelease 2)

/-- PACK_SWITCH, open: BUSY while the switch is CLOSED and both feeds lie below RES_TH (R261, R265). -/
def execPackSwitchOpen (t : Tkt) (s : State) : Host.Outcome State Fault Refusal :=
  runTicket t 0x920 s
    { nb := some false, rng := [(16, t.byte 16 < 2)], post := [failIf (s.pack.psw == .closed && s.bothBelowRes) busy] }
    fun u => (u.pswOpen 2).ok t

/-- PACK_SWITCH, release: an owner's release ends the hold of a ticket and of an order (R261). -/
def execPackSwitchRelease (t : Tkt) (s : State) : Host.Outcome State Fault Refusal :=
  runTicket t 0x921 s { nb := some false, rng := [(16, t.byte 16 < 2)] } fun u => (u.pswRelease 6).ok t

/-! ### Charger -/

/-- The charger changes state; each change is posted (R253). The timer of a stage starts with it; FAST and CV share one (R256). A stage that is
resumed from WAIT_VIN starts its timer anew, and CHG_TIMEOUT may be posted in it again (DESIGN CHOICE, log entry 110). -/
def State.chgTo (s : State) (c : ChgState) : State :=
  if s.pack.chg = c then s
  else
    let same := s.pack.chg == .fast && c == .cv
    (s.modPack fun x =>
      { x with chg := c, preRun := 0, termRun := 0, rechgRun := 0, stageFrom := if same then x.stageFrom else s.time.clk,
               toutPosted := same && x.toutPosted, toutStage := false, tempStage := false }).postDev 0x40

/-- The CV voltage per cell of R255 in mV: 100 mV lower from T_WARM to T_HOT. -/
def State.vcvNow (s : State) : Nat := if s.ntc0.tder.above && !s.ntc0.tlim.above then s.vcvMv - 100 else s.vcvMv

/-- The current the charger regulates to in FAST and CV in mA: ICHG or the owner's lower value, halved from T_COLD to T_COOL, IPRE
beyond T_COLD or T_HOT (R255). -/
def State.chgCurrent (s : State) : Nat :=
  let full := 50 * (if s.pack.ichg = 0 then PackCfg.ichg s.pkcfg else min s.pack.ichg (PackCfg.ichg s.pkcfg))
  let pre := 25 * PackCfg.ipre s.pkcfg
  match s.pack.chg with
  | .precharge => pre
  | .fast | .cv => if s.ntc0.cold.above || s.ntc0.tlim.above then pre else if s.ntc0.cool.above then full / 2 else full
  | _ => 0

/-- R252: a feed pair conducts and VSYS lies at least 2 V above the CV voltage. -/
def State.chgVin (s : State) : Bool :=
  ((s.feedAt .a).pairOn || (s.feedAt .b).pairOn) && decide (s.cells * s.vcvMv + 2000 ≤ s.vsysMv)

/-- One more round of a condition, up to `n`. -/
def runUp (n : Nat) (c : Bool) (k : Nat) : Nat := if c then min n (k + 1) else 0

/-- The stage a charger starts in: PRECHARGE below VPRE, otherwise FAST (Table 9.2). -/
def State.chgFirst (s : State) (v : Q) : ChgState := if Q.lt v (s.packMv s.vpreMv) then .precharge else .fast

/-- The charger starts or resumes a stage, or waits for its input (R252). -/
def State.chgEnter (s : State) (c : ChgState) : State :=
  if s.chgVin then s.chgTo c else (s.modPack fun x => { x with left := c }).chgTo .waitVin

/-- The charger at a round boundary, with the round's mean pack voltage, when it had a reading (R252 to R256, Table 9.2). A stop
order and the loss or the return of the input act without one. -/
def State.chgRound (s : State) (ov : Option Q) (i : Q) : State :=
  let x := s.pack
  let run := fun (n : Nat) (c : Q → Bool) (k : Nat) => match ov with
    | some v => runUp n (c v) k
    | none => k
  if x.stopPend then
    let s := s.modPack fun x => { x with stopPend := false }
    if x.chg = .removed then s else s.chgTo .stopped
  else match x.chg with
  | .off =>
    match ov with
    | some v =>
      if x.leaveOff && !x.missing && !x.ship && !x.revPosted && !x.ntcOpen && Q.le (s.packMv 1000) v then
        (s.modPack fun x => { x with leaveOff := false }).chgEnter (s.chgFirst v)
      else s
    | none => s
  | .precharge =>
    let n := run 4 (fun v => Q.lt (s.packMv (s.vpreMv + 100)) v) x.preRun
    let s := s.modPack fun x => { x with preRun := n }
    if !s.chgVin then s.chgEnter .precharge else if n = 4 then s.chgTo .fast else s
  | .fast => if !s.chgVin then s.chgEnter .fast else if ov.any (fun v => Q.le (s.packMv s.vcvNow) v) = true then s.chgTo .cv else s
  | .cv =>
    let low := Q.lt (Q.mul i (Q.ofInt (PackCfg.termDiv s.pkcfg))) (Q.ofInt (50 * PackCfg.ichg s.pkcfg))
    let n := run 4 (fun _ => low) x.termRun
    let s := s.modPack fun x => { x with termRun := n }
    if n = 4 then (s.chgTo .done).postDev 0x41 else if !s.chgVin then s.chgEnter .cv else s
  | .done =>
    let n := run 16 (fun v => Q.lt v (s.packMv (s.vcvMv - 5 * PackCfg.rechg s.pkcfg))) x.rechgRun
    let s := s.modPack fun x => { x with rechgRun := n }
    if n = 16 && !x.missing then s.chgEnter .fast else s
  | .waitVin => if s.chgVin && !x.missing then s.chgTo x.left else s
  | .removed => s
  | .stopped => s

/-- CHG_TEMP: the temperature holds the current at IPRE; reported once per run (R255). -/
def State.chgTemp (s : State) : State :=
  let out := (s.ntc0.cold.above || s.ntc0.tlim.above) && (s.pack.chg == .precharge || s.pack.chg == .fast || s.pack.chg == .cv)
  if out && !s.pack.tempPosted then (s.modPack fun x => { x with tempPosted := true, tempStage := true }).postDev 0x43
  else if !out then s.modPack fun x => { x with tempPosted := false } else s

/-- CHG_TIMEOUT: the precharge timer, or the timer of FAST and CV together, has expired; posted once in the stage, and the
charger carries on (R256). One minute is 240,000,000 beats. -/
def execChgTimeout (s : State) : Host.Outcome State Fault Refusal :=
  let lim : Option Nat := match s.pack.chg with
    | .precharge => some (240000000 * PackCfg.preT s.pkcfg)
    | .fast | .cv => some (1200000000 * PackCfg.fastT s.pkcfg)
    | _ => none
  match lim with
  | none => .next s
  | some n =>
    if s.pack.toutPosted = true ∨ s.bnd < s.pack.stageFrom + n then .next s
    else .next (s.atBoundary fun s => (s.modPack fun x => { x with toutPosted := true, toutStage := true }).postDev 0x42)

/-- PACK_REMOVED: removal declared while charging; the charger stops at once (R259). -/
def execPackRemoved (s : State) : Host.Outcome State Fault Refusal :=
  match s.pack.chg with
  | .precharge | .fast | .cv =>
    .next (((s.chgTo .removed).modPack fun x => { x with stopPend := false }).postDev 0x44)
  | _ => .next s

/-- The charger is benched: REMOVED or STOPPED (R257). -/
def State.chgBenched (s : State) : Bool := s.pack.chg == .removed || s.pack.chg == .stopped

/-- READMIT of the charger: BAD_TARGET when it is not benched, BUSY while PACK_MISSING is set or its check runs (R257). -/
def execReadmitCharger (t : Tkt) (s : State) : Host.Outcome State Fault Refusal :=
  runTicket t 0x523 s
    { rng := [(17, t.byte 17 = 0)], pre := [failIf (!s.chgBenched) badTarget],
      post := [failIf s.pack.missing busy, failIf s.pack.check.isSome busy] }
    fun u => (u.queued t).post (t.nbBeat u) .frame (.readmitCharger t.ref)

/-- The readmit check of the charger starts (R257); a condition that fails here refuses it (log entry 20). -/
def State.readmitChargerAct (s : State) (ref : TkRef) : State :=
  if !s.chgBenched || s.pack.missing || s.pack.check.isSome then s.final ref 0x23
  else s.modPack fun x => { x with check := some ref, checkN := 0, checkBad := false }

/-- One round of the readmit check (R257). -/
def State.chgCheck (s : State) (v : Option Q) : State :=
  if s.pack.check.isNone then s
  else
    let ok := (v.any fun v => Q.le (s.packMv 1000) v && Q.le v (s.packMv (s.vcvMv + 50))) && !s.pwr.ntcRange[0] && s.ntc0.s0.isSome
      && decide (s.pwr.ntcRun[0] = 0)
    s.modPack fun x => { x with checkN := min 16 (x.checkN + 1), checkBad := x.checkBad || !ok }

/-- CHARGER_CHECK_END: after 16 rounds the charger enters OFF on a pass, and stays benched on a fail; READMIT carries kind 3 and
the status (R257). -/
def execChargerCheckEnd (s : State) : Host.Outcome State Fault Refusal :=
  match s.pack.check with
  | none => .next s
  | some ref =>
    if s.pack.checkN < 16 then .next s
    else if s.pack.checkBad then
      .next (((s.modPack fun x => { x with check := none }).final ref 0x3F 0x0003).postDev 0x08 3 0x3F)
    else .next ((((s.modPack fun x => { x with check := none, leaveOff := true }).chgTo .off).final ref 0x00).postDev 0x08 3 0x00)

/-- CHG_SET: a lower fast-charge current, or the field's, from the next round boundary (Table 9.6). -/
def execChgSet (t : Tkt) (s : State) : Host.Outcome State Fault Refusal :=
  runTicket t 0x910 s { rng := [(16, t.le 16 2 ≤ 80)] } fun u => (u.post (t.nbBeat u) .round (.chgSet (t.le 16 2))).ok t

/-! ### The pack's presence -/

/-- PACK_MISSING, and the reversed pack (R260, Table 8.4). A round without a pack reading counts as one in which PACK_SNS is not low (DESIGN CHOICE,
log entry 111). -/
def State.missRound (s : State) (v : Option Q) : State :=
  let low := (v.any fun v => Q.lt v (s.packMv 1000)) || s.pack.ntcOpen
  let s := s.modPack fun x => { x with missRun := runUp 4 low x.missRun, hereRun := runUp 16 (!low) x.hereRun }
  let s := if 4 ≤ s.pack.missRun ∧ s.pack.missing = false then (s.modPack fun x => { x with missing := true }).postDev 0x45
    else if 16 ≤ s.pack.hereRun then s.modPack fun x => { x with missing := false } else s
  let rev := v.any fun v => Q.lt v (Q.ofInt (-300))
  if rev && !s.pack.revPosted then (s.modPack fun x => { x with revPosted := true }).postDev 0x39
  else if v.isSome && !rev then s.modPack fun x => { x with revPosted := false } else s

/-! ### Gauge -/

/-- FCC in mA x ms. -/
def PackSt.full (x : PackSt) : Q := Q.ofInt (x.fcc * 36000000 : Nat)

/-- The temperature bin of the impedance table (R269): how many edges the NTC0 temperature, in 0.25 °C, has reached. -/
def tempBin (q : Int) : Fin 8 :=
  let n := countP (fun e => decide (4 * e ≤ q)) [-20, -5, 10, 25, 40, 55, 70]
  if h : n < 8 then ⟨n, h⟩ else 7

/-- The SOC bin of the impedance table (R269). -/
def socBin (soc : Nat) : Fin 16 :=
  let n := soc * 16 / 1000
  if h : n < 16 then ⟨n, h⟩ else 15

/-- R(SOC, T) in 0.1 mΩ (R269); while NTC0 has no reading, the bin of 25 °C (log entry 40). -/
def State.packR (s : State) : Nat := (s.pack.imp[(socBin s.pack.soc).val])[(tempBin (s.ntc0.tq.getD 100)).val]

/-- The gauge record goes to NVM (R271); an RRAM that programs no page takes none (R452, R453). -/
def State.gaugeCommit (s : State) : State :=
  if s.noRram then s else s.modPack fun x => { x with nvm := some (x.count, x.fcc, x.cycles), nvmImp := x.imp }

/-- The pair of SEQ 1 in the frame just ended: current in mA, positive into the pack, and voltage in mV (R266, R300). -/
def State.packPair (s : State) : Option (Q × Q) :=
  let x := ((s.mseq[1]).res[0])[2]
  let g := 2 ^ MeterEnt.gain (MeterSeqCfg.ent (s.mcfg 1) 0)
  if x.accN = 0 then none
  else some (Q.norm (x.acc * 800000) (8192 * g * max 1 (PackCfg.shuntP s.pkcfg) * x.accN), Q.norm (x.acc2 * 19200) (16384 * g * x.accN))

/-- The impedance update between consecutive frames (R269): r = −ΔV / ΔI as the rule has it, held to the 16 bits of the entry. -/
def State.impUpdate (s : State) (i v : Q) : State :=
  match s.pack.iFrame, s.ntc0.tq with
  | some i0, some q =>
    let di := Q.sub i i0
    if Q.le (Q.ofInt (2 * s.pack.fcc)) di.abs && di.num != 0 && s.pack.chg == s.pack.chgFrame then
      let r := Q.mul (Q.div (Q.sub s.pack.vFrame v) di) (Q.ofInt 10000)
      let a := socBin s.pack.soc
      let b := tempBin q
      let e := (s.pack.imp[a.val])[b.val]
      let n := (Q.add (Q.ofInt e) (Q.divN (Q.sub r (Q.ofInt e)) 8)).round
      s.modPack fun x => { x with imp := upd x.imp a fun w => upd w b fun _ => (clampI 0 65535 n).toNat }
    else s
  | _, _ => s

/-- The pack at a frame boundary (R266, R269). -/
def State.packFrame (s : State) : State :=
  if !s.packOn then s
  else match s.packPair with
  | none => s.modPack fun x => { x with iFrame := none }
  | some (i, v) =>
    let s := s.impUpdate i v
    s.modPack fun x => { x with iFrame := some i, vFrame := v, chgFrame := x.chg, iSum := Q.add x.iSum i, vSum := Q.add x.vSum v, iN := x.iN + 1 }

/-- RESERVE_LOW: SOC below RES_SOC, or the pack missing; it clears with a closing event 2 % above (R260, R270). -/
def State.reserve (s : State) : State :=
  let th := 10 * PackCfg.resSoc s.pkcfg
  if (decide (s.pack.soc < th) || s.pack.missing) && !s.pack.resLow then (s.modPack fun x => { x with resLow := true }).postDev 0x48
  else if s.pack.resLow && !s.pack.missing && decide (th + 20 ≤ s.pack.soc) then
    (s.modPack fun x => { x with resLow := false }).emit { code := 0x48, close := true, scope := scDev, unit := s.ring.num }
  else s

/-- The load-compensated thresholds (R270): I in mA and R in 0.1 mΩ give 0.1 µV. -/
def State.gaugeEnds (s : State) (i v : Q) : State :=
  let comp := Q.divN (Q.mul i (Q.ofInt s.packR)) 10000
  let eod := Q.le v (Q.add (s.packMv (2000 + 10 * PackCfg.vEnd s.pkcfg)) comp)
  let eoc := Q.le (Q.add (s.packMv s.vcvMv) comp) v
  let a := s.pack.eodRun
  let b := s.pack.eocRun
  let s := s.modPack fun x => { x with eodRun := runUp 4 eod x.eodRun, eocRun := runUp 4 eoc x.eocRun }
  let s := if s.pack.eodRun = 4 ∧ a < 4 then
      ((s.modPack fun x => { x with count := {}, unsure := false }).gaugeCommit).postDev 0x49 else s
  if s.pack.eocRun = 4 ∧ b < 4 then
    ((s.modPack fun x => { x with count := x.full, unsure := false }).gaugeCommit).postDev 0x4A
  else s

/-- The gauge at a round boundary: the count and the charge it moves by, both held while the pack is missing (R260), the discharge that makes a
cycle, rest (R266 to R268). -/
def State.gaugeRound (s : State) (i : Q) : State :=
  let s := s.modPack fun x => if x.missing then x else { x with count := Q.add x.count i, moved := Q.add x.moved i }
  let dis := if i.num < 0 then i.abs else {}
  let s := s.modPack fun x => { x with disAcc := Q.add x.disAcc dis }
  let s := if s.pack.fcc ≠ 0 ∧ Q.le s.pack.full s.pack.disAcc = true then
      s.modPack fun x => { x with cycles := satAdd 16 x.cycles 1, disAcc := Q.sub x.disAcc x.full } else s
  let low := Q.lt (Q.mul i.abs (Q.ofInt 20)) (Q.ofInt s.pack.fcc)
  s.modPack fun x =>
    let n := if low then x.restN + 1 else 0
    { x with restN := n, rest := decide (1200000 ≤ n) }

/-- The pack's work at a round boundary. A round without a reading leaves charger and gauge as they are. While the pack is missing the thresholds
of R270 are neither evaluated nor posted (DESIGN CHOICE, log entry 112). -/
def State.packRound (s : State) : State :=
  if !s.packOn then s
  else
    let n := s.pack.iN
    let some_ := n != 0
    let i := Q.divN s.pack.iSum (max 1 n)
    let v := Q.divN s.pack.vSum (max 1 n)
    let ov : Option Q := if some_ then some v else none
    let s := s.modPack fun x => { x with iSum := {}, vSum := {}, iN := 0, iMean := if some_ then i else x.iMean,
                                         vMean := if some_ then some v else x.vMean }
    let s := s.missRound ov
    let s := ((s.chgRound ov i).chgTemp).chgCheck ov
    let s := if some_ then s.gaugeRound i else s
    let s := if some_ && !s.pack.missing then s.gaugeEnds i v else s
    s.reserve

/-- The per-cell voltage in mV as SOC in 0.1 %, and whether its two entries lie closer than 5 mV (R267). A voltage outside the
record is one the rule gives no SOC for: a free value (log entry 4). -/
def State.ocvSoc (s : State) (cell : Q) : Nat × Bool × State :=
  let tab := s.cfg.cfg.gaugeOcv[0]
  let p := fun k => GaugeOcv.point tab k
  match (List.range 20).find? fun k => Q.le (Q.ofInt (p k)) cell && Q.le cell (Q.ofInt (p (k + 1))) with
  | some k =>
    let d := p (k + 1) - p k
    if d < 5 then (0, true, s)
    else (((Q.add (Q.ofInt (50 * k : Nat)) (Q.divN (Q.mul (Q.ofInt 50) (Q.sub cell (Q.ofInt (p k)))) d)).round).toNat, false, s)
  | none =>
    let d := s.draw 1001
    (d.1, false, d.2)

/-- FCC learned between this rest point, at `soc`, and the latest earlier one at least 40 % of SOC away, applied within ±20 % of the
previous value; FCC_LEARN carries the result in 10 mAh and 1 when it is rejected (R268, log entry 41). For a result above the 16 bits of the
field the rule states no FCC: a free value (DESIGN CHOICE, log entry 113). -/
def State.fccLearn (s : State) (soc : Nat) : State :=
  match s.pack.rests.find? fun e => decide (400 ≤ ((soc : Int) - e.1).natAbs) with
  | none => s
  | some (soc0, c0) =>
    let ds : Int := (soc : Int) - soc0
    let f := (Q.div (Q.sub s.pack.moved c0) (Q.ofInt (ds * 36000))).round
    let old : Int := s.pack.fcc
    let ok := decide (4 * old ≤ 5 * f ∧ 5 * f ≤ 6 * old)
    let d := if decide (65535 < f) then s.draw 65536 else (f.toNat, s)
    let s : State := if ok then d.2.modPack fun x => { x with fcc := d.1 } else s
    s.postDev 0x4C (argI f) (b2n !ok)

/-- GAUGE_REST_POINT: at 20 min of rest and every further 20 min SOC is set from the OCV record (R267); no correction on a
missing pack (Table 9.8). GAUGE_OCV carries the correction in 0.1 % and 1 when it is skipped. -/
def execGaugeRestPoint (s : State) : Host.Outcome State Fault Refusal :=
  if s.packOn = false ∨ s.pack.restN = 0 ∨ s.pack.restN % 1200000 ≠ 0 ∨ s.pack.missing = true then .next s
  else match s.pack.vMean with
  | none => .next s
  | some v =>
    let old := s.pack.soc
    let (soc, skip, s) := s.ocvSoc (Q.divN v (max 1 s.cells))
    let s := s.modPack fun x => { x with unsure := false }
    if skip then .next (s.gaugeCommit.postDev 0x4B 0 1)
    else
      let s := s.fccLearn soc
      let s := s.modPack fun x =>
        { x with count := Q.divN (Q.mul x.full (Q.ofInt soc)) 1000, rests := (soc, x.moved) :: x.rests.filter fun e => e.1 != soc }
      .next (s.gaugeCommit.postDev 0x4B (argI ((soc : Int) - old)) 0)

/-- GAUGE_COMMIT: every 60,000 rounds the gauge record goes to NVM (R271, log entry 82). -/
def execGaugeCommit (s : State) : Host.Outcome State Fault Refusal :=
  if s.packOn = true ∧ s.bnd % 240000000 = 0 then .next s.gaugeCommit else .next s

/-- The gauge resumes from its record after a restart, UNSURE; with none it starts at CAP_DES and R_INIT (R266, R269, R271). -/
def State.gaugeResume (s : State) : State :=
  match s.pack.nvm with
  | some (c, f, n) => s.modPack fun x => { x with count := c, fcc := f, cycles := n, imp := x.nvmImp, unsure := true }
  | none => s.modPack fun x =>
      { x with fcc := PackCfg.capDes s.pkcfg, imp := Vector.replicate 16 (Vector.replicate 8 (PackCfg.rInit s.pkcfg)), unsure := true }

/-- With CHEM = 0 in a newly loaded image the charger and the pack switch are off (R251); a benched charger stays benched (R257). -/
def State.packOff (s : State) : State :=
  if s.packOn then s
  else
    let s := if s.chgBenched then s else s.chgTo .off
    s.modPack fun x => if x.psw = .closed then { x with psw := .armed } else x

/-- What a restart leaves of the pack: the gauge resumes from its record, UNSURE (R271). -/
def PackSt.kept (x : PackSt) : PackSt :=
  let y : PackSt := { nvm := x.nvm, nvmImp := x.nvmImp }
  match x.nvm with
  | some (c, f, n) => { y with count := c, fcc := f, cycles := n, imp := x.nvmImp, unsure := true }
  | none => y

/-- GAUGE_READ: GAUGE_STAT, the impedance table in a segment of 256 bytes, or the charge count in µAh (R346). -/
def execGaugeRead (t : Tkt) (s : State) : Host.Outcome State Fault Refusal :=
  let k := t.byte 16
  runTicket t 0x900 s { rng := [(1, k ≠ 1 ∨ t.sg), (16, k < 3)] } fun u =>
    if k = 0 then u.ok t 0 u.pack.word
    else if k = 1 then u.answer t 0 ((u.pack.imp.toList.map fun w => (w.toList.map (leBytes 2)).flatten).flatten)
    else u.ok t 0 (uword 64 (Q.divN u.pack.count 3600).round)

/-- GAUGE_SET, SOC: committed at once (Table 9.6). With CHEM = 0 the gauge is off and nothing changes (R251). -/
def execGaugeSetSoc (t : Tkt) (s : State) : Host.Outcome State Fault Refusal :=
  runTicket t 0x940 s { rng := [(16, t.byte 16 < 2), (17, t.le 17 2 ≤ 1000)], post := [nvmFault s] } fun u =>
    if !u.packOn then u.ok t
    else ((u.modPack fun x => { x with count := Q.divN (Q.mul x.full (Q.ofInt (t.le 17 2))) 1000 }).gaugeCommit).ok t

/-- GAUGE_SET, reset: FCC to CAP_DES and the impedance table to R_INIT, committed at once (Table 9.6). With CHEM = 0 the gauge is
off and nothing changes (R251). -/
def execGaugeReset (t : Tkt) (s : State) : Host.Outcome State Fault Refusal :=
  runTicket t 0x941 s { rng := [(16, t.byte 16 < 2)], post := [nvmFault s] } fun u =>
    if !u.packOn then u.ok t
    else ((u.modPack fun x =>
      { x with fcc := PackCfg.capDes u.pkcfg, imp := Vector.replicate 16 (Vector.replicate 8 (PackCfg.rInit u.pkcfg)) }).gaugeCommit).ok t

/-! ### Button, status pins and ship mode -/

/-- Which priority of Table 9.4 sets STAT0 and STAT1 (R263). -/
def State.statPriority (s : State) : Nat :=
  let x := s.pack
  if x.shipIn then 7
  else if s.start.barker then 1
  else if s.chgBenched || x.toutStage || x.tempStage then 2
  else if x.missing then 3
  else if x.ship && decide (s.time.clk < x.shipAt + 20000000) then 4
  else if x.chg == .precharge || x.chg == .fast || x.chg == .cv then 5
  else if x.chg == .done then 6
  else 7

/-- Whether STAT0 pulls low, "On", for a priority of Table 9.4, `t` ms of the AON clock into the pattern. -/
def stat0On (prio t : Nat) : Bool :=
  match prio with
  | 1 => decide (t % 2000 < 750 ∧ t % 2000 / 125 % 2 = 0)
  | 2 => decide (t % 500 < 250)
  | 4 => true
  | 5 => decide (t % 2000 < 1000)
  | 6 => true
  | _ => false

/-- Whether STAT1 pulls low, "On", for a priority of Table 9.4, `t` ms of the AON clock into the pattern. -/
def stat1On (prio t : Nat) : Bool :=
  match prio with
  | 1 => true
  | 3 => decide (t % 1000 < 500)
  | 4 => true
  | _ => false

/-- STAT0 and STAT1, `t` ms of the AON clock into their pattern: the highest-priority condition that holds sets both
(R263). The AON clock is no beat count, so its time is an argument. -/
def State.statPins (s : State) (t : Nat) : Bool × Bool := (stat0On s.statPriority t, stat1On s.statPriority t)

/-- SVC_BTN_PRESS: a press of 50 ms to 2 s posts BTN and sets the wake cause (R264, R434). -/
def execSvcBtnPress (s : State) : Host.Outcome State Fault Refusal :=
  .next (({ s with wd := { s.wd with wakeBtn := true } } : State).postDev 0x4D)

/-- SVC_BTN_HOLD: at 8 s of hold both pairs and the charger turn off, the pack switch opens, VSYS and every rail collapse, HOST_RST
is released and SUP_EN falls, for the hold-off of 2 s (R264, R423, R496). -/
def execSvcBtnHold (s : State) : Host.Outcome State Fault Refusal :=
  let s := s.modPack fun x => { x with hold := some s.time.clk }
  let s := [Feed.a, Feed.b].foldl (fun (s : State) f => s.setFeed f fun x => { x with pairOn := false }) s
  let s := s.pswOpen 0
  let s := if s.chgBenched then s else s.chgTo .off
  let s : State := { s with sched := s.sched ++ [{ nb := 0, per := .beat, act := .cutRails }] }
  .next { s with pwr := { s.pwr with supEn := false, hostRst := none } }

/-- Ship mode is armed at a round boundary: the charger OFF, the pack switch OPEN, SHIP posted (R265). A benched charger stays
benched (R257). A CHARGER_STOP that waits for the same boundary is dropped, and the charger is OFF (DESIGN CHOICE, log entry 114). -/
def State.shipArmAct (s : State) (keep : Bool) : State :=
  let s := s.modPack fun x => { x with ship := true, rtcKeep := keep, shipAt := s.time.clk, leaveOff := false, stopPend := false }
  let s := if s.chgBenched then s else s.chgTo .off
  (s.pswOpen 3).postDev 0x4E

/-- Armed ship mode is cancelled: the pack switch becomes ARMED, unless another cause holds it OPEN (R265). -/
def State.shipCancelAct (s : State) : State :=
  if s.pack.ship then (s.modPack fun x => { x with ship := false }).pswRelease 8 else s

/-- SHIP, arm: BUSY while the pack switch is CLOSED and both feeds lie below RES_TH (R265). -/
def execShipArm (t : Tkt) (s : State) : Host.Outcome State Fault Refusal :=
  runTicket t 0x930 s { post := [failIf (s.pack.psw == .closed && s.bothBelowRes) busy] } fun u =>
    (u.post (t.nbBeat u) .round (.shipArm (bit (t.byte 16) 1))).ok t

/-- SHIP, cancel (R265). -/
def execShipCancel (t : Tkt) (s : State) : Host.Outcome State Fault Refusal :=
  runTicket t 0x931 s { post := [failIf (s.pack.psw == .closed && s.bothBelowRes) busy] } fun u =>
    (u.post (t.nbBeat u) .round .shipCancel).ok t

/-- SHIP_EFFECT: VAON below 3.0 V with ship mode armed; ship mode is in effect and SUP_EN low (R265, R496). -/
def execShipEffect (s : State) : Host.Outcome State Fault Refusal :=
  if s.pack.ship then
    .next { s with pack := { s.pack with shipIn := true }, pwr := { s.pwr with supEn := false, vaonOk := false } }
  else .next s

end Sys2Proof.Machine
end

