-- ==== Sys2Proof/Machine/Checks.lean ====
section
/-! DEFINITION. The load checks of the configuration records (R74, R98, R112, R118, R124, R131, R145, R184, R204, R238,
R246, R258, R281, R289, R379) and the sequence and order rules (R206, R207, R212, R215, R217), on a configuration as
numbers: which records offend. The image checks (R481), overlays (R488) and the margin plan (R290) use the same ones. -/

namespace Sys2Proof.Machine

/-- Only bits of the listed fields (hi, lo) are set: every rsvd field is 0. -/
def onlyBits (l : List (Nat × Nat)) (x : Nat) : Bool := (l.map fun p => bits x p.1 p.2 * 2 ^ p.2).sum == x

/-- `x` lies in `lo … hi`. -/
def inR (lo hi x : Nat) : Bool := decide (lo ≤ x ∧ x ≤ hi)

/-- A record that offends: its type of Table 20.2 and its instance. -/
abbrev Bad := Nat × Nat

/-- The record offends unless its check holds. -/
def badIf (ok : Bool) (t i : Nat) : List Bad := if ok then [] else [(t, i)]

/-! ### Records by themselves -/

/-- PH_CFG (R74). -/
def phCfgOk (x : Nat) : Bool :=
  onlyBits [(6, 0), (13, 8), (22, 16), (46, 24), (69, 48), (97, 72), (107, 100)] x
  && (PhCfg.istage x == 0
    || (decide (PhCfg.ilim x ≤ PhCfg.istage x) && decide (PhCfg.tder x < PhCfg.tlim x) && decide (PhCfg.wmin x ≤ PhCfg.wnom x)
      && inR 1 120 (PhCfg.ilim x) && inR 1 120 (PhCfg.istage x) && inR 25 174 (PhCfg.tder x) && inR 26 175 (PhCfg.tlim x)
      && inR 1 15 (PhCfg.wnom x) && inR 1 7 (PhCfg.wmin x) && inR 16 255 (PhCfg.openCyc x) && inR 1 5 (PhCfg.openFrac x)
      && inR 1 31 (PhCfg.openMin x) && inR 1 63 (PhCfg.ishort x) && inR 1 255 (PhCfg.stuckCyc x) && inR 1 255 (PhCfg.toffMin x)
      && inR 1 255 (PhCfg.limEvt x)))

/-- RAIL_CFG (R112). -/
def railCfgOk (x : Nat) : Bool :=
  onlyBits [(13, 0), (27, 16), (43, 32), (59, 48), (74, 64), (88, 80), (100, 96), (108, 104), (118, 112), (125, 120),
            (146, 128), (190, 148), (212, 192), (230, 216)] x
  && (!RailCfg.railEn x
    || (decide (RailCfg.vminOwn x ≤ RailCfg.vboot x) && decide (RailCfg.vboot x ≤ RailCfg.vmaxOwn x)
      && decide (RailCfg.nmin x ≤ RailCfg.nmax x) && decide (RailCfg.llmEnter x < RailCfg.llmExit x)
      && inR 0 14 (RailCfg.avsSel x) && inR 250 3300 (RailCfg.vboot x) && inR 250 3300 (RailCfg.vminOwn x)
      && inR 250 3300 (RailCfg.vmaxOwn x) && inR 0 2000 (RailCfg.rll x) && inR 50 500 (RailCfg.fswCode x)
      && inR 1 24 (RailCfg.nmin x) && inR 1 24 (RailCfg.nmax x) && inR 1 120 (RailCfg.iphTgt x) && inR 1 255 (RailCfg.slewUp x)
      && inR 1 255 (RailCfg.slewDn x) && inR 1 255 (RailCfg.catchUv x) && inR 1 255 (RailCfg.catchOv x)
      && inR 1 255 (RailCfg.catchHold x) && inR 16 250 (RailCfg.dmax x) && inR 10 127 (RailCfg.snsDev x)
      && inR 1 255 (RailCfg.llmEnter x) && inR 2 255 (RailCfg.llmExit x) && inR 300 4095 (RailCfg.vinNom x)))

/-- The integer checks of R98 on a coefficient set. -/
def compOk (x : Nat) : Bool :=
  let a1 := sint 24 (RailComp.a1 x)
  let a2 := sint 24 (RailComp.a2 x)
  let a3 := sint 24 (RailComp.a3 x)
  let c1 := a1 + 2 ^ 21
  let c2 := -a3
  decide (a1 + a2 + a3 = -(2 ^ 21)) && decide (100 * (c2.natAbs : Int) ≤ 96 * 2 ^ 21)
    && decide (100 * (c1.natAbs : Int) ≤ 98 * 2 ^ 21 + 100 * c2)

/-- FC_CFG by itself (R145). -/
def fcCfgOk (x : Nat) : Bool :=
  onlyBits [(75, 0)] x
  && (!FcCfg.fcEn x
    || (decide (FcCfg.fcToff x ≤ FcCfg.fcTrep x) && inR 1 15 (FcCfg.fcRate x) && inR 0 100 (FcCfg.fcVheadMax x)
      && inR 4 255 (FcCfg.fcCatchMin x) && inR 4 255 (FcCfg.fcWmax x) && inR 0 4000 (FcCfg.fcBudget x)))

/-- FC_CFG against the rail (R145): the armed catch threshold lies below both catch thresholds, and the largest headroom
below the warn window's high threshold. -/
def fcRailOk (fc rail sup : Nat) : Bool :=
  !FcCfg.fcEn fc
    || (decide (FcCfg.fcCatchMin fc ≤ RailCfg.catchUv rail) && decide (FcCfg.fcCatchMin fc ≤ RailCfg.catchOv rail)
      && decide (FcCfg.fcVheadMax fc < SupCfg.warnHi sup))

/-- SUP_CFG of a rail in use (R204), its check of R92 and its ranges. -/
def supCfgOk (x rail : Nat) : Bool :=
  onlyBits [(37, 0), (45, 40), (54, 48), (60, 56), (68, 64), (76, 72), (83, 80), (93, 88), (101, 96), (104, 104)] x
  && (!RailCfg.railEn rail
    || (decide (SupCfg.warnLo x < 2 * SupCfg.fltLo x) && decide (SupCfg.warnHi x < 2 * SupCfg.fltHi x)
      && decide (SupCfg.iwarn x ≤ SupCfg.iflt x) && decide (RailCfg.snsDev rail < min (SupCfg.fltLo x) (SupCfg.fltHi x))
      && inR 1 255 (SupCfg.warnLo x) && inR 1 255 (SupCfg.warnHi x) && inR 2 255 (SupCfg.fltLo x) && inR 2 255 (SupCfg.fltHi x)
      && inR 1 63 (SupCfg.warnN x) && inR 1 63 (SupCfg.fltN x) && inR 0 24 (SupCfg.blkAdd x) && inR 0 24 (SupCfg.blkShed x)
      && inR 0 24 (SupCfg.blkStep x) && inR 0 8 (SupCfg.fblk x) && inR 1 32 (SupCfg.iwarn x) && inR 1 32 (SupCfg.iflt x)))

/-- The present ranges of MP_CFG as (low, high) percentages (R289). -/
def mpRanges (x : Nat) : List (Nat × Nat) :=
  ([MpCfg.cs1 x, MpCfg.cs2 x, MpCfg.cs3 x].filter (· != 0)).map fun w => (bits w 7 0, bits w 15 8)

/-- Two ranges overlap when each one's low lies below the other's high (R289). -/
def rangesApart : List (Nat × Nat) → Bool
  | [] => true
  | a :: l => (l.all fun b => !(decide (a.1 < b.2) && decide (b.1 < a.2))) && rangesApart l

/-- MP_CFG (R289). -/
def mpCfgOk (x : Nat) : Bool :=
  decide (MpCfg.wMin x ≤ MpCfg.wMax x) && (!MpCfg.chirpEn x || MpCfg.cNom x != 0)
    && (mpRanges x).all (fun r => decide (r.1 < r.2) && decide (10 ≤ r.1) && decide (r.2 ≤ 250)) && rangesApart (mpRanges x)

/-- RAIL_CHAIN of rail `r` on device `dev` (R131): consecutive device numbers, at most 2 hops from the leader and from the
deputy, one deputy, and this device the member that its role names. -/
def railChainOk (x dev r : Nat) : Bool :=
  if !RailChain.gangEn x then true
  else
    let m := ([RailChain.mem0 x, RailChain.mem1 x, RailChain.mem2 x, RailChain.mem3 x].take (RailChain.size x)).map
      fun e => (bits e 5 0, bits e 9 6)
    let ds := m.map Prod.fst
    let lo := ds.foldl min 63
    let hops := fun (a b : Nat) => a - b + (b - a)
    let mine := fun (e : Nat × Nat) => e.1 == dev && e.2 == r
    inR 2 4 (RailChain.size x) && (List.range ds.length).all (fun k => ds.contains (lo + k))
      && ds.all (fun d => decide (hops d (ds.getD 0 0) ≤ 2) && decide (hops d (ds.getD 1 0) ≤ 2))
      && (match RailChain.role x with
        | 0 => (m[0]?).any mine
        | 1 => (m[1]?).any mine
        | 2 => (m.drop 2).any mine
        | _ => false)

/-- TWIN_CFG by itself (R184). -/
def twinCfgOk (x : Nat) : Bool :=
  onlyBits [(4, 0), (13, 8), (20, 16), (27, 24), (37, 32), (43, 40), (51, 48), (61, 56), (69, 64), (79, 72)] x
  && decide (2 * TwinCfg.voteTol x ≤ TwinCfg.vsBand x)
  && inR 1 31 (TwinCfg.vrefBand x) && inR 2 63 (TwinCfg.vsBand x) && inR 1 31 (TwinCfg.uBand x) && inR 1 15 (TwinCfg.iBand x)
  && inR 1 63 (TwinCfg.piBand x) && inR 2 3 (TwinCfg.laneN x) && inR 1 63 (TwinCfg.voteTol x) && inR 2 63 (TwinCfg.voteItol x)
  && inR 1 255 (TwinCfg.unresN x)

/-- FEED_CFG (R238). -/
def feedCfgOk (x : Nat) : Bool :=
  onlyBits [(1, 0), (87, 8)] x && inR 0 2 (FeedCfg.mode x) && inR 20 230 (FeedCfg.feedUv x) && inR 1 255 (FeedCfg.uvHys x)
  && inR 24 240 (FeedCfg.feedOv x) && inR 1 255 (FeedCfg.retT x) && inR 1 255 (FeedCfg.shuntA x) && inR 1 255 (FeedCfg.shuntB x)
  && inR 1 255 (FeedCfg.irev x) && decide (250 * FeedCfg.feedUv x + 50 * FeedCfg.uvHys x < 250 * FeedCfg.feedOv x)

/-- HK_CFG of one supply (R246). -/
def hkCfgOk (x : Nat) (ldo : Bool) : Bool :=
  onlyBits [(0, 0), (17, 4), (30, 24), (35, 32), (55, 40)] x && inR 60 500 (HkCfg.hkVout x) && inR 2 80 (HkCfg.hkIlim x)
  && inR 0 5 (HkCfg.ss x) && inR 5 30 (HkCfg.uvPct x) && inR 5 30 (HkCfg.ovPct x)
  && (!ldo || (decide (HkCfg.hkIlim x ≤ 10) && decide (HkCfg.hkVout x ≤ 330) && !HkCfg.fsw x))

/-- PACK_CFG (R258, Table 9.1). -/
def packCfgOk (x : Nat) : Bool :=
  let vcv := 3000 + 10 * PackCfg.vcv x
  PackCfg.chem x == 0
  || (onlyBits [(5, 0), (22, 8), (29, 24), (37, 32), (142, 40), (167, 144)] x
    && decide (PackCfg.ipre x * 25 ≤ PackCfg.ichg x * 50) && decide (PackCfg.tCold x < PackCfg.tCool x)
    && decide (PackCfg.tCool x < PackCfg.tWarm x) && decide (PackCfg.tWarm x < PackCfg.tHot x)
    && PackCfg.capDes x != 0 && PackCfg.rInit x != 0 && decide (PackCfg.cells x * vcv + 500 ≤ 250 * PackCfg.resTh x)
    && (match PackCfg.chem x with
      | 1 => inR 2 4 (PackCfg.cells x) && inR 4050 4350 vcv
      | 2 => inR 3 4 (PackCfg.cells x) && inR 3400 3650 vcv
      | _ => false)
    && inR 1 80 (PackCfg.ichg x) && inR 1 40 (PackCfg.ipre x) && inR 5 40 (PackCfg.termDiv x) && inR 10 40 (PackCfg.rechg x)
    && inR 1 255 (PackCfg.preT x) && inR 1 255 (PackCfg.fastT x) && inR 24 240 (PackCfg.resTh x) && inR 0 100 (PackCfg.resSoc x)
    && inR 1 255 (PackCfg.shuntP x))

/-- THERM_CFG (R281). -/
def thermCfgOk (x : Nat) : Bool :=
  let gap := fun (w c : Nat) => decide (w + ThermCfg.hyst x + 1 ≤ c)
  onlyBits [(55, 0), (146, 64), (167, 152)] x
  && gap (ThermCfg.cdWarn x) (ThermCfg.cdCrit x) && gap (ThermCfg.pWarn x) (ThermCfg.pCrit x)
  && gap (ThermCfg.stgWarn x) (ThermCfg.stgCrit x) && gap (ThermCfg.ntc0Warn x) (ThermCfg.ntc0Crit x)
  && gap (ThermCfg.ntc1Warn x) (ThermCfg.ntc1Crit x) && gap (ThermCfg.ntc2Warn x) (ThermCfg.ntc2Crit x)
  && gap (ThermCfg.ntc3Warn x) (ThermCfg.ntc3Crit x)
  && decide (ThermCfg.cdCrit x ≤ 200) && decide (ThermCfg.pCrit x ≤ 200) && decide (ThermCfg.pkgLim x ≤ 200)
  && (ThermCfg.boardDie x || bit (ThermCfg.ntcEn x) (ThermCfg.boardNtc x))
  && inR 1 15 (ThermCfg.hyst x) && inR 1 255 (ThermCfg.warnGap x) && inR 101 255 (ThermCfg.ronLim x) && inR 1 255 (ThermCfg.revGap x)

/-- An 8-bit entry of RING_CFG passes the stream on (Table 15.3). -/
def ringPasses (e : Nat) : Bool := bit e 7 && bit e 6

/-- RING_CFG (R379): a slot of a transmit lane that a received stream is passed on in carries no stream of its own. -/
def ringCfgOk (x : Nat) : Bool :=
  let rx := [(RingCfg.eRx0 x, RingCfg.wTx0 x), (RingCfg.eRx1 x, RingCfg.wTx1 x), (RingCfg.eRx2 x, RingCfg.wTx2 x),
             (RingCfg.wRx0 x, RingCfg.eTx0 x), (RingCfg.wRx1 x, RingCfg.eTx1 x), (RingCfg.wRx2 x, RingCfg.eTx2 x)]
  rx.all fun p => !(ringPasses p.1 && bit p.2 7)

/-- A device of number `d` may stand at a port of device `dev`: the numbers follow one another, and the closing link joins the highest to 0
(R370). -/
def mayJoin (dev : Nat) (p : Side) (d : Nat) : Bool :=
  match p with
  | .east => d == dev + 1 || d == 0
  | .west => if dev = 0 then d != 0 else d + 1 == dev

/-- An entry passes a stream of a gang of this device on over its third link: none of the members that can send the stream, the leader and the
deputy a command, stands at the port it comes in by (R379, log entry 121). -/
def Cfg.ringFar (c : Cfg) (dev : Nat) (p : Side) (e : Nat) : Bool :=
  let ch := c.railChain.toArray.getD (bits e 3 0) 0
  let l := (gangMembers ch).map Prod.fst
  ringPasses e && RailChain.gangEn ch && !((if bit e 4 then l else l.take 2).any (mayJoin dev p))

/-- RING_CFG lets no stream that it passes on cross more than 2 links (R379). -/
def Cfg.ringNear (c : Cfg) (dev : Nat) : Bool :=
  [Side.east, Side.west].all fun p => (List.range 3).all fun k => !c.ringFar dev p (ringEntry c.ringCfg[0] p true k)

/-! ### Records together -/

/-- RAIL_EN of rail number `r` of a configuration. -/
def Cfg.railEn (c : Cfg) (r : Nat) : Bool := RailCfg.railEn (c.railCfg.toArray.getD r 0)

/-- The fitted phases whose HOME or ALT is the rail (R118). -/
def Cfg.reach (c : Cfg) (r : Nat) : List Ph :=
  phases.filter fun p => PhCfg.istage c.phCfg[p.val] != 0
    && (PhPool.home c.phPool[p.val] == r || (PhPool.flex c.phPool[p.val] && PhPool.alt c.phPool[p.val] == r))

/-- The regions whose mask holds a rail. -/
def Cfg.regions (c : Cfg) (r : Nat) : List Nat :=
  (List.range 6).filter fun g => bit (RegionCfg.rails (c.regionCfg.toArray.getD g 0)) r

/-- PH_POOL (R118). A steering channel that two flex phases share offends at the later one (log entry 42). -/
def Cfg.poolOk (c : Cfg) (p : Ph) : Bool :=
  let x := c.phPool[p.val]
  onlyBits [(4, 0), (15, 8)] x
  && (PhCfg.istage c.phCfg[p.val] == 0
    || (c.railEn (PhPool.home x)
      && (!PhPool.flex x
        || (PhPool.alt x != PhPool.home x && (c.regions (PhPool.home x)).any (fun g => (c.regions (PhPool.alt x)).contains g)
          && !(phases.any fun q => decide (q < p) && PhCfg.istage c.phCfg[q.val] != 0 && PhPool.flex c.phPool[q.val]
            && PhPool.flxCh c.phPool[q.val] == PhPool.flxCh x)))))

/-- RAIL_CFG against the pools (R118): the rail lies in a region, and its phases are at most 24 and at least NMAX. -/
def Cfg.railPoolOk (c : Cfg) (r : Rail) : Bool :=
  !c.railEn r.val
  || (!(c.regions r.val).isEmpty && decide ((c.reach r.val).length ≤ 24)
    && decide (RailCfg.nmax c.railCfg[r.val] ≤ (c.reach r.val).length))

/-- REGION_CFG (R118, R124): no rail that is not in use, none that an earlier region holds (log entry 42). -/
def Cfg.regionOk (c : Cfg) (g : Fin 6) : Bool :=
  let x := c.regionCfg[g.val]
  decide (RegionCfg.flxDt x + RegionCfg.flxOn x ≤ 16)
  && rails.all fun r => !bit (RegionCfg.rails x) r.val
    || (c.railEn r.val && !(c.regions r.val).any fun h => decide (h < g.val))

/-- TWIN_CFG against the rails (R174): LANE_N x P of a rail in use is at most 12 µs. -/
def Cfg.twinOk (c : Cfg) : Bool :=
  twinCfgOk c.twinCfg[0]
  && rails.all fun r => !c.railEn r.val || decide (200 * TwinCfg.laneN c.twinCfg[0] ≤ 12 * RailCfg.fswCode c.railCfg[r.val])

/-- The bucks in use draw at most 20 W (R246), in units of 0.5 mW. -/
def Cfg.hkPowerOk (c : Cfg) : Bool :=
  decide (((List.range 8).map fun k =>
    let x := c.hkCfg.toArray.getD k 0
    if HkCfg.en x then HkCfg.hkVout x * HkCfg.hkIlim x else 0).sum ≤ 40000)

/-- METER_SEQ (R295, R298): CONV fits CLASS, and every entry names channels of its converters' columns; S/H1 serves MEAS alone. -/
def meterSeqOk (x : Nat) : Bool :=
  let cv := MeterSeqCfg.conv x
  let cls := MeterSeqCfg.cls x
  let has := fun (ch : Nat) => convs.all fun c => !bit cv c.ix.val || chOf c ch
  !MeterSeqCfg.defd x
    || ((match cls with
      | 0 => cv == 1 || cv == 2 || cv == 4
      | 1 => cv == 3
      | 2 => inR 1 7 cv
      | _ => false)
      && (List.range (MeterSeqCfg.nent x + 1)).all fun e =>
        let w := MeterSeqCfg.ent x e
        has (MeterEnt.ch w) && (MeterEnt.ch2 w == 0x7F || (cls == 2 && has (MeterEnt.ch2 w))))

/-- A rail that a programme may name: one of its group, and a ganged one only on the leader (R216). -/
def Cfg.stepRailOk (c : Cfg) (group u : Nat) : Bool :=
  (railOf u).any fun r => (group == 7 || (c.regions u).contains group)
    && (!RailChain.gangEn c.railChain[r.val] || RailChain.role c.railChain[r.val] == 0)

/-- Walking a programme's steps: they reach END, use no reserved operation and name only rails that the programme may (R216,
R217). -/
def Cfg.stepsOk (c : Cfg) (group : Nat) : Nat → Nat → Bool
  | 0, _ => false
  | n + 1, k =>
    if 128 ≤ k then false
    else
      let x := c.seqStep.toArray.getD k 0
      let op := SeqStep.op x
      let u := SeqStep.unit x
      if op = 0 then true
      else if 6 ≤ op then false
      else if (op = 1 ∨ op = 2) ∧ c.stepRailOk group u = false then false
      else c.stepsOk group n (k + 1)

/-- SEQ_PROG with its steps (R217). -/
def Cfg.progOk (c : Cfg) (n : Prog) : Bool :=
  let x := c.seqProg[n.val]
  !SeqProg.defd x || (SeqProg.group x != 6 && c.stepsOk (SeqProg.group x) 128 (SeqProg.start x))

/-- The records of device `dev` that offend, by type and instance. -/
def Cfg.bad (c : Cfg) (dev : Nat) : List Bad :=
  (phases.flatMap fun p => badIf (phCfgOk c.phCfg[p.val]) 0x01 p.val ++ badIf (c.poolOk p) 0x02 p.val)
  ++ (rails.flatMap fun r =>
    let rc := c.railCfg[r.val]
    let fc := c.fcCfg[r.val]
    let sup := c.supCfg[r.val]
    let ch := c.railChain[r.val]
    badIf (railCfgOk rc && c.railPoolOk r) 0x03 r.val
    ++ badIf (!RailCfg.railEn rc || compOk c.railComp[r.val]) 0x04 r.val
    ++ badIf (railChainOk ch dev r.val) 0x05 r.val
    ++ badIf (fcCfgOk fc && fcRailOk fc rc sup
        && !(RailChain.gangEn ch && RailChain.role ch == 2 && FcCfg.fcEn fc)) 0x06 r.val
    ++ badIf (supCfgOk sup rc && (!RailCfg.railEn rc || fcRailOk fc rc sup)) 0x07 r.val
    ++ badIf (mpCfgOk c.mpCfg[r.val]) 0x08 r.val
    ++ ((List.range 3).flatMap fun j =>
      let cs := ([MpCfg.cs1 c.mpCfg[r.val], MpCfg.cs2 c.mpCfg[r.val], MpCfg.cs3 c.mpCfg[r.val]]).getD j 0
      badIf (cs == 0 || compOk (c.mpComp.toArray.getD (3 * r.val + j) 0)) 0x09 (3 * r.val + j)))
  ++ ((List.finRange 6).flatMap fun g => badIf (c.regionOk g) 0x0A g.val)
  ++ badIf c.twinOk 0x0B 0 ++ badIf (feedCfgOk c.feedCfg[0]) 0x0C 0
  ++ ((List.range 14).flatMap fun k =>
    badIf (hkCfgOk (c.hkCfg.toArray.getD k 0) (decide (8 ≤ k)) && (k != 0 || c.hkPowerOk)) 0x0E k)
  ++ badIf (packCfgOk c.packCfg[0]) 0x0F 0 ++ badIf (thermCfgOk c.thermCfg[0]) 0x11 0
  ++ badIf (ringCfgOk c.ringCfg[0] && c.ringNear dev) 0x18 0
  ++ ((List.range 32).flatMap fun k => badIf (meterSeqOk (c.meterSeq.toArray.getD k 0)) 0x14 k)
  ++ ((List.finRange 8).flatMap fun n => badIf (c.progOk n) 0x19 n.val)

/-! ### Orders -/

/-- Codes that name an event in the table that lists them (R206, Table 16.1). -/
def eventNamed (code : Nat) : Bool :=
  decide (code ≤ 0x1B ∨ (0x20 ≤ code ∧ code ≤ 0x29) ∨ (0x30 ≤ code ∧ code ≤ 0x3D) ∨ (0x40 ≤ code ∧ code ≤ 0x4E)
    ∨ (0x50 ≤ code ∧ code ≤ 0x5D) ∨ (0x60 ≤ code ∧ code ≤ 0x64) ∨ (0x68 ≤ code ∧ code ≤ 0x76) ∨ (0x78 ≤ code ∧ code ≤ 0x7E)
    ∨ (0x80 ≤ code ∧ code ≤ 0x85) ∨ (0x88 ≤ code ∧ code ≤ 0x8C) ∨ (0x90 ≤ code ∧ code ≤ 0x93) ∨ (0x98 ≤ code ∧ code ≤ 0x9B)
    ∨ (0xA0 ≤ code ∧ code ≤ 0xA2))

/-- The events whose scope is the chain. -/
def eventChain (code : Nat) : Bool := [0x38, 0x6A, 0x6B, 0x6C, 0x78, 0x79, 0x7D, 0x7E].contains code

/-- The number of units of a scope (Table 7.6, which gives the chain no UNIT; log entry 43). -/
def scopeUnits : Nat → Nat
  | 0 => 48 | 1 => 12 | 2 => 6 | 3 => 3 | 4 => 64 | _ => 1

/-- The action reaches its level from the scope (R209, R215): rail actions from a phase or rail, BENCH_REGION also from a
region, device actions from any unit; the chain scope only for the events of the chain (log entry 43). -/
def scopeReaches (scope action trig : Nat) : Bool :=
  match scope with
  | 0 | 1 => true
  | 2 => decide (4 ≤ action)
  | 3 | 4 => decide (5 ≤ action)
  | 5 => decide (5 ≤ action) && eventChain trig
  | _ => false

/-- The parameters of an action lie within Table 7.7. -/
def paramsOk (action p1 p2 : Nat) : Bool :=
  match action with
  | 1 => inR 1 65535 p1 && bits p2 7 4 == 0 && inR 1 255 (bits p2 15 8)
  | 3 => inR 1 65535 p1 && inR 0 3300 p2
  | 6 => inR 0 7 p1 && p2 == 0
  | 7 => inR 1 1000 p1 && p2 == 0
  | 8 => p2 == 0
  | 10 => inR 0 7 p1 && p2 == 0
  | 2 | 4 | 5 | 9 => p1 == 0 && p2 == 0
  | _ => false

/-- The rails that a rail action of an order can act on. -/
def Cfg.orderRails (c : Cfg) (w : Nat) : List Nat :=
  let en := (List.range 12).filter c.railEn
  if PbOrder.any w then en
  else match PbOrder.scope w with
    | 0 => match phOf (PbOrder.unit w) with
      | some p => [PhPool.home c.phPool[p.val]] ++ (if PhPool.flex c.phPool[p.val] then [PhPool.alt c.phPool[p.val]] else [])
      | none => []
    | _ => en.filter (· == PbOrder.unit w)

/-- An order by itself (R206, R207, R212, R215). -/
def Cfg.orderOk (c : Cfg) (w : Nat) : Bool :=
  let act := PbOrder.action w
  onlyBits [(17, 0), (35, 24), (71, 40)] w && eventNamed (PbOrder.trig w) && inR 1 255 (PbOrder.persist w)
  && scopeReaches (PbOrder.scope w) act (PbOrder.trig w) && inR 1 10 act && paramsOk act (PbOrder.param1 w) (PbOrder.param2 w)
  && (if PbOrder.any w then PbOrder.unit w == 0 else decide (PbOrder.unit w < scopeUnits (PbOrder.scope w)))
  && (act != 3 || (c.orderRails w).all fun r => (c.reach r).all fun p => PhCfg.ilimNeg c.phCfg[p.val] != 0)
  && !(decide (act ≤ 3) && PbOrder.scope w == 1 && !PbOrder.any w
    && (railOf (PbOrder.unit w)).any fun r => RailChain.gangEn c.railChain[r.val] && RailChain.role c.railChain[r.val] != 0)

/-- The key of an order: TRIG, SCOPE, ANY, UNIT and ACTION (R491). -/
def orderKey (w : Nat) : Nat := bits w 17 0 + fld (PbOrder.action w) 4 18

/-- Two orders can match one pair of event code and unit (R206). -/
def ordersMeet (a b : Nat) : Bool :=
  PbOrder.trig a == PbOrder.trig b && PbOrder.scope a == PbOrder.scope b
    && (PbOrder.any a || PbOrder.any b || PbOrder.unit a == PbOrder.unit b)

/-- More than 4 orders match a pair of event code and unit that order `w` matches, `w` itself included (R206). -/
def tooMany (l : List Nat) (w : Nat) : Bool :=
  let same := l.filter (ordersMeet w)
  if PbOrder.any w then
    let any := same.filter PbOrder.any
    decide (4 < any.length)
      || same.any fun x => !PbOrder.any x && decide (4 < any.length + (same.filter fun y => !PbOrder.any y && PbOrder.unit y == PbOrder.unit x).length)
  else decide (4 < same.length)

end Sys2Proof.Machine
end

