-- ==== Sys2Proof/Machine/Therm.lean ====
section
/-! DEFINITION. Thermal management and the margin plan: sampling and qualification (R275 to R279), compensation (R286), the
ageing measurements (R287), chirps (R288) and the margin plan's proposals and revisions (R290 to R292). -/

namespace Sys2Proof.Machine

/-- Thermal state changed. -/
def State.modTherm (s : State) (f : ThermSt → ThermSt) : State := { s with therm := f s.therm }

/-! ### Thresholds -/

/-- A temperature field of °C + 50, in 0.25 °C (Table 10.3). -/
def fieldQ (x : Nat) : Int := 4 * x - 200

/-- The warn threshold of a source (Table 10.2). -/
def State.warnQ (s : State) (k : Src) : Int :=
  let c := s.thcfg
  fieldQ (if k.val < 16 then ThermCfg.cdWarn c else if k.val < 24 then ThermCfg.pWarn c else if k.val < 72 then ThermCfg.stgWarn c
    else ([ThermCfg.ntc0Warn c, ThermCfg.ntc1Warn c, ThermCfg.ntc2Warn c, ThermCfg.ntc3Warn c]).getD (k.val - 72) 0)

/-- The critical threshold of a source (Table 10.2). -/
def State.critQ (s : State) (k : Src) : Int :=
  let c := s.thcfg
  fieldQ (if k.val < 16 then ThermCfg.cdCrit c else if k.val < 24 then ThermCfg.pCrit c else if k.val < 72 then ThermCfg.stgCrit c
    else ([ThermCfg.ntc0Crit c, ThermCfg.ntc1Crit c, ThermCfg.ntc2Crit c, ThermCfg.ntc3Crit c]).getD (k.val - 72) 0)

/-- The phase of a stage source. -/
def stagePh (k : Src) : Option Ph := if h : 24 ≤ k.val ∧ k.val < 72 then some ⟨k.val - 24, by omega⟩ else none

/-- TDER of a stage, or T_WARM of the pack thermistor, where the source has one. -/
def State.tderQ (s : State) (k : Src) : Option Int :=
  match stagePh k with
  | some p => some (4 * (PhCfg.tder (s.pcfg p) : Int))
  | none => if k = 72 ∧ s.packOn = true then some (fieldQ (PackCfg.tWarm s.pkcfg)) else none

/-- TLIM of a stage, or T_HOT of the pack thermistor. -/
def State.tlimQ (s : State) (k : Src) : Option Int :=
  match stagePh k with
  | some p => some (4 * (PhCfg.tlim (s.pcfg p) : Int))
  | none => if k = 72 ∧ s.packOn = true then some (fieldQ (PackCfg.tHot s.pkcfg)) else none

/-- T_COOL and T_COLD of the pack thermistor. -/
def State.coldQ (s : State) (k : Src) : Option (Int × Int) :=
  if k = 72 ∧ s.packOn = true then some (fieldQ (PackCfg.tCool s.pkcfg), fieldQ (PackCfg.tCold s.pkcfg)) else none

/-- Every threshold that applies to a source; for an on-die sensor also the one of the package maximum (Table 10.2, log entry 46). -/
def State.thresholds (s : State) (k : Src) : List Int :=
  [s.warnQ k, s.critQ k] ++ (s.tderQ k).toList ++ (s.tlimQ k).toList
    ++ (match s.coldQ k with
      | some (a, b) => [a, b]
      | none => [])
    ++ (if k.val < 24 then [fieldQ (ThermCfg.pkgLim s.thcfg)] else [])

/-- HYST in 0.25 °C. -/
def State.hystQ (s : State) : Int := 4 * (ThermCfg.hyst s.thcfg : Int)

/-- One sample at a qualified state: three in a row change it, any other resets the count (R276). -/
def ThrSt.step (x : ThrSt) (beyond clear : Bool) : ThrSt :=
  if (if x.above then clear else beyond) then
    (if 2 ≤ x.run then { x with above := !x.above, run := 0 } else { x with run := x.run + 1 })
  else { x with run := 0 }

/-- A sample against an upward threshold (R276). -/
def ThrSt.up (x : ThrSt) (q thr hyst : Int) : ThrSt := x.step (decide (thr ≤ q)) (decide (q < thr - hyst))

/-- A sample against a cold threshold, with the directions exchanged (R276). -/
def ThrSt.down (x : ThrSt) (q thr hyst : Int) : ThrSt := x.step (decide (q ≤ thr)) (decide (thr + hyst < q))

/-! ### Events of a source -/

/-- An event of a source: of its phase, its die or the device (R283). -/
def State.thermEvent (s : State) (k : Src) (code : Nat) (close : Bool) (a1 : Nat) : State :=
  let su : Nat × Nat := match stagePh k with
    | some p => (scPhase, p.val)
    | none => if k.val < 24 then (scDie, k.val / 8) else (scDev, s.ring.num)
  s.emit { code := code, close := close, scope := su.1, unit := su.2, arg0 := k.val, arg1 := a1 }

/-- THERM_WARN and its suppression within WARN_GAP (R277). -/
def State.warnChange (s : State) (k : Src) : State :=
  let x := s.therm.src[k.val]
  if x.warn.above then
    if x.lastPost.any fun b => decide (s.time.clk < b + 40000 * ThermCfg.warnGap s.thcfg) then
      s.modSrc k fun x => { x with chat := satAdd 16 x.chat 1, supp := satAdd 16 x.supp 1, warn := { x.warn with posted := false } }
    else
      (s.modSrc k fun x => { x with supp := 0, lastPost := some s.time.clk, warn := { x.warn with posted := true } }).thermEvent k
        0x50 false x.supp
  else if x.warn.posted then
    (s.modSrc k fun x => { x with warn := { x.warn with posted := false } }).thermEvent k 0x50 true 0
  else s

/-- The sample of a source qualifies its thresholds (R276, R277). -/
def State.qualifySrc (s : State) (k : Src) (q : Int) : State :=
  let h := s.hystQ
  let was := s.therm.src[k.val]
  let s := s.modSrc k fun x =>
    { x with warn := x.warn.up q (s.warnQ k) h, crit := x.crit.up q (s.critQ k) h,
             tder := (match s.tderQ k with
               | some t => x.tder.up q t h
               | none => x.tder),
             tlim := (match s.tlimQ k with
               | some t => x.tlim.up q t h
               | none => x.tlim),
             cool := (match s.coldQ k with
               | some (t, _) => x.cool.down q t h
               | none => x.cool),
             cold := (match s.coldQ k with
               | some (_, t) => x.cold.down q t h
               | none => x.cold) }
  let now := s.therm.src[k.val]
  let s := if was.warn.above != now.warn.above then s.warnChange k else s
  if was.crit.above != now.crit.above then s.thermEvent k 0x51 (!now.crit.above) 0 else s

/-! ### Cross-checks of the on-die sensors -/

/-- A sensor by its number, SUSPECT or not. -/
def State.srcN (s : State) (n : Nat) : SrcSt := s.therm.src.toArray.getD n {}

/-- The comparison partner of an on-die sensor in a direction: the nearest of its ring that is not SUSPECT (R278). -/
def State.partner (s : State) (k : Nat) (back : Bool) : Option SrcSt :=
  let base := k / 8 * 8
  ((List.range 7).map fun j => base + (if back then (k % 8 + 7 - j) % 8 else (k % 8 + 1 + j) % 8)).find?
    (fun n => !(s.srcN n).suspect) |>.map s.srcN

/-- The sample lies more than 8 °C from a partner's latest. -/
def farFrom (q : Int) (x : Option SrcSt) : Bool := (x.bind SrcSt.s0).any fun v => decide (32 < (q - v).natAbs)

/-- The die has fewer than 4 unmarked sensors: THERM_BLIND; with none, THERM_CRIT stands for it (R279). -/
def State.blindCheck (s : State) (d : Fin 3) : State :=
  let n := s.unmarked d
  let was := s.therm.blind[d.val]
  let s := s.modTherm fun x => { x with blind := x.blind.set d.val (decide (n < 4)) }
  let s := if n < 4 ∧ was = false then s.postDie 0x54 d.val else s
  if n = 0 then s.postDie 0x51 d.val else s

/-- The mark of R278: the sensor leaves every maximum and every threshold state, which return to BELOW (R293). -/
def State.crossCheck (s : State) (k : Src) (q : Int) : State :=
  if h : k.val < 24 then
    if (s.therm.src[k.val]).suspect then s
    else
      let n := if farFrom q (s.partner k.val true) && farFrom q (s.partner k.val false) then (s.therm.src[k.val]).disRun + 1 else 0
      if n < 16 then s.modSrc k fun x => { x with disRun := n }
      else
        let s := s.modSrc k fun x => { x with suspect := true, disRun := 0, near := false, warn := {}, crit := {} }
        (s.postDie 0x53 (k.val / 8) (k.val % 8)).blindCheck ⟨k.val / 8, by omega⟩
  else s

/-! ### Plausibility -/

/-- TFLT_RANGE of a stage: below −50 °C, or above 200 °C up to the stage-fault threshold, which stands at 300 °C on the scale of TFLT
(R61). A reading above that is the stage's fault report and leaves the mark as it is. A plausible sample refreshes the qualified
temperature that the phase uses (R62, R276). -/
def State.tfltCheck (s : State) (p : Ph) (q : Int) : State :=
  let was := (s.phAt p).tfltRange
  if 1200 < q then s
  else if q < -200 ∨ 800 < q then
    let s := s.modPh p fun x => { x with tfltRange := true }
    if was then s else s.postPh 0x06 p
  else
    let t := (s.srcN (p.val + 24)).tq
    s.modPh p fun x => { x with tfltRange := false, temp := t }

/-- NTC_RANGE of a thermistor input: below −50 °C or above 175 °C in 4 consecutive samples; a plausible sample ends it
(R243, log entry 45). -/
def State.ntcCheck (s : State) (n : Fin 4) (q : Int) : State :=
  let bad := decide (q < -200 ∨ 700 < q)
  let run := if bad then min 4 (s.pwr.ntcRun[n.val] + 1) else 0
  let was := s.pwr.ntcRange[n.val]
  let s := { s with pwr := { s.pwr with ntcRun := s.pwr.ntcRun.set n.val run, ntcRange := s.pwr.ntcRange.set n.val (decide (4 ≤ run)) } }
  let s := if n = 0 then
      s.modPack fun x => { x with ntcOpen := decide (q < -200), checkBad := x.checkBad || (x.check.isSome && bad) } else s
  if decide (4 ≤ run) && !was then s.postDev 0x3B n.val else s

/-! ### Thermal periods -/

/-- How far the latest sample of a source lies from the nearest of its thresholds, in 0.25 °C (R305). -/
def State.marginOf (s : State) (k : Src) : Nat :=
  match (s.therm.src[k.val]).s0 with
  | some q => ((s.thresholds k).map fun t => (q - t).natAbs).foldl min 1000
  | none => 1000

/-- A source goes into its place of an order by two keys. -/
def insSlot (x : Nat × Nat × Nat) : List (Nat × Nat × Nat) → List (Nat × Nat × Nat)
  | [] => [x]
  | y :: l => if x.1 < y.1 ∨ (x.1 = y.1 ∧ x.2.1 ≤ y.2.1) then x :: y :: l else y :: insSlot x l

/-- The near-limit sources that a converter serves in the frame that begins (R305): the least margin to a threshold first. With more than its
periods take, those served longest ago come first, so that each is served at least once in every ceil(n / 7) or ceil(n / 3) frames (log
entry 97). -/
def State.nearPick (s : State) (c : Conv) : List Nat :=
  let l := s.nearSrcs c
  let full := decide (slotLim c < l.length)
  ((((l.map fun k => (if full then (s.therm.src[k.val]).served else 0, s.marginOf k, k.val)).foldr insSlot []).take (slotLim c)).map
    fun x => x.2.2)

/-- The samples that the thermal periods of a frame take on a converter: near-limit sources, then round samples (R305). -/
def State.thermPlan (s : State) (c : Conv) : State :=
  let pick := s.nearPick c
  let b := s.time.clk
  let s := (List.finRange 76).foldl (fun (s : State) k => if pick.contains k.val then s.modSrc k fun x => { x with served := b } else s) s
  s.modConv c fun x => { x with plan := pick ++ (x.due.filter fun n => !pick.contains n).take (slotLim c + 1 - pick.length) }

/-- The thermal periods of a frame on every converter (R305). -/
def State.thermSlots (s : State) : State := convs.foldl (fun (s : State) c => (s.slotFrame c).thermPlan c) s

/-- The converter whose samples of a source count (R275, R293): that of its die, of the active die for a stage, CVP for the rest. -/
def State.srcConv (s : State) (k : Src) : Conv :=
  if k.val < 8 then .a else if k.val < 16 then .b else if 24 ≤ k.val ∧ k.val < 72 then s.actConv else .p

/-- The sample of a source is taken: it leaves the plan of the frame and the round samples still due. -/
def State.slotTaken (s : State) (k : Src) : State :=
  { s with conv := s.conv.map fun x => { x with plan := x.plan.erase k.val, due := x.due.erase k.val } }

/-- The channel of a source (Table 11.1). -/
def srcCh (k : Src) : Nat := if k.val < 24 then 112 + k.val % 8 else if k.val < 72 then 40 + k.val else k.val - 15

/-- THERMAL_SAMPLE: one sample of an enabled source, in 0.25 °C, in a thermal period that the frame gives it (R275 to R279, R305, R61,
R243). A SUSPECT sensor's samples stay observations, and an input in NTC_RANGE qualifies nothing. The conversion writes CVx_DATA (R307); its code
is that of a voltage, which the command does not carry: a free value (log entry 115). -/
def execThermalSample (k : Src) (q : Int) (s : State) : Host.Outcome State Fault Refusal :=
  if !s.srcEn k || !(s.convAt (s.srcConv k)).plan.contains k.val then .next s
  else
    let d := s.draw 16384
    let s := (d.2.convWrite (s.srcConv k) (srcCh k) d.1).slotTaken k
    let near := (s.thresholds k).any fun t => decide ((q - t).natAbs ≤ 20)
    let s := s.modSrc k fun x => { x with s0 := some q, s1 := x.s0, s2 := x.s1, near := near && !x.suspect }
    let s := s.modTherm fun x => { x with pkgNew := x.pkgNew || decide (k.val < 24) }
    let s := match stagePh k with
      | some p => s.tfltCheck p q
      | none => if h : 72 ≤ k.val then s.ntcCheck ⟨k.val - 72, by omega⟩ q else s
    let s := s.crossCheck k q
    let out := (s.therm.src[k.val]).suspect || (if h : 72 ≤ k.val then s.pwr.ntcRange[k.val - 72]'(by omega) else false)
    .next (if out then s else s.qualifySrc k q)

/-- A mark is cleared; the sensor is evaluated afresh (R278). CHAT is cleared with it (Table 10.4). -/
def State.thermClear (s : State) (n : Nat) : State :=
  let s := (List.finRange 76).foldl (fun (s : State) k =>
    if n = 255 ∨ n = k.val then s.modSrc k fun x => { x with suspect := false, disRun := 0, chat := 0 } else s) s
  s.modTherm fun x => { x with blind := Vector.ofFn fun d => x.blind[d.val] && decide (s.unmarked d < 4) }

/-- THERM_CLEAR: at the next frame boundary (R278). -/
def execThermClear (t : Tkt) (s : State) : Host.Outcome State Fault Refusal :=
  let k := t.byte 16
  runTicket t 0x540 s { rng := [(16, k < 76 ∨ k = 255)] } fun u => (u.post (t.nbBeat u) .frame (.thermClear k)).ok t

/-- The package maximum takes one sample at the frame boundary after an on-die sensor was sampled (R276, log entry 46). -/
def State.pkgFrame (s : State) : State :=
  if !s.therm.pkgNew then s
  else
    let s := s.modTherm fun x => { x with pkgNew := false }
    match s.pkgMax with
    | none => s
    | some q =>
      let was := s.therm.pkg.above
      let s := s.modTherm fun x => { x with pkg := x.pkg.up q (fieldQ (ThermCfg.pkgLim s.thcfg)) s.hystQ }
      if s.therm.pkg.above != was then
        s.emit { code := 0x52, close := was, scope := scDev, unit := s.ring.num }
      else s

/-! ### Compensation -/

/-- The sensor that each item of Table 10.8 uses: REFOSC, the oscillators of Die A and Die B, AON, the bandgaps of Die A, B
and P, the converters of Die A and B. -/
def compSensors : List Nat := [16, 0, 8, 17, 4, 12, 20, 2, 10]

/-- The mean of a die's unmarked sensors that have a reading. -/
def State.dieMean (s : State) (d : Nat) : Option Int :=
  let l := s.temps (8 * d) (8 * d + 7)
  if l.isEmpty then none else some (Q.norm l.sum l.length).round

/-- The temperature one item of Table 10.8 uses: the named sensor, or the mean of its die while that is SUSPECT; held while
the die is blind (R286). -/
def State.compItem (s : State) (i : Nat) (was : Int) : Int :=
  let k := compSensors.getD i 0
  if s.therm.blind.toArray.getD (k / 8) false then was
  else if (s.srcN k).suspect then (s.dieMean (k / 8)).getD was
  else (s.srcN k).tq.getD was

/-- The compensation of every round (R286). -/
def State.compRound (s : State) : State :=
  s.modTherm fun x => { x with comp := Vector.ofFn fun i => s.compItem i.val x.comp[i.val] }

/-! ### Ageing measurements -/

/-- AGE_RO_MEASURE: the drift of a control die's four ring oscillators against the OTP baseline, in 0.1 % slower, every 1,000 rounds; one
above 3 % is reported (R287, log entry 82). -/
def execAgeRoMeasure (d : Cd) (drift : List Int) (s : State) : Host.Outcome State Fault Refusal :=
  if s.bnd % 4000000 ≠ 0 then .next s
  else
    let v : Vector Int 4 := Vector.ofFn fun i => drift.getD i.val 0
    let s := s.modTherm fun x => { x with ro := x.ro.set d.ix.val v }
    .next (if v.toList.any fun m => decide (30 < m) then s.postDie 0x56 d.ix.val else s)

/-- Reference `j` differs from both others by more than 0.2 % on a converter (R287). -/
def refOff (v : Vector Int 3) (j : Fin 3) : Bool :=
  (List.finRange 3).all fun i => i == j || decide (v[i.val].natAbs * 2 < (v[j.val] - v[i.val]).natAbs * 1000)

/-- AGE_REF: a reference off on all three converters in 64 consecutive rounds (R287). -/
def State.refRound (s : State) : State :=
  (List.finRange 3).foldl (fun (s : State) j =>
    let off := convs.all fun c => refOff (s.convAt c).refs j
    let n := if off then min 64 (s.therm.refRun[j.val] + 1) else 0
    let was := s.therm.refRun[j.val]
    let s := s.modTherm fun x => { x with refRun := x.refRun.set j.val n }
    if n = 64 ∧ was < 64 then s.postDie 0x57 j.val j.val else s) s

/-- A captured current sample of an ACTIVE phase on the active die enters the phase's round (R287). -/
def State.ageBeat (s : State) (p : Ph) : State :=
  let y := s.phDie s.act p
  if (s.phAt p).st = .active ∧ y.fresh = true then
    let i := (y.current y.cap).round
    s.modPh p fun x =>
      { x with iRound := x.iRound + i, iRoundN := x.iRoundN + 1, iMin := if x.iRoundN = 0 then i else min x.iMin i,
               iMax := if x.iRoundN = 0 then i else max x.iMax i }
  else s

/-- The board reference of the stage loss (R280). -/
def State.boardRef (s : State) : Option Int :=
  if ThermCfg.boardDie s.thcfg then s.dieMean 2 else (s.srcN (72 + ThermCfg.boardNtc s.thcfg)).tq

/-- The least-squares slope of temperature rise against the square of the current (R287). -/
def lossSlope (l : List (Int × Int)) : Option Q :=
  let n : Int := l.length
  let sx := (l.map Prod.fst).sum
  let sy := (l.map Prod.snd).sum
  let sxx := (l.map fun p => p.1 * p.1).sum
  let sxy := (l.map fun p => p.1 * p.2).sum
  let den := n * sxx - sx * sx
  if den = 0 then none else some (Q.norm (n * sxy - sx * sy) den.toNat)

/-- s / s0 lies above RON_LIM / 100 (R287). -/
def State.ronHigh (s : State) (s0 : Option Q) (now : Option Q) : Bool :=
  match s0, now with
  | some a, some b => Q.lt (Q.mul a (Q.ofInt (ThermCfg.ronLim s.thcfg))) (Q.mul b (Q.ofInt 100))
  | _, _ => false

/-- The largest n up to 16 with n² x s ≤ WNOM² x s0: floor(WNOM x √(s0 / s)) (Table 10.11). -/
def wnomRoot (wnom : Nat) (s0 s : Q) : Nat :=
  ((List.range 17).filter fun n => Q.le (Q.mul (Q.ofInt (n * n : Nat)) s) (Q.mul (Q.ofInt (wnom * wnom : Nat)) s0)).foldl max 0

/-! ### Margin plan -/

/-- The phase or rail of a proposal lies on this rail: the rail itself, or the home rail of a phase. -/
def State.propRail (s : State) (x : Proposal) : Nat :=
  if x.kind = 2 then (match phOf x.target with
    | some p => s.home p
    | none => 12) else x.target

/-- SUP_CFG with both warn offsets replaced. -/
def supWith (x : Nat) (lo hi : Int) : Nat := x / 2 ^ 16 * 2 ^ 16 + fld lo.toNat 8 0 + fld hi.toNat 8 8

/-- The coefficient set `n` of a rail: 0 the base RAIL_COMP, 1 to 3 MP_COMPn (R289). -/
def Cfg.compSet (c : Cfg) (base : Cfg) (r : Rail) (n : Nat) : Nat :=
  if n = 0 then base.railComp[r.val] else c.mpComp.toArray.getD (3 * r.val + n - 1) 0

/-- The load checks of R74, R98, R145 and R204 on a proposed value (R290); warn offsets as values in force. -/
def State.valueOk (s : State) (c : Cfg) (kind target : Nat) (v1 v2 : Int) : Bool :=
  match kind with
  | 0 => match railOf target with
    | some r =>
      let sup := supWith c.supCfg[r.val] v1 v2
      decide (0 ≤ v1 ∧ v1 ≤ 255 ∧ 0 ≤ v2 ∧ v2 ≤ 255) && supCfgOk sup c.railCfg[r.val] && fcRailOk c.fcCfg[r.val] c.railCfg[r.val] sup
    | none => false
  | 1 => match railOf target with
    | some r => compOk (c.compSet s.cfg.base r v1.toNat)
    | none => false
  | _ => match phOf target with
    | some p =>
      let x := c.phCfg[p.val]
      decide (0 ≤ v1 ∧ v1 ≤ 15) && phCfgOk (x - fld (PhCfg.wnom x) 4 40 + fld v1.toNat 4 40)
    | none => false

/-- The value of an applied revision against a configuration: a WARN revision is a delta (R292). -/
def Proposal.valueIn (x : Proposal) (c : Cfg) : Int × Int :=
  if x.kind = 0 then
    let w := c.supCfg.toArray.getD x.target 0
    (x.v1 + SupCfg.warnLo w, x.v2 + SupCfg.warnHi w)
  else (x.v1, x.v2)

/-- A revision may act on a configuration: it passes its checks, and a COMP revision only where the overlay in force carries
the base's RAIL_COMP (R292). -/
def State.revOk (s : State) (c : Cfg) (x : Proposal) : Bool :=
  let v := x.valueIn c
  s.valueOk c x.kind x.target v.1 v.2
    && (x.kind != 1 || c.railComp.toArray.getD x.target 0 == s.cfg.base.railComp.toArray.getD x.target 0)

/-- A configuration with one revision on it. A DERATE revision acts on R62 and not on the record. -/
def State.revise (s : State) (c : Cfg) (x : Proposal) : Cfg :=
  if x.suspended then c
  else match x.kind, railOf x.target with
    | 0, some r =>
      let v := x.valueIn c
      { c with supCfg := upd c.supCfg r fun w => supWith w v.1 v.2 }
    | 1, some r => { c with railComp := upd c.railComp r fun _ => c.compSet s.cfg.base r x.v1.toNat }
    | _, _ => c

/-- The configuration in force is the base and the overlay with the revisions on them (R292). -/
def State.reCfg (s : State) : State :=
  let c := s.therm.revs.foldl s.revise s.cfg.plain
  let s := { s with cfg := { s.cfg with cfg := c } }
  let of := fun (p : Ph) => (s.therm.revs.find? fun x => x.kind == 2 && x.target == p.val && !x.suspended).map fun x => x.v1.toNat
  phases.foldl (fun (s : State) p => s.modPh p fun x => { x with derate := (of p).getD 0 }) s

/-- An event of a proposal: of its rail or its phase. -/
def State.mpEvent (s : State) (code : Nat) (x : Proposal) (a1 a2 : Nat := 0) : State :=
  s.emit { code := code, scope := if x.kind = 2 then scPhase else scRail, unit := x.target, arg0 := x.num, arg1 := a1, arg2 := a2 }

/-- A proposal is made: it passes its checks, replaces a pending one of its kind and target, and the oldest when 16 are
pending; MP_PROPOSE carries the number, and the number of the oldest it replaced (R290, log entry 47). -/
def State.propose (s : State) (kind target : Nat) (v1 v2 : Int) (inside : Bool) : State :=
  if !s.valueOk s.cfg.cfg kind target v1 v2 then s
  else
    let n := s.therm.propNum
    let x : Proposal := { num := n, kind := kind, target := target, v1 := v1, v2 := v2, inside := inside }
    let l := s.therm.props.filter fun y => !(y.kind == kind && y.target == target)
    let full := decide (16 ≤ l.length)
    let old := if full then (l.head?.map Proposal.num).getD 0 else 0
    let l := if full then l.drop 1 else l
    (s.modTherm fun t => { t with props := l ++ [x], propNum := wrapAdd 16 n 1 }).mpEvent 0x5B x (b2n full) old

/-- WARN_PROPOSAL: once per 24 h of REGULATE, the peaks of both sides plus W_MARGIN (Table 10.11). -/
def execWarnProposal (r : Rail) (s : State) : Host.Outcome State Fault Refusal :=
  let x := s.railAt r
  let c := s.mpcfg r
  if !(MpCfg.mpEn c && s.railEn r) || decide (x.regBeats < 86400000) then .next s
  else
    let lo := x.peakLo + MpCfg.wMargin c
    let hi := x.peakHi + MpCfg.wMargin c
    let ok := fun (v : Nat) => decide (MpCfg.wMin c ≤ v ∧ v ≤ MpCfg.wMax c)
    let s := s.modRail r fun x => { x with regBeats := 0, peakLo := 0, peakHi := 0 }
    .next (s.propose 0 r.val lo hi (ok lo && ok hi))

/-- A proposal is applied: it becomes a revision in place of the one of its kind and target, and is posted (R291, R292). -/
def State.mpApply (s : State) (x : Proposal) : State :=
  let w := s.cfg.plain.supCfg.toArray.getD x.target 0
  let v : Proposal := if x.kind = 0 then { x with v1 := x.v1 - SupCfg.warnLo w, v2 := x.v2 - SupCfg.warnHi w } else x
  let v := { v with suspended := !s.revOk s.cfg.plain v }
  let s := s.modTherm fun t =>
    { t with props := t.props.filter fun y => y.num != x.num,
             revs := (t.revs.filter fun y => !(y.kind == x.kind && y.target == x.target)) ++ [v] }
  let s := (s.reCfg.intent).mpEvent 0x5C x
  if v.suspended then s.mpEvent 0x5D x else s

/-- REV_GAP hours have passed since the last automatic application on the device; one hour is 14,400,000,000 beats (R291). -/
def State.gapOver (s : State) : Bool :=
  s.therm.lastAuto.all fun b => decide (b + 14400000000 * (ThermCfg.revGap s.thcfg : Int) ≤ s.time.clk)

/-- The proposal that is applied automatically at a round boundary: the oldest pending one inside the envelope, on a rail with AUTO = 1,
that passes its checks; one of a benched phase stays pending (R291, R293). -/
def State.autoPick (s : State) : Option Proposal :=
  if !s.gapOver || s.cfg.inForce.isNone then none
  else s.therm.props.find? fun (x : Proposal) => x.inside
    && (match railOf (s.propRail x) with
      | some r => MpCfg.auto (s.mpcfg r) && MpCfg.mpEn (s.mpcfg r)
      | none => false)
    && s.valueOk s.cfg.cfg x.kind x.target x.v1 x.v2
    && !(x.kind == 2 && (phOf x.target).any fun p => (s.phAt p).st == .benched)

/-- The automatic application at a round boundary (R291). -/
def State.autoApply (s : State) : State :=
  match s.autoPick with
  | none => s
  | some x => (s.mpApply x).modTherm fun t => { t with lastAuto := some s.time.clk }

/-- An overlay switch is due at this round boundary. -/
def State.ovlDue (s : State) : Bool := (s.due .round).any fun a => match a with
  | .overlaySelect _ _ => true
  | _ => false

/-- MP_AUTO_APPLY at a round boundary (R291): with an overlay switch due there, the overlay applies first (R293). -/
def execMpAutoApply (s : State) : Host.Outcome State Fault Refusal :=
  if s.bnd % 4000 ≠ 0 then .next s
  else .next (s.atBoundary fun s => if s.ovlDue then s.modTherm fun t => { t with autoPend := true } else s.autoApply)

/-- The automatic application that waited for the overlay switch of its boundary (R293). -/
def State.autoLate (s : State) : State :=
  if s.therm.autoPend then (s.modTherm fun t => { t with autoPend := false }).autoApply else s

/-- A proposal by its number. -/
def State.propAt (s : State) (n : Nat) : Option Proposal := s.therm.props.find? fun x => x.num == n

/-- MP_ACCEPT: a pending proposal that passes the checks of R290, at the next round boundary; one that is not pending or
does not pass is BAD_TARGET (R291, log entry 47). -/
def execMpAccept (t : Tkt) (s : State) : Host.Outcome State Fault Refusal :=
  let n := t.le 16 2
  let ok := (s.propAt n).any fun x => s.valueOk s.cfg.cfg x.kind x.target x.v1 x.v2
  runTicket t 0x350 s { pre := [failIf (!ok) badTarget], post := [nvmFault s] } fun u => (u.post (t.nbBeat u) .round (.mpAccept n)).ok t

/-- The acceptance at its boundary; a proposal replaced meanwhile is not applied. -/
def State.mpAcceptAct (s : State) (n : Nat) : State :=
  match s.propAt n with
  | some x => s.mpApply x
  | none => s

/-- MP_REJECT: the pending proposal is discarded (R291). -/
def execMpReject (t : Tkt) (s : State) : Host.Outcome State Fault Refusal :=
  let n := t.le 16 2
  runTicket t 0x360 s { pre := [failIf (s.propAt n).isNone badTarget] } fun u =>
    (u.modTherm fun x => { x with props := x.props.filter fun y => y.num != n }).ok t

/-- MP_RESET: a rail's, or all, revisions and pending proposals are cleared; with its baseline bit also the ageing results
and baselines (R287, R292). -/
def State.mpResetAct (s : State) (target : Option Rail) (baseline : Bool) : State :=
  let hit := fun (r : Nat) => target.all fun x => x.val == r
  let s := s.modTherm fun x => { x with props := x.props.filter fun y => !hit (s.propRail y),
                                        revs := x.revs.filter fun y => !hit (s.propRail y) }
  let s := s.reCfg.intent
  if !baseline then s
  else
    let s := phases.foldl (fun (s : State) p =>
      if hit (s.home p) then s.modPh p fun x => { x with lossPts := [], lossS0 := none, lossN := 0 } else s) s
    let s := rails.foldl (fun (s : State) r =>
      if hit r.val then s.modTherm fun x => { x with capC := x.capC.set r.val 0, capEsr := x.capEsr.set r.val 0 } else s) s
    if target.isSome then s
    else
      let s := s.modTherm fun x => { x with ro := Vector.replicate 2 (Vector.replicate 4 0), refRun := Vector.replicate 3 0 }
      [Feed.a, Feed.b].foldl (fun (s : State) f => s.modFeed f fun x => { x with rPts := [], rBase := none }) s

/-- MP_RESET, for a rail or for the device. -/
def execMpReset (t : Tkt) (s : State) : Host.Outcome State Fault Refusal :=
  runTicket t 0x370 s { post := [nvmFault s] } fun u => (u.post (t.nbBeat u) .round (.mpReset t.rail (bit (t.byte 16) 0))).ok t

/-- At an overlay switch every revision is checked again: one that fails is suspended for that overlay and posted, and
resumes when an overlay allows it (R292). -/
def State.revCheck (s : State) : State :=
  let l := s.therm.revs.map fun x => { x with suspended := !s.revOk s.cfg.plain x }
  let new := (s.therm.revs.zip l).filterMap fun p => if p.2.suspended && !p.1.suspended then some p.2 else none
  let s := (s.modTherm fun t => { t with revs := l }).reCfg
  new.foldl (fun (s : State) x => s.mpEvent 0x5D x) s

/-! ### Ageing results in NVM -/

/-- The results and baselines that a journal commit takes (R287). -/
def State.ageOf (s : State) : AgeRec :=
  { loss := s.ph.map fun x => (x.lossPts, x.lossS0, x.lossN), capC := s.therm.capC, capEsr := s.therm.capEsr, ro := s.therm.ro
    feed := s.feed.map fun x => (x.rPts, x.rBase) }

/-! ### Loss points and chirps -/

/-- DERATE after each 256 new points: max(WMIN, floor(WNOM x √(s0 / s))); where the slope is not positive the rule gives no
value, and the root is a free value (log entry 48). -/
def State.derateProposal (s : State) (p : Ph) (s0 sl : Q) : State :=
  let c := s.pcfg p
  let wn := PhCfg.wnom c
  let res : Nat × State := if sl.num ≤ 0 ∨ s0.num ≤ 0 then s.draw 16 else (wnomRoot wn s0 sl, s)
  let w := max (PhCfg.wmin c) res.1
  match railOf (s.home p) with
  | some r =>
    if MpCfg.mpEn (s.mpcfg r) then res.2.propose 2 p.val w 0 (decide (wn ≤ w + MpCfg.wderMax (s.mpcfg r))) else s
  | none => s

/-- A point of the stage loss (R287): AGE_RON when s / s0 comes above RON_LIM / 100. -/
def State.lossPoint (s : State) (p : Ph) (i2 rise : Int) : State :=
  let x := s.phAt p
  let pts := ((i2, rise) :: x.lossPts).take 256
  let sl := lossSlope pts
  let s0 := if x.lossS0.isNone ∧ pts.length = 256 then sl else x.lossS0
  let was := s.ronHigh x.lossS0 (lossSlope x.lossPts)
  let n := x.lossN + 1
  let s := s.modPh p fun y => { y with lossPts := pts, lossS0 := s0, lossN := n % 256 }
  let s := if s.ronHigh s0 sl && !was then s.postPh 0x58 p else s
  if n < 256 then s
  else match s0, sl with
    | some a, some b => s.derateProposal p a b
    | _, _ => s

/-- The round of one phase: its current within ±5 % of its round mean, 64 rounds in a row and at least 20 A, gives one point. -/
def State.lossRound (s : State) (p : Ph) : State :=
  let x := s.phAt p
  let n := x.iRoundN
  let m := (Q.norm x.iRound (max 1 n)).round
  let steady := n != 0 && decide (95 * m ≤ 100 * x.iMin ∧ 100 * x.iMax ≤ 105 * m)
  let k := if steady then min 64 (x.steady + 1) else 0
  let s := s.modPh p fun y => { y with steady := k, iRound := 0, iRoundN := 0, iMin := 0, iMax := 0 }
  if k < 64 ∨ m < 200 then s
  else match (s.srcN (p.val + 24)).tq, s.boardRef with
    | some q, some b => s.lossPoint p (m * m) (q - b)
    | _, _ => s

/-- The feed's connector and harness resistance (R287): −ΔV / ΔI between frames in which |ΔI| is at least 5 A, exact, and the mean of the last 64;
mV and 0.1 A make 0.01 Ω. -/
def State.ageFeed (s : State) (f : Feed) : State :=
  let x := s.feedAt f
  match x.lastV, x.prevV with
  | some v, some v0 =>
    let di := Q.sub x.lastI x.prevI
    let e : Fin 16 := if f = .a then 0 else 1
    if Q.lt di.abs (Q.ofInt 50) = true ∨ (((s.mseq[0]).res[e.val])[2]).accN = 0 then s
    else
      let mean := fun (l : List Q) => if l.length < 64 then none else some (Q.divN (l.foldl Q.add {}) 64)
      let pts := (Q.div (Q.sub v0 v) di :: x.rPts).take 64
      let base := if x.rBase.isNone then mean pts else x.rBase
      let high := fun (m b : Option Q) => match m, b with
        | some m, some b => Q.lt (Q.mul (Q.ofInt 2) b) m || Q.lt (Q.ofInt 2) m
        | _, _ => false
      let s := s.modFeed f fun y => { y with rPts := pts, rBase := base }
      if high (mean pts) base && !high (mean x.rPts) x.rBase then s.postDev 0x5A f.ix.val else s
  | _, _ => s

/-- Work of the frame: IOUT_F below 1/16 of the stage rating in consecutive evaluations (R288). -/
def State.lowFrame (s : State) (r : Rail) : State :=
  let low := Q.lt (Q.mul (s.railAct r).ioutF (Q.ofInt 16)) (Q.ofInt (10 * s.ratingG r))
  s.modTherm fun x => { x with iLow := x.iLow.set r.val (if low then min 4 (x.iLow[r.val] + 1) else 0) }

/-- Thermal and ageing work of a frame boundary, before the meter's frame sums are cleared. -/
def State.thermFrame (s : State) : State :=
  let s := (s.pkgFrame.ageFeed .a).ageFeed .b
  rails.foldl State.lowFrame s

/-- Thermal and ageing work of a round boundary (R275, R286, R287, R290). -/
def State.thermRound (s : State) : State :=
  let s := s.compRound.refRound
  let s := phases.foldl State.lossRound s
  rails.foldl (fun (s : State) r =>
    if (s.railAt r).st = .regulate then s.modRail r fun x => { x with regBeats := x.regBeats + 1 } else s) s

/-- A chirp ends: its trace entry carries 0 when it is done, else the cause of R288 by its place in the list (log entry 44). -/
def State.chirpEnd (s : State) (r : Rail) (cause : Nat) : State :=
  ((s.modTherm fun x => { x with chirps := x.chirps.set r.val none }).trace 0x04 r.val cause 0).intent

/-- Why a running chirp is abandoned, if it is (R288, R293). -/
def State.chirpCause (s : State) (r : Rail) (c : ChirpSt) : Option Nat :=
  let y := s.railAct r
  if (s.railDie .a r).ctch.isSome || (s.railDie .b r).ctch.isSome then some 1
  else if (s.railAt r).left % 4 != 0 || y.seen % 4 != 0 then some 2
  else if Q.lt (Q.ofInt (20 * (s.drivenOf r).length)) (Q.sub y.ioutF c.i0).abs then some 3
  else if (s.drivenOf r).length != c.n0 then some 4
  else if !(s.fcOf r).isEmpty then some 5
  else if s.arb.active != c.die then some 6
  else if (s.railAt r).snsLocal != c.sns then some 8
  else none

/-- The running chirp of a rail at a beat boundary. -/
def State.chirpBeat (s : State) (r : Rail) : State :=
  match s.therm.chirps[r.val] with
  | none => s
  | some c => match s.chirpCause r c with
    | some k => s.chirpEnd r k
    | none => s

/-- An overlay switch abandons every chirp (R288). -/
def State.chirpOverlay (s : State) : State :=
  rails.foldl (fun (s : State) r => if (s.therm.chirps[r.val]).isSome then s.chirpEnd r 7 else s) s

/-- CHIRP_START: at a round boundary, at most once per CHIRP_T, when every condition of R288 holds. -/
def execChirpStart (r : Rail) (s : State) : Host.Outcome State Fault Refusal :=
  let x := s.railAt r
  let c := s.mpcfg r
  let due := !(s.therm.chirpAt[r.val]).any fun b => decide ((s.bnd : Int) < b + 14400000000 * (MpCfg.chirpT c : Int))
  let quiet := (s.fcOf r).isEmpty && (s.railDie .a r).ctch.isNone && (s.railDie .b r).ctch.isNone && x.left % 4 == 0
  if decide (s.bnd % 4000 = 0) && s.railEn r && MpCfg.chirpEn c && due && x.st == .regulate
      && ((s.railAct r).light || decide (4 ≤ s.therm.iLow[r.val])) && quiet && (s.therm.chirps[r.val]).isNone then
    let n : ChirpSt := { die := s.arb.active, sns := x.snsLocal, start := s.bnd, i0 := (s.railAct r).ioutF, n0 := (s.drivenOf r).length }
    .next (s.modTherm fun t => { t with chirps := t.chirps.set r.val (some n), chirpAt := t.chirpAt.set r.val (some s.bnd) }).intent
  else .next s

/-- A range of MP_CFG holds C (R289): percentages of C_NOM. -/
def holdsC (cNom : Nat) (c : Nat) (r : Nat × Nat) : Bool := decide (r.1 * cNom ≤ 100 * c ∧ 100 * c < r.2 * cNom)

/-- The set that the COMP proposal names: the one whose range holds C, else the base (Table 10.11). -/
def compFor (cfg c : Nat) : Nat :=
  match ([(MpCfg.cs1 cfg, 1), (MpCfg.cs2 cfg, 2), (MpCfg.cs3 cfg, 3)].find? fun (w, _) =>
      w != 0 && holdsC (MpCfg.cNom cfg) c (bits w 7 0, bits w 15 8)) with
  | some (_, n) => n
  | none => 0

/-- A completed chirp: C and ESR, AGE_CAP, and the COMP proposal (R287, R290). -/
def State.chirpDone (s : State) (r : Rail) (c esr : Nat) : State :=
  let cfg := s.mpcfg r
  let s := s.modTherm fun t => { t with capC := t.capC.set r.val c, capEsr := t.capEsr.set r.val esr }
  let s := s.chirpEnd r 0
  let rs := mpRanges cfg
  let bad := decide (100 * c < 70 * MpCfg.cNom cfg) || (!rs.isEmpty && !rs.any (holdsC (MpCfg.cNom cfg) c))
  let s := if bad then s.postRail 0x59 r else s
  if MpCfg.mpEn cfg then s.propose 1 r.val (compFor cfg c) 0 true else s

/-- CHIRP_TONE_STEP: a tone has run its 4 rounds; the two lowest give C, as their mean, and the last one the ESR (R288, log
entry 44). `c` and `esr` are what the tone measured, in 10 µF and 0.01 mΩ. -/
def execChirpToneStep (r : Rail) (c esr : Nat) (s : State) : Host.Outcome State Fault Refusal :=
  match s.therm.chirps[r.val] with
  | none => .next s
  | some x =>
    if s.bnd < x.start + 16000 then .next s
    else
      let acc := if x.tone < 2 then x.cAcc + c else x.cAcc
      if x.tone < 7 then
        .next (s.modTherm fun t => { t with chirps := t.chirps.set r.val (some { x with tone := x.tone + 1, start := s.bnd, cAcc := acc }) })
      else .next (s.chirpDone r (acc / 2) esr)

end Sys2Proof.Machine
end

