-- ==== Sys2Proof/Machine/Ring.lean ====
section
/-! DEFINITION. The Finlumal ring: the transmit scheduler (R374), acknowledged classes and resending (R376), routes and
forwarding counts (R377, R378), the chain clock (R383 to R386), heads (R387), cuts and healing (R388 to R391), dead and benched
devices (R392 to R395), and alarm reports (R401). -/

namespace Sys2Proof.Machine

/-! ### Routes -/

/-- The number of devices of the chain. -/
def State.ringN (s : State) : Nat := s.ring.ndev + 1
/-- Hops to a device going east. -/
def State.hopsE (s : State) (d : Nat) : Nat := (d + 64 * s.ringN - s.ring.num) % s.ringN
/-- A link named by a device and its port, numbered by the device at its west end (R370). -/
def State.linkIx (s : State) (d : Nat) (p : Side) : Nat := if p = .east then d % s.ringN else (d + s.ringN - 1) % s.ringN
/-- The links that are cut, each once. -/
def State.cutLinks (s : State) : List Nat := (s.ring.cuts.map fun c => s.linkIx c.1 c.2).dedup
/-- No link on the way to a device by a port is cut. -/
def State.clear (s : State) (d : Nat) (p : Side) : Bool :=
  let e := s.hopsE d
  if p = .east then (List.range e).all fun i => !s.cutLinks.contains ((s.ring.num + i) % s.ringN)
  else (List.range (s.ringN - e)).all fun i => !s.cutLinks.contains ((s.ring.num + 64 * s.ringN - 1 - i) % s.ringN)
/-- The port towards a device: fewer hops, ring E on a tie, away from a cut (R377, R388). -/
def State.route (s : State) (d : Nat) : Side :=
  let p : Side := if 2 * s.hopsE d ≤ s.ringN then .east else .west
  if s.clear d p || !s.clear d p.other then p else p.other
/-- The reference neighbour: on the path with fewer hops to the root, which is the keeper, away from a cut, the west one on a tie (R383, R388,
R396). -/
def State.refSide (s : State) : Side :=
  let k := s.own.keeper
  let p : Side := if 2 * s.hopsE k < s.ringN then .east else .west
  if s.clear k p || !s.clear k p.other then p else p.other

/-- A link carries packets. -/
def State.linkUp (s : State) (p : Side) : Bool := (s.linkAt p).st == .up

/-- The port that a packet leaves by: its route, or the other one behind a wrap (R377, R388); an ACK packet is never moved
(R389). -/
def State.outPort (s : State) (k : RingPkt) : Option Side :=
  let p := k.via.getD (if 64 ≤ k.dst then .east else s.route k.dst)
  if s.linkUp p then some p
  else if (k.kind == 2 && k.code == 75) || !s.linkUp p.other then none
  else some p.other

/-! ### The transmit scheduler -/

/-- The start symbol of a packet, as the 8-bit number of its control symbol: K28.0, K28.2, K27.7, K28.3, K28.4 (Table 15.2). -/
def RingPkt.start (k : RingPkt) : Nat :=
  match k.kind with
  | 0 => 0x1C
  | 1 => 0x5C
  | 2 => 0xFB
  | 3 => 0x7C
  | _ => 0x9C

/-- The bytes between the start symbol and the CRC (R375). -/
def RingPkt.bytes (k : RingPkt) : List Nat :=
  match k.kind with
  | 0 => leBytes 64 k.body
  | 1 => leBytes 16 k.body
  | 2 => [k.src, if 64 ≤ k.dst then 64 else k.dst, k.code] ++ leBytes 16 k.body
  | _ => [k.src, if 64 ≤ k.dst then 64 else k.dst, k.len] ++ leBytes (4 * k.len) k.body

/-- The symbols of a packet: the start symbol, the body, the CRC-16 over every byte after the start symbol (R375). -/
def RingPkt.frame (k : RingPkt) : List Nat := k.start :: (k.bytes ++ leBytes 2 (crc16 k.bytes))

/-- How many symbols a packet takes (Table 15.2). -/
def RingPkt.syms (k : RingPkt) : Nat := k.frame.length

/-- The next packet of a port and the deficits after it (R374): an alarm packet, else ticket and telemetry packets by deficit
round robin in the proportion 76 : 60, else a trace packet. -/
def pickPkt (l : LinkSt) (q : List RingPkt) : Option (RingPkt × Nat × Nat) :=
  match q.find? (fun k => k.kind == 2), q.find? (fun k => decide (k.kind < 2)), q.find? (fun k => k.kind == 3) with
  | some a, _, _ => some (a, l.defT, l.defM)
  | none, some t, none => some (t, 0, 0)
  | none, none, some m => some (m, 0, 0)
  | none, some t, some m =>
    if t.syms ≤ l.defT then some (t, l.defT - t.syms, l.defM)
    else if m.syms ≤ l.defM then some (m, l.defT, l.defM - m.syms)
    else some (t, l.defT + 76 - t.syms, l.defM + 60)
  | none, none, none => (q.find? fun k => k.kind == 4).map fun k => (k, 0, 0)

/-- Send packets over a port until the symbols of the ring beat are used; `fuel` bounds the packets of a beat. A packet of the
alarm or the ticket class is kept until it is acknowledged (R376). -/
def State.txLoop (p : Side) : Nat → Nat → State → State
  | 0, _, s => s
  | fuel + 1, room, s =>
    match pickPkt (s.linkAt p) (s.ring.tx.filter fun k => s.outPort k == some p) with
    | none => s.modLink p fun x => { x with idle := room }
    | some (k, dT, dM) =>
      let s := { s with ring := { s.ring with tx := s.ring.tx.erase k } }
      let keep := { k with tries := 0 : RingPkt }
      let s := s.modLink p fun x =>
        { x with defT := dT, defM := dM, debt := k.syms - room
                 unAlarm := if k.kind = 2 ∧ k.tries ≠ 3 then x.unAlarm ++ [keep] else x.unAlarm
                 unTicket := if k.kind < 2 ∧ k.tries ≠ 3 then x.unTicket ++ [keep] else x.unTicket }
      let s := s.count (0x056 + p.ix.val) 0 1
      if room ≤ k.syms then s else State.txLoop p fuel (room - k.syms) s

/-- A ring beat of a port begins: the beat symbol, K28.1 while the receive lane is DOWN, and the gang slots G0 to G2; a lane whose link is not UP
carries K23.7 (Table 15.1, R373, R379, R388). -/
def State.txOpen (s : State) (p : Side) : State :=
  let up := s.linkUp p
  let g := Vector.ofFn fun (k : Fin 3) => if up then s.gangSlot p k else none
  s.modLink p fun x =>
    { x with txK281 := x.rxDown, slots := g, pass := Vector.replicate 3 none, idle := if up then 0 else 100 }

/-- One ring beat of a port: 100 shared symbols, the packet in progress first; at most 6 packets fit (Table 15.1, R374). -/
def State.txBeat (s : State) (p : Side) : State :=
  let s := s.txOpen p
  let d := (s.linkAt p).debt
  if !s.linkUp p then s
  else if 100 ≤ d then s.modLink p fun x => { x with debt := d - 100 }
  else State.txLoop p 6 (100 - d) (s.modLink p fun x => { x with debt := 0 })

/-! ### Cuts and healing -/

/-- A link end wraps: what it holds unacknowledged goes ahead of new packets on the wrap path, the in-order hold is discarded,
LINK_CUT is posted and broadcast (R388, R389). -/
def State.wrap (s : State) (p : Side) : State :=
  if !(s.linkAt p).wrapPend then s
  else if !s.linkUp p then s.modLink p fun x => { x with wrapPend := false }
  else
    let l := s.linkAt p
    let moved := (l.unAlarm.filter fun k => k.code != 75) ++ l.unTicket
    let stay := s.ring.tx.filter fun k => !(k.via == some p && (k.tries == 3 || (k.kind == 2 && k.code == 75)))
    let s := s.modLink p fun x =>
      { x with st := .wrapped, wrapPend := false, retrained := false, cleanRounds := 0, unAlarm := [], unTicket := [], hold := []
               waitAlarm := false, waitTicket := false, rxAlarm := 0, rxTicket := 0, ackAlarm := 0, ackTicket := 0, debt := 0 }
    let s := { s with ring := { s.ring with tx := moved ++ stay, cuts := s.ring.cuts ++ [(s.ring.num, p)] } }
    (s.postDev 0x68 p.ix.val).ctrl 64 73 (fld s.ring.num 6 0 + fld p.ix.val 1 8)

/-- The oldest trace entry that waits for the ring goes to the transmit scheduler (R374, R410). -/
def State.traceSend (s : State) (h : Nat) : State :=
  match s.log.traceWait, s.log.trace[s.log.traceWait - 1]? with
  | n + 1, some e =>
    let s : State := { s with log := { s.log with traceWait := n } }
    (s.send { kind := 4, src := s.ring.num, dst := h, body := leNat e.bytes }).streamStep
  | _, _ => s

/-- Trace entries of a stream for another head go to the scheduler while fewer than 4 wait there, what one ring beat holds; the others wait in
the trace buffer, where new entries overwrite the oldest (R374, R410). -/
def State.traceFeed (s : State) : State :=
  match s.log.stream with
  | none => { s with log := { s.log with traceWait := 0 } }
  | some (ref, _) =>
    match s.stubHead ref.client with
    | none => s
    | some h => (List.range (4 - countP (fun (k : RingPkt) => k.kind == 4) s.ring.tx)).foldl (fun (s : State) _ => s.traceSend h) s

/-- The ring's work of a beat: links that have qualified wrap, then each port sends. A device with no neighbour keeps nothing to
send. -/
def State.ringBeat (s : State) : State :=
  let s := ((s.wrap .east).wrap .west).traceFeed
  let s := if !s.linkUp .east && !s.linkUp .west && s.ring.ndev == 0 then { s with ring := { s.ring with tx := [] } } else s
  (s.txBeat .east).txBeat .west

/-- Why training does not bring a link UP, if it does not: 2 no symbols found, 0 a number at the other end that does not follow in the order of
R370 or appears twice, 1 a latency L above 40 ns, 512 units (R371, R372). -/
def State.trainCause (s : State) (p : Side) (t : LinkTrain) (num hop : Nat) : Option Nat :=
  if !t.sync then some 2
  else if t.twice || num == s.ring.num || !mayJoin s.ring.num p num then some 0
  else if 512 < hop then some 1
  else none

/-- LINK_TRAINED: training of a link ends. UP: the counts of R376 start, or, behind a wrap, the 16 clean rounds of R391, of which the round in
progress is none; otherwise the link stays DOWN and RING_TRAIN names the cause: 0 number, 1 latency, 2 sync (R371, R372). -/
def execLinkTrained (p : Side) (t : LinkTrain) (num hop : Nat) (s : State) : Host.Outcome State Fault Refusal :=
  match s.trainCause p t num hop with
  | none =>
    .next (s.modLink p fun x =>
      if x.st = .wrapped then { x with hop := hop, rxDown := false, k281 := 0, missed := 0, crcFrame := 0, retrained := true, cleanRounds := 0, crcRound := true }
      else { x with st := .up, hop := hop, rxDown := false, k281 := 0, missed := 0, crcFrame := 0, wrapPend := false, unAlarm := [], unTicket := []
                    waitAlarm := false, waitTicket := false, rxAlarm := 0, rxTicket := 0, ackAlarm := 0, ackTicket := 0, debt := 0 })
  | some cause =>
    .next ((s.modLink p fun x =>
      { x with st := if x.st = .wrapped then .wrapped else .down, retrained := false }).postDev 0x6F p.ix.val cause)

/-- LANE_DOWN: a receive lane misses the beat symbol in 4 ring beats; the end wraps at the next beat boundary. Behind a wrap the link is DOWN
again and its clean rounds end (R388, R391). -/
def execLaneDown (p : Side) (s : State) : Host.Outcome State Fault Refusal :=
  .next (s.modLink p fun x => { x with rxDown := true, missed := 4, wrapPend := true, retrained := false, cleanRounds := 0 })

/-- K28_1_RECEIVED: the neighbour says that its lane is DOWN; the second time, the end wraps at the next beat boundary (R388). -/
def execK281Received (p : Side) (s : State) : Host.Outcome State Fault Refusal :=
  .next (s.modLink p fun x =>
    { x with k281 := min 2 (x.k281 + 1), wrapPend := x.wrapPend || decide (1 ≤ x.k281), retrained := x.retrained && decide (x.k281 = 0) })

/-- A cut is mended: every name of its link leaves the cuts, and a split has ended when fewer than two remain (R391). -/
def State.mend (s : State) (d : Nat) (p : Side) : State :=
  let k := s.linkIx d p
  let l := s.ring.cuts.filter fun c => s.linkIx c.1 c.2 != k
  { s with ring := { s.ring with cuts := l, splitPosted := s.ring.splitPosted && decide (2 ≤ (l.map fun c => s.linkIx c.1 c.2).dedup.length) } }

/-- LINK_HEAL: a link UP for 16 clean rounds unwraps at a round boundary; LINK_HEAL is posted and broadcast (R391). -/
def execLinkHeal (p : Side) (s : State) : Host.Outcome State Fault Refusal :=
  let l := s.linkAt p
  if l.st = .wrapped ∧ l.retrained = true ∧ 16 ≤ l.cleanRounds ∧ s.bnd % 4000 = 0 then
    .next (s.atBoundary fun s =>
      let s := (s.modLink p fun x => { x with st := .up, retrained := false, wrapPend := false }).mend s.ring.num p
      (s.postDev 0x69 p.ix.val).ctrl 64 74 (fld s.ring.num 6 0 + fld p.ix.val 1 8))
  else .next s

/-- CUT_PACKET: routes avoid the cut from the next beat boundary on; the packet is passed on (R388). -/
def execCutPacket (rx : RxIn) (dev : Nat) (p : Side) (s : State) : Host.Outcome State Fault Refusal :=
  .next (s.rxPkt rx 2 fun s =>
    let s := s.relay rx.via dev 73 (fld dev 6 0 + fld p.ix.val 1 8)
    if s.ring.cuts.contains (dev, p) then s else { s with ring := { s.ring with cuts := s.ring.cuts ++ [(dev, p)] } })

/-- LINK_HEAL_PACKET: routes return to R377 for the healed link; the packet is passed on (R391). -/
def execLinkHealPacket (rx : RxIn) (dev : Nat) (p : Side) (s : State) : Host.Outcome State Fault Refusal :=
  .next (s.rxPkt rx 2 fun s => (s.relay rx.via dev 74 (fld dev 6 0 + fld p.ix.val 1 8)).mend dev p)

/-- The devices that no packet reaches from this one. -/
def State.unreachable (s : State) : List Nat :=
  (List.range s.ringN).filter fun d => d != s.ring.num && !s.clear d .east && !s.clear d .west

/-- RING_SPLIT: a second cut splits the chain; the keeper names the devices it cannot reach, as a mask (R390). -/
def execRingSplit (s : State) : Host.Outcome State Fault Refusal :=
  let l := s.unreachable
  if s.own.keeper ≠ s.ring.num ∨ l = [] ∨ s.cutLinks.length < 2 ∨ s.ring.splitPosted = true then .next s
  else
    let m := (l.map fun d => 2 ^ d).sum
    .next (({ s with ring := { s.ring with splitPosted := true } } : State).postChain 0x6A (m % 2 ^ 32) (m / 2 ^ 32))

/-! ### The chain clock -/

/-- A beat count after the device's count has stepped from `old` to `new`. -/
def shiftBeat (old new n : Nat) : Nat := n + new - old

/-- A not-before beat after the step: one that has passed stays met, another is resolved again (R338, R385). -/
def shiftNb (old new n : Nat) : Nat := if n ≤ old then 0 else resolve new (n % 2 ^ 32)

/-- The waiting effects after the step: those of tickets are resolved again; those of playbook orders keep their instant. -/
def Sched.shift (old new : Nat) (x : Sched) : Sched :=
  match x.act with
  | .order _ _ _ _ => { x with nb := shiftBeat old new x.nb }
  | _ => { x with nb := shiftNb old new x.nb }

/-- The rails after a step of the count: every instant they hold keeps its distance. -/
def RailSt.shift (f : Nat → Nat) (x : RailSt) : RailSt :=
  { x with blankEnd := f x.blankEnd, hiccupEnd := x.hiccupEnd.map f, regFrom := f x.regFrom, rampFrom := f x.rampFrom, laneBlank := f x.laneBlank
           ramp := x.ramp.map fun y => { y with limit := f y.limit }
           watch := x.watch.map fun y => { y with since := f y.since }
           disch := x.disch.map fun y => { y with start := y.start.map f } }

/-- A rail of a die after a step of the count. -/
def RailDie.shift (f : Nat → Nat) (x : RailDie) : RailDie :=
  { x with rearm := x.rearm.map f, ctch := x.ctch.map fun y => { y with start := f y.start } }

/-- A phase after a step of the count. -/
def PhaseSt.shift (f : Nat → Nat) (x : PhaseSt) : PhaseSt :=
  { x with lastMove := x.lastMove.map f, test := x.test.map fun y => { y with start := f y.start }
           move := x.move.map fun y => { y with atBeat := f y.atBeat } }

/-- A waiting pass after a step of the count: its sampling instant stands in ADC cycles, 20 to the beat. -/
def Pass.shift (old new : Nat) (p : Pass) : Pass := { p with inst := p.inst + 20 * new - 20 * old }

/-- A converter after a step of the count. -/
def ConvSt.shift (old new : Nat) (x : ConvSt) : ConvSt :=
  { x with run := x.run.map (Pass.shift old new), urg := x.urg.map (Pass.shift old new), queue := x.queue.map (Pass.shift old new)
           heldUntil := x.heldUntil + 20 * new - 20 * old, stalled := x.stalled.map fun y => { y with beat := shiftBeat old new y.beat } }

/-- A path's shadows of the RTC after a step of the count. -/
def RtcShadow.shift (f : Nat → Nat) (x : RtcShadow) : RtcShadow := { x with atBeat := f x.atBeat }

/-- Feeds, pack, programmes and the host link after a step of the count. -/
def State.shiftParts (s : State) (f : Nat → Nat) : State :=
  { s with
    feed := s.feed.map fun x => { x with presentFrom := f x.presentFrom, revAt := x.revAt.map f, lvlAt := x.lvlAt.map f }
    pwr := { s.pwr with declAt := s.pwr.declAt.map f, hostRst := s.pwr.hostRst.map f }
    pack := { s.pack with stageFrom := f s.pack.stageFrom, openEnd := s.pack.openEnd.map f, hold := s.pack.hold.map f, shipAt := f s.pack.shipAt }
    hk := s.hk.map fun x => { x with since := f x.since }
    seq := s.seq.map fun x =>
      { x with started := x.started.map f, done := x.done.map f, release := x.release.map f
               arrived := x.arrived.map fun a => (a.1, a.2.1, f a.2.2) }
    gang := s.gang.map fun x => { x with holdFrom := x.holdFrom.map f }
    host := { s.host with
      clients := s.host.clients.map fun (c : Client) =>
        { c with held := c.held.map (fun x => { x with since := f x.since }), tsAt := c.tsAt.map fun x => (x.1, f x.2) }
      fetched := s.host.fetched.map fun x => { x with atBeat := f x.atBeat, ts := f x.ts } }
    log := { s.log with refillAt := roundOf (f (s.log.refillAt * 4000)) }
    therm := { s.therm with
      src := s.therm.src.map fun x => { x with lastPost := x.lastPost.map f, served := f x.served }
      chirps := s.therm.chirps.map fun o => o.map fun c => { c with start := f c.start } }
    arb := { s.arb with voteFrom := f s.arb.voteFrom
                        readmit := s.arb.readmit.map fun x => (x.1, x.2.1, if x.2.2 = 0 then 0 else f x.2.2) }
    wd := { s.wd with shadows := s.wd.shadows.map (RtcShadow.shift f) }
    own := { s.own with pendFrom := f s.own.pendFrom, portsAt := f s.own.portsAt, claims := s.own.claims.map fun c => { c with frame := f c.frame } } }

/-- What the device holds of another device after a step of the count; the rounds of its last packets are those before the step. -/
def DevSt.shift (f : Nat → Nat) (r : Nat) (x : DevSt) : DevSt :=
  { x with seen := r - 1, rangeRound := r - 1, fwdHold := x.fwdHold.map fun e => (e.1, e.2.1, f e.2.2)
           fwdOut := x.fwdOut.map fun e => { e with atBeat := if e.atBeat = 2 ^ 64 then 2 ^ 64 else f e.atBeat } }

/-- The device's count steps: every instant the device holds keeps its distance in beats, the not-before beats and the times of
forecasts are resolved again, the juggler's periods in progress end without a verdict and start anew, and the verdicts of ended ones stay due
(R385). -/
def State.rebase (s : State) (new : Nat) : State :=
  let old := s.time.clk
  let f := shiftBeat old new
  let s := s.shiftParts f
  let auto := s.therm.lastAuto.map fun b => b + (new : Int) - old
  { s with
    time := { s.time with clk := new }
    therm := { s.therm with lastAuto := auto, chirpAt := s.therm.chirpAt.map fun o => o.map fun b => b + (new : Int) - old }
    conv := s.conv.map (ConvSt.shift old new)
    rail := s.rail.map (RailSt.shift f)
    raild := s.raild.map fun v => v.map (RailDie.shift f)
    ph := s.ph.map (PhaseSt.shift f)
    fc := { s.fc with fcs := s.fc.fcs.map fun x => { x with tstep := shiftNb old new x.tstep, filedAt := f x.filedAt }
                      trust := s.fc.trust.map fun x => { x with used := f x.used } }
    sched := s.sched.map (Sched.shift old new)
    wd := { s.wd with verdicts := s.wd.verdicts.map fun v => { v with beg := f v.beg, fin := f v.fin }
                      slots := s.wd.slots.map fun x => { x with beg := new + 1, good := false }
                      grace := s.wd.grace.map fun o => o.map f }
    start := { s.start with enter5 := f s.start.enter5, ownFrom := f s.start.ownFrom }
    cfg := { s.cfg with reselect := s.cfg.reselect.map f, switchAt := s.cfg.switchAt.map f, chainSel := s.cfg.chainSel.map fun x => (x.1, x.2.1, f x.2.2) }
    ring := { s.ring with ready8 := s.ring.ready8.map f, devs := s.ring.devs.map (DevSt.shift f (roundOf (new + 1))) } }

/-- The chain has this device and `ndev` further ones; the lowest-numbered in service is keeper and timing root (R352, R383). -/
def State.joinChain (s : State) (ndev : Nat) : State :=
  let f := fun (n : Fin 64) => ({ s.ring.devs[n.val]'n.isLt with known := decide (n.val ≤ ndev) } : DevSt)
  let s : State := { s with ring := { s.ring with ndev := ndev, devs := Vector.ofFn f } }
  { s with own := { s.own with keeper := s.root } }

/-- TRAINING_COMPLETE: training has ended with `ndev` further devices; the root starts the chain clock at 0 at its next beat boundary
(R384, R468). A device that counts alone learns the chain that it is to join (R385). -/
def execTrainingComplete (ndev : Nat) (s : State) : Host.Outcome State Fault Refusal :=
  let runs := s.time.counting || s.time.startPend
  if (runs = true ∧ s.start.solo = false) ∨ 63 < ndev then .next s
  else
    let s := s.joinChain ndev
    if runs = false ∧ s.root = s.ring.num then .next { s with time := { s.time with startPend := true } } else .next s

/-- RING_TRAINING_TIMEOUT: no TIME packet within 200 ms of step 5; the device counts alone, SOLO is set and RING_TRAIN posted (R468).
The event names the first port that is not UP, and the cause sync. -/
def execRingTrainingTimeout (s : State) : Host.Outcome State Fault Refusal :=
  if s.time.counting ∨ s.time.startPend ∨ s.start.step ≠ 5 ∨ s.bnd < s.start.enter5 + 800000 then .next s
  else
    let s := { s with time := { s.time with startPend := true }, start := { s.start with solo := true }
                      ring := { s.ring with ndev := 0 }, own := { s.own with keeper := s.ring.num } }
    .next (s.postDev 0x6F (if s.linkUp .east then 1 else 0) 2)

/-- TIME_PACKET of the root `dev`: a device without a count adopts the count of the round boundary that the packet names, which lies `late` beats
back; one that counts alone notes it for R385; any other keeps its count (R384). -/
def execTimePacket (rx : RxIn) (dev count late : Nat) (s : State) : Host.Outcome State Fault Refusal :=
  .next (s.rxPkt rx 2 fun s =>
    let s := s.relay rx.via dev 72 count
    if dev = s.ring.num then s
    else if !s.time.counting then
      let s : State := { s with own := { s.own with keeper := dev } }
      let s := s.rebase (count + late)
      let hs := s.heads
      let side := s.refSide
      { s with time := { s.time with counting := true, startPend := false }
               start := { s.start with step := if s.start.step = 5 ∧ s.start.barker = false then 6 else s.start.step }
               ring := { s.ring with aligned := true, almAll := hs, refEast := side == .east } }
    else if s.start.solo then { s with time := { s.time with timeSeen := some count }, own := { s.own with keeper := dev } }
    else s)

/-- A frame overrun is counted, flagged and reported for each die (R39, R43). -/
def State.frameOverrun (s : State) (la lb : Bool) : State :=
  if !la && !lb then s
  else
    let o := s.ovr
    let s : State := { s with ovr := { o with frame := satAdd 16 o.frame 1, frameFlag := true } }
    let s := if la then (s.count 0x052 1 1).postDev 0x00 1 0 else s
    if lb then (s.count 0x053 1 1).postDev 0x00 1 1 else s

/-- The cycles of a phase stand `k` units late against the chain clock: it glides back by the smaller shift, from cycles that a lost clock
has moved (`moved`) or that the step of the count has left where they are (R128, R141). -/
def State.reAnchorPh (s : State) (r : Rail) (k : Int) (moved : Bool) (p : Ph) : State :=
  let q : Int := max 1 (s.qOf r).round
  let d := s.shift r 0 (k % q).toNat
  let g := s.shift r 0 (((s.phAt p).glide - d) % q).toNat
  s.modPh p fun x => { x with glide := g, nextAt := if moved then x.nextAt.map fun n => n + d else x.nextAt }

/-- The cycle grids re-anchor to the chain clock (R141, R385). -/
def State.reAnchor (s : State) (k : Int) (moved : Bool) : State :=
  phases.foldl (fun (s : State) p => match s.railOfPh p with
    | some r => s.reAnchorPh r k moved p
    | none => s) s

/-- CLOCK_ADOPT: a device that has counted alone steps its count at the round boundary after the latest TIME packet. The cut frame
is treated as an overrun of the frame engines, the cycle grids re-anchor, SOLO clears, ALIGNED sets, CLK_ALIGNED carries the old and the new
count (R39, R385). -/
def execClockAdopt (s : State) : Host.Outcome State Fault Refusal :=
  match s.start.solo, s.time.timeSeen with
  | true, some c =>
    let old := s.bnd
    let new := c + 4000
    let s := s.rebase (new - 1)
    let side := s.refSide
    let s : State := { s with
      time := { s.time with timeSeen := none, gridOwn := false }
      start := { s.start with solo := false }
      ring := { s.ring with aligned := true, refEast := side == Side.east } }
    .next (s.atBoundary fun s =>
      let s := (s.frameOverrun (!s.dieOut .a) (!s.dieOut .b)).reAnchor (-(old % 4000 * 3200 : Nat)) false
      let s : State := { s with ovr := { s.ovr with frameHeld := true } }
      s.postDev 0x6E (old % 2 ^ 32) (old / 2 ^ 32) (new % 2 ^ 32))
  | _, _ => .next s

/-- REFERENCE_CHANGE: the reference link misses the beat symbol: the device moves to its other neighbour when that link is UP, else runs
free with CLK_LOST; a device that runs free and has a link UP again is aligned with CLK_ALIGNED (R386, R26, R141). -/
def execReferenceChange (s : State) : Host.Outcome State Fault Refusal :=
  let cur : Side := if s.ring.refEast then .east else .west
  if s.own.keeper = s.ring.num then .next s
  else if s.time.clockStopped then
    if s.linkUp .east || s.linkUp .west then
      let s := { s with time := { s.time with clockStopped := false }
                        ring := { s.ring with aligned := true, refEast := if s.linkUp cur then s.ring.refEast else !s.ring.refEast } }
      .next (s.postDev 0x6E)
    else .next s
  else if s.linkUp cur.other then .next { s with ring := { s.ring with refEast := !s.ring.refEast } }
  else
    .next (({ s with time := { s.time with clockStopped := true, gridOwn := true }
                     ring := { s.ring with aligned := false } } : State).postDev 0x6D)

/-! ### Acknowledgement -/

/-- RING_ACK: packets that the receiver's counts cover are released; of the others, one more ACK has come since they were sent (R376). -/
def execRingAck (rx : RxIn) (alarms tickets : Nat) (s : State) : Host.Outcome State Fault Refusal :=
  .next (s.rxPkt rx 2 fun s =>
    let l := s.linkAt rx.via
    let na := (alarms % 2 ^ 16 + 2 ^ 16 - l.ackAlarm) % 2 ^ 16
    let nt := (tickets % 2 ^ 16 + 2 ^ 16 - l.ackTicket) % 2 ^ 16
    let older := fun (k : RingPkt) => { k with tries := min 2 (k.tries + 1) : RingPkt }
    let gone := (l.unAlarm.take na ++ l.unTicket.take nt).map fun k => { k with tries := 3, via := some rx.via : RingPkt }
    let s := s.modLink rx.via fun x =>
      { x with unAlarm := (x.unAlarm.drop na).map older, unTicket := (x.unTicket.drop nt).map older
               ackAlarm := alarms % 2 ^ 16, ackTicket := tickets % 2 ^ 16 }
    { s with ring := { s.ring with tx := gone.foldl (fun q k => q.erase k) s.ring.tx } })

/-- RING_RESEND: the second ACK after a packet was sent does not cover it: it and every later packet of its class are sent again, each
counted in RING_ERR.RESENT (R376). -/
def execRingResend (p : Side) (ticket : Bool) (s : State) : Host.Outcome State Fault Refusal :=
  let l := s.linkAt p
  let again := (if ticket then l.unTicket else l.unAlarm).dropWhile fun k => decide (k.tries < 2)
  if again = [] then .next s
  else
    let fresh := fun (q : List RingPkt) => (q.takeWhile fun k => decide (k.tries < 2)) ++ again.map fun k => { k with tries := 0 : RingPkt }
    let s := s.modLink p fun x => if ticket then { x with unTicket := fresh x.unTicket } else { x with unAlarm := fresh x.unAlarm }
    let q := again.map fun k => { k with tries := 3, via := some p : RingPkt }
    let s := { s with ring := { s.ring with tx := q ++ s.ring.tx, resent := satAdd 8 s.ring.resent again.length } }
    .next (s.count (0x056 + p.ix.val) 3 again.length)

/-! ### Forwarded tickets and stubs -/

/-- The service order of a ticket: ownership tickets and WD_CHECKIN, then CONTROL, TELEMETRY and BULK, each by priority (R339). -/
def serviceOrder (t : Tkt) : Nat :=
  if [0x60, 0x61, 0x62, 0x63, 0x70].contains t.op then 0 else 1 + 4 * t.cls + (3 - t.prio)

/-- A ticket among the fetched ones: after those of its order or an earlier one, and after every earlier ticket of its client to the
same device (R333, R339). -/
def enqueueTicket (q : List Fetched) (x : Fetched) : List Fetched :=
  let dev := fun (f : Fetched) => bits f.raw 69 64
  let same := (q.reverse.dropWhile fun f => !(f.client == x.client && dev f == dev x)).length
  let head := q.take same
  let rest := q.drop same
  head ++ (rest.takeWhile fun f => decide (f.order ≤ x.order)) ++ [x] ++ (rest.dropWhile fun f => decide (f.order ≤ x.order))

/-- A forwarded ticket in its turn: its count field is cleared and it joins the fetched ones; a ticket with an effect that a benched head
forwards gets BUSY (R378, R393). A
check-in takes its beat from bytes 12 to 15 (R420). A ticket of a generation not met before shows that the client's earlier one has ended
(R322, log entry 56). -/
def State.arrive (s : State) (src raw : Nat) : State :=
  let raw := raw % 2 ^ 83 + raw / 2 ^ 96 * 2 ^ 96
  let chk := decide (bits raw 7 0 = 0x70)
  let ts := if chk then resolve s.time.clk (bits raw 127 96) else s.time.clk
  let raw := if chk then raw % 2 ^ 96 + raw / 2 ^ 128 * 2 ^ 128 else raw
  let t : Tkt := { client := bits raw 27 16, raw := raw, ts := ts }
  let s := if (s.client t.client).gen = t.gen then s else (s.endClient t.client).modClient t.client fun x => { x with gen := t.gen }
  if (s.devAt src).benched ∧ hasEffect t.cls t.rowKey = true then s.reply t busyBenched
  else
    let x : Fetched :=
      { client := t.client, raw := raw, atBeat := s.time.clk, ts := ts, order := serviceOrder t, fwd := true }
    { s with host := { s.host with fetched := enqueueTicket s.host.fetched x } }

/-- Deliver the tickets held from a head that are next in count order; `fuel` is how many are held (R378). -/
def State.drain (src : Nat) : Nat → State → State
  | 0, s => s
  | fuel + 1, s =>
    let d := s.devAt src
    match d.fwdHold.find? fun e => e.1 == d.fwdRx with
    | none => s
    | some e =>
      let s := s.modDev src fun x => { x with fwdRx := wrapAdd 13 x.fwdRx 1, fwdHold := x.fwdHold.filter fun y => y.1 != e.1 }
      State.drain src fuel (s.arrive src e.2.1)

/-- RING_TICKET_PACKET: a ticket packet is passed on, or taken in the order of its head's forwarding count: a count already processed is a
second copy and is discarded, one ahead of a gap is held (R377, R378, R389). -/
def execRingTicketPacket (rx : RxIn) (src raw : Nat) (s : State) : Host.Outcome State Fault Refusal :=
  .next (s.rxPkt rx 0 fun s =>
    let dst := s.tktDst { raw := raw }
    if dst ≠ s.ring.num then s.send { kind := 0, src := src, dst := dst, body := raw, via := some rx.via.other }
    else
      let d := s.devAt src
      let n := bits raw 95 83
      let ahead := (n + 2 ^ 13 - d.fwdRx) % 2 ^ 13
      if 2 ^ 12 ≤ ahead ∨ d.fwdHold.any (fun e => e.1 == n) then s
      else
        let s := s.modDev src fun x => { x with fwdHold := x.fwdHold ++ [(n, raw, s.time.clk)] }
        State.drain src ((s.devAt src).fwdHold.length) s)

/-- FORWARD_GAP: a gap in a head's forwarding counts that is not filled within 125 frames is passed over and counted (R378). -/
def execForwardGap (head : Nat) (s : State) : Host.Outcome State Fault Refusal :=
  let d := s.devAt head
  match (d.fwdHold.map fun e => (e.1 + 2 ^ 13 - d.fwdRx) % 2 ^ 13).min? with
  | none => .next s
  | some k =>
    if d.fwdHold.all fun e => decide (s.time.clk < e.2.2 + 4000) then .next s
    else
      let s := s.modDev head fun x => { x with fwdRx := wrapAdd 13 x.fwdRx k }
      let s := { s with ring := { s.ring with gap := satAdd 8 s.ring.gap 1 } }
      .next (State.drain head d.fwdHold.length s)

/-- The query of a chain OVERLAY_SELECT is over: when every device holds the overlay, each is handed the selection with the boundary that the
head has fixed, and the head takes it too; else none switches (R488, log entry 36). -/
def State.chainSelected (s : State) (ref : TkRef) (all : Bool) : State :=
  match s.cfg.chainSel.find? fun x => x.1 == ref with
  | none => s
  | some (_, raw, b) =>
    let s : State := { s with cfg := { s.cfg with chainSel := s.cfg.chainSel.filter fun x => x.1 != ref } }
    if !all then s
    else
      let t : Tkt := { client := ref.client, raw := raw - (if bit raw 10 then 2 ^ 10 else 0) }
      let s := (s.askedFor t).foldl (fun s d => s.handOn (partOf t d (some b)) d) s
      s.post b .round (.overlaySelect (t.byte 16) none)

/-- The part of a chain ticket that a device took is answered; what it has read goes to its place in the whole, ahead of the stub (R321, R345).
With the last part the head answers the whole: the status of a refusing device, the lowest-numbered one named in byte 15 of VALUE (R347). -/
def State.chainAnswer (s : State) (ref : TkRef) (dev : Nat) (x : Stub) (data : List Nat := []) : State :=
  match s.ring.chainOut.find? fun c => c.ref == ref && c.wait.contains dev with
  | none => s
  | some c =>
    let s := if data = [] then s else s.fill (segDrop c.segs (max c.cur (dev * c.per) - c.cur)) data
    let bad := decide (0x10 ≤ x.status ∧ dev < c.dev)
    let c' : ChainOut :=
      { c with wait := c.wait.filter fun d => d != dev, status := if bad then x.status else c.status, extra := if bad then x.extra else c.extra
               value := if bad then x.value else c.value, dev := if bad then dev else c.dev }
    if c'.wait = [] then
      let s := { s with ring := { s.ring with chainOut := s.ring.chainOut.filter fun y => y.ref != ref } }
      let s := s.chainSelected ref (c'.dev == 64)
      if c'.dev = 64 then s.stub { ref := ref, status := c'.status, extra := c'.extra, value := c'.value }
      else
        let drop := fun (e : Sched) => match e.act with
          | .seqRunChain n (some r) => if r = ref then { e with act := .seqRunChain n none } else e
          | _ => e
        let s := { s with sched := s.sched.map drop }
        s.stub { ref := ref, status := c'.status, extra := c'.extra, value := refusedBy c'.value c'.dev }
    else
      { s with ring := { s.ring with chainOut := s.ring.chainOut.map fun y => if y.ref = ref then c' else y } }

/-- A forwarded ticket is answered: the entry leaves, or, after a QUEUED stub, waits for the final stub without a limit of time. -/
def State.answered (s : State) (dev : Nat) (ref : TkRef) (queued : Bool) : State :=
  s.modDev dev fun x =>
    { x with fwdOut := if queued then x.fwdOut.map (fun e => if e.ref = ref then { e with atBeat := 2 ^ 64 } else e) else x.fwdOut.filter fun e => e.ref != ref
             stream := if queued then x.stream else (match x.stream with
               | some y => if y.1 = ref then none else some y
               | none => none) }

/-- A stub from its 16 bytes (Table 13.2). -/
def stubOf (w : Nat) : Stub :=
  { ref := { seq := bits w 15 0, client := bits w 27 16, gen := bits w 39 32 }, status := bits w 47 40, extra := bits w 63 48, value := bits w 127 64 }

/-- A claim of this device has its part-3 stub: it is in flight no more (R352, R356). -/
def State.claimDone (s : State) (ref : TkRef) : State :=
  { s with own := { s.own with claims := s.own.claims.filter fun c =>
      !(c.dev == s.ring.num && c.client == ref.client && c.gen == ref.gen && c.seq == ref.seq) } }

/-- A forwarded ticket's stub is written by its head, after the data that came with it; SHORT when its segments do not hold them (R321, R327,
R333). -/
def State.headStub (s : State) (e : FwdEnt) (x : Stub) (data : List Nat) : State :=
  if data = [] then s.stub x
  else
    let r := fitReply (segSum e.segs) e.cur data.length
    (s.fill e.segs data).stub { x with status := r.status, value := r.value }

/-- RING_STUB_PACKET: a stub is passed on, or is written to the client's ring by the head that forwarded the ticket; one whose ticket
has been answered is a second copy and is discarded (R375, R378, R389). -/
def execRingStubPacket (rx : RxIn) (src : Nat) (i : StubIn) (s : State) : Host.Outcome State Fault Refusal :=
  .next (s.rxPkt rx 1 fun s =>
    let x := stubOf i.raw
    match s.stubHead x.ref.client with
    | some h => s.send { kind := 1, src := src, dst := h, body := i.raw, data := i.data, via := some rx.via.other }
    | none =>
      match (s.devAt src).fwdOut.find? fun e => e.ref == x.ref with
      | none => s
      | some e =>
        if e.atBeat = 2 ^ 64 ∧ x.status = 0x02 then s
        else
          let s := (s.answered src x.ref (x.status == 0x02)).claimDone x.ref
          if s.ring.chainOut.any fun c => c.ref == x.ref then s.chainAnswer x.ref src x i.data else s.headStub e x i.data)

/-- FORWARD_STUB_TIMEOUT: the stub of a forwarded ticket has not returned within 1,000 rounds: the head writes FAULT (R378). -/
def execForwardStubTimeout (dev : Nat) (s : State) : Host.Outcome State Fault Refusal :=
  match (s.devAt dev).fwdOut.find? fun e => decide (e.atBeat + 4000000 ≤ s.time.clk) with
  | none => .next s
  | some e =>
    let x : Stub := { ref := e.ref, status := 0x3F, extra := 0x0001 }
    let s := s.answered dev e.ref false
    .next (if s.ring.chainOut.any fun c => c.ref == x.ref then s.chainAnswer x.ref dev x else s.stub x)

/-! ### Presence, heads and reports -/

/-- The body of a PRESENCE packet (R392, log entry 37). -/
def presenceBody (pr : Presence) (dev : Nat) : Nat :=
  let slot := fun (k : Nat) => match pr.slots[k]? with
    | some x => fld x.state 2 (24 + 4 * k) + fld (b2n x.revoked) 1 (26 + 4 * k)
    | none => 0
  fld dev 6 0 + fld pr.arb 8 8 + fld (b2n pr.head) 1 16 + fld (b2n pr.barker) 1 17 + fld (b2n pr.step8) 1 18 + fld (b2n pr.aligned) 1 19
    + fld (b2n pr.crcBad) 1 20 + fld pr.rstRows 3 21 + ((List.range 4).map slot).sum + fld pr.svc 3 40

/-- PRESENCE_PACKET: the keeper learns a device's states; a benched device that speaks is reported once per round (R392, R393). -/
def execPresencePacket (rx : RxIn) (dev : Nat) (pr : Presence) (s : State) : Host.Outcome State Fault Refusal :=
  .next (s.rxFor rx { kind := 2, src := dev, code := 64, body := presenceBody pr dev } fun s =>
    if s.own.keeper ≠ s.ring.num ∨ dev = s.ring.num then s
    else
      let r := roundOf s.time.clk
      let say := (s.devAt dev).benched && (s.devAt dev).speaksRound != some r
      let s := s.modDev dev fun x =>
        { x with known := true, seen := r, missing := 0, arb := pr.arb, head := pr.head, barker := pr.barker, step8 := pr.step8, epochRows := pr.rstRows
                 presBad := !pr.aligned || pr.crcBad, slots := pr.slots, svc := pr.svc, speaksRound := if say then some r else x.speaksRound }
      if say then s.postChain 0x6C dev else s)

/-- HEAD_ANNOUNCE: a head's client range is noted, and its reports are due when it was silent before; of two heads whose ranges overlap the
one with the higher number clears EN and sets REFUSED (R387, R401, R475). -/
def execHeadAnnounce (rx : RxIn) (dev first count : Nat) (s : State) : Host.Outcome State Fault Refusal :=
  .next (s.rxPkt rx 2 fun s =>
    let s := s.relay rx.via dev 65 (fld dev 6 0 + fld first 12 8 + fld count 12 20)
    if dev = s.ring.num then s
    else
      let r := roundOf s.time.clk
      let d := s.devAt dev
      let fresh := d.range.isNone || decide (d.rangeRound + 1 < r)
      let s := s.modDev dev fun x => { x with range := some (first, count), rangeRound := r }
      let s := if fresh && !s.ring.almAll.contains dev then { s with ring := { s.ring with almAll := s.ring.almAll ++ [dev] } } else s
      if s.host.en ∧ dev < s.ring.num ∧ first < s.host.first + s.host.cnt ∧ s.host.first < first + count then
        { s with host := { s.host with en := false, refused := true } }
      else s)

/-- A head's CHAIN_ALM word follows a device's report; a bit newly set is announced to the host (R401, R402). -/
def State.takeReport (s : State) (dev kind count : Nat) : State :=
  if s.host.en ∧ kind < 64 then
    let was := bit (s.devAt dev).alm kind
    let s := s.modDev dev fun x =>
      { x with alm := if count = 0 then (if was then x.alm - 2 ^ kind else x.alm) else x.alm ||| 2 ^ kind }
    if 0 < count ∧ was = false then { s with host := { s.host with almVec := true } } else s
  else s

/-- The body of an alarm report: the count, the first and the latest beat (R401). -/
def reportBody (a : AlarmRep) : Nat := fld a.count 16 0 + fld a.first 64 16 + fld a.last 32 80

/-- ALARM_REPORT_RECEIVE: a head's CHAIN_ALM word follows a device's report; a bit newly set is announced to the host (R401, R402). -/
def execAlarmReportReceive (rx : RxIn) (dev kind : Nat) (a : AlarmRep) (s : State) : Host.Outcome State Fault Refusal :=
  .next (s.rxFor rx { kind := 2, src := dev, code := kind, body := reportBody a } fun s => s.takeReport dev kind a.count)

/-- TRACE_PACKET: an entry of another device goes to the segments of the stream that its client started (R410). -/
def execTracePacket (rx : RxIn) (dev : Nat) (e : TraceEnt) (s : State) : Host.Outcome State Fault Refusal :=
  .next (s.rxFor rx { kind := 4, src := dev, body := leNat e.bytes } fun s =>
    match (s.devAt dev).stream with
    | none => s
    | some (ref, off, segs) =>
      let tot := segSum segs
      let s := match segAddr segs off with
        | some a => s.hostWrite a e.bytes
        | none => s
      s.modDev dev fun x => { x with stream := some (ref, if tot = 0 then 0 else (off + 16) % tot, segs) })

/-- CHAIN_DEVICE_CHECK_END: the 16 rounds of a device's readmit check are over; one that passes is in service from the next round boundary on
(R395). -/
def execChainDeviceCheckEnd (dev : Nat) (s : State) : Host.Outcome State Fault Refusal :=
  match (s.devAt dev).check with
  | none => .next s
  | some ref =>
    let x := s.devAt dev
    if x.checkBad = false ∧ (x.checkN < 16 ∨ s.bnd % 4000 ≠ 0) then .next s
    else
      let s := s.modDev dev fun x => { x with check := none, checkN := 0, checkBad := false }
      if x.checkBad then .next (s.final ref 0x3F 0x0003)
      else .next ((s.modDev dev fun x => { x with benched := false, dead := false, missing := 0 }).final ref 0x00)

/-- The other heads that have announced themselves. -/
def State.otherHeads (s : State) : List Nat := s.heads.filter fun n => n != s.ring.num

/-- An alarm report: kind, count, first and last beat (R401). -/
def State.report (s : State) (h : Nat) (k : Fin 64) : State :=
  let a := s.log.alarms[k.val]
  s.ctrl h k.val (reportBody { count := a.count, first := a.first, last := a.last })

/-- The ring's work of a frame boundary: alarm reports of the raises before the boundary to each head, itself among them, every set latch
to a head newly heard, and the ACK over each UP link (R376, R401). -/
def State.ringFrame (s : State) : State :=
  let now := s.ring.almNewAt == s.time.clk / 32
  let due := if now then s.ring.almDirty else s.ring.almDirty ||| s.ring.almNew
  let kinds := (List.finRange 64).filter fun k => bit due k.val
  let sets := (List.finRange 64).filter fun k => (s.log.alarms[k.val]).isSet
  let all := s.ring.almAll
  let s := s.heads.foldl (fun s h =>
    ((if all.contains h then sets else []) ++ kinds.filter fun k => !(all.contains h && sets.contains k)).foldl (fun s k =>
      if h = s.ring.num then s.takeReport h k.val (s.log.alarms[k.val]).count else s.report h k) s) s
  let s := { s with ring := { s.ring with almDirty := 0, almNew := if now then s.ring.almNew else 0, almAll := [] } }
  [Side.east, Side.west].foldl (fun s p =>
    if s.linkUp p then
      let l := s.linkAt p
      let k : RingPkt := { kind := 2, src := s.ring.num, dst := (s.ring.num + (if p = .east then 1 else s.ring.ndev)) % s.ringN, code := 75
                           body := fld l.rxAlarm 16 0 + fld l.rxTicket 16 16, via := some p }
      (s.send k).modLink p fun x => { x with crcFrame := 0 }
    else s) s

/-- The states of this device's key slots as PRESENCE reports them (R447). -/
def State.mySlots (s : State) : List SlotInfo := (List.range 4).map fun k => { state := s.keySlot k, hash := s.keyHash k, revoked := s.keyRevoked k }

/-- The keeper at a round boundary: a device whose PRESENCE is missing for 2 rounds is declared dead, and the running readmit checks
count the round that ends (R392, R395). -/
def State.presenceRound (s : State) : State :=
  if s.own.keeper ≠ s.ring.num then s
  else
    let r := roundOf s.time.clk
    s.others.foldl (fun s d =>
      let x := s.devAt d
      let here := decide (r ≤ x.seen + 1)
      let n := if here then 0 else min 2 (x.missing + 1)
      let s := s.modDev d fun x =>
        let runs := x.check.isSome && !x.checkNew
        { x with missing := n, checkN := if runs then min 16 (x.checkN + 1) else x.checkN, checkNew := false
                 checkBad := x.checkBad || (runs && (!here || x.presBad)) }
      if n = 2 ∧ x.benched = false then (s.modDev d fun x => { x with benched := true, dead := true }).postChain 0x6B d else s) s

/-- The cycle grid once the clock is back: how far it has drifted only the hardware shows, a free value in units of 78.125 ps (R141, log
entry 75). -/
def State.gridBack (s : State) : State :=
  if s.time.gridOwn = true ∧ s.time.clockStopped = false then
    let d := s.draw (2 ^ 32)
    let s : State := { d.2 with time := { d.2.time with gridOwn := false } }
    s.reAnchor (d.1 : Nat) true
  else s

/-- A head broadcasts its number and its client range (R387). -/
def State.announce (s : State) : State := s.ctrl 64 65 (fld s.ring.num 6 0 + fld s.host.first 12 8 + fld s.host.cnt 12 20)

/-- A packet has failed its CRC in the round on one of the UP links. -/
def State.crcRounds (s : State) : Bool := (s.linkUp .east && (s.linkAt .east).crcRound) || (s.linkUp .west && (s.linkAt .west).crcRound)

/-- A link's clean rounds behind a wrap at a round boundary (R391). -/
def LinkSt.cleanRound (x : LinkSt) : LinkSt :=
  { x with cleanRounds := if x.st = .wrapped ∧ x.retrained = true ∧ x.crcRound = false then min 16 (x.cleanRounds + 1) else 0, crcRound := false }

/-- A client entry in use breaks a rule of R314; `win` is the entry of an SPI window, whose ring sizes are fixed and whose ring bases
are rsvd (R332). -/
def entryBad (e : Nat) (win : Bool) : Bool :=
  (!win && (decide (bits e 3 0 < 3 ∨ 12 < bits e 3 0) || decide (bits e 67 64 < 3 ∨ 12 < bits e 67 64)))
    || (bit e 150 && bits e 149 144 == 0) || bits e 5 4 != 0 || bits e 69 68 != 0 || bits e 143 142 != 0 || bits e 159 151 != 0
    || (win && (bits e 63 6 != 0 || bits e 127 70 != 0))
    || (List.range 8).any fun k => bits e (171 + 12 * k) (169 + 12 * k) != 0

/-- A client has a turnstile in service: EN and the range for a client of this head, the window of device 0 for clients 4094 and 4095,
and an entry in use that is well-formed (R312, R314, R331). -/
def State.inService (s : State) (c : Nat) : Bool :=
  let e := (s.client c).entry
  bit e 136 && !entryBad e (decide (4094 ≤ c))
    && (if 4094 ≤ c then s.ring.num == 0 else s.isHead && decide (s.host.first ≤ c ∧ c < s.host.first + s.host.cnt))

/-- The designated clients that this device has in service: bit 0 FIRST of its range, bits 1 and 2 the windows of device 0 (Table 14.1, R350). -/
def State.mySvc (s : State) : Nat := fld (b2n (s.inService s.host.first)) 1 0 + fld (b2n (s.inService 4094)) 1 1 + fld (b2n (s.inService 4095)) 1 2

/-- What this device says of itself in PRESENCE (R392, R395, R447, R471, R472). -/
def State.presence (s : State) : Presence :=
  { arb := s.reg .bar0 0x0140 % 256, head := s.isHead, barker := s.start.barker, step8 := decide (8 ≤ s.start.step), rstRows := s.resetRows 0x48
    aligned := s.ring.aligned, crcBad := s.crcRounds, svc := s.mySvc, slots := s.mySlots }

/-- The ring's work of a round boundary, once the keeper stands: presence, the clean rounds of a healing link, TIME from the root that counts, the
head's announcement, the reference, and the cycle grid once the clock is back (R141, R383, R384, R387, R391, R392, R396). -/
def State.ringRound (s : State) : State :=
  let s := if s.own.keeper = s.ring.num then s else s.ctrl s.own.keeper 64 (presenceBody s.presence s.ring.num)
  let s := (s.modLink .east LinkSt.cleanRound).modLink .west LinkSt.cleanRound
  let s := if s.isHead then s.announce else s
  let s := if s.own.keeper = s.ring.num ∧ (s.time.counting ∨ s.time.startPend) then s.ctrl 64 72 s.time.clk else s
  let side := s.refSide
  let east := if s.linkUp side then side == .east else s.ring.refEast
  let s := if s.time.clockStopped then s else { s with ring := { s.ring with refEast := east } }
  s.gridBack

end Sys2Proof.Machine
end

