-- ==== Sys2Proof/Machine/Own.lean ====
section
/-! DEFINITION. Ownership: candidate ports (R350), the keeper's record (R352), claims and their verification (R353 to R357), the
epoch (R359), heartbeats and the dead owner (R360, R361), deposed owners and benched ports (R362, R363), handover (R364),
failed claims and lockout (R365, R366). -/

namespace Sys2Proof.Machine

/-! ### Candidate ports -/

/-- The device of a port (Table 14.1). -/
def State.portDev (s : State) (k : OPort) : Option Nat := if k.val < 2 then s.rankDev k.val else some 0

/-- The designated client of a port (Table 14.1). -/
def State.portClient (s : State) (k : OPort) : Option Nat :=
  if k.val = 2 then some 4094 else if k.val = 3 then some 4095
  else match s.rankDev k.val with
    | some d => if d = s.ring.num then some s.host.first else (s.announced d).map Prod.fst
    | none => none

/-- A port is a candidate: its PORT_EN bit, and a designated client with a turnstile in service; the keeper knows those of other devices from their
PRESENCE, another device from the record (R350, log entry 122). -/
def State.candidate (s : State) (k : OPort) : Bool :=
  bit (OwnCfg.portEn s.owcfg) k.val && (match s.portDev k, s.portClient k with
    | some d, some c =>
      if d = s.ring.num then s.inService c
      else if s.own.keeper = s.ring.num then bit (s.devAt d).svc (k.val - 1) else s.own.cand.contains k.val
    | _, _ => false)

/-! ### The record -/

/-- The other devices of the chain that are in service as this device knows them (R352, R392, R472). -/
def State.inChain (s : State) : List Nat := s.others.filter fun d => !(s.devAt d).benched && !(s.devAt d).barker

/-- FAILS, LEVEL and REMAIN are committed at every change (R366); an RRAM that programs no page takes none (R452, R453). -/
def State.commitPorts (s : State) : State :=
  let f := fun (k : Fin 4) => ((s.own.ports[k.val]).fails, (s.own.ports[k.val]).level, (s.own.ports[k.val]).remain)
  if s.noRram then s else { s with nvm := { s.nvm with portNvm := Vector.ofFn f } }

/-- A forced commit of an epoch; an RRAM that programs no page makes none (R357, R452, R453). -/
def State.commitEpoch (s : State) (e : Nat) : State :=
  if s.noRram then s else ({ s with own := { s.own with epochNvm := e } } : State).commitCount 1

/-- The ownership record as the keeper holds it; a benched keeper lists itself (R352, R392). -/
def State.record (s : State) : OwnRec :=
  { keeper := s.ring.num, valid := s.own.valid, port := s.own.port, client := s.own.client, gen := s.own.gen, dev := s.own.ownDev, epoch := s.own.epoch
    benched := (List.range 64).filter fun d => if d = s.ring.num then s.ring.benchedMe else (s.devAt d).benched
    portsOut := ((List.finRange 4).filter fun k => (s.own.ports[k.val]).benched).map Fin.val
    deposed := s.own.deposed
    fails := (List.finRange 4).map fun k => ((s.own.ports[k.val]).fails, (s.own.ports[k.val]).level, (s.own.ports[k.val]).remain)
    pend := s.own.pend, pendSeq := s.own.pendRef.map TkRef.seq, pendDev := s.own.pendDev, pendHand := s.own.pendHand, pendKey := s.own.pendKey
    cand := ((List.finRange 4).filter fun k => s.candidate k).map Fin.val, endPosted := s.own.endPosted }

/-- The alarm packets that carry a record, code and body of 16 bytes each: the owner and what awaits its effect, the benched devices, the ports,
and nine deposed clients to a packet (R352, R375, log entry 37). -/
def recordPkts (x : OwnRec) : List (Nat × Nat) :=
  let q := x.pend.getD (0, 0, 0, 0)
  let mask := fun (l : List Nat) => (l.map fun n => 2 ^ n).sum
  let port := fun (k : Nat) =>
    let f := x.fails.getD k (0, 0, 0)
    fld f.1 4 (30 * k) + fld f.2.1 4 (30 * k + 4) + fld f.2.2 22 (30 * k + 8)
  let nine := fun (i : Nat) =>
    let l := (x.deposed.drop (9 * i)).take 9
    (78, fld x.keeper 6 0 + fld l.length 4 6 + ((List.range 9).map fun k => fld (l.getD k 0) 12 (12 + 12 * k)).sum)
  [(66, fld x.keeper 6 0 + fld (b2n x.valid) 1 6 + fld (b2n x.endPosted) 1 7 + fld x.port 2 8 + fld x.client 12 10 + fld x.gen 9 22 + fld x.dev 6 31
      + fld x.epoch 32 37 + fld (mask x.portsOut) 4 69 + fld (mask x.cand) 4 73 + fld (b2n x.pend.isSome) 1 77 + fld (b2n x.pendHand) 1 78
      + fld x.pendKey 3 79 + fld x.pendDev 6 82 + fld q.1 2 88 + fld q.2.1 12 90 + fld q.2.2.1 9 102 + fld (x.pendSeq.getD 0) 16 111
      + fld (b2n x.pendSeq.isSome) 1 127),
   (76, fld x.keeper 6 0 + fld (mask x.benched) 64 6 + fld q.2.2.2 32 70),
   (77, port 0 + port 1 + port 2 + port 3 + fld x.keeper 6 120)] ++ (List.range (ceilDiv x.deposed.length 9)).map nine

/-- The keeper sends the ownership record (R352). -/
def State.sendRecord (s : State) : State := (recordPkts s.record).foldl (fun (s : State) p => s.ctrl 64 p.1 p.2) s

/-- What an owner that loses ownership had fetched and not processed is discarded with DEPOSED, and the parts held of its signed tickets; after a
handover only its owner tickets are (R362, R364). -/
def State.discardFor (s : State) (client : Nat) (ownerOnly : Bool) : State :=
  let hit := fun (f : Fetched) => f.client == client && (!ownerOnly || (opRow (bits f.raw 7 0)).any OpRow.owner)
  let gone := s.host.fetched.filter hit
  let s := { s with host := { s.host with fetched := s.host.fetched.filter fun f => !hit f } }
  let s := gone.foldl (fun s f =>
    s.stub { ref := { client := client, gen := bits f.raw 39 32, seq := bits f.raw 63 48 }, status := 0x12, value := s.own.epoch % 256 }) s
  if ownerOnly then s else s.modClient client fun c => { c with parts := [] }

/-- The owner is deposed: its port is benched under R17, its waiting tickets are discarded (R362). -/
def State.depose (s : State) : State :=
  let c := s.own.client
  let s := { s with own := { s.own with deposed := if s.own.deposed.contains c then s.own.deposed else s.own.deposed ++ [c] } }
  let s := match s.own.ports.toArray[s.own.port]? with
    | some _ => if h : s.own.port < 4 then s.modPort ⟨s.own.port, h⟩ fun x => { x with benched := true } else s
    | none => s
  s.discardFor c false

/-- A new owner is in force, and with it the epoch (R357, R358, R362, R364). The old owner is deposed when another port's claim took ownership from
it. -/
def State.newOwner (s : State) (port client gen epoch dev : Nat) (hand : Bool) : State :=
  let s : State := { s with own := { s.own with epoch := epoch } }
  let s := if s.own.valid ∧ s.own.client ≠ client then (if hand then s.discardFor s.own.client true else s.depose) else s
  let s := { s with own := { s.own with
    valid := true, port := port, client := client, gen := gen, epoch := epoch, ownDev := dev, pend := none, pendRef := none, silent := 0
    beatSeen := false, genEnd := false, deposed := s.own.deposed.filter fun x => x != client } }
  if h : port < 4 then s.modPort ⟨port, h⟩ fun x => { x with benched := false } else s

/-- The device detaches its gang rails (R393). -/
def State.detachAll (s : State) : State := (rails.filter s.ganged).foldl (fun (s : State) r => s.gangDetach r) s

/-- A device takes the keeper's record as its copy in force, with the higher of the epoch it holds and the record's; what an owner that has lost
ownership had waiting is discarded, and a device that learns of its bench detaches its gang rails (R352, R357, R362, R364, R392, R393). -/
def State.takeRecord (s : State) (rec : OwnRec) : State :=
  let epoch := max s.own.epoch rec.epoch
  let changed := rec.valid && (!s.own.valid || s.own.client != rec.client || s.own.epoch != rec.epoch)
  let lost := s.own.valid && (!rec.valid || s.own.client != rec.client)
  let was := s.own.client
  let gen := if !changed then s.own.gen else if rec.gen < 256 then rec.gen else (s.client rec.client).gen
  let f := fun (k : Fin 4) => ({ (s.own.ports[k.val]) with
    fails := (rec.fails.getD k.val (0, 0, 0)).1, level := (rec.fails.getD k.val (0, 0, 0)).2.1
    remain := (rec.fails.getD k.val (0, 0, 0)).2.2, benched := rec.portsOut.contains k.val } : PortSt)
  let ref := match rec.pend, rec.pendSeq with
    | some q, some n => some ({ client := q.2.1, gen := q.2.2.1, seq := n } : TkRef)
    | _, _ => none
  let o : OwnSt := { s.own with
    keeper := rec.keeper, valid := rec.valid, port := rec.port, client := rec.client, gen := gen, ownDev := rec.dev, epoch := epoch
    epochNvm := max s.own.epochNvm rec.epoch, deposed := rec.deposed, pend := rec.pend, noRec := 0, recSeen := true, ports := Vector.ofFn f
    silent := 0, genEnd := s.own.genEnd && !changed, pendDev := rec.pendDev, pendHand := rec.pendHand, pendKey := rec.pendKey
    pendRef := ref, cand := rec.cand, endPosted := rec.endPosted }
  let g := fun (d : Fin 64) => ({ (s.ring.devs[d.val]) with benched := rec.benched.contains d.val } : DevSt)
  let me := rec.benched.contains s.ring.num
  let fresh := me && !s.ring.benchedMe
  let s := ({ s with own := o, ring := { s.ring with devs := Vector.ofFn g, benchedMe := me } } : State).commitPorts
  let s := if lost then s.discardFor was (!rec.deposed.contains was) else s
  if fresh then s.detachAll else s

/-- OWNERSHIP_RECORD: a device takes the keeper's record as its copy in force. A keeper that a higher-numbered one does not list as benched stays
keeper, and takes the higher epoch alone (R352, R357, R393). -/
def execOwnershipRecord (rx : RxIn) (rec : OwnRec) (s : State) : Host.Outcome State Fault Refusal :=
  .next (s.rxPkt rx 2 fun s =>
    let s := (recordPkts rec).foldl (fun (s : State) p => s.relay rx.via rec.keeper p.1 p.2) s
    if rec.keeper = s.ring.num ∨ (s.devAt rec.keeper).benched = true then s
    else if s.own.keeper = s.ring.num ∧ s.ring.num < rec.keeper ∧ rec.benched.contains s.ring.num = false then
      { s with own := { s.own with epoch := max s.own.epoch rec.epoch, epochNvm := max s.own.epochNvm rec.epoch } }
    else s.takeRecord rec)

/-! ### Claims -/

/-- The 32 bytes of a number, most significant first (R348, R353). -/
def be32 (n : Nat) : List Nat := (leBytes 32 n).reverse

/-- Checks 1 to 4 of R354 over the parts of a signed ticket, the first that fails; `tag` opens the message of Tables 14.2 and 18.6. -/
def State.sigCheck (s : State) (tag : List Nat) (key x y r v epoch nonce : Nat) : Option Nat :=
  if s.keySlot key ≠ 1 ∨ s.keyRevoked key = true then some 1
  else if Config.sha256 (be32 x ++ be32 y) ≠ s.keyHash key then some 2
  else if Config.onCurve x y = false then some 3
  else if Config.ecdsaOk x y r v (Config.sha256 (tag ++ leBytes 16 s.nvm.serial ++ leBytes 4 epoch ++ leBytes 8 nonce)) = false then some 4
  else none

/-- The refusals of R355 before verification, by row: not enabled, not the designated client, benched while an owner is in force, locked
out, epoch at its end. A client of no candidate port is not designated. -/
def State.claimRefusal (s : State) (dev client : Nat) : Option Nat :=
  match s.portOf dev client with
  | none => some 1
  | some k =>
    if bit (OwnCfg.portEn s.owcfg) k.val = false then some 0
    else if s.portClient k ≠ some client then some 1
    else if (s.own.ports[k.val]).benched = true ∧ s.own.valid = true then some 2
    else if 0 < (s.own.ports[k.val]).remain then some 3
    else if s.own.epoch = 2 ^ 32 - 1 then some 4
    else none

/-- The part-3 stub of a claim goes to the client by the device that fetched the claim (R356). -/
def State.claimStub (s : State) (ref : TkRef) (dev status extra value : Nat) : State :=
  let x : Stub := { ref := ref, status := status, extra := extra, value := value }
  if dev = s.ring.num then s.stub x else s.send { kind := 1, src := s.ring.num, dst := dev, body := x.word }

/-- The body of the packet that tells the keeper a claim's result, an accepted handover or a readmitted port (R355, R363, R364, log entry 37). -/
def claimBody (c : ClaimMsg) : Nat :=
  fld c.client 12 0 + fld c.gen 8 12 + fld c.seq 16 20 + fld c.key 2 36 + fld c.epoch 32 38 + fld (c.fail.getD 7) 3 70 + fld (c.refusal.getD 7) 3 73
    + fld c.port 2 76 + fld c.dev 6 78 + fld (b2n c.handover) 1 84 + fld (b2n c.readmit) 1 85 + fld c.frame 42 86

/-- What a claim tells the keeper (R355). -/
def Claim.msg (c : Claim) : ClaimMsg :=
  { client := c.client, gen := c.gen, seq := c.seq, port := c.port, dev := c.dev, key := c.key, epoch := c.epoch, frame := c.frame, fail := c.fail
    refusal := c.refusal }

/-- A head sends the result of a claim to the keeper, and waits for its stub (R355). -/
def State.sendClaim (s : State) (c : Claim) : State :=
  let k := s.own.keeper
  if k = s.ring.num then s
  else
    let ref : TkRef := { client := c.client, gen := c.gen, seq := c.seq }
    let s := s.modDev k fun x => { x with fwdOut := (x.fwdOut.filter fun e => e.ref != ref) ++ [{ n := 2 ^ 13, ref := ref, atBeat := 2 ^ 64 }] }
    s.ctrl k 67 (claimBody c.msg)

/-- The part that a signed ticket brings is the next one: its SEQ, KEY, EPOCH and NONCE follow those of the parts held (R348). -/
def State.partFits (s : State) (t : Tkt) (unlock : Bool) : Bool :=
  let c := s.client t.client
  let p := t.byte 16
  decide (p ≤ 3 ∧ c.parts.length = p) && (p == 0 || (c.partUnlock == unlock && t.seq == wrapAdd 16 c.partSeq 1 && t.byte 17 == c.partKey
    && t.le 20 4 == c.partEpoch && t.le 24 8 == c.partNonce))

/-- Hold a part: its CHUNK is a 32-byte integer, most significant byte first (R348). -/
def State.holdPart (s : State) (t : Tkt) (unlock : Bool) : State :=
  s.modClient t.client fun c =>
    { c with parts := c.parts ++ [beNat (leBytes 32 (t.le 32 32))], partSeq := t.seq, partKey := t.byte 17, partEpoch := t.le 20 4
             partNonce := t.le 24 8, partUnlock := unlock }

/-- Discard the parts held of a client. -/
def State.dropParts (s : State) (c : Nat) : State := s.modClient c fun x => { x with parts := [] }

/-- A part of a signed ticket: one out of order, or that differs in KEY, EPOCH or NONCE, discards the parts held and is malformed at
offset 16 (R348). The parts of an unlock are held and judged by the device they target. -/
def signedPart (t : Tkt) (row : Nat) (unlock : Bool) (c : TCheck) (s : State) (body : State → State) : Host.Outcome State Fault Refusal :=
  let fits := (unlock && t.dev != s.ring.num) || s.partFits t unlock
  let key := decide (t.byte 17 ≤ 3)
  let u := if !(fits && key) && t.rowKey == row && s.ready t && t.gen == (s.client t.client).gen then s.dropParts t.client else s
  runTicket t row u { c with rng := [(16, fits), (17, key)] } body

/-- CLAIM, parts 0 to 2 (R348). -/
def execClaimPart (t : Tkt) (s : State) : Host.Outcome State Fault Refusal :=
  signedPart t 0x600 false {} s fun u => (u.holdPart t false).ok t

/-- CLAIM, part 3: the claim exists from the frame of its processing; it is verified unless R355 refuses it. Its stub follows at the
decision (R348, R355, R356). -/
def execClaim (t : Tkt) (s : State) : Host.Outcome State Fault Refusal :=
  signedPart t 0x603 false { post := [nvmFault s] } s fun u =>
    let l := ((u.holdPart t false).client t.client).parts
    let u := u.dropParts t.client
    let ref := u.claimRefusal u.ring.num t.client
    let c : Claim :=
      { client := t.client, gen := t.gen, seq := t.seq, dev := u.ring.num, key := t.byte 17, epoch := t.le 20 4
        port := match u.portOf u.ring.num t.client with
          | some k => k.val
          | none => 0
        frame := u.time.clk / 32 * 32, refusal := ref, verified := ref.isSome, ep5 := decide (t.le 20 4 = u.own.epoch + 1)
        xy := l.getD 0 0 * 2 ^ 256 + l.getD 1 0, rs := l.getD 2 0 * 2 ^ 256 + l.getD 3 0, nonce := t.le 24 8 }
    let u := { u with own := { u.own with claims := u.own.claims ++ [c] } }
    if ref.isSome then u.sendClaim c else u

/-- CLAIM_VERIFY_DONE: the device that fetched a claim has verified it and sends the result to the keeper (R354, R355). -/
def execClaimVerifyDone (c : Nat) (s : State) : Host.Outcome State Fault Refusal :=
  match s.own.claims.find? fun x => x.client == c && x.dev == s.ring.num && !x.verified with
  | none => .next s
  | some x =>
    let f := match s.sigCheck [0x54, 0x58, 0x43, 0x4C] x.key (x.xy / 2 ^ 256) (x.xy % 2 ^ 256) (x.rs / 2 ^ 256) (x.rs % 2 ^ 256) x.epoch x.nonce with
      | some k => some k
      | none => if x.ep5 then none else some 5
    let y := { x with verified := true, fail := f : Claim }
    let l := s.own.claims.map fun z => if z = x then y else z
    .next (({ s with own := { s.own with claims := l } } : State).sendClaim y)

/-- A handover, or a won claim, awaits its effect: the epoch is committed here and sent to every device; `key` is the slot of a claim
that won, 4 for a handover (R357, R364). -/
def State.startEffect (s : State) (port client gen epoch dev key : Nat) (ref : Option TkRef) : State :=
  let s := { s with own := { s.own with pend := some (port, client, gen, epoch), pendRef := ref, pendFrom := s.time.clk, pendDev := dev, pendHand := ref.isNone
                                        pendKey := key, acks := [], wonEpochs := s.own.wonEpochs ++ [(epoch, port)] }
                    nvm := { s.nvm with won := if key < 4 then s.nvm.won ||| 2 ^ key else s.nvm.won } }
  (s.commitEpoch epoch).ctrl 64 68 (fld s.ring.num 6 0 + fld epoch 32 8 + fld key 3 40)

/-- The accepted handover of the keeper takes the next epoch once nothing awaits its effect (R364, Table 14.8, log entry 123). -/
def State.handGo (s : State) : State :=
  match s.own.pend, s.own.handQ with
  | none, some p =>
    let k : OPort := ⟨p % 4, by omega⟩
    let s : State := { s with own := { s.own with handQ := none } }
    match s.portClient k, s.portDev k with
    | some c, some d =>
      if s.own.epoch = 2 ^ 32 - 1 then s
      else s.startEffect k.val c (if d = s.ring.num then (s.client c).gen else 256) (s.own.epoch + 1) d 4 none
    | _, _ => s
  | _, _ => s

/-- CLAIM_RESULT: the keeper learns the result of a claim, an accepted handover, or a port readmitted by its device. A benched device's
result is ignored; a second copy, or the claim that has won and awaits its effect, changes nothing (R355, R363, R364, R369, R389, R393). -/
def execClaimResult (rx : RxIn) (cl : ClaimMsg) (s : State) : Host.Outcome State Fault Refusal :=
  .next (s.rxFor rx { kind := 2, src := cl.dev, code := 67, body := claimBody cl } fun s =>
    if s.own.keeper ≠ s.ring.num ∨ (s.devAt cl.dev).benched = true then s
    else if cl.readmit then (if h : cl.port < 4 then s.modPort ⟨cl.port, h⟩ fun x => { x with benched := false } else s)
    else if cl.handover then ({ s with own := { s.own with handQ := some cl.port } } : State).handGo
    else if s.own.claims.any (fun x => x.client == cl.client && x.seq == cl.seq && x.dev == cl.dev)
        || s.own.pendRef == some { client := cl.client, gen := cl.gen, seq := cl.seq } then s
    else
      let c : Claim := { client := cl.client, gen := cl.gen, seq := cl.seq, port := cl.port, dev := cl.dev, key := cl.key, epoch := cl.epoch
                         frame := cl.frame, fail := cl.fail, refusal := cl.refusal, verified := true, ep5 := true }
      { s with own := { s.own with claims := s.own.claims ++ [c] } })

/-- The keeper's view of check 1: the slot is SET on every device in service and revoked on none (R447). -/
def State.slotOk (s : State) (k : Nat) : Bool :=
  (s.unprovisioned || (s.keySlot k == 1 && !s.keyRevoked k))
    && s.inChain.all fun d => match (s.devAt d).slots[k]? with
      | some x => x.state == 1 && !x.revoked
      | none => true

/-- A failed claim: FAILS of its port rises, the eighth locks the port out (R365). -/
def State.failClaim (s : State) (k : OPort) (key check : Nat) : State :=
  let s := s.postDev 0x7B k.val key check
  let x := s.own.ports[k.val]
  if x.fails + 1 < 8 then (s.modPort k fun x => { x with fails := x.fails + 1 }).commitPorts
  else
    let n := min (1000 * 2 ^ x.level) 3600000
    let l := min (x.level + 1) 12
    ((s.modPort k fun x => { x with fails := 0, level := l, remain := n }).commitPorts).postDev 0x7C k.val l n

/-- The epoch's end refuses an increment: CNT_EXHAUST is posted once (R454). -/
def State.exhausted (s : State) (k : Fin 2) : State :=
  if s.nvm.exhaust[k.val] then s
  else ({ s with nvm := { s.nvm with exhaust := s.nvm.exhaust.set k.val true } } : State).postDev 0x8A k.val

/-- What refuses a claim at its decision: the refusal before its verification, a lockout that has begun since, or the end of the epoch (R354, R355,
Table 14.8). -/
def State.lateRefusal (s : State) (c : Claim) : Option Nat :=
  match c.refusal, s.portOf c.dev c.client with
  | some n, _ => some n
  | none, some k => if 0 < (s.own.ports[k.val]).remain then some 3 else if s.own.epoch = 2 ^ 32 - 1 then some 4 else none
  | none, none => none

/-- Decide one claim (R355, R356): the refusals first, then a failed claim, then a claim whose epoch is taken, else it wins. -/
def State.decideClaim (s : State) (c : Claim) : State :=
  let ref : TkRef := { client := c.client, gen := c.gen, seq := c.seq }
  let out := s.claimStub ref c.dev
  if s.own.pendRef = some ref then s
  else match s.lateRefusal c, s.portOf c.dev c.client with
  | some 0, _ => out 0x14 2 0
  | some 3, some k => out 0x15 0 ((s.own.ports[k.val]).remain)
  | some 4, _ => (s.claimStub ref c.dev 0x31 0 0).exhausted 0
  | some _, _ => out 0x14 0 0
  | none, none => out 0x14 0 0
  | none, some k =>
    let fail := if s.slotOk c.key then c.fail else some 1
    match fail with
    | some n => (s.claimStub ref c.dev 0x14 4 0).failClaim k c.key n
    | none =>
      match s.own.pend with
      | some q => out 0x13 0 q.1
      | none =>
        if c.epoch = s.own.epoch + 1 then
          let s := (s.modPort k fun x => { x with fails := 0, level := 0 }).commitPorts
          s.startEffect k.val c.client c.gen c.epoch c.dev c.key (some ref)
        else out 0x13 0 (((s.own.wonEpochs.find? fun e => e.1 == c.epoch).map Prod.snd).getD s.own.port)

/-- The claims that a round boundary decides, those of earlier frames first, within a frame in port rank order (R356). -/
def State.dueClaims (s : State) : List Claim :=
  let rank := fun (c : Claim) => match s.portOf c.dev c.client with
    | some k => k.val
    | none => 4
  (s.own.claims.filter fun c => c.verified && decide (c.frame + 8000 ≤ s.time.clk)).insertionSort
    fun a b => a.frame < b.frame ∨ (a.frame = b.frame ∧ rank a ≤ rank b)

/-- CLAIM_DECISION: the keeper decides the claims of every frame at least 8,000 beats back; with key slots that differ over the chain it
decides none (R353, R356). -/
def execClaimDecision (s : State) : Host.Outcome State Fault Refusal :=
  if s.own.keeper ≠ s.ring.num ∨ s.own.mismatch = true ∨ s.bnd % 4000 ≠ 0 then .next s
  else .next (s.atBoundary fun s =>
    let l := s.dueClaims
    let s := { s with own := { s.own with claims := s.own.claims.filter fun c => !l.contains c } }
    l.foldl State.decideClaim s)

/-- An epoch reset: the revoke row of every slot with a WON flag is blown, with DATA that the spec leaves open, and the flags clear (R455). -/
def State.revokeWon (s : State) : State :=
  let slots := (List.range 4).filter fun k => bit s.nvm.won k
  let s := slots.foldl (fun s k =>
    let (v, s) := s.draw (2 ^ 64 - 1)
    let f := fusesOf (v + 1)
    { s with nvm := { s.nvm with otp := upd (upd s.nvm.otp 0 fun o => o.blow (0x60 + k) f) 1 fun o => o.blow (0x60 + k) f } }) s
  { s with nvm := { s.nvm with won := 0, epochRsts := s.nvm.epochRsts + 1 } }

/-- EPOCH_COMMIT: a device commits the keeper's new epoch and acknowledges it; one whose RRAM programs no page does neither (R452, R453).
Epoch 0 is an epoch reset, which a second copy does not repeat (R357, R389, R455). -/
def execEpochCommit (rx : RxIn) (dev epoch key : Nat) (s : State) : Host.Outcome State Fault Refusal :=
  .next (s.rxPkt rx 2 fun s =>
    let s := s.relay rx.via dev 68 (fld dev 6 0 + fld epoch 32 8 + fld key 3 40)
    if dev = s.ring.num || s.noRram then s
    else
      let again := decide (epoch = 0 ∧ s.own.epochNvm = 0)
      let s := s.commitEpoch epoch
      let s := if again then s
        else if epoch = 0 then ({ s with own := { s.own with epoch := 0 } } : State).revokeWon
        else if key < 4 then { s with nvm := { s.nvm with won := s.nvm.won ||| 2 ^ key } } else s
      s.ctrl dev 69 (fld s.ring.num 6 0 + fld epoch 32 8))

/-- EPOCH_ACK: the keeper notes a device's acknowledgement (R357). -/
def execEpochAck (rx : RxIn) (dev : Nat) (s : State) : Host.Outcome State Fault Refusal :=
  .next (s.rxFor rx { kind := 2, src := dev, code := 69, body := fld dev 6 0 + fld s.own.epochNvm 32 8 } fun s =>
    if s.own.acks.contains dev then s else { s with own := { s.own with acks := s.own.acks ++ [dev] } })

/-- OWNER_RECORD_EFFECT: at the first round boundary after the keeper's own commit and after every device in service has acknowledged, the
new record takes effect: the winner's stub, OWNER_NEW with port and cause (0 CLAIM, 1 HANDOVER), client and epoch (R357, R364, R452). A
handover that has waited follows. -/
def execOwnerRecordEffect (s : State) : Host.Outcome State Fault Refusal :=
  match s.own.pend with
  | none => .next s
  | some (port, client, gen, epoch) =>
    if s.own.keeper ≠ s.ring.num ∨ s.bnd % 4000 ≠ 0 ∨ s.bnd ≤ s.own.pendFrom ∨ !(s.inChain.all fun d => s.own.acks.contains d)
        ∨ s.own.epochNvm < epoch then .next s
    else .next (s.atBoundary fun s =>
      let hand := s.own.pendHand
      let ref := s.own.pendRef
      let dev := s.own.pendDev
      let g := if gen < 256 then gen else if dev = s.ring.num then (s.client client).gen else 256
      let s := s.newOwner port client g epoch dev hand
      let s := match ref with
        | some r => s.claimStub r dev 0x00 0 epoch
        | none => s
      ((s.postChain 0x78 (port + 256 * b2n hand) client epoch).sendRecord).handGo)

/-- OWNER_DEAD: the owner has been silent for DEAD_T rounds, or its generation has changed: there is no owner, its port is benched, the event
names the port and the cause, 0 SILENT or 1 GEN (R361, R362). -/
def execOwnerDead (s : State) : Host.Outcome State Fault Refusal :=
  let late := decide (OwnCfg.deadT s.owcfg ≤ s.own.silent)
  if s.own.keeper ≠ s.ring.num ∨ s.own.valid = false ∨ s.bnd % 4000 ≠ 0 ∨ !(late || s.own.genEnd) then .next s
  else .next (s.atBoundary fun s =>
    let p := s.own.port
    let gen := s.own.genEnd
    let s := s.depose
    let s := { s with own := { s.own with valid := false, silent := 0, genEnd := false, beatSeen := false } }
    (s.postChain 0x79 p (b2n gen)).sendRecord)

/-! ### Heartbeats, handover, reading -/

/-- A heartbeat of round `r` counts at the keeper; one that reached its turnstile in time and is processed late still counts for its own
round (R360). -/
def State.countBeat (s : State) (r : Nat) : State :=
  let now := roundOf s.time.clk
  if r = now then { s with own := { s.own with beatSeen := true } }
  else { s with own := { s.own with silent := min s.own.silent (now - 1 - r) } }

/-- HEARTBEAT: the owner with the epoch in force; any other epoch gets DEPOSED (R360). -/
def execHeartbeat (t : Tkt) (s : State) : Host.Outcome State Fault Refusal :=
  runTicket t 0x610 s { den := [failIf (t.le 20 4 != s.own.epoch) { status := 0x12, value := s.own.epoch % 256 }] } fun u =>
    let r := roundOf t.ts
    let u := if u.own.keeper = u.ring.num then u.countBeat r else u.ctrl u.own.keeper 70 (fld u.ring.num 6 0 + fld r 48 8)
    u.ok t

/-- HEARTBEAT_FORWARD: the keeper learns a head's heartbeat of a round, or that the owner's generation has ended (R360, R361, R393). -/
def execHeartbeatForward (rx : RxIn) (dev round : Nat) (ended : Bool) (s : State) : Host.Outcome State Fault Refusal :=
  .next (s.rxFor rx { kind := 2, src := dev, code := 70, body := fld dev 6 0 + fld round 48 8 + fld (b2n ended) 1 56 } fun s =>
    if s.own.keeper ≠ s.ring.num ∨ (s.devAt dev).benched = true ∨ s.own.valid = false ∨ s.own.ownDev ≠ dev then s
    else if ended then { s with own := { s.own with genEnd := true } }
    else s.countBeat round)

/-- HANDOVER (R364); at the epoch's end it is refused, and CNT_EXHAUST posted once (R359, R454). -/
def execHandover (t : Tkt) (s : State) : Host.Outcome State Fault Refusal :=
  let port := t.byte 16
  let k : OPort := ⟨port % 4, by omega⟩
  let x := s.own.ports[k.val]
  runTicket t 0x620 s
    { rng := [(16, decide (port ≤ 3))]
      den := [failIf (t.le 20 4 != s.own.epoch) { status := 0x12, value := s.own.epoch % 256 }]
      pre := [failIf (!s.candidate k || (s.own.valid && s.own.port == port)) badTarget]
      post := [failIf (x.benched || decide (0 < x.remain) || s.own.pend.isSome) busy, nvmFault s] } fun u =>
    if u.own.epoch = 2 ^ 32 - 1 then (u.exhausted 0).reply t { status := 0x31 }
    else
      let m : ClaimMsg := { client := t.client, gen := t.gen, seq := t.seq, port := port, dev := u.ring.num, epoch := u.own.epoch, handover := true }
      let u := if u.own.keeper = u.ring.num then ({ u with own := { u.own with handQ := some port } } : State).handGo
        else u.ctrl u.own.keeper 67 (claimBody m)
      u.ok t

/-- OWNER_READ: the owner port, 0xFF for none, and the epoch in force. -/
def execOwnerRead (t : Tkt) (s : State) : Host.Outcome State Fault Refusal :=
  runTicket t 0x630 s {} fun u => u.ok t 0 (fld (if u.own.valid then u.own.port else 0xFF) 8 0 + fld u.own.epoch 32 32)

/-! ### Ports: lockout and readmission -/

/-- LOCKOUT_END: at a round boundary the last round of a lockout is over (R365). What ROUND_TICK has counted at the boundary is not counted
twice. -/
def execLockoutEnd (port : OPort) (s : State) : Host.Outcome State Fault Refusal :=
  if (s.own.ports[port.val]).remain ≠ 1 ∨ s.bnd % 4000 ≠ 0 ∨ s.own.portsAt = s.bnd then .next s
  else .next (s.modPort port fun x => { x with remain := 0 }).commitPorts

/-- READMIT of a host port; BUSY on a benched device (R349, R363). -/
def execReadmitHostPort (t : Tkt) (s : State) : Host.Outcome State Fault Refusal :=
  let k : OPort := ⟨t.byte 17 % 4, by omega⟩
  runTicket t 0x526 s
    { rng := [(17, decide (t.byte 17 ≤ 3))], pre := [failIf (!(s.own.ports[k.val]).benched) badTarget]
      post := [failIf s.ring.benchedMe busyBenched, failIf (s.own.ports[k.val]).check.isSome busy], free := true } fun u =>
    (u.queued t).post (t.nbBeat u) .frame (.readmitPort k t.ref)

/-- The readmit check of a port starts; a round that it meets in progress is none of its 16 (R363, log entry 124). -/
def State.readmitPortAct (s : State) (k : OPort) (ref : TkRef) : State :=
  if (s.own.ports[k.val]).check.isSome then s.final ref 0x23
  else s.modPort k fun x => { x with check := some ref, checkN := 0, checkBad := false, checkNew := decide (s.time.clk % 4000 ≠ 0) }

/-- PORT_CHECK_END: the 16 rounds of a port's readmit check are over: on a pass the port is a candidate again (R363). -/
def execPortCheckEnd (port : OPort) (s : State) : Host.Outcome State Fault Refusal :=
  let x := s.own.ports[port.val]
  match x.check with
  | none => .next s
  | some ref =>
    if x.checkN < 16 ∧ x.checkBad = false then .next s
    else
      let s := s.modPort port fun x => { x with check := none, checkN := 0, checkBad := false, benched := x.benched && x.checkBad }
      if x.checkBad then .next (s.final ref 0x3F 0x0003)
      else
        let m : ClaimMsg := { port := port.val, dev := s.ring.num, readmit := true }
        let s := if s.own.keeper = s.ring.num then s else s.ctrl s.own.keeper 67 (claimBody m)
        .next (s.final ref 0x00)

/-- BENCH of kind 5 acts on the keeper: the device is benched. A keeper that is benched itself detaches its gang rails and sends a last record that
says so; the next lowest device becomes keeper and timing root at the round boundary (R352, R392, R393, R396). -/
def State.benchDevAct (s : State) (n : Nat) : State :=
  if n ≠ s.ring.num then s.modDev n fun x => { x with benched := true }
  else if s.ring.benchedMe then s
  else (({ s with ring := { s.ring with benchedMe := true } } : State).detachAll).sendRecord

/-- READMIT of kind 5 acts: the check of 16 rounds starts; a round that it meets in progress is none of them (R395, log entry 124). A check that
runs goes on undisturbed (R17). -/
def State.readmitDevAct (s : State) (n : Nat) (ref : TkRef) : State :=
  let x := s.devAt n
  if !x.benched then s.final ref 0x21
  else if x.check.isSome then s.final ref 0x23
  else s.modDev n fun x => { x with check := some ref, checkN := 0, checkBad := false, checkNew := decide (s.time.clk % 4000 ≠ 0) }

/-- BENCH of a chain device, which the keeper benches (R392). -/
def execBenchChainDevice (t : Tkt) (s : State) : Host.Outcome State Fault Refusal :=
  runTicket t 0x515 s
    { rng := [(17, t.byte 17 = 0)], pre := [failIf (t.dev != s.ring.num && !(s.devAt t.dev).known) badTarget], free := true } fun u =>
    (u.ok t).post (t.nbBeat u) .beat (.benchDev t.dev)

/-- READMIT of a chain device (R395). -/
def execReadmitChainDevice (t : Tkt) (s : State) : Host.Outcome State Fault Refusal :=
  let d := s.devAt t.dev
  runTicket t 0x525 s
    { rng := [(17, t.byte 17 = 0)], pre := [failIf (!d.benched) badTarget]
      post := [failIf (decide (d.seen + 1 < roundOf s.time.clk) || d.check.isSome) busy], free := true } fun u =>
    (u.queued t).post (t.nbBeat u) .frame (.readmitDev t.dev t.ref)

/-! ### The round -/

/-- A port number after heads 0 and 1 have exchanged theirs. -/
def swapPort (p : Nat) : Nat := if p = 0 then 1 else if p = 1 then 0 else p

/-- The two heads exchange ports 0 and 1 when a device that held one now stands at the other rank; what the keeper holds of a port moves with its
head (R350). -/
def State.renumber (s : State) : State :=
  let a := s.heads[0]?
  let b := s.heads[1]?
  let old := s.own.headDev
  let swap := (old[0].isSome && old[0] == b) || (old[1].isSome && old[1] == a)
  let o := { s.own with headDev := #v[a, b] }
  if !swap then { s with own := o }
  else
    let pend := o.pend.map fun q => (swapPort q.1, q.2)
    { s with own := { o with ports := #v[o.ports[1], o.ports[0], o.ports[2], o.ports[3]], port := swapPort o.port, pend := pend
                             handQ := o.handQ.map swapPort, wonEpochs := o.wonEpochs.map fun e => (e.1, swapPort e.2) } }

/-- The devices whose SET slots carry another hash than the first device that has the slot SET (R353, R447, R449). -/
def State.mismatched (s : State) : List Nat :=
  let mine := if s.unprovisioned then [] else (List.range 4).map fun k => ({ state := s.keySlot k, hash := s.keyHash k, revoked := s.keyRevoked k } : SlotInfo)
  let all := (s.ring.num, mine) :: s.inChain.map fun d => (d, (s.devAt d).slots)
  ((List.range 4).map fun k =>
    let l := (all.filterMap fun e => (e.2[k]?).map fun x => (e.1, x)).filter fun e => e.2.state == 1
    match l with
    | [] => []
    | a :: r => (r.filter fun e => e.2.hash != a.2.hash).map Prod.fst).flatten.dedup

/-- The keeper counts the rounds without a heartbeat (R361). -/
def State.silenceRound (s : State) : State :=
  let n := if s.own.valid && !s.own.beatSeen then min 1000 (s.own.silent + 1) else 0
  { s with own := { s.own with noRec := 0, beatSeen := false, silent := n } }

/-- The keeper compares the key slots of the chain; KEY_MISMATCH is posted when a difference appears (R353). -/
def State.keyRound (s : State) : State :=
  let bad := s.mismatched
  let m := (bad.map fun d => 2 ^ d).sum
  let s := if !bad.isEmpty && !s.own.mismatch then s.postChain 0x7E (m % 2 ^ 32) (m / 2 ^ 32) else s
  { s with own := { s.own with mismatch := !bad.isEmpty } }

/-- The epoch at its end: EPOCH_END once, and the reset once every device in service has spent a further reset row (R359, R455). -/
def State.epochRound (s : State) : State :=
  if s.own.epoch != 0xFFFFFFFF then s
  else
    let s := if s.own.endPosted then s else ({ s with own := { s.own with endPosted := true } } : State).postChain 0x7D
    let n := s.nvm.epochRsts
    if decide (n < s.resetRows 0x48) && !s.noRram && s.inChain.all (fun d => decide (n < (s.devAt d).epochRows)) then
      let s := ({ s with own := { s.own with epoch := 0, endPosted := false } } : State).commitEpoch 0
      (s.revokeWon).ctrl 64 68 (fld s.ring.num 6 0 + fld 4 3 40)
    else s

/-- The ports at a round boundary: lockout time runs, running checks count the round and look at the designated client and at a head's link (R363,
R365). -/
def State.portsRound (s : State) : State :=
  let f := fun (k : Fin 4) =>
    let x := s.own.ports[k.val]
    let ok := match s.portClient k with
      | some c => s.inService c
      | none => false
    let runs := x.check.isSome && !x.checkNew
    { x with remain := x.remain - 1, checkN := if runs then min 16 (x.checkN + 1) else x.checkN, checkNew := false
             checkBad := x.checkBad || (runs && !ok) : PortSt }
  ({ s with own := { s.own with ports := Vector.ofFn f, portsAt := s.time.clk } } : State).commitPorts

/-- A device that has become keeper while an effect is pending goes on with it from its copy: it commits the epoch itself and asks every device
for its acknowledgement anew (Table 14.8). -/
def State.resumePend (s : State) : State :=
  match s.own.pend with
  | some q =>
    (({ s with own := { s.own with acks := [], pendFrom := s.time.clk } } : State).commitEpoch q.2.2.2).ctrl 64 68
      (fld s.ring.num 6 0 + fld q.2.2.2 32 8 + fld s.own.pendKey 3 40)
  | none => s

/-- Ownership at a round boundary: the keeper, the silence of the owner, lockout time, the key slots of the chain, an epoch reset, the
record; elsewhere the wait for the record, and a new keeper gets the claims in flight again (R350, R352, R353, R359 to R361, R366, R394). -/
def State.ownRound (s : State) : State :=
  let was := s.own.keeper
  let k := s.root
  let s := (s.renumber).portsRound
  let s := { s with own := { s.own with keeper := k } }
  if k ≠ s.ring.num then
    let n := if s.own.recSeen then 0 else min 2 (s.own.noRec + 1)
    let s := { s with own := { s.own with noRec := n, recSeen := false } }
    if was = k then s else (s.own.claims.filter fun c => c.verified && c.dev == s.ring.num).foldl (fun s c => s.sendClaim c) s
  else
    let s := if was = k then s else s.resumePend
    (((s.silenceRound).keyRound).epochRound).sendRecord

end Sys2Proof.Machine
end

