-- ==== Sys2Proof/Machine/Wd.lean ====
section
/-! DEFINITION. The juggler's slots and check-ins (R417 to R421), HOST_RST (R423), core watchdogs (R425, R426), the RTC: prescaler,
calendar, compensation, shadows, setting and shifting, wake (R427 to R434), supply switching (R435). Verdicts stand with the
playbook, which they feed. -/

namespace Sys2Proof.Machine

/-- The watchdog and RTC state changed. -/
def State.modWd (s : State) (f : WdSt → WdSt) : State := { s with wd := f s.wd }

/-! ### The juggler -/

/-- A slot's period ends at `now`: its verdict is due and the next period begins (R418, R421). -/
def State.endPeriod (s : State) (k : Slot) (now : Nat) : State :=
  let x := s.wd.slots[k.val]
  if x.armed = true ∧ x.beg + 4000 * x.period ≤ now then
    let v : Verdict := { slot := k.val, beg := x.beg, fin := x.beg + 4000 * x.period, client := x.client, good := x.good }
    (s.modWd fun w => { w with verdicts := w.verdicts ++ [v] }).modSlot k fun y => { y with beg := v.fin, good := false }
  else s

/-- WD_PERIOD_END: a slot's period ends (R421). -/
def execWdPeriodEnd (k : Slot) (s : State) : Host.Outcome State Fault Refusal := .next (s.endPeriod k s.bnd)

/-- WD_ARM acts: the slot's client and period are replaced; the period that ends here gets its verdict, one in progress none (R418,
Table 17.7). -/
def State.wdArmAct (s : State) (k : Slot) (period client : Nat) : State :=
  (s.endPeriod k s.time.clk).modSlot k fun x => { x with armed := true, client := client, period := period, beg := s.time.clk, good := false }

/-- WD_DISARM acts: the slot is disarmed and its pending verdicts are dropped (R418). -/
def State.wdDisarmAct (s : State) (k : Slot) : State :=
  (s.modWd fun w => { w with verdicts := w.verdicts.filter fun v => v.slot != k.val }).modSlot k fun x => { x with armed := false }

/-- A slot number as a slot. -/
def slotOf (n : Nat) : Slot := ⟨n % 16, by omega⟩

/-- WD_ARM with byte 17 = 0: disarm (R418). -/
def execWdDisarm (t : Tkt) (s : State) : Host.Outcome State Fault Refusal :=
  runTicket t 0x710 s { rng := [(16, t.byte 16 < 16), (21, t.le 20 2 < 4096)] } fun u =>
    (u.ok t).post (t.nbBeat u) .round (.wdDisarm (slotOf (t.byte 16)))

/-- WD_CHECKIN: it counts for the period that holds its check-in beat, in progress or with its verdict pending (R40, R419). -/
def execWdCheckin (t : Tkt) (s : State) : Host.Outcome State Fault Refusal :=
  let k := slotOf (t.byte 16)
  let x := s.wd.slots[k.val]
  runTicket t 0x700 s
    { rng := [(16, t.byte 16 < 16)], den := [failIf (x.armed && x.client != t.client) (denied 0)], pre := [failIf (!x.armed) badTarget] } fun u =>
    let u := if x.beg ≤ t.ts then (if t.ts < x.beg + 4000 * x.period then u.modSlot k fun y => { y with good := true } else u)
      else u.modWd fun w => { w with verdicts := w.verdicts.map fun v =>
        if v.slot = k.val ∧ v.beg ≤ t.ts ∧ t.ts < v.fin then { v with good := true } else v }
    u.ok t

/-- The limits of pending verdicts at a round boundary; they pause while the ticket engine's core is halted or restarts (R421). -/
def State.verdictRound (s : State) : State :=
  if s.engineStopped then s else s.modWd fun w => { w with verdicts := w.verdicts.map fun v => { v with left := v.left - 1 } }

/-- HOST_RST_RELEASE: HOST_RST is released after its pulse (R423). -/
def execHostRstRelease (s : State) : Host.Outcome State Fault Refusal :=
  match s.pwr.hostRst with
  | some b => if s.bnd < b then .next s else .next { s with pwr := { s.pwr with hostRst := none } }
  | none => .next s

/-! ### Core watchdogs -/

/-- CORE_WD_EXPIRY: the expiry resets the core, or is logged alone during a debugger's halt. After a release the first deadline lies
3 ms on (R425, R426). -/
def execCoreWdExpiry (d : Cd) (s : State) : Host.Outcome State Fault Refusal :=
  let i := d.ix.val
  if (s.wd.grace[i]).any fun b => decide (s.time.clk < b) then .next s
  else
    let s := s.modWd fun w => { w with grace := w.grace.set i none d.ix.isLt }
    if s.wd.halted[i] then .next (s.postDie 0x82 i)
    else .next ((s.modWd fun w => { w with restart := w.restart.set i true d.ix.isLt }).postDie 0x81 i)

/-- BELZAPOL_RESTART: the core has restarted and goes on with its carried work and the ticket engine (R425). -/
def execBelzapolRestart (d : Cd) (s : State) : Host.Outcome State Fault Refusal :=
  .next (s.modWd fun w => { w with restart := w.restart.set d.ix.val false d.ix.isLt })

/-- DEBUG_HALT: a debugger halts a management core once debug access has been opened (R426, R456). -/
def execDebugHalt (d : Cd) (s : State) : Host.Outcome State Fault Refusal :=
  if s.nvm.debugOpen then .next (s.modWd fun w => { w with halted := w.halted.set d.ix.val true d.ix.isLt }) else .next s

/-- DEBUG_RELEASE: the watchdog restarts with a full period and 1 round of grace (R426). -/
def execDebugRelease (d : Cd) (s : State) : Host.Outcome State Fault Refusal :=
  if s.wd.halted[d.ix.val] then
    .next (s.modWd fun w => { w with halted := w.halted.set d.ix.val false d.ix.isLt, grace := w.grace.set d.ix.val (some (s.time.clk + 12000)) d.ix.isLt })
  else .next s

/-! ### The calendar -/

/-- A leap year (R427). -/
def leap (year : Nat) : Bool := (year % 4 == 0 && year % 100 != 0) || year % 400 == 0

/-- The days of a month. -/
def monthDays (year month : Nat) : Nat :=
  if month = 2 then (if leap year then 29 else 28) else if [4, 6, 9, 11].contains month then 30 else 31

/-- The last second of the calendar: 2199-12-31 23:59:59. -/
def calEnd : Cal := { sec := 59, min := 59, hour := 23, day := 31, month := 12, year := 199 }

/-- A calendar a second later; it stops at its end (R427). -/
def Cal.tick (c : Cal) : Cal :=
  if c = calEnd then c
  else if c.sec < 59 then { c with sec := c.sec + 1 }
  else if c.min < 59 then { c with sec := 0, min := c.min + 1 }
  else if c.hour < 23 then { c with sec := 0, min := 0, hour := c.hour + 1 }
  else if c.day < monthDays (2000 + c.year) c.month then { c with sec := 0, min := 0, hour := 0, day := c.day + 1 }
  else if c.month < 12 then { c with sec := 0, min := 0, hour := 0, day := 1, month := c.month + 1 }
  else { sec := 0, min := 0, hour := 0, day := 1, month := 1, year := c.year + 1 }

/-- Days from 2000-01-01 to the first day of a year, given less 2000. -/
def yearDays (y : Nat) : Nat := ((List.range y).map fun i => if leap (2000 + i) then 366 else 365).sum

/-- Seconds since 2000-01-01 00:00:00 (R427). -/
def Cal.seconds (c : Cal) : Nat :=
  let d := yearDays c.year + ((List.range (c.month - 1)).map fun m => monthDays (2000 + c.year) (m + 1)).sum + (c.day - 1)
  ((d * 24 + c.hour) * 60 + c.min) * 60 + c.sec

/-- The prescaler adds `n` counts: a carry advances the seconds; the 1/64 s ticks it crosses advance the wake count (R427, R432, R433). -/
def State.prescale (s : State) (n : Nat) : State :=
  if s.wd.ended || s.wd.cal == calEnd && decide (32768 ≤ s.wd.pre + n) then s
  else
    let p := s.wd.pre + n
    let c := (List.range (p / 32768)).foldl (fun (c : Cal) _ => c.tick) s.wd.cal
    let ticks := p / 512 - s.wd.pre / 512
    s.modWd fun w => { w with pre := p % 32768, cal := c, wakeN := if w.wakeW = 0 then 0 else w.wakeN + ticks }

/-- The counts that the compensation adds at edge `i` of a window of 64 s, spread evenly (R429). -/
def rtcStep (comp : Int) (i : Nat) : Int := comp * ((i : Int) + 1) / 2097152 - comp * (i : Int) / 2097152

/-- The counts that the waiting shifts add at an edge. -/
def WdSt.adds (w : WdSt) : Nat := (w.shiftPend.map Int.toNat).sum
/-- The counts that the waiting shifts withhold from an edge on. -/
def WdSt.drops (w : WdSt) : Nat := (w.shiftPend.map fun n => (-n).toNat).sum

/-- RTC_EDGE: an edge of the crystal. The prescaler reset of RTC_SET applies, without an expiry, and the shifts that wait take effect; a withheld
increment is skipped; otherwise the prescaler counts, with the compensation of the window (R427, R429, R431, R432, Table 17.7). -/
def execRtcEdge (s : State) : Host.Outcome State Fault Refusal :=
  let add := s.wd.adds
  let reset := s.wd.setPend
  let i := s.wd.compDone
  let s := s.modWd fun w =>
    { w with stopped := false, compDone := (i + 1) % 2097152, setPend := false, pre := if reset then 0 else w.pre
             wakeN := if reset then 0 else w.wakeN, shiftPend := [], withhold := w.withhold + w.drops
             shifting := w.shifting || decide (0 < w.drops) }
  if reset then .next (s.prescale add)
  else if 0 < s.wd.withhold then .next ((s.modWd fun w => { w with withhold := w.withhold - 1 }).prescale add)
  else .next (s.prescale (1 + rtcStep s.wd.comp i + add).toNat)

/-- RTC_SHIFT_END: the withheld increments are over and SHIFTING clears (R432). -/
def execRtcShiftEnd (s : State) : Host.Outcome State Fault Refusal :=
  if 0 < s.wd.withhold then .next s else .next (s.modWd fun w => { w with shifting := false })

/-- RTC_COMPENSATION_WINDOW: OFS + K × (T − T0)² in ppm is the crystal's error; the window adds or drops the counts that cancel it, at
most 255 (R429). -/
def execRtcCompensationWindow (s : State) : Host.Outcome State Fault Refusal :=
  let c := s.rtccfg
  let d := s.therm.comp[3] - (4 * (RtcCfg.t0 c : Int) - 200)
  let v := 16000 * sint 8 (RtcCfg.ofs c) - (RtcCfg.k c : Int) * d * d
  .next (s.modWd fun w => { w with comp := clampI (-255) 255 (-(roundNear (v * 65536) 1000000000)), compDone := 0 })

/-- The device is up, so that an event can be posted at once (R428, R435). -/
def State.running (s : State) : Bool := decide (0 < s.start.step)

/-- RTC_FAULT, at once or at the next start-up (R428). -/
def State.rtcFault (s : State) : State := if s.running then s.postDev 0x85 else s.modWd fun w => { w with faultPend := true }

/-- RTC_CALENDAR_END: the calendar stops at its end (R427). -/
def execRtcCalendarEnd (s : State) : Host.Outcome State Fault Refusal :=
  if s.wd.cal = calEnd ∧ s.wd.ended = false then .next ((s.modWd fun w => { w with ended := true }).rtcFault) else .next s

/-- The calendar restarts and VALID clears (R428). -/
def State.rtcRestart (s : State) : State :=
  (s.modWd fun w => { w with valid := false, cal := {}, pre := 0, ended := false, withhold := 0, shifting := false, shiftPend := [], setPend := false }).rtcFault

/-- RTC_CRYSTAL_STOP: no edge within 64 AON cycles; a crystal that stands already stops no more (R428). -/
def execRtcCrystalStop (s : State) : Host.Outcome State Fault Refusal :=
  if s.wd.stopped then .next s else .next (s.modWd fun w => { w with stopped := true }).rtcRestart

/-- RTC_WAKE_EXPIRY: the wake period has been counted: the cause sets and RTC_WAKE is posted (R433). -/
def execRtcWakeExpiry (s : State) : Host.Outcome State Fault Refusal :=
  let w := s.wd
  if w.wakeW = 0 ∨ w.wakeN < w.wakeW ∨ w.stopped = true then .next s
  else .next ((s.modWd fun w => { w with wakeN := w.wakeN - w.wakeW, wakeRtc := true }).postDev 0x83)

/-- VRTC is lost: what the always-on domain and the retained memory hold is lost with it, and SUP_EN falls (R428, R435, R496). -/
def State.loseVrtc (s : State) : State :=
  let s := (s.modWd fun w => { w with wakeW := 0, wakeN := 0, wakeRtc := false, wakeBtn := false, wakeWarn := false, wakeFault := false, rstCnt := 0
                                      supply := false, rtcPosted := none }).rtcRestart
  { s with log := { s.log with alarms := Vector.replicate 64 {} }, therm := { s.therm with recs := [], recWait := [] }
           pwr := { s.pwr with supEn := false } }

/-- VBAK holds the domain: a pack is present, and ship mode is not in effect or keeps the RTC (R262, R265, R435). With CHEM = 0 no
pack is used (R251); while no image is in force nothing tells the device whether a pack is present, a free value (log entry
40). -/
def State.vbakUp (s : State) : Bool × State :=
  let live := !s.pack.shipIn || s.pack.rtcKeep
  if s.cfg.inForce.isSome then (live && s.packOn && !s.pack.missing, s)
  else
    let d := s.draw 2
    (live && d.1 == 1, d.2)

/-- VRTC_SWITCH: VRTC moves between VAON and VBAK; RTC_SUPPLY carries the source, 0 VAON or 1 VBAK, at once or at the next start-up. A
move to a VBAK that is absent or not kept loses VRTC (R435). -/
def execVrtcSwitch (toVbak : Bool) (s : State) : Host.Outcome State Fault Refusal :=
  let b := if toVbak then s.vbakUp else (true, s)
  let s := b.2
  if !b.1 then
    .next s.loseVrtc
  else
    let s := s.modWd fun w => { w with supply := toVbak }
    if s.running then .next (s.postDev 0x84 (b2n toVbak)) else .next (s.modWd fun w => { w with rtcPosted := some toVbak })

/-! ### Tickets -/

/-- RTC_SET acts at a beat boundary; the prescaler resets at the next edge (R431). -/
def State.rtcSetAct (s : State) (c : Cal) : State :=
  s.modWd fun w => { w with cal := c, valid := true, setPend := true, ended := false, withhold := 0, shifting := false, shiftPend := [], wakeN := 0 }

/-- RTC_SHIFT acts at the first edge after its beat boundary; two at one boundary act in processing order (R432, Table 17.7). -/
def State.rtcShiftAct (s : State) (n : Int) : State := s.modWd fun w => { w with shiftPend := w.shiftPend ++ [n] }

/-- RTC_WAKE acts at a round boundary; 0 disarms (R433). -/
def State.rtcWakeAct (s : State) (n : Nat) : State := s.modWd fun w => { w with wakeW := n, wakeN := 0 }

/-- RTC_SET: a date that does not exist is malformed. The stub carries the beat of the write (R431). -/
def execRtcSet (t : Tkt) (s : State) : Host.Outcome State Fault Refusal :=
  let y := t.le 16 2
  let m := t.byte 18
  let c : Cal := { year := y - 2000, month := m, day := t.byte 19, hour := t.byte 20, min := t.byte 21, sec := t.byte 22 }
  runTicket t 0x720 s
    { rng := [(16, 2000 ≤ y ∧ y ≤ 2199), (18, 1 ≤ m ∧ m ≤ 12), (19, 1 ≤ c.day ∧ c.day ≤ monthDays y m), (20, c.hour < 24), (21, c.min < 60),
              (22, c.sec < 60)] } fun u =>
    (u.ok t 0 (max (t.nbBeat u) (u.time.clk + 1))).post (t.nbBeat u) .beat (.rtcSet c)

/-- RTC_SHIFT: BUSY while a negative shift runs (R432). -/
def execRtcShift (t : Tkt) (s : State) : Host.Outcome State Fault Refusal :=
  let n := sint 32 (t.le 16 4)
  runTicket t 0x730 s { rng := [(16, n.natAbs ≤ 32768)], post := [failIf s.wd.shifting busy] } fun u =>
    (u.ok t).post (t.nbBeat u) .beat (.rtcShift n)

/-- RTC_WAKE (R433). -/
def execRtcWake (t : Tkt) (s : State) : Host.Outcome State Fault Refusal :=
  runTicket t 0x740 s { rng := [(16, t.le 16 4 ≤ 5529600)] } fun u => (u.ok t).post (t.nbBeat u) .round (.rtcWake (t.le 16 4))

/-- RTC_READ: the calendar as RTC_SET writes it and the sub-second in 1/256 s, always coherent (R430). -/
def execRtcRead (t : Tkt) (s : State) : Host.Outcome State Fault Refusal :=
  runTicket t 0x750 s {} fun u =>
    let c := u.wd.cal
    u.ok t 0 (fld (2000 + c.year) 16 0 + fld c.month 8 16 + fld c.day 8 24 + fld c.hour 8 32 + fld c.min 8 40 + fld c.sec 8 48
      + fld (u.wd.pre / 128) 8 56)

/-! ### The shadows of a register path -/

/-- RTC_TIME0_READ: the shadows of the path freeze and the time is returned (R430). -/
def execRtcTime0Read (path : Path) (s : State) : Host.Outcome State Fault Refusal :=
  let live : RtcShadow := { cal := s.wd.cal, pre := s.wd.pre, valid := s.wd.valid, shifting := s.wd.shifting, supply := s.wd.supply
                            frozen := true, atBeat := s.time.clk }
  let s := s.modWd fun w => { w with shadows := w.shadows.set path.ix.val live path.ix.isLt }
  .next { s with host := { s.host with bus := some live.time0, busUr := false } }

/-- RTC_TIME1_READ: the frozen date with COHERENT = 1, which releases the shadows; the live date when none are frozen (R430). -/
def execRtcTime1Read (path : Path) (s : State) : Host.Outcome State Fault Refusal :=
  let v := (s.rtcView path).time1
  let s := s.modWd fun w => { w with shadows := w.shadows.set path.ix.val {} path.ix.isLt }
  .next { s with host := { s.host with bus := some v, busUr := false } }

/-- RTC_SHADOW_RELEASE: frozen shadows release 1 s after the freeze (R430). -/
def execRtcShadowRelease (path : Path) (s : State) : Host.Outcome State Fault Refusal :=
  let x := s.wd.shadows[path.ix.val]
  if x.frozen && decide (x.atBeat + 4000000 ≤ s.time.clk) then
    .next (s.modWd fun w => { w with shadows := w.shadows.set path.ix.val {} path.ix.isLt })
  else .next s

end Sys2Proof.Machine
end

