-- ==== Sys2Proof/Machine/Playbook.lean ====
section
/-! DEFINITION. The playbook: triggers and persistence (R206 to R208, R283), matching at a frame boundary (R209), the ranking of
rail actions (R210, R492), what each action does (R209 to R213, R284), thermal records (R285), and the juggler's verdicts, which are
triggers of their own (R421, R422). -/

namespace Sys2Proof.Machine

/-! ### The running state of orders -/

/-- The running state of an order for a unit and a sub-unit. -/
def State.runOf (s : State) (idx unit slot : Nat) : OrderRun :=
  (s.orders.find? fun x => x.idx == idx && x.unit == unit && x.slot == slot).getD { idx := idx, unit := unit, slot := slot }

/-- The running state of an order, replaced. -/
def State.putRun (s : State) (x : OrderRun) : State :=
  { s with orders := (s.orders.filter fun y => !(y.idx == x.idx && y.unit == x.unit && y.slot == x.slot)) ++ [x] }

/-- One evaluation of an order: the count of evaluations in which the trigger held, and whether the order fires. A fired order fires
again only after an evaluation in which its trigger does not hold (R208). -/
def OrderRun.step (x : OrderRun) (persist : Nat) (holds : Bool) : OrderRun × Bool :=
  if !holds then ({ x with held := 0, fired := false }, false)
  else
    let n := min 255 (x.held + 1)
    let f := !x.fired && decide (persist ≤ n)
    ({ x with held := n, fired := x.fired || f }, f)

/-! ### Triggers -/

/-- A threshold of a source stands ABOVE: 0x50 the warn threshold, 0x51 the critical one (R283). -/
def State.srcAbove (s : State) (k : Src) (code : Nat) : Bool :=
  let x := s.therm.src[k.val]
  s.srcEn k && !x.suspect && (if code = 0x50 then x.warn.above else x.crit.above)

/-- The sources of a unit (R283). -/
def State.srcsOf (scope unit : Nat) : List Src :=
  (List.finRange 76).filter fun k =>
    if scope = scPhase then k.val == unit + 24
    else if scope = scDie then decide (k.val < 24) && k.val / 8 == unit
    else scope == scDev && decide (72 ≤ k.val)

/-- A trigger that is a state: a window left (R204, Table 7.5), or a threshold that stands above, with the critical threshold standing for
a die that has no unmarked sensor (R279, R283). A benched rail evaluates none (R17), nor a benched device (R213, R393); of device scope only
this device's own states hold. -/
def State.stateHolds (s : State) (code scope unit : Nat) : Bool :=
  if s.ring.benchedMe || s.ring.outMe || (scope == scDev && unit != s.ring.num) then false
  else if code ≤ 0x25 then
    match railOf unit with
    | some r => scope == scRail && !s.railBenched r && bit (s.railAt r).left (code - 0x20)
    | none => false
  else if code = 0x52 then scope == scDev && s.therm.pkg.above
  else (State.srcsOf scope unit).any (fun k => s.srcAbove k code)
    || (code == 0x51 && scope == scDie && (if h : unit < 3 then s.unmarked ⟨unit, h⟩ == 0 else false))

/-- A trigger is a state rather than the report of an event. -/
def stateTrig (code : Nat) : Bool := decide ((0x20 ≤ code ∧ code ≤ 0x25) ∨ (0x50 ≤ code ∧ code ≤ 0x52))

/-- A trigger whose period is the round: an event that the device finds in round work, of gangs (R141), feeds' groups and supplies (R237, R248), the
charger and the gauge (R253 to R270), ageing and the margin plan (R287 to R292), the meter's round (R303, R305), the ring's rounds (R391, R392),
ownership (R361), start-up (R470) and overlays (R488). Every other trigger is evaluated at the frame (R208, R209, log entry 98). -/
def roundTrig (code : Nat) : Bool :=
  [0x10, 0x38, 0x3C, 0x40, 0x41, 0x42, 0x43, 0x44, 0x45, 0x48, 0x49, 0x4A, 0x4B, 0x4C, 0x56, 0x57, 0x58, 0x5B, 0x5C, 0x5D, 0x63, 0x64, 0x69, 0x6B,
   0x78, 0x79, 0x7D, 0x93, 0x9A].contains code

/-- A trigger holds for a unit in this evaluation: its state, or its event since the last evaluation (R208). -/
def State.holds (s : State) (code scope unit : Nat) : Bool :=
  if stateTrig code then s.stateHolds code scope unit else s.log.evalQ.contains (code, scope, unit)

/-- The units for which an order is evaluated (R207). -/
def State.unitsFor (s : State) (o : Order) : List Nat :=
  let w := o.word
  let sc := PbOrder.scope w
  if !PbOrder.any w then [PbOrder.unit w]
  else if stateTrig (PbOrder.trig w) then (if sc = scDev then [s.ring.num] else List.range (scopeUnits sc))
  else (((s.log.evalQ.filter fun e => e.1 == PbOrder.trig w && e.2.1 == sc).map fun e => e.2.2)
    ++ (s.orders.filter fun x => x.idx == o.idx).map OrderRun.unit).dedup

/-! ### Matching -/

/-- The rails that an order's action turns off or hiccups (R209). -/
def State.actRails (s : State) (o : Order) (unit : Nat) : List Rail :=
  let w := o.word
  let r := s.unitRail (PbOrder.scope w) unit
  match PbOrder.action w with
  | 1 => r.toList
  | 2 => r.toList
  | 4 => rails.filter fun x => s.railEn x && (match r with
    | some y => (s.regionOf x.val).isSome && s.regionOf x.val == s.regionOf y.val
    | none => PbOrder.scope w == scRegion && (s.regionOf x.val).map Fin.val == some unit)
  | 5 => rails.filter s.railEn
  | _ => []

/-- The rank of a rail action: BENCH_DEVICE, BENCH_REGION, RAIL_OFF, HICCUP (R210). -/
def rankOf (action : Nat) : Nat := if action = 5 then 0 else if action = 4 then 1 else if action = 2 then 2 else 3

/-- Of two orders that fire at one boundary, the first outranks the second on a rail: by the rank of its action (R210, R492). Of two with the
same action, which the spec does not rank, the lower index applies, then the lower unit (DESIGN CHOICE, log entry 106). -/
def State.ranksOver (s : State) (x y : Order × Nat) : Bool :=
  let b := PbOrder.action x.1.word
  let a := PbOrder.action y.1.word
  (decide (rankOf b < rankOf a) || (b == a && decide (x.1.idx < y.1.idx ∨ (x.1.idx = y.1.idx ∧ x.2 < y.2))))
    && (s.actRails x.1 x.2).any fun r => (s.actRails y.1 y.2).contains r

/-- Of the orders that fire at one boundary, another one outranks this one on a rail (R210, R492). -/
def State.outranked (s : State) (l : List (Order × Nat)) (o : Order) (unit : Nat) : Bool := l.any fun x => s.ranksOver x (o, unit)

/-- The orders fired at this boundary whose actions stand posted for it: those of a frame's evaluation, of a round's and of the verdicts
(R209, R210). -/
def State.firedHere (s : State) : List (Order × Nat) :=
  s.sched.filterMap fun x => match x.act with
    | .order i u _ _ => if x.nb = s.time.clk + 10 then (s.orderAt i).map fun o => (o, u) else none
    | _ => none

/-- An order's action gives way to the actions of a boundary, `lost` those that apply no more: their reports, which still wait for the event
staging, say outranked; a DISCHARGE of the rail that a HICCUP of the boundary takes waits for OFF (R210, Table 7.13). -/
def State.giveWay (s : State) (f : Order × Nat) : State :=
  let lost := s.firedHere.filter fun x => s.ranksOver f x
  let isLost := fun (i u : Nat) => lost.any fun x => x.1.idx == i && x.2 == u
  let rail := s.unitRail (PbOrder.scope f.1.word) f.2
  let waits := fun (i u : Nat) => PbOrder.action f.1.word == 1 && (match s.orderAt i with
    | some o => PbOrder.action o.word == 3 && s.unitRail (PbOrder.scope o.word) u == rail
    | none => false)
  let next := s.time.clk + 10
  let sched := s.sched.filterMap fun x => match x.act with
    | .order i u thr w => if x.nb = next ∧ isLost i u = true then none
      else some { x with act := .order i u thr (w || (x.nb == next && waits i u)) }
    | _ => some x
  let staged := s.log.staged.map fun (e : Event) =>
    if e.code = 0x19 ∧ e.beat = s.time.clk ∧ isLost e.arg0 e.unit = true then { e with arg2 := 1 } else e
  { s with sched := sched, log := { s.log with staged := staged } }

/-- A thermal shutdown (R284). -/
def thermalOrder (w : Nat) : Bool :=
  decide (0x50 ≤ PbOrder.trig w ∧ PbOrder.trig w ≤ 0x52) && (decide (1 ≤ PbOrder.action w ∧ PbOrder.action w ≤ 6) || PbOrder.action w == 9)

/-- The source that a thermal shutdown names: the first of the unit that stands above, the first sensor of a die that has none unmarked, and
none for the package maximum (R279, R285, log entry 25). -/
def State.shutSrc (s : State) (code scope unit : Nat) : Option Src :=
  if code = 0x52 then none
  else match (State.srcsOf scope unit).find? fun k => s.srcAbove k code with
    | some k => some k
    | none => if scope = scDie then (State.srcsOf scope unit).head? else none

/-- The THERM_REC of a thermal shutdown, at matching; with 4 records held it waits. THERM_SHUT carries the source and the order (R285,
log entry 25). -/
def State.thermRecord (s : State) (o : Order) (unit : Nat) : State :=
  let w := o.word
  let code := PbOrder.trig w
  let k := s.shutSrc code (PbOrder.scope w) unit
  let src : Nat := match k with
    | some k => k.val
    | none => 0xFF
  let x : SrcSt := match k with
    | some k => s.therm.src[k.val]
    | none => {}
  let pkg := (s.pkgMax).getD 0
  let tq := if k.isSome then x.tq.getD 0 else pkg
  let thr := match k with
    | some k => if code = 0x50 then s.warnQ k else s.critQ k
    | none => 4 * (ThermCfg.pkgLim s.thcfg : Int) - 200
  let rec_ : ThermRec :=
    { beat := s.time.clk, time := s.wd.cal.seconds, src := src, tq := tempField tq, sample := if k.isSome then x.s0.getD 0 else pkg, trig := code
      thr := tempField thr, order := o.idx, action := PbOrder.action w + 16 * o.layer, ovl := s.cfg.ovl
      rails := (rails.map fun r => fld (s.railAt r).st.code 3 (3 * r.val)).sum, dies := s.reg .bar0 0x0140 % 256 }
  let th := s.therm
  let th := if th.recs.length < 4 then { th with recs := th.recs ++ [rec_] } else { th with recWait := th.recWait ++ [rec_] }
  ({ s with therm := th } : State).postDev 0x55 src o.idx

/-- The off threshold of a DISCHARGE order in mV, as it fires: PARAM2, or that of the holding RAIL_OFF step for SEQ_STALL, or the
default (R212). -/
def State.dischargeThr (s : State) (o : Order) (unit : Nat) : Nat :=
  let w := o.word
  match s.unitRail (PbOrder.scope w) unit with
  | some r =>
    if PbOrder.param2 w ≠ 0 then PbOrder.param2 w
    else if PbOrder.trig w = 0x27 then (s.railAt r).seqThr.getD (offDefault (s.railAt r).vset)
    else offDefault (s.railAt r).vset
  | none => 0

/-- A HICCUP of the same rail fires at the same boundary: DISCHARGE then waits for OFF (Table 7.13). -/
def State.hiccupToo (s : State) (l : List (Order × Nat)) (o : Order) (unit : Nat) : Bool :=
  PbOrder.action o.word == 3 && l.any fun x =>
    PbOrder.action x.1.word == 1 && s.unitRail (PbOrder.scope x.1.word) x.2 == s.unitRail (PbOrder.scope o.word) unit

/-- An order fires: it is reported with its layer and whether it is outranked, by an order of its evaluation or of another one of the same
boundary; its action takes effect 10 beats after the boundary, 2 beats after the end of window evaluation at the latest (R209, R210, R492,
Table 7.8). An order with a round-period trigger acts at that beat as well (DESIGN CHOICE, log entry 107). -/
def State.fire (s : State) (l : List (Order × Nat)) (o : Order) (unit : Nat) : State :=
  let l := l ++ s.firedHere
  let out := s.outranked l o unit
  let s := s.giveWay (o, unit)
  let s := if thermalOrder o.word then s.thermRecord o unit else s
  let s := s.postOrder 0x19 o.idx unit (PbOrder.action o.word + 256 * o.layer) (b2n out)
  if out then s else s.post (s.time.clk + 10) .beat (.order o.idx unit (s.dischargeThr o unit) (s.hiccupToo l o unit))

/-- The evaluation of the orders whose trigger has one of the two periods, on the events since the last evaluation of that period (R208, R209).
The verdicts of the juggler are evaluated apart (R422). -/
def State.playbookEval (s : State) (round : Bool) : State :=
  let l := s.cfg.orders.filter fun o => PbOrder.trig o.word != 0x80 && roundTrig (PbOrder.trig o.word) == round
  let r := l.foldl (fun (a : State × List (Order × Nat)) o =>
    (s.unitsFor o).foldl (fun (a : State × List (Order × Nat)) u =>
      let x := (a.1.runOf o.idx u 0).step (PbOrder.persist o.word) (s.holds (PbOrder.trig o.word) (PbOrder.scope o.word) u)
      (if x.1 = a.1.runOf o.idx u 0 then a.1 else a.1.putRun x.1, if x.2 then a.2 ++ [(o, u)] else a.2)) a) (s, [])
  let q := r.1.log.evalQ.filter fun e => roundTrig e.1 != round
  let t := { r.1 with log := { r.1.log with evalQ := q } }
  r.2.foldl (fun (t : State) f => t.fire r.2 f.1 f.2) t

/-- The evaluation of frame-period triggers at a frame boundary (R209). -/
def State.playbookFrame (s : State) : State := s.playbookEval false

/-- The evaluation of round-period triggers in round bookkeeping (R209). -/
def State.playbookRound (s : State) : State := s.playbookEval true

/-! ### Actions -/

/-- HICCUP: not executed on a rail commanded off or benched; with no attempt left the rail enters OFF and is benched (R211). -/
def State.doHiccup (s : State) (o : Order) (unit : Nat) (r : Rail) : State :=
  let w := o.word
  let x := s.runOf o.idx unit 0
  let lim := bits (PbOrder.param2 w) 3 0
  let y := s.railAt r
  if y.cmdOn = false ∨ y.benched.isSome = true ∨ y.st = .off then s.postOrder 0x1A o.idx unit
  else if lim ≠ 0 ∧ lim ≤ x.used then ((s.enterOff r).modRail r fun y => { y with cmdOn := false }).benchRailOut r 1
  else (s.putRun { x with used := min 15 (x.used + 1) }).enterHiccup r (PbOrder.param1 w)

/-- BENCH_DEVICE: every rail is benched, the device detaches from its gangs, PG0 to PG7 pull low, and the device's readings are observations
from here on; a thermal shutdown of Die P also turns off the housekeeping supplies and stops the charger (R213, R217, R284). -/
def State.doBenchDevice (s : State) (o : Order) : State :=
  let w := o.word
  let s := (rails.filter s.railEn).foldl (fun s r => s.benchRailOut r 5) s
  let s := (rails.filter s.ganged).foldl (fun s r => s.gangDetach r) s
  let s := { s with pwr := { s.pwr with pg := 0 }, ring := { s.ring with outMe := true } }
  if thermalOrder w && PbOrder.scope w == scDie && !PbOrder.any w && PbOrder.unit w == 2 then
    let s := s.hkAllOff
    { s with pack := { s.pack with stopPend := true } }
  else s

/-- HOST_RST: the ball is held low for PARAM1 rounds, a further firing extends it; a new assertion for WD_MISS counts (R423, R424). -/
def State.doHostRst (s : State) (o : Order) : State :=
  let e := s.time.clk + 4000 * PbOrder.param1 o.word
  if s.start.barker ∨ s.pack.hold.isSome then s
  else
    let new := s.pwr.hostRst.isNone && PbOrder.trig o.word == 0x80
    let n := satAdd 16 s.wd.rstCnt (b2n new)
    { s with pwr := { s.pwr with hostRst := some (max e (s.pwr.hostRst.getD 0)) }
             wd := { s.wd with rstCnt := n, rstNvm := if new && !s.noRram then n else s.wd.rstNvm } }

/-- A fired order acts (Table 7.7). -/
def State.orderAct (s : State) (idx unit thr : Nat) (wait : Bool) : State :=
  match s.orderAt idx with
  | none => s
  | some o =>
    let w := o.word
    let r := s.unitRail (PbOrder.scope w) unit
    match PbOrder.action w, r with
    | 1, some r => if s.followsGang r then s else s.doHiccup o unit r
    | 2, some r => if s.followsGang r then s else s.benchRailOut r 2
    | 3, some r => if s.followsGang r then s else s.dischargeOrder r (PbOrder.param1 w) thr wait
    | 4, _ => (s.actRails o unit).foldl (fun (s : State) r => if s.followsGang r then s else s.benchRailOut r 4) s
    | 5, _ => s.doBenchDevice o
    | 6, _ => match progOf (PbOrder.param1 w) with
      | some n => s.post (nextFrame s.time.clk) .frame (.seqRun n none (some (idx, unit)))
      | none => s
    | 7, _ => s.doHostRst o
    | 8, _ => s.packOpenOrder (PbOrder.param1 w)
    | 9, _ => { s with pack := { s.pack with stopPend := true } }
    | 10, _ => s.post (nextRound s.time.clk) .round (.overlaySelect (PbOrder.param1 w) (some idx))
    | _, _ => s

/-! ### Verdicts of the juggler -/

/-- A verdict of a slot is an evaluation of every WD_MISS order that names its device (R422). -/
def State.verdictOrders (s : State) (slot : Nat) (miss : Bool) : State :=
  let l := s.cfg.orders.filter fun o => PbOrder.trig o.word == 0x80 && PbOrder.scope o.word == scDev
    && (PbOrder.any o.word || PbOrder.unit o.word == s.ring.num)
  let r := l.foldl (fun (a : State × List (Order × Nat)) o =>
    let x := (a.1.runOf o.idx s.ring.num (slot + 1)).step (PbOrder.persist o.word) miss
    (a.1.putRun x.1, if x.2 then a.2 ++ [(o, s.ring.num)] else a.2)) (s, [])
  r.2.foldl (fun (t : State) f => t.fire r.2 f.1 f.2) r.1

/-- Every ticket of a client with a check-in beat before `e` has been processed: none is fetched and waiting, and none is still in the
ring of a client of this head (R421). -/
def State.processed (s : State) (client e : Nat) : Bool :=
  let c := s.client client
  !(s.host.fetched.any fun f => f.client == client && decide (f.ts < e)) && !(c.tsAt.dropWhile fun x => x.1 == c.tktHead).any fun x => decide (x.2 < e)

/-- WD_VERDICT: the oldest pending verdict of a slot is given at a round boundary, once its tickets are processed or 16 rounds have
passed: a miss posts WD_MISS with slot and client and sets MISSED (R421). -/
def execWdVerdict (k : Slot) (s : State) : Host.Outcome State Fault Refusal :=
  match s.wd.verdicts.find? fun v => v.slot == k.val with
  | none => .next s
  | some v =>
    let c := v.client
    if s.bnd % 4000 ≠ 0 ∨ s.engineStopped = true ∨ s.bnd < v.fin ∨ (0 < v.left ∧ s.processed c v.fin = false) then .next s
    else .next (s.atBoundary fun s =>
      let s := (s.modWd fun w => { w with verdicts := w.verdicts.erase v }).modSlot k fun x => { x with missed := !v.good }
      let s := if v.good then s else s.postDev 0x80 k.val c
      s.verdictOrders k.val (!v.good))

end Sys2Proof.Machine
end

