-- ==== Sys2Proof/Machine/Logs.lean ====
section
/-! DEFINITION. The event queues, their staging and their summaries (R399, R403 to R406), the journal and its commit (R405, R451), sectors
and spares of the RRAM (R450, R453), the token bucket, alarm clearing (R402), the trace and its stream (R408 to R410), and the performance
counters (R411 to R415). -/

namespace Sys2Proof.Machine

/-! ### Records -/

/-- The 32 bytes of an event record as a number, PHASE not set; `dev` is this device's number (Table 13.4). -/
def Event.word (e : Event) (dev : Nat) : Nat :=
  fld e.code 8 0 + fld (b2n e.close) 1 8 + fld (b2n e.summary) 1 9 + fld (b2n e.obs) 1 10 + fld (e.dev.getD dev) 6 16 + fld e.scope 3 24
    + fld e.unit 16 32 + fld e.count 16 48 + fld e.beat 64 64 + fld e.arg0 32 128 + fld e.arg1 32 160 + fld e.arg2 32 192
    + fld (e.eseq.getD 0) 16 224 + fld (b2n e.eseq.isNone) 1 240

/-- The 32 bytes of a THERM_REC as a number (Table 10.7). -/
def ThermRec.word (x : ThermRec) : Nat :=
  fld x.beat 64 0 + fld x.time 32 64 + fld x.src 8 96 + fld x.tq 8 104 + fld (uword 16 x.sample) 16 112 + fld x.trig 8 128
    + fld x.thr 8 136 + fld x.order 16 144 + fld x.action 8 160 + fld x.ovl 8 168 + fld x.rails 40 176 + fld x.dies 8 216

/-! ### The event queues -/

/-- Two records coalesce: they agree in CODE, DEV, SCOPE, UNIT, CLOSE and OBS and neither is a summary (R404). -/
def Event.meets (a b : Event) : Bool :=
  a.code == b.code && a.dev == b.dev && a.scope == b.scope && a.unit == b.unit && a.close == b.close && a.obs == b.obs && !a.summary && !b.summary

/-- The first pending record that an event coalesces into counts it (R404). -/
def qJoin (e : Event) : List Event → Option (List Event × Event)
  | [] => none
  | x :: r =>
    if x.meets e then some ({ x with count := satAdd 16 x.count 1 } :: r, x)
    else (qJoin e r).map fun y => (x :: y.1, y.2)

/-- A dropped event is counted in the summary entry of its code, or in the seventeenth when 16 codes have one (R406). Answers the entries
and whether one was opened. -/
def sumDrop (l : List SumEnt) (code beat : Nat) : List SumEnt × Bool :=
  let k := if l.any (fun x => x.code == code) then code else if countP (fun (x : SumEnt) => x.code != 0xFF) l < 16 then code else 0xFF
  if l.any fun x => x.code == k then
    (l.map fun x => if x.code = k then { x with n := satAdd 32 x.n 1, t2 := beat } else x, false)
  else (l ++ [{ code := k, t1 := beat, n := 1, t2 := beat }], true)

/-- The summary entry with the earliest first drop. -/
def sumFirst (l : List SumEnt) : Option SumEnt :=
  l.foldl (fun (o : Option SumEnt) (x : SumEnt) => match o with
    | some y => if x.t1 < y.t1 then some x else some y
    | none => some x) none

/-- The record of a summary entry (R343, R406). -/
def SumEnt.event (x : SumEnt) (dev : Nat) (eseq : Option Nat) : Event :=
  { code := x.code, summary := true, scope := scDev, unit := dev, beat := x.t1, arg0 := x.n, arg1 := x.t2 % 2 ^ 32, arg2 := x.t2 / 2 ^ 32
    eseq := eseq }

/-- The pending summaries of the ring queue enter while slots are free, in order of t1, with the next ESEQ each (R399, R406). -/
def State.ringSums : Nat → State → State
  | 0, s => s
  | n + 1, s =>
    match sumFirst s.log.ringSum with
    | some x =>
      if s.log.ringQ.length < 256 then
        State.ringSums n { s with log := { s.log with ringQ := s.log.ringQ ++ [x.event s.ring.num (some s.log.eseq)]
                                                      ringSum := s.log.ringSum.filter fun y => y.code != x.code
                                                      eseq := wrapAdd 16 s.log.eseq 1 } }
      else s
    | none => s

/-- The pending summaries of the journal queue enter while slots are free, with no ESEQ; none while the journal is read-only. -/
def State.jrnSums : Nat → State → State
  | 0, s => s
  | n + 1, s =>
    match sumFirst s.log.jrnSum with
    | some x =>
      if s.log.jrnQ.length < 256 ∧ s.log.jro = false then
        State.jrnSums n { s with log := { s.log with jrnQ := s.log.jrnQ ++ [x.event s.ring.num none]
                                                     jrnSum := s.log.jrnSum.filter fun y => y.code != x.code } }
      else s
    | none => s

/-- An event finds the ring queue full and is dropped (R406). The opening of a summary entry raises EVENT_DROP (R400, R407). -/
def State.ringDrop (s : State) (e : Event) : State :=
  let d := sumDrop s.log.ringSum e.code e.beat
  let s := ({ s with log := { s.log with ringSum := d.1 } } : State).count 0x05C 2 1
  if d.2 then s.raise 62 else s

/-- An event enters the ring queue: it coalesces, takes a free slot and the next ESEQ, or is dropped. Answers the ESEQ of the record that
holds it, and none for a drop (R399, R403, R404, R406). -/
def State.ringPut (s : State) (e : Event) : Option Nat × State :=
  match qJoin e s.log.ringQ with
  | some (q, x) => (x.eseq, ({ s with log := { s.log with ringQ := q } } : State).count 0x05C 1 1)
  | none =>
    if s.log.ringQ.length < 256 then
      let n := s.log.eseq
      (some n, { s with log := { s.log with ringQ := s.log.ringQ ++ [{ e with eseq := some n }], eseq := wrapAdd 16 n 1 } })
    else (none, s.ringDrop e)

/-- A record of the journal queue goes to the summaries (R406, R416). -/
def State.jrnDrop (s : State) (e : Event) : State :=
  let d := sumDrop s.log.jrnSum e.code e.beat
  let s := ({ s with log := { s.log with jrnSum := d.1 } } : State).count 0x05C 2 1
  if d.2 then s.raise 62 else s

/-- An event enters the journal queue with the ESEQ that the ring path gave it (R399, R403, R404, R406). -/
def State.jrnPut (s : State) (e : Event) : State :=
  if s.log.jro then s.jrnDrop e
  else match qJoin e s.log.jrnQ with
    | some (q, _) => ({ s with log := { s.log with jrnQ := q } } : State).count 0x05C 1 1
    | none =>
      if s.log.jrnQ.length < 256 then { s with log := { s.log with jrnQ := s.log.jrnQ ++ [e] } }
      else s.jrnDrop e

/-- The event that a record of another device holds (Table 13.4). -/
def eventOf (w : Nat) : Event :=
  { code := bits w 7 0, close := bit w 8, summary := bit w 9, obs := bit w 10, dev := some (bits w 21 16), scope := bits w 26 24
    unit := bits w 47 32, count := bits w 63 48, beat := bits w 127 64, arg0 := bits w 159 128, arg1 := bits w 191 160, arg2 := bits w 223 192
    eseq := if bit w 240 then none else some (bits w 239 224) }

/-- An event that another device has sent for the owner joins the ring queue, with the ESEQ that its device gave it: it coalesces, takes a free
slot, or is dropped as any event (R329, R399, R404, R406, log entry 62). -/
def State.eventTake (s : State) (w : Nat) : State :=
  let e := eventOf w
  match qJoin e s.log.ringQ with
  | some (q, _) => ({ s with log := { s.log with ringQ := q } } : State).count 0x05C 1 1
  | none => if s.log.ringQ.length < 256 then { s with log := { s.log with ringQ := s.log.ringQ ++ [e] } } else s.ringDrop e

/-- The packet that carries an event to the owner's device, in the telemetry class (R329, R375, log entry 62). -/
def eventPkt (src w : Nat) : RingPkt := { kind := 3, src := src, len := 8, body := w }

/-- RING_TELEMETRY_PACKET: a head learns a device's round-mean feed currents (R237), or the owner's device takes another device's event in
(R329). -/
def execRingTelemetryPacket (rx : RxIn) (x : TelemIn) (ga : Nat) (ia : Int) (gb : Nat) (ib : Int) (s : State) : Host.Outcome State Fault Refusal :=
  match x.event with
  | none => .next (s.rxFor rx (chainPkt x.dev ga ia gb ib) fun s => s.chainTake x.dev ga ia gb ib)
  | some w => .next (s.rxFor rx (eventPkt x.dev w) fun s => s.eventTake w)

/-- Event staging at a frame boundary: pending summaries first, then the events generated before the boundary, in BEAT order (R403,
R406). -/
def State.stageFrame (s : State) : State :=
  let now := s.time.clk
  let old := s.log.staged.filter fun e => e.beat != now
  let s := { s with log := { s.log with staged := s.log.staged.filter fun e => e.beat == now } }
  let s := State.jrnSums 17 (State.ringSums 17 s)
  old.foldl (fun s e =>
    let r := s.ringPut e
    r.2.jrnPut { e with eseq := r.1 }) s

/-! ### RRAM sectors -/

/-- The journal becomes read-only: JOURNAL_RO is raised and the queue's records go to the summaries (R416, R453). -/
def State.journalRo (s : State) : State :=
  if s.log.jro then s
  else
    let q := s.log.jrnQ
    let s : State := { s with log := { s.log with jro := true, jrnQ := [] } }
    q.foldl (fun s e => s.jrnDrop e) (s.postDev 0x89)

/-- A sector is retired: its content moves to a spare, and NVM_RETIRE is posted. With the 16 spares used up the journal turns read-only;
then its own sectors are the spares, the lowest first, and with none of those left NVM_RO is set (R453). -/
def State.retire (s : State) (k : Nat) : State :=
  let s := s.count 0x05B 3 1
  let s := s.postDev 0x88 k
  if s.nvm.spares < 16 then
    let s : State := { s with nvm := { s.nvm with spares := s.nvm.spares + 1, erases := s.nvm.erases.filter fun e => e.1 != k } }
    if s.nvm.spares = 16 then s.journalRo else s
  else if s.nvm.jrnTaken < 32 then
    let j := s.nvm.jrnTaken
    let n := ((s.nvm.erases.find? fun e => e.1 == j).map Prod.snd).getD 0
    { s with nvm := { s.nvm with jrnTaken := j + 1, erases := (s.nvm.erases.filter fun e => e.1 != k && e.1 != j) ++ [(k, n)] }
             log := { s.log with journal := s.log.journal.filter fun e => e.1 / 128 != j } }
  else { s with nvm := { s.nvm with nvmRo := true } }

/-- A sector is erased; at 100,000 erases it is retired (R450, R453). -/
def State.eraseSector (s : State) (k : Nat) : State :=
  let n := ((s.nvm.erases.find? fun e => e.1 == k).map Prod.snd).getD 0 + 1
  let s : State := { s with nvm := { s.nvm with erases := (s.nvm.erases.filter fun e => e.1 != k) ++ [(k, n)] } }
  if 100000 ≤ n then s.retire k else s

/-! ### The journal -/

/-- One record of 32 bytes is written to the journal; a place that begins a sector in use erases that sector first (R405). -/
def State.jrnWrite (s : State) (w : Nat) : State :=
  let p := s.log.jnlNext
  let used := p % 128 == 0 && s.log.journal.any fun e => e.1 / 128 == p / 128
  let s := if used then
      ({ s with log := { s.log with journal := s.log.journal.filter fun e => e.1 / 128 != p / 128 } } : State).eraseSector (p / 128)
    else s
  { s with log := { s.log with journal := (p, w) :: s.log.journal, jnlNext := (p + 1) % 4096 } }

/-- The records of the journal queue that a commit takes: summaries first, then the others, at most 128, one token each (R405, R416). -/
def State.jrnTake (s : State) : List Event × List Event :=
  let q := s.log.jrnQ.filter (fun e => e.summary) ++ s.log.jrnQ.filter fun e => !e.summary
  let n := min (min 128 q.length) s.log.tokens
  (q.take n, q.drop n)

/-- How many sectors of the journal `n` records reach from the next place on (R405). -/
def LogSt.sectors (l : LogSt) (n : Nat) : Nat := if n = 0 then 0 else ceilDiv (l.jnlNext % 128 + n) 128

/-- The journal and state-log commit of a round boundary: THERM_REC records first and free, then the records of the journal queue; the
alarm latches and counts are mirrored. What it replaces is kept until the commit is durable, at the next round boundary (R285, R400, R405,
R451). With the journal read-only no record is written (R416); an RRAM that programs no page takes nothing (R452, R453). -/
def State.commitRound (s : State) : State :=
  if s.noRram then s
  else
  let shut := s.therm.recs ++ s.therm.recWait
  let p : JrnPrev := { journal := s.log.journal, jnlNext := s.log.jnlNext, recs := if s.log.jro then [] else shut, alm := s.nvm.almNvm
                       almSet := s.nvm.almSetNvm, age := s.nvm.age }
  let t := s.jrnTake
  let lack := min 128 s.log.jrnQ.length - t.1.length
  let any := (!s.log.jro && (shut != [] || t.1 != [])) || s.log.dirtyLog
  let secs := if s.log.jro then 0 else s.log.sectors (shut.length + t.1.length)
  let s :=
    if s.log.jro then s
    else
      let s := shut.foldl (fun s x => s.jrnWrite x.word) s
      let s := t.1.foldl (fun s e => s.jrnWrite (e.word s.ring.num)) s
      let th := s.therm
      let age := s.ageOf
      let s : State := { s with therm := { th with recs := [], recWait := [] }
                                nvm := { s.nvm with age := age }
                                log := { s.log with jrnQ := if s.log.jro then s.log.jrnQ else t.2, tokens := s.log.tokens - t.1.length } }
      (s.count 0x05C 3 t.1.length).count 0x05C 4 lack
  let alm : Vector Nat 64 := s.log.alarms.map AlarmSt.count
  let s : State := { s with log := { s.log with prev := some p, dirtyLog := false }
                            nvm := { s.nvm with almNvm := alm, almSetNvm := s.log.latches, commits := s.nvm.commits + b2n any } }
  if any then s.commitCount (1 + secs) else s

/-- The commit of the last round boundary is taken back: its commit page was not written (R451, R452). -/
def State.uncommit (s : State) : State :=
  match s.log.prev with
  | some p => { s with log := { s.log with journal := p.journal, jnlNext := p.jnlNext, prev := none }
                       therm := { s.therm with recs := (p.recs ++ s.therm.recs ++ s.therm.recWait).take 4
                                               recWait := (p.recs ++ s.therm.recs ++ s.therm.recWait).drop 4 }
                       nvm := { s.nvm with almNvm := p.alm, almSetNvm := p.almSet, age := p.age } }
  | none => s

/-- TOKEN_REFILL: every 3,600 rounds the bucket gains one token, to at most 2,048 (R405). -/
def execTokenRefill (s : State) : Host.Outcome State Fault Refusal :=
  let r := roundOf s.bnd
  if r < s.log.refillAt + 3600 then .next s
  else .next { s with log := { s.log with tokens := min 2048 (s.log.tokens + 1), refillAt := s.log.refillAt + 3600 } }

/-! ### Alarms -/

/-- ALARM_CLEAR acts: the latches and counts of the mask are cleared, ALARM_CLEAR is posted and the reports are due (R401, R402). -/
def State.alarmClearAct (s : State) (mask : Nat) : State :=
  let f := fun (k : Fin 64) => if bit mask k.val then { s.log.alarms[k.val] with isSet := false, count := 0 } else s.log.alarms[k.val]
  let was := ((List.finRange 64).map fun k => fld (b2n (bit mask k.val && ((s.log.alarms[k.val]).isSet || (s.log.alarms[k.val]).count != 0))) 1 k.val).sum
  let w := s.time.clk / 32
  let same := s.ring.almNewAt == w
  let s : State := { s with log := { s.log with alarms := Vector.ofFn f, dirtyLog := true }
                            ring := { s.ring with almDirty := if same then s.ring.almDirty else s.ring.almDirty ||| s.ring.almNew
                                                  almNew := (if same then s.ring.almNew else 0) ||| was, almNewAt := w } }
  s.postDev 0xA1 (mask % 2 ^ 32) (mask / 2 ^ 32)

/-- ALARM_CLEAR: the latches of the mask are cleared at the next frame boundary (R402). -/
def execAlarmClear (t : Tkt) (s : State) : Host.Outcome State Fault Refusal :=
  runTicket t 0xA30 s {} fun u => (u.ok t).post (t.nbBeat u) .frame (.alarmClear (t.le 16 8))

/-! ### Trace -/

/-- The rounds of the span in which trace entries were overwritten, counted at a round boundary (R409). -/
def State.traceRound (s : State) : State :=
  if s.log.lost = s.log.lostMark then s
  else { s with log := { s.log with lostMark := s.log.lost, overRounds := min 1000 (s.log.overRounds + 1) } }

/-- TRACE_OVW: after 1,000 rounds in which entries were overwritten, an entry carries the count of the span (R409). -/
def execTraceOvw (s : State) : Host.Outcome State Fault Refusal :=
  if s.log.overRounds < 1000 then .next s
  else
    let n := s.log.lost
    .next (({ s with log := { s.log with lost := 0, lostMark := 0, overRounds := 0 } } : State).trace 0x08 (min n 65535) 0 0)

/-- The running stream replaced. -/
def State.setStream (s : State) (x : Option (TkRef × Nat × Nat × List (Nat × Nat))) : State := { s with log := { s.log with stream := x } }

/-- TRACE_STREAM with byte 16 = 1: new trace entries go into the ticket's segments, used as one circular buffer; BUSY while a stream runs
(R410). -/
def execTraceStreamStart (t : Tkt) (s : State) : Host.Outcome State Fault Refusal :=
  runTicket t 0xA21 s { rng := [(1, t.sg)], post := [failIf s.log.stream.isSome busy] } fun u =>
    (u.queued t).setStream (some (t.ref, 0, 0, t.segs))

/-- TRACE_STREAM with byte 16 = 0: the stream ends, STREAM_END is posted, and the start ticket gets its final stub (R410). -/
def execTraceStreamStop (t : Tkt) (s : State) : Host.Outcome State Fault Refusal :=
  runTicket t 0xA20 s { rng := [(16, t.byte 16 == 0)] } fun u =>
    match u.log.stream with
    | none => u.ok t
    | some (ref, n, off, _) =>
      let u : State := { u with log := { u.log with stream := none } }
      (((u.postDev 0xA2 n).final ref 0x00 0 (fld n 32 0 + fld off 32 32)).ok t)

/-! ### Performance counters -/

/-- The counters of a pair. -/
def CntPair.words (c : CntPair) : List Nat := [c.lo, c.hi]

/-- `n` counters of a block from the first on. -/
def State.cntRead (s : State) (blk first n : Nat) : List Nat :=
  match cntFind blk cntBlocks 0 with
  | some (p, k) => (((s.log.cnts.toList.drop p).take k).flatMap CntPair.words |>.drop first).take n
  | none => []

/-- How many counters a block has; 0 for a block that does not exist. -/
def cntCount (blk : Nat) : Nat := ((cntFind blk cntBlocks 0).map fun x => 2 * x.2).getD 0

/-- CNT_READ: up to two counters in VALUE, more in the segments (R413, R415). -/
def execCntRead (t : Tkt) (s : State) : Host.Outcome State Fault Refusal :=
  let blk := t.le 16 2
  let first := t.byte 18
  let n := t.byte 19
  let k := cntCount blk
  runTicket t 0xA00 s
    { rng := [(1, n ≤ 2 ∨ t.sg), (16, 0 < k), (18, first < k), (19, 1 ≤ n ∧ n ≤ 8 ∧ first + n ≤ k)], free := true } fun u =>
    let l := u.cntRead blk first n
    if n ≤ 2 then u.ok t 0 (fld (l.getD 0 0) 32 0 + fld (l.getD 1 0) 32 32) else u.answer t 0 (l.flatMap (leBytes 4))

/-- CNT_CTL acts, ahead of the round's snapshot: it sets the named counter's select, chaining and sampling and zeroes the counters it
touches: both of a pair that is or becomes chained. A CNT_SAMPLE of a touched counter at this boundary is not posted (R412, R414, R416). -/
def State.cntCtlAct (s : State) (blk ctr sel : Nat) (chain samp : Bool) : State :=
  match cntFind blk cntBlocks 0 with
  | some (p, _) =>
    if h : p + ctr / 2 < 160 then
      let c := s.log.cnts[p + ctr / 2]
      let both := chain || c.chain
      let c' : CntPair :=
        if chain then { c with chain := true, selLo := sel, sampLo := samp, lo := 0, hi := 0 }
        else if ctr % 2 = 0 then { c with chain := false, selLo := sel, sampLo := samp, lo := 0, hi := if both then 0 else c.hi }
        else { c with chain := false, selHi := sel, sampHi := samp, hi := 0, lo := if both then 0 else c.lo }
      let keep := fun (e : Event) =>
        !(e.code == 0xA0 && e.beat == s.time.clk && e.arg0 == blk && (e.arg1 == ctr || (both && e.arg1 / 2 == ctr / 2)))
      { s with log := { s.log with cnts := s.log.cnts.set (p + ctr / 2) c', staged := s.log.staged.filter keep } }
    else s
  | none => s

/-- CNT_CTL (R412). -/
def execCntCtl (t : Tkt) (s : State) : Host.Outcome State Fault Refusal :=
  let blk := t.le 16 2
  let k := cntCount blk
  runTicket t 0xA10 s { rng := [(16, 0 < k), (18, t.byte 18 < k), (19, t.byte 19 < k), (20, t.byte 20 < 4)] } fun u =>
    (u.ok t).post (t.nbBeat u) .round (.cntCtl blk (t.byte 18) (t.byte 19) (bit (t.byte 20) 0) (bit (t.byte 20) 1))

/-- A 64-bit number as two 32-bit words, low word first. -/
def twoWords (n : Nat) : List Nat := [n % 2 ^ 32, n / 2 ^ 32 % 2 ^ 32]

/-- The words of the snapshot: the beats of the first and the last read, the latches, the counts, and from byte 256 on the counters (R413,
log entry 64). -/
def LogSt.snapWords (l : LogSt) (now : Nat) : List Nat :=
  let cnt : List Nat := l.alarms.toList.map AlarmSt.count
  twoWords now ++ twoWords now ++ twoWords l.latches
    ++ (List.range 32).map (fun k => cnt.getD (2 * k) 0 + 65536 * cnt.getD (2 * k + 1) 0) ++ List.replicate 26 0
    ++ l.cnts.toList.flatMap CntPair.words

/-- The counter snapshot is taken (R413). -/
def State.snapNow (s : State) : State :=
  { s with log := { s.log with snap := s.log.snapWords s.time.clk, snapAt := s.time.clk, snapDue := false } }

/-- The counter snapshot of a round boundary; a late round delays it (R39, R413). -/
def State.snapRound (s : State) (late : Bool) : State :=
  if late then { s with log := { s.log with snapDue := true } } else s.snapNow

/-- A delayed snapshot is taken at a frame boundary of the round that follows: how long it waits is a free value (R39, R413, log entry 64). -/
def State.snapFrame (s : State) : State :=
  if !s.log.snapDue || s.time.clk % 4000 == 0 then s
  else
    let d := s.draw 2
    if d.1 = 1 then d.2.snapNow else d.2

end Sys2Proof.Machine
end

