-- ==== Sys2Proof/Machine/Host.lean ====
section
/-! DEFINITION. The host link: turnstiles and ring indices (R316 to R318), the client entry cache (R314, R315), generations (R322 to R324),
fetching (R319), stub writing (R320, R321), error completions (R328), event delivery (R329), MSI-X (R330), HOST_CTL (R312), and the PCIe
link (R335, R463). -/

namespace Sys2Proof.Machine

/-! ### Service -/

/-- The PCIe link is trained. -/
def State.linkTrained (s : State) : Bool := s.host.speed != 0

/-- The function answers memory accesses and sends requests: its link is trained and it is in D0 (Table 12.1, log entry 117). -/
def State.pcieOn (s : State) : Bool := s.linkTrained && !s.host.d3

/-- The identity of the endpoint in the words 0 and 2 of its configuration header: the device ID over Haleirath's vendor ID, the class code over
the revision ID (Table 12.1). -/
def pcieIdentity : Nat × Nat := (fld (Config.vendorId % 2 ^ 16) 16 0 + fld 0x6480 16 16, fld 0xC0 8 0 + fld 0x088000 24 8)

/-- The window of client 4094 or 4095. -/
def State.winOf (s : State) (c : Nat) : SpiWin := if c = 4094 then s.host.win[0] else s.host.win[1]

/-- A window changed. -/
def State.modWin (s : State) (c : Nat) (f : SpiWin → SpiWin) : State :=
  { s with host := { s.host with win := upd s.host.win (if c = 4094 then (0 : Fin 2) else 1) f } }

/-- The client entry of a window: the master's bytes, with both ring sizes fixed at 32 (R332). -/
def State.winEntry (s : State) (c : Nat) : Nat :=
  let e := Mem.le (s.winOf c).entry 0 32
  e - fld (bits e 3 0) 4 0 - fld (bits e 67 64) 4 64 + fld 5 4 0 + fld 5 4 64

/-- A client lies in the range of this head, or in a window of device 0 (R309, R312, R331). -/
def State.inRange (s : State) (c : Nat) : Bool :=
  if isWindow c then s.ring.num == 0 else s.isHead && decide (s.host.first ≤ c ∧ c < s.host.first + s.host.cnt)

/-- Ticket-ring entries of a client. -/
def Client.tktSize (c : Client) : Nat := 2 ^ bits c.entry 3 0
/-- Stub-ring entries of a client. -/
def Client.stubSize (c : Client) : Nat := 2 ^ bits c.entry 67 64
/-- The generation of the cached entry. -/
def Client.entryGen (c : Client) : Nat := bits c.entry 135 128
/-- Where slot `i` of a client's ticket ring stands in host memory: TKT_BASE, 64 bytes a ticket (Table 12.9). -/
def Client.tktAddr (c : Client) (i : Nat) : Nat := bits c.entry 63 6 * 64 + 64 * (i % c.tktSize)
/-- Where slot `i` of a client's stub ring stands in host memory: STUB_BASE, 16 bytes a stub (Table 12.9). -/
def Client.stubAddr (c : Client) (i : Nat) : Nat := bits c.entry 127 70 * 64 + 16 * (i % c.stubSize)
/-- Where the entry of a client of this head stands: CLT_BASE + 32 × (n − FIRST) (R313). -/
def State.entryAddr (s : State) (c : Nat) : Nat := s.host.baseHi * 2 ^ 32 + s.host.baseLo * 4096 + 32 * (c - s.host.first)

/-- The running readmit check of a port of this device has seen its link fail or an uncorrectable error (R363). -/
def State.portErr (s : State) (k : OPort) : State := s.modPort k fun x => { x with checkBad := x.checkBad || x.check.isSome }

/-- The PCIe link of a head has failed or seen an uncorrectable error: the running readmit check of the head's port fails (R363). -/
def State.headPortErr (s : State) : State :=
  match s.portOf s.ring.num s.host.first with
  | some k => s.portErr k
  | none => s

/-! ### The entry cache -/

/-- The line of a client in the entry cache is used: it is the one used last (R315). -/
def State.touch (s : State) (c : Nat) : State :=
  let n := s.host.useSeq + 1
  let s : State := { s with host := { s.host with useSeq := n } }
  s.modClient c fun x => { x with usedAt := n }

/-- The least recently used cached client, when the cache is full. -/
def State.victim (s : State) : Option Nat :=
  let l := s.host.clients.filter fun (x : Client) => x.cached
  if l.length < 256 then none
  else (l.foldl (fun (o : Option Client) (x : Client) => match o with
    | some y => if x.usedAt < y.usedAt then some x else some y
    | none => some x) none).map Client.id

/-- Floors of a client on rails of a region for which its entry no longer holds a grant are withdrawn (R78). -/
def State.dropFloors (s : State) (c : Nat) : State :=
  let x := s.client c
  let out := rails.filter fun r => !x.granted s.ring.num ((s.regionOf r.val).map Fin.val) && (s.railAt r).floors.any fun f => f.1 == c
  let s := out.foldl (fun (s : State) r => s.modRail r fun y => { y with floors := y.floors.filter fun f => f.1 != c }) s
  s.intentIf (!out.isEmpty)

/-- The device reads a client's entry, from its place in the client table or from the window: it replaces the cached one, or the least recently
used one; CLIENT_BAD is posted once per generation of an entry that is malformed or has EN = 0 (R313 to R315). A generation that differs from
the adopted one is adopted at the next beat boundary, whatever the entry is worth (R322). -/
def State.readEntry (s : State) (c entry : Nat) : State :=
  let s := if isWindow c then s else s.hostWrite (s.entryAddr c) (leBytes 32 entry)
  let bad := !bit entry 136 || entryBad entry (isWindow c)
  let g := bits entry 135 128
  let s := if (s.client c).cached then s else s.count 0x055 5 1
  let s := match (if (s.client c).cached then none else s.victim) with
    | some v => s.modClient v fun x => { x with cached := false }
    | none => s
  let post := bad && (s.client c).badPosted != some g
  let was := (s.client c).entry
  let s := s.modClient c fun x =>
    { x with entry := entry, cached := true, bad := bad, badPosted := if bad then some g else x.badPosted
             genPend := if g != x.gen then some g else none, tailPend := none }
  let s := (if was = entry then s else s.dropFloors c).touch c
  if post then s.postClient 0x72 c else s

/-- The entry that a turnstile write, a fetch or a stub meets: read anew on a miss and when `gen` differs from the cached one (R315). `entry`:
what stands at its place in the client table; a window's entry is read from the window. -/
def State.meetEntry (s : State) (c entry : Nat) (gen : Option Nat) : State :=
  let x := s.client c
  if x.cached && gen.all (fun g => g == x.entryGen) then s.touch c
  else s.readEntry c (if isWindow c then s.winEntry c else entry)

/-! ### Turnstiles -/

/-- A turnstile write is discarded: HOST_CNT.BAD_TS counts it, and TS_BAD is posted at most once per round per client, with KIND (R318). -/
def State.badTs (s : State) (c kind : Nat) : State :=
  let s : State := { s with host := { s.host with badTs := satAdd 16 s.host.badTs 1 } }
  let r := roundOf s.time.clk
  if (s.client c).tsRound == some r then s
  else (s.modClient c fun x => { x with tsRound := some r }).postClient 0x73 c kind

/-- A turnstile write reaches the device: the entry is read anew where R315 asks for it; a write of a client that is not in service, of
another generation, of KIND 3 or with a rsvd bit set is discarded (R312, R314, R318, R323). -/
def State.turnstile (s : State) (c w entry : Nat) (body : State → State) : State :=
  let s := s.count 0x055 0 1
  let kind := bits w 31 30
  if !s.inRange c then s.badTs c kind
  else
    let s := s.meetEntry c entry (some (bits w 23 16))
    if kind = 3 ∨ bits w 29 24 ≠ 0 ∨ (s.client c).bad = true ∨ (s.client c).entryGen ≠ bits w 23 16 then s.badTs c kind else body s

/-- The path of a turnstile write is up: the PCIe link, or an SPI port of device 0. -/
def State.tsPath (s : State) (c : Nat) : Bool := if isWindow c then decide (4 ≤ s.start.step) else s.pcieOn

/-- A ticket tail is written: it is discarded when it lies more than a ring's size ahead of TKT_HEAD. A tail of a generation that is still
to be adopted counts from 0 and acts at the adoption (R318, R319, R322). -/
def State.ticketTail (s : State) (c w : Nat) : State :=
  let x := s.client c
  let idx := bits w 15 0
  let head := if x.genPend.isSome then 0 else x.tktHead
  if x.tktSize < (idx + 2 ^ 16 - head) % 2 ^ 16 then s.badTs c 0
  else if x.genPend.isSome then s.modClient c fun y => { y with tailPend := some idx, noFetch := false }
  else s.modClient c fun y => { y with tktTail := idx, tsAt := y.tsAt ++ [(idx, s.time.clk)], noFetch := false }

/-- TURNSTILE_TICKET_TAIL: a write of KIND 0 sets a client's ticket tail (R316, R318). `entry` is the table entry the device would read. A
write of KIND 3 is discarded here. -/
def execTurnstileTicketTail (c w entry : Nat) (s : State) : Host.Outcome State Fault Refusal :=
  if bits w 31 30 = 1 ∨ bits w 31 30 = 2 then .refused .illFormed
  else if s.tsPath c = false then .next s
  else .next (s.turnstile c w entry fun u => u.ticketTail c w)

/-- A stub head is written: it is discarded when it lies beyond STUB_TAIL or behind the stub head held (R318). -/
def State.stubHeadWrite (s : State) (c w : Nat) : State :=
  let x := s.client c
  let idx := bits w 15 0
  let head := if x.genPend.isSome then 0 else x.stubHead
  let tail := if x.genPend.isSome then 0 else x.stubTail
  if (tail + 2 ^ 16 - head) % 2 ^ 16 < (idx + 2 ^ 16 - head) % 2 ^ 16 then s.badTs c 1
  else if x.genPend.isSome then s.modClient c fun y => { y with noFetch := false }
  else s.modClient c fun y => { y with stubHead := idx, noFetch := false }

/-- TURNSTILE_STUB_HEAD: a write of KIND 1 frees stub slots (R316, R318, R320). -/
def execTurnstileStubHead (c w entry : Nat) (s : State) : Host.Outcome State Fault Refusal :=
  if bits w 31 30 ≠ 1 then .refused .illFormed
  else if s.tsPath c = false then .next s
  else .next (s.turnstile c w entry fun u => u.stubHeadWrite c w)

/-- There is an owner: a record of one is in force and was met in the last 2 rounds (R351, R394). -/
def State.owned (s : State) : Bool := s.own.valid && decide (s.own.noRec < 2)

/-- The client is the owner, and this device serves it. -/
def State.ownerHere (s : State) (c : Nat) : Bool := s.owned && s.own.client == c && s.own.ownDev == s.ring.num

/-- The event head and tail of the owner's event ring at a client. -/
def State.evIdx (s : State) (c : Nat) : Nat × Nat :=
  if isWindow c then ((s.winOf c).evHead, (s.winOf c).evTail) else (s.host.evHead, s.host.evTail)

/-- An event head is written: it is discarded when the writer is not the owner or it lies beyond the event tail (R318, R329). -/
def State.eventHead (s : State) (c w : Nat) : State :=
  let idx := bits w 15 0
  let e := s.evIdx c
  if s.ownerHere c = false ∨ s.own.gen ≠ bits w 23 16 ∨ (e.2 + 2 ^ 16 - e.1) % 2 ^ 16 < (idx + 2 ^ 16 - e.1) % 2 ^ 16 then s.badTs c 2
  else
    let s := s.modClient c fun y => { y with noFetch := false }
    if isWindow c then s.modWin c fun x => { x with evHead := idx } else { s with host := { s.host with evHead := idx } }

/-- TURNSTILE_EVENT_HEAD: the owner's write of KIND 2 advances the event head (R316, R318, R329). `x.entry` is the table entry the device would
read. -/
def execTurnstileEventHead (c : Nat) (x : TsWrite) (s : State) : Host.Outcome State Fault Refusal :=
  if bits x.w 31 30 ≠ 2 then .refused .illFormed
  else if s.tsPath c = false then .next s
  else .next (s.turnstile c x.w x.entry fun u => u.eventHead c x.w)

/-! ### Generations -/

/-- GENERATION_ADOPT: at the beat boundary the client's new generation is adopted, and the old one's floors, forecasts, indices, held stubs
and signed-ticket parts end; an owner whose generation ends is no longer the owner (R78, R161, R322, R348, R361). -/
def execGenerationAdopt (c gen : Nat) (s : State) : Host.Outcome State Fault Refusal :=
  if (s.client c).genPend ≠ some gen then .next s
  else
    let s := s.endClient c
    let s := s.modClient c fun x =>
      { x with gen := gen, genPend := none, tktHead := 0, tktTail := x.tailPend.getD 0, stubHead := 0, stubTail := 0, held := [], parts := []
               tsAt := match x.tailPend with
                 | some t => [(t, s.time.clk)]
                 | none => []
               tailPend := none }
    if s.own.valid ∧ s.own.client = c ∧ s.own.gen ≠ gen then
      let s : State := { s with own := { s.own with genEnd := true } }
      .next (if s.own.keeper = s.ring.num then s else s.ctrl s.own.keeper 70 (fld s.ring.num 6 0 + fld (roundOf s.time.clk) 48 8 + fld 1 1 56))
    else .next s

/-- STALE_COMPLETION: a read completion of `n` tickets of an ended generation is discarded and counted (R324). -/
def execStaleCompletion (c gen n : Nat) (s : State) : Host.Outcome State Fault Refusal :=
  if (s.client c).gen = gen ∧ (s.client c).genPend = none then .next s
  else .next { s with host := { s.host with stale := satAdd 16 s.host.stale n } }

/-! ### Fetching -/

/-- A fetched ticket joins the waiting ones in the service order of R339. -/
def State.take1 (s : State) (c raw ts : Nat) : State :=
  let t : Tkt := { client := c, raw := raw }
  let x : Fetched := { client := c, raw := raw, atBeat := s.time.clk, ts := ts, order := serviceOrder t }
  let s : State := { s with host := { s.host with fetched := enqueueTicket s.host.fetched x } }
  s.modClient c fun y =>
    let h := wrapAdd 16 y.tktHead 1
    { y with tktHead := h, tsAt := if (y.tsAt.head?.map Prod.fst) == some h then y.tsAt.drop 1 else y.tsAt }

/-- The beat of the turnstile write that covers the next ticket to fetch. -/
def Client.cover (c : Client) : Nat := (c.tsAt.head?.map Prod.snd).getD 0

/-- A turnstile write that repeats the tail of an earlier one covers nothing. -/
def Client.dropIdle (c : Client) : Client := { c with tsAt := c.tsAt.dropWhile fun x => x.1 == c.tktHead }

/-- The device may read tickets of a client now: the client has a turnstile in service and tickets to fetch, no read of it waits for a turnstile
write, and no stub of it is held (R314, R319, R320, R328). -/
def State.mayFetch (s : State) (c : Client) : Bool :=
  s.inRange c.id && s.tsPath c.id && !c.bad && c.genPend.isNone && !c.noFetch && !s.stubHeld c.id && c.tktTail != c.tktHead

/-- It is the client's turn: no other client with tickets to fetch was served longer ago (R319). -/
def State.fetchTurn (s : State) (c : Nat) : Bool :=
  s.host.clients.all fun x => x.id == c || !s.mayFetch x || decide ((s.client c).burstAt ≤ x.burstAt)

/-- TICKET_FETCH: the device reads a burst of at most 8 tickets of a client, from its ticket ring in host memory (`data`, from TKT_HEAD on) or
from the window; the clients take turns. No ticket is fetched before the device counts the chain clock, over a link that is down, after a
failed read until the next turnstile write, while a stub of the client is held, or while the ticket engine is stopped: tickets then wait in
their rings (R187, R319, R320, R328, R335, R475, log entry 125). `entry` is the table entry that a miss reads (R315). -/
def execTicketFetch (c entry : Nat) (data : List Nat) (s : State) : Host.Outcome State Fault Refusal :=
  if s.host.fetchOn = false ∨ s.inRange c = false ∨ s.tsPath c = false ∨ s.engineStopped = true ∨ s.fetchTurn c = false then .next s
  else
    let s := s.meetEntry c entry none
    let s := s.modClient c Client.dropIdle
    let x := s.client c
    if s.mayFetch x = false then .next s
    else
      let left := (x.tktTail + 2 ^ 16 - x.tktHead) % 2 ^ 16
      let src := if isWindow c then (List.range (min 8 left)).map fun i => Mem.le (s.winOf c).tkt (64 * ((x.tktHead + i) % 32)) 64 else data
      let l := (src.take (min 8 left)).map fun raw => raw % 2 ^ 512
      let s := if isWindow c then s else
        ((List.range l.length).zip l).foldl (fun (s : State) y => s.hostWrite (x.tktAddr (x.tktHead + y.1)) (leBytes 64 y.2)) s
      let n := s.host.burstSeq + 1
      let s : State := if l = [] then s else { s.count 0x055 1 1 with host := { s.host with burstSeq := n } }
      let s := if l = [] then s else s.modClient c fun y => { y with burstAt := n }
      .next (l.foldl (fun s raw => (s.modClient c Client.dropIdle).take1 c raw ((s.client c).dropIdle.cover)) s)

/-- DMA_ERR: a ring, list or data access of a ticket ends with an error completion. The ticket takes no further effect: a waiting one is
discarded, a running trace stream ends. Its stub carries FAULT, and DMA_ERR is posted. A failed ticket read leaves TKT_HEAD where it stands
until the next turnstile write (R328). The completion of an ended generation is stale (R324). One that the endpoint logs as uncorrectable stands
in its AER status, and fails a running check of the head's port (Table 12.1, R363). -/
def execDmaErr (c op seq gen : Nat) (err : DmaFault) (s : State) : Host.Outcome State Fault Refusal :=
  let write := err.write
  let s := s.count 0x055 4 1
  let s : State := if err.unc then State.headPortErr { s with host := { s.host with uncErr := true } } else s
  if (s.client c).gen ≠ gen ∨ (s.client c).genPend.isSome = true then .next { s with host := { s.host with stale := satAdd 16 s.host.stale 1 } }
  else
    let ref : TkRef := { client := c, gen := gen, seq := seq }
    let hit := fun (f : Fetched) => f.client == c && !f.fwd && bits f.raw 63 48 == seq && bits f.raw 7 0 == op
    let st : Stub := { ref := ref, status := 0x3F, extra := if write then 0x0002 else 0x0001 }
    let s := s.postClient 0x74 c op seq
    if (s.client c).held.any (fun x => x.ref == ref && x.status != 0x02) then
      .next (s.modClient c fun x =>
        { x with held := x.held.map fun y => if y.ref = ref ∧ y.status ≠ 0x02 then { st with since := y.since } else y })
    else
      let ours := match s.log.stream with
        | some x => x.1 == ref
        | none => false
      let s := if ours then s.setStream none else s
      let read := !write && !ours && !s.host.fetched.any hit
      let s : State := { s with host := { s.host with fetched := s.host.fetched.filter fun f => !hit f } }
      let s := if read then s.modClient c fun x => { x with noFetch := true } else s
      .next (s.stub st)

/-! ### Stubs -/

/-- Bit 31 of a stub's first word: the phase of slot `i` in a ring of `2 ^ n` (R320). -/
def slotPhase (i n : Nat) : Nat := (i / 2 ^ n + 1) % 2

/-- The oldest held stub goes into the next slot once the client has consumed it, into host memory or the window; a message is due for its
vector (R320, R321, R330). An entry that the cache no longer holds is read again from the client table (R315). -/
def State.stubWrite (s : State) (c : Nat) : State :=
  let s := if s.inRange c && s.tsPath c && !(s.client c).held.isEmpty then s.meetEntry c (Mem.le s.host.hostMem (s.entryAddr c) 32) none else s
  let x := s.client c
  match x.held with
  | [] => s
  | st :: rest =>
    let n := stubLog c x
    if 2 ^ n ≤ (x.stubTail + 2 ^ 16 - x.stubHead) % 2 ^ 16 ∨ s.tsPath c = false then s
    else
      let bytes := leBytes 16 (st.word + fld (slotPhase x.stubTail n) 1 31)
      let s := if isWindow c then s.modWin c fun w => { w with stub := Mem.writeList w.stub (16 * (x.stubTail % 2 ^ n)) bytes }
        else s.hostWrite (x.stubAddr x.stubTail) bytes
      s.modClient c fun y => { y with held := rest, stubTail := wrapAdd 16 y.stubTail 1, msgVec := true }

/-- STUB_WRITE: a client's oldest held stub is written; while the ticket engine moves to the other die it waits for the boundary (R187, R320). -/
def execStubWrite (c : Nat) (s : State) : Host.Outcome State Fault Refusal := .next (if s.arb.engineMove then s else s.stubWrite c)

/-- The ticket engine's move at a round boundary: the stubs not yet written are written then (R187). -/
def State.engineMoved (s : State) : State :=
  if s.arb.engineMove then
    s.host.clients.foldl (fun (s : State) (x : Client) => x.held.foldl (fun (s : State) _ => s.stubWrite x.id) s) s.engineRound
  else s

/-- STUB_STALL: a stub held for 1,000 rounds is reported once (R320). -/
def execStubStall (c : Nat) (s : State) : Host.Outcome State Fault Refusal :=
  match (s.client c).held.find? fun x => !x.stalled && decide (x.since + 4000000 ≤ s.time.clk) with
  | none => .next s
  | some st =>
    let mark := fun (l : List Stub) => (l.takeWhile fun y => y != st) ++ ((l.dropWhile fun y => y != st).take 1).map (fun y => { y with stalled := true })
      ++ (l.dropWhile fun y => y != st).drop 1
    .next ((s.modClient c fun y => { y with held := mark y.held }).postClient 0x75 c)

/-! ### Events -/

/-- The oldest record of the ring queue goes into the owner's event ring or window, while space is free, up to `n` records (R329). -/
def State.eventOut : Nat → State → State
  | 0, s => s
  | n + 1, s =>
    let c := s.own.client
    match s.log.ringQ with
    | [] => s
    | e :: rest =>
      let lg := if isWindow c then 4 else s.host.evtLog2
      let i := s.evIdx c
      if 2 ^ lg ≤ (i.2 + 2 ^ 16 - i.1) % 2 ^ 16 then s
      else
        let bytes := leBytes 32 (e.word s.ring.num + fld (slotPhase i.2 lg) 1 255)
        let off := 32 * (i.2 % 2 ^ lg)
        let s : State := { s with log := { s.log with ringQ := rest } }
        let s := if isWindow c then s.modWin c fun w => { w with evt := Mem.writeList w.evt off bytes, evTail := wrapAdd 16 w.evTail 1 }
          else
            let t := s.hostWrite (s.host.evtHi * 2 ^ 32 + s.host.evtLo * 64 + off) bytes
            { t with host := { t.host with evTail := wrapAdd 16 t.host.evTail 1, evVec := true } }
        State.eventOut n (s.count 0x055 6 1)

/-- The oldest record of the ring queue goes over the ring to the device that serves the owner, in the telemetry class (R329, log entry 62). -/
def State.eventSend (s : State) : State :=
  match s.log.ringQ with
  | [] => s
  | e :: rest =>
    let s : State := { s with log := { s.log with ringQ := rest } }
    (s.send { eventPkt s.ring.num (e.word s.ring.num) with dst := s.own.ownDev }).count 0x055 6 1

/-- EVENT_WRITE: kept events go to the owner, oldest first. When this device serves it, they go to the event ring of a head with EVT_EN = 1 whose
link is trained, or to the window of an SPI master (R329). When another device serves it, the oldest one goes there over the ring. -/
def execEventWrite (s : State) : Host.Outcome State Fault Refusal :=
  let c := s.own.client
  if s.owned = true ∧ s.own.ownDev ≠ s.ring.num then
    .next (if s.linkUp .east || s.linkUp .west then s.eventSend else s)
  else if s.ownerHere c = false ∨ s.tsPath c = false ∨ s.inRange c = false ∨ (isWindow c = false ∧ s.host.evtEn = false) then .next s
  else .next (State.eventOut 256 s)

/-! ### MSI-X -/

/-- A vector is masked: in the MSI-X table, or by the Function Mask (log entry 117). -/
def State.vecMasked (s : State) (v : Nat) : Bool := s.host.fMask || bit (Mem.le s.host.msix (16 * v + 12) 4) 0

/-- The vectors that have something new at a frame boundary: vector 0 for an event, or for an alarm on the head that serves the owner; the
others for stubs of the clients that name them with IRQ = 1 (R330, R401). -/
def State.vecNew (s : State) : List Nat :=
  let zero := s.host.evVec || (s.host.almVec && s.ownerHere s.own.client && !isWindow s.own.client)
  (List.range 64).filter fun v =>
    if v = 0 then zero
    else s.host.clients.any fun x => x.msgVec && !isWindow x.id && bit x.entry 150 && bits x.entry 149 144 == v

/-- MSI-X at a frame boundary: each vector with something new or a pending bit sends one message, or, while masked, sets its pending bit
(R330). With the link down, or MSI-X not enabled, it waits (log entry 117). -/
def State.msixFrame (s : State) : State :=
  if !s.pcieOn || !s.host.msixEn then s
  else
    let want := (List.range 64).filter fun v => s.vecNew.contains v || bit s.host.pba v
    let out := want.filter fun v => !s.vecMasked v
    let held := want.filter fun v => s.vecMasked v
    let s : State := { s with host := { s.host with msgs := out, pba := (held.map fun v => 2 ^ v).sum, evVec := false, almVec := false
                                                    clients := s.host.clients.map fun x => { x with msgVec := x.msgVec && isWindow x.id } } }
    s.count 0x055 3 out.length

/-- SPIA_INT and SPIB_INT: asserted while the port's window holds an unconsumed stub or event (R332). -/
def State.spiInt (s : State) (p : Port) : Bool :=
  let c := if p = .a then 4094 else 4095
  let x := s.client c
  x.stubTail != x.stubHead || (s.winOf c).evTail != (s.winOf c).evHead

/-! ### HOST_CTL and the link -/

/-- A write of EN = 1 is refused: for the range and ring size (R312), or with two other heads announced (R387). -/
def State.enRefused (s : State) : Bool :=
  s.host.cnt == 0 || decide (4094 < s.host.first + s.host.cnt) || decide (s.host.evtLog2 < 4 ∨ 12 < s.host.evtLog2)
    || (List.range 64).any fun n => n != s.ring.num && (match s.announced n with
      | some (a, k) => decide (a < s.host.first + s.host.cnt ∧ s.host.first < a + k)
      | none => false)
    || decide (2 ≤ s.otherHeads.length)

/-- BAR0 answers: the islands are powered (R509), the link is trained and the function is in D0. -/
def State.bar0Up (s : State) : Bool := s.pcieOn && decide (4 ≤ s.start.step)

/-- HOST_CTL_EN_SET: a write with EN = 1 makes the device a head, or is refused and sets REFUSED (R309, R312). The new head announces itself
(R387), and its own alarm latches are reported to it at the next frame boundary (R401). -/
def execHostCtlEnSet (v : Nat) (s : State) : Host.Outcome State Fault Refusal :=
  if v % 2 = 0 then .refused .illFormed
  else if s.bar0Up = false then .next s
  else
    let was := s.host.en
    let bad := !was && s.enRefused
    let host := { s.host with evtEn := bit v 1, en := was || !bad, stopPend := false
                              refused := bad || (s.host.refused && !bit v 2) }
    let new := !was && !bad
    let all := if new ∧ s.ring.almAll.contains s.ring.num = false then s.ring.almAll ++ [s.ring.num] else s.ring.almAll
    let t : State := { s with host := host, ring := { s.ring with almAll := all } }
    .next (if new then t.announce else t)

/-- HOST_CTL_EN_CLEAR: a write with EN = 0 takes the turnstiles out of service at the next round boundary (R312). -/
def execHostCtlEnClear (v : Nat) (s : State) : Host.Outcome State Fault Refusal :=
  if v % 2 = 1 then .refused .illFormed
  else if s.bar0Up = false then .next s
  else .next { s with host := { s.host with evtEn := bit v 1, stopPend := s.host.en, refused := s.host.refused && !bit v 2 } }

/-- The host link's work of a round boundary: fetching starts once the device counts the chain clock, a stop of the turnstiles acts, and the
ticket window of the round opens (R312, R319, R475). -/
def State.hostRound (s : State) : State :=
  let stop := s.host.stopPend
  { s with host := { s.host with fetchOn := s.host.fetchOn || s.time.counting, en := s.host.en && !stop, stopPend := false, ticketN := 0 } }

/-- A trained PCIe link goes down: LINK_DOWN is posted, fetching stops, held stubs stay held (R335); a running readmit check of the head's
port fails (R363). -/
def State.pcieDown (s : State) : State :=
  if s.linkTrained = false then s
  else
    let s := s.headPortErr
    let s : State := { s with host := { s.host with speed := 0 } }
    s.postDev 0x70 s.ring.num

/-- PCIE_LINK_DOWN (R335, R363). -/
def execPcieLinkDown (s : State) : Host.Outcome State Fault Refusal := .next s.pcieDown

/-- PCIE_LINK_UP: the link trains at a speed, LINK_UP is posted and fetching resumes from TKT_HEAD (R309, R335, R475). The host's configuration
writes leave MSI-X Enable, the Function Mask and the power state, and clear the AER status (log entry 117). -/
def execPcieLinkUp (x : PcieUp) (s : State) : Host.Outcome State Fault Refusal :=
  if s.start.step < 4 ∨ x.speed = 0 ∨ 3 < x.speed ∨ s.host.islA = false then .next s
  else
    let s : State := { s with host := { s.host with speed := x.speed, msixEn := x.msixEn, fMask := x.fMask, d3 := x.d3, uncErr := false } }
    .next ((s.count 0x055 7 1).postDev 0x71 s.ring.num x.speed)

/-- The MSI-X table at reset: every vector masked (log entry 117). -/
def msixReset : Mem := (List.range 64).map fun v => (16 * v + 12, 1)

/-- PCIE_HOT_RESET: the host-link registers of Tables 12.3 to 12.7, the MSI-X table and the entry cache return to their reset values, and
with them the function's configuration; nothing else is touched (R463, R510, log entry 117). -/
def execPcieHotReset (s : State) : Host.Outcome State Fault Refusal :=
  .next { s with host := { s.host with baseLo := 0, baseHi := 0, first := 0, cnt := 0, evtLog2 := 4, evtLo := 0, evtHi := 0, en := false, evtEn := false
                                       refused := false, stopPend := false, msix := msixReset, pba := 0, msixEn := false, fMask := false
                                       d3 := false, uncErr := false, evVec := false, almVec := false
                                       clients := s.host.clients.map fun x => if isWindow x.id then x else { x with cached := false, msgVec := false } } }

end Sys2Proof.Machine
end

