-- ==== Sys2Proof/Machine/Nvm.lean ====
section
/-! DEFINITION. Fuse writes (R443, R444, R448, R455), voiding and debug (R456 to R459), attestation (R458), power failure (R451, R452), and
what the NVM does at a round boundary (R444, R455). -/

namespace Sys2Proof.Machine

/-! ### Which rows a FUSE_WRITE names -/

/-- A control-die row that is not rsvd (Table 18.2). -/
def ctlRow (r : Nat) : Bool := decide (r ≤ 0x40 ∨ (0x50 ≤ r ∧ r ≤ 0x63) ∨ (0x80 ≤ r ∧ r ≤ 0xEF))
/-- A Die P row that is not rsvd (Table 18.3). -/
def pRow (r : Nat) : Bool := decide (r ≤ 0x32 ∨ (0x38 ≤ r ∧ r ≤ 0x41) ∨ (0x48 ≤ r ∧ r ≤ 0x4F))
/-- A mirrored row (Table 18.2). -/
def mirroredRow (r : Nat) : Bool := decide (0x50 ≤ r)
/-- A row of domain I, the lock row included (Table 18.2). -/
def domainI (r : Nat) : Bool := decide (0x80 ≤ r)
/-- A row that no FUSE_WRITE writes: domain H, the secrets and the VOID row (R443). -/
def neverWritten (r : Nat) : Bool := decide (r ≤ 0x40)
/-- A row that provisioning writes without an owner: key, revoke, domain I, lock, policy (R448). -/
def provisionRow (die r : Nat) : Bool := if die = 2 then r == 0x41 else decide (0x50 ≤ r)
/-- An epoch reset row. -/
def epochRow (die r : Nat) : Bool := die == 2 && decide (0x48 ≤ r ∧ r ≤ 0x4B)
/-- A configuration-version reset row. -/
def cfgRow (die r : Nat) : Bool := die == 2 && decide (0x4C ≤ r ∧ r ≤ 0x4F)

/-- The dies on which a FUSE_WRITE acts, in order (R443). -/
def fuseDies (die r : Nat) : List (Fin 3) := if die = 2 then [2] else if mirroredRow r then [0, 1] else if die = 0 then [0] else [1]

/-- Spare rows of a die. -/
def spareCount (d : Fin 3) : Nat := if d = 2 then 4 else 8
/-- Redirection entries of a die. -/
def entryCount (d : Fin 3) : Nat := if d = 2 then 16 else 32

/-- The fuses of a die changed. -/
def State.modOtp (s : State) (d : Fin 3) (f : OtpDie → OtpDie) : State := { s with nvm := { s.nvm with otp := upd s.nvm.otp d f } }

/-- The row already holds DATA, COMPLETE. -/
def State.rowHas (s : State) (d : Fin 3) (r data : Nat) : Bool := (s.otpDie d).isComplete r && (s.otpDie d).data r == data

/-- CRC-32 of domain I of a die, with one row's DATA taken as `data` (R440). -/
def State.crcI (s : State) (d : Fin 3) (r data : Nat) : Nat :=
  crc32 ((List.range (0xEE + 1 - 0x80)).flatMap fun i => leBytes 8 (if 0x80 + i = r then data else (s.otpDie d).data (0x80 + i)))

/-- A domain I write is refused: on a locked die whose row does not already hold DATA, it must be a repair that reproduces the CRC of the
die's lock row (R443). -/
def State.lockBars (s : State) (r data : Nat) : Bool :=
  [(0 : Fin 3), 1].any fun d =>
    (s.otpDie d).isComplete 0xEF && !s.rowHas d r data && (r == 0xEF || s.crcI d r data != (s.otpDie d).data 0xEF % 2 ^ 32)

/-- The lock row is accepted only with the CRC-32 of domain I of both control dies (R448). -/
def State.lockWrong (s : State) (data : Nat) : Bool := [(0 : Fin 3), 1].any fun d => s.crcI d 0xEF 0 != data

/-- An epoch reset that would leave no SET, unrevoked key slot without a WON flag (R455). -/
def State.noSlotLeft (s : State) : Bool := (List.range 4).all fun k => s.keySlot k != 1 || s.keyRevoked k || bit s.nvm.won k

/-- The client is the designated client of a candidate port (Table 14.1). -/
def State.designated (s : State) (c : Nat) : Bool := (List.finRange 4).any fun k => s.portClient k == some c

/-! ### Programming -/

/-- A row written in part: some of its data and check fuses, and never 5 of the COMMIT fuses, so that it reads TORN (R438). -/
def tornFuses (data pick : Nat) : Nat :=
  let f := (pick &&& fusesOf data) % 2 ^ 72
  if f = 0 then 2 ^ 72 else f

/-- Program one row of a die by its read state (R443): in place, through the first BLANK spare and a free redirection entry, or not at all.
`ok` is the margin read. Answers whether the write succeeded and the cause byte of a FAULT. -/
def State.programRow (s : State) (d : Fin 3) (r data : Nat) (ok : Bool) : Option Nat × State :=
  let o := s.otpDie d
  let pick := s.draw (2 ^ 72)
  match o.read r with
  | .blank =>
    if ok then (none, s.modOtp d fun o => o.blow (o.where_ r) (fusesOf data))
    else (some 0, pick.2.modOtp d fun o => o.blow (o.where_ r) (tornFuses data pick.1))
  | .torn =>
    match o.freeSpare (spareCount d), o.freeEntry (entryCount d) with
    | some k, some e =>
      if ok then
        let w := redirEntry r k
        (none, s.modOtp d fun o => { o.blow (0x100 + k) (fusesOf data) with redir := (o.redir.filter fun x => decide (x.1 < e)) ++ [(e, w, w)] ++ o.redir.filter fun x => decide (e < x.1) })
      else (some 0, pick.2.modOtp d fun o => o.blow (0x100 + k) (tornFuses data pick.1))
    | _, _ => (some 1, s)
  | _ => (none, s)

/-- Program the rows of a fuse write, Die A first; the first failure ends it (R443, R444, log entry 67). -/
def State.programAll (s : State) (l : List (Fin 3)) (r data : Nat) (ok : Bool) : Option Nat × State :=
  l.foldl (fun (a : Option Nat × State) d =>
    if a.1.isSome then a
    else if a.2.rowHas d r data then a
    else a.2.programRow d r data ok) (none, s)

/-- FUSE_WRITE: the checks of R443, R444, R448 and R455; a row that already holds DATA answers OK and blows nothing. The write runs and its
stub waits for its end. -/
def execFuseWrite (t : Tkt) (s : State) : Host.Outcome State Fault Refusal :=
  let die := t.byte 16
  let r := t.le 18 2
  let data := t.le 20 8
  let dies := fuseDies die r
  let free := provisionRow die r && (t.dev != s.ring.num || s.unprovisioned) && s.designated t.client
  let rowOk := if die = 2 then pRow r else ctlRow r
  let all := dies.all fun d => s.rowHas d r data
  let other := dies.any fun d => match (s.otpDie d).read r with
    | .complete x _ => x != data
    | .voided => true
    | _ => false
  let end32 := 2 ^ 32 - 1
  runTicket t 0xE00 s
    { own := if free then some false else none
      rng := [(16, die < 3), (18, rowOk), (20, !(epochRow die r || cfgRow die r) || data != 0)]
      den := [failIf (neverWritten r) (denied 3), failIf (die != 2 && domainI r && s.lockBars r data) (denied 3),
              failIf (die == 2 && r == 0x41 && !s.unprovisioned) (denied 3), failIf (epochRow die r && !all && s.noSlotLeft) (denied 3)]
      post := [failIf (epochRow die r && decide (s.own.epoch < end32)) busy, failIf (cfgRow die r && decide (s.nvm.cfgVer < end32)) busy,
               failIf (!((s.feed[0]).present || (s.feed[1]).present) || decide (((s.dieMax 2).getD 0) > 500) || s.nvm.fuse.isSome || s.nvm.voiding.isSome || s.pwr.powerFail) busy,
               failIf other busy] } fun u =>
    if all then u.ok t
    else if die != 2 && r == 0xEF && u.lockWrong data then u.reply t { status := 0x3F, extra := 0x0004 }
    else { u with nvm := { u.nvm with fuse := some { ref := t.ref, die := die, row := r, data := data } } }

/-- FUSE_WRITE_DONE: the write ends; its stub is due at the next round boundary (R443, R444). -/
def execFuseWriteDone (ok : Bool) (s : State) : Host.Outcome State Fault Refusal :=
  match s.nvm.fuse with
  | none => .next s
  | some w =>
    let r := s.programAll (fuseDies w.die w.row) w.row w.data ok
    let st : Stub := match r.1 with
      | none => { ref := w.ref, status := 0x00 }
      | some k => { ref := w.ref, status := 0x3F, extra := 0x0004, value := k }
    .next { r.2 with nvm := { r.2.nvm with fuse := none, fuseStub := some st } }

/-- The write of a row through a spare is interrupted after the spare row: one copy of the redirection entry may be in part blown, and the
entry is not used (R442, Table 18.11). -/
def State.tearEntry (s : State) (d : Fin 3) (r data : Nat) : State :=
  let o := s.otpDie d
  let pick := s.draw (2 ^ 16)
  match o.read r, o.freeSpare (spareCount d), o.freeEntry (entryCount d) with
  | .torn, some k, some e =>
    let x := pick.1 &&& redirEntry r k
    pick.2.modOtp d fun o => { o.blow (0x100 + k) (fusesOf data) with
      redir := if x = 0 then o.redir else (o.redir.filter fun y => decide (y.1 < e)) ++ [(e, x, 0)] ++ o.redir.filter fun y => decide (e < y.1) }
  | _, _, _ => s

/-- A fuse write is interrupted: where in the write, only the moment decides, a free value. The dies before that point are written; on
the next one the row, or the spare in its place, is left TORN, or its spare is written and its redirection entry is not. No stub follows (R442,
R444, Table 18.11). -/
def State.tearFuse (s : State) : State :=
  match s.nvm.fuse with
  | none => s
  | some w =>
    let l := (fuseDies w.die w.row).filter fun d => !s.rowHas d w.row w.data
    let n := s.draw l.length
    let e := n.2.draw 2
    let t := (e.2.programAll (l.take n.1) w.row w.data true).2
    let t := match l[n.1]? with
      | none => t
      | some d =>
        if e.1 = 1 ∧ (t.otpDie d).isTorn w.row = true then t.tearEntry d w.row w.data else (t.programAll [d] w.row w.data false).2
    { t with nvm := { t.nvm with fuse := none } }

/-! ### Voiding -/

/-- Steps 2 and 3 of Table 18.7: the secret rows read VOIDED and the key sector is erased. -/
def State.voidSecrets (s : State) : State :=
  let s := s.modOtp 2 fun o => ((List.range 8).foldl (fun (o : OtpDie) k => o.blow (o.where_ (0x38 + k)) (2 ^ 80 - 1)) o)
  let s : State := { s with nvm := { s.nvm with keySector := false } }
  (s.eraseSector 48).eraseSector 48

/-- What follows step 4 of Table 18.7: VOID is set and VOIDED posted (R457). -/
def State.voided (s : State) : State :=
  (({ s with nvm := { s.nvm with void := true, voiding := none } } : State).commitCount 1).postDev 0x8C

/-- VOIDING_DONE: the steps complete; once they verify, debug opens and the final stub follows; else steps 2 and 3 run again (R457). -/
def execVoidingDone (verified : Bool) (s : State) : Host.Outcome State Fault Refusal :=
  match s.nvm.voiding with
  | none => .next s
  | some ref =>
    let s := s.voidSecrets
    if !verified then .next s
    else
      let s : State := { s.voided with nvm := { s.voided.nvm with debugOpen := true } }
      .next (match ref with
        | some r => s.final r 0x00
        | none => s)

/-- DEBUG_UNLOCK, parts 0 to 2 (R348, R456). -/
def execDebugUnlockPart (t : Tkt) (s : State) : Host.Outcome State Fault Refusal :=
  signedPart t 0xE20 true {} s fun u => (u.holdPart t true).ok t

/-- DEBUG_UNLOCK, part 3: the owner's signature over the epoch in force, with SVC_BTN held for at least 1 s (`held`); the VOID row is
programmed first. A device already VOID opens at once. BUSY while a fuse write or a voiding runs (R456 to R458, R461). -/
def execDebugUnlock (t : Tkt) (held : Bool) (s : State) : Host.Outcome State Fault Refusal :=
  let l := ((s.holdPart t true).client t.client).parts
  let bad := (s.sigCheck [0x54, 0x58, 0x44, 0x55] (t.byte 17) (l.getD 0 0) (l.getD 1 0) (l.getD 2 0) (l.getD 3 0) (t.le 20 4) (t.le 24 8)).isSome
    || t.le 20 4 != s.own.epoch
  signedPart t 0xE23 true
    { post := [failIf (s.nvm.fuse.isSome || s.nvm.voiding.isSome) busy, failIf bad (denied 4), failIf (!held) (denied 5), nvmFault s] } s fun u =>
    let u := (u.dropParts t.client).queued t
    if u.nvm.void then (({ u with nvm := { u.nvm with debugOpen := true } } : State).final t.ref 0x00)
    else
      let d := u.draw (2 ^ 64)
      let u := d.2.modOtp 2 fun o => if o.read 0x40 = .blank then o.blow (o.where_ 0x40) (fusesOf d.1) else o
      { u with nvm := { u.nvm with voiding := some (some t.ref) } }

/-- ATTEST: an attestation over the host's nonce goes into the segments; VOID once the secrets are voided (R346, R458). -/
def execAttest (t : Tkt) (s : State) : Host.Outcome State Fault Refusal :=
  runTicket t 0xE10 s { post := [failIf (s.nvm.void || !s.nvm.keySector) { status := 0x30 }] } fun u =>
    let bs := Config.attestation (t.le 16 32) u.fresh
    ({ u with fresh := u.fresh + 1 }).answer t 0 (bs.map fun b => b % 256)

/-! ### Power failure and the round -/

/-- POWER_FAIL: Die P's supply falls below its power-fail level. No page program or fuse pulse starts; a fuse write is left TORN; whether
the commit under way closes depends on the moment, a free value (R444, R451, R452, R461). -/
def execPowerFail (s : State) : Host.Outcome State Fault Refusal :=
  let s : State := { s.tearFuse with pwr := { s.tearFuse.pwr with powerFail := true } }
  let d := s.draw 2
  .next (if s.log.prev.isNone then s else if d.1 = 0 then d.2.uncommit else { d.2 with log := { d.2.log with prev := none } })

/-- What the NVM does at a round boundary: the last commit is durable, the stub of a completed fuse write is written, and a
configuration-version reset acts (R444, R451, R455). -/
def State.nvmRound (s : State) : State :=
  let s : State := { s with log := { s.log with prev := none } }
  let s := match s.nvm.fuseStub with
    | some st => ({ s with nvm := { s.nvm with fuseStub := none } } : State).stub st
    | none => s
  let n := s.resetRows 0x4C
  if s.nvm.cfgRsts < n ∧ 4 ≤ s.start.step then
    let ex := s.nvm.exhaust.set 1 false
    ({ s with nvm := { s.nvm with cfgRsts := n, cfgVer := 0, exhaust := ex } } : State).commitCount 1
  else s

end Sys2Proof.Machine
end

