-- ==== Sys2Proof/Machine/Reset.lean ====
section
/-! DEFINITION. What a reset of the device reinitialises and what it keeps, by cause (R13, R463), and the resets that commands start
(R264, R265, R474, R497). -/

namespace Sys2Proof.Machine

/-! ### What a reset keeps -/

/-- NVM content survives every cause (R463). -/
def NvmSt.kept (x : NvmSt) : NvmSt :=
  { otp := x.otp, void := x.void, slotA := x.slotA, slotB := x.slotB, extA := x.extA, extB := x.extB, ovlA := x.ovlA, ovlB := x.ovlB
    wrote := x.wrote, newBase := x.newBase, pref := x.pref, verFloor := x.verFloor, cfgVer := x.cfgVer, spares := x.spares, nvmRo := x.nvmRo, jrnTaken := x.jrnTaken
    erases := x.erases, keySector := x.keySector, won := x.won, commits := x.commits, wearNvm := x.wearNvm, almNvm := x.almNvm
    almSetNvm := x.almSetNvm, portNvm := x.portNvm, exhaust := x.exhaust, epochRsts := x.epochRsts, cfgRsts := x.cfgRsts, age := x.age }

/-- The journal survives; the alarm latches and counts stand in retained memory; the event queues, the trace, the counters and the token
bucket start anew (R405, R412, R463). -/
def LogSt.kept (x : LogSt) : LogSt := { alarms := x.alarms, journal := x.journal, jnlNext := x.jnlNext, jro := x.jro }

/-- The RTC, its wake, the wake causes and RST_CNT stand in the always-on domain (R424, R427, R434, R463). -/
def WdSt.kept (x : WdSt) : WdSt :=
  { rstCnt := x.rstCnt, rstNvm := x.rstNvm, wakeRtc := x.wakeRtc, wakeBtn := x.wakeBtn, wakeWarn := x.wakeWarn, wakeFault := x.wakeFault
    pre := x.pre, cal := x.cal, ended := x.ended, valid := x.valid, withhold := x.withhold, shifting := x.shifting, shiftPend := x.shiftPend
    setPend := x.setPend, supply := x.supply, stopped := x.stopped, comp := x.comp, compDone := x.compDone, wakeW := x.wakeW, wakeN := x.wakeN
    rtcPosted := x.rtcPosted, faultPend := x.faultPend }

/-- The committed epoch, the lockouts and that EPOCH_END has been posted survive every reset (R357, R359, R366). -/
def OwnSt.kept (x : OwnSt) : OwnSt :=
  { epoch := x.epochNvm, epochNvm := x.epochNvm, endPosted := x.endPosted
    ports := x.ports.map fun p => { fails := p.fails, level := p.level, remain := p.remain } }

/-- The waiting THERM_REC records stand in retained memory and the applied revisions in NVM (R285, R292). -/
def ThermSt.kept (x : ThermSt) : ThermSt := { recs := x.recs, recWait := x.recWait, revs := x.revs }

/-- Thermal state after a reset: what is kept, the ageing results of the NVM, and the last automatic application and the last chirps, which lie as
far before the new count as they lay before the old one (R287, R291, log entry 99). -/
def State.thermKept (s : State) : ThermSt :=
  { s.therm.kept with capC := s.nvm.age.capC, capEsr := s.nvm.age.capEsr, ro := s.nvm.age.ro
                      lastAuto := s.therm.lastAuto.map fun b => b - s.time.clk
                      chirpAt := s.therm.chirpAt.map fun o => o.map fun b => b - s.time.clk }

/-- A reset of a cause enters start-up at a step: every register takes its reset value but what R463 keeps. A fuse write under way is left
TORN, and the commit under way may or may not have closed (R444, R451). The queue of commands is the sender's, and the memory of the hosts
lies outside the device. -/
def State.resetTo (s : State) (cause step : Nat) : State :=
  let s := s.tearFuse
  let d := s.draw 2
  let s := if s.log.prev.isSome ∧ d.1 = 0 then d.2.uncommit else d.2
  { pending := s.pending, fresh := s.fresh
    start := { cause := cause, step := step }
    ring := { num := s.ring.num }
    host := { hostMem := s.host.hostMem }
    nvm := s.nvm.kept, log := s.log.kept, wd := s.wd.kept, own := s.own.kept, therm := s.thermKept
    pack := s.pack.kept
    pwr := { vaonOk := s.pwr.vaonOk, supEn := s.pwr.supEn, cid := s.pwr.cid, testEn := s.pwr.testEn }
    feed := s.nvm.age.feed.map fun x => { rPts := x.1, rBase := x.2 }
    ph := Vector.ofFn fun p : Fin 48 =>
      let a := s.nvm.age.loss[p.val]
      { wear := s.nvm.wearNvm[p.val], lossPts := a.1, lossS0 := a.2.1, lossN := a.2.2 } }

/-! ### The resets -/

/-- A feed is present. -/
def State.anyFeed (s : State) : Bool := (s.feed[0]).present || (s.feed[1]).present

/-- SVC_BTN_RESET_END: 2 s after the hold reached 8 s every other domain is reset, and start-up runs from its OTP check. With no feed
present VAON has no source: the device stays unpowered until a feed returns (R264). -/
def execSvcBtnResetEnd (s : State) : Host.Outcome State Fault Refusal :=
  match s.pack.hold with
  | none => .next s
  | some b =>
    if s.time.clk < b + 7840000 then .next s
    else if s.anyFeed then
      let t := s.resetTo 2 3
      .next { t with pwr := { t.pwr with supEn := true } }
    else
      let t := s.resetTo 2 0
      .next { t with pwr := { t.pwr with vaonOk := false, supEn := false } }

/-- SHIP_END: a feed becomes present in ship mode; start-up begins with VAON, cause SHIP (R265). -/
def execShipEnd (s : State) : Host.Outcome State Fault Refusal :=
  if s.pack.shipIn then .next (s.resetTo 3 1) else .next s

/-- SUPPLY_RESET: VDD33 lies at its reset level with VAON present (R463, R497). -/
def execSupplyReset (s : State) : Host.Outcome State Fault Refusal :=
  if s.pwr.vaonOk then .next (s.resetTo 5 3) else .next s

/-- A write to START_CTL with KEY = 0xB4 and RESTART = 1 acts in the barker state and in the no-image state only (R474). -/
def State.startCtl (s : State) (v : Nat) : State :=
  if bit v 0 = true ∧ bits v 15 8 = 0xB4 ∧ (s.start.barker = true ∨ s.start.noimg = true) then s.resetTo 4 3 else s

end Sys2Proof.Machine
end

