-- ==== Sys2Proof/Machine/Regs.lean ====
section
/-! DEFINITION. Accesses to the set-up registers (R310, R311, R505 to R509), over BAR0 and the SPI ports, and the SPI transactions (R331,
R332). -/

namespace Sys2Proof.Machine

/-! ### Reads -/

/-- A path to the registers answers: after step 3, over a trained PCIe link or an interface island in service (R509). -/
def State.pathUp (s : State) (path : Path) : Bool :=
  decide (4 ≤ s.start.step) && (match path with
    | .bar0 => s.pcieOn
    | .spiA => s.host.islA
    | .spiB => s.host.islB)

/-- An access of 1, 2 or 4 bytes, aligned to its size (R310, R506). -/
def accessOk (off size : Nat) : Bool := (size == 1 || size == 2 || size == 4) && off % size == 0

/-- Bytes `off … off + size − 1` of a register word. -/
def part (w off size : Nat) : Nat := w / 2 ^ (8 * (off % 4)) % 2 ^ (8 * size)

/-- The chain clock is captured in a path's shadow (R32, R507). -/
def State.captureClk (s : State) (path : Path) : State :=
  let hi := if s.time.counting then s.time.clk / 2 ^ 32 % 2 ^ 32 else 0
  { s with time := { s.time with hiShadow := s.time.hiShadow.set path.ix.val hi path.ix.isLt } }

/-- What the bus returned. -/
def State.setBus (s : State) (v : Nat) : State := { s with host := { s.host with bus := some v, busUr := false } }

/-- An access that ends with Unsupported Request (R310). -/
def State.unsupported (s : State) : State := { s with host := { s.host with bus := none, busUr := true } }

/-- CHAIN_CLK_LO_READ: the low word is returned and the high word captured in the path's shadow (R32, R507). -/
def execChainClkLoRead (path : Path) (s : State) : Host.Outcome State Fault Refusal :=
  if s.pathUp path then .next ((s.captureClk path).setBus (s.reg path 0x0110)) else .next s

/-- The RC fields that bytes `off … off + size − 1` of the map cover are cleared, each whole (R507). -/
def State.clearRc (s : State) (off size : Nat) : State :=
  let hit := fun (b n : Nat) => decide (off < b + n ∧ b < off + size)
  { s with host := { s.host with stale := if hit 0x0218 2 then 0 else s.host.stale, badTs := if hit 0x021A 2 then 0 else s.host.badTs }
           ring := { s.ring with crc := if hit 0x0308 2 then 0 else s.ring.crc, resent := if hit 0x030A 1 then 0 else s.ring.resent
                                 gap := if hit 0x030B 1 then 0 else s.ring.gap } }

/-- The word that a read over a path returns (R310, R506): the set-up registers and, over BAR0, the MSI-X table, its pending bits and the
turnstile of each client in service (Table 12.2, Table 12.11); every other offset reads 0. -/
def State.busWord (s : State) (path : Path) (w : Nat) : Nat :=
  if w < 0x1000 then s.reg path w
  else if path ≠ .bar0 then 0
  else if 0x2000 ≤ w ∧ w < 0x2400 then Mem.le s.host.msix (w - 0x2000) 4
  else if w = 0x3000 then s.host.pba % 2 ^ 32
  else if w = 0x3004 then s.host.pba / 2 ^ 32
  else if 0x4000 ≤ w ∧ w < 0x8000 ∧ s.inRange ((w - 0x4000) / 4) = true then
    let x := s.client ((w - 0x4000) / 4)
    fld x.tktHead 16 0 + fld x.stubTail 16 16
  else 0

/-- The shadows of a path that a read freezes or releases: byte 0 of CHAIN_CLK_LO captures the clock, byte 0 of RTC_TIME0 freezes the
calendar, RTC_TIME1 releases it (R32, R430, R507). -/
def State.readShadow (s : State) (path : Path) (off : Nat) : State :=
  let next := fun (o : Host.Outcome State Fault Refusal) => match o with
    | .next t => t
    | _ => s
  if off = 0x0110 then s.captureClk path
  else if off = 0x0520 then next (execRtcTime0Read path s)
  else if off / 4 = 0x0524 / 4 then next (execRtcTime1Read path s)
  else s

/-- RC_FIELD_READ: the bytes are returned and, over BAR0, the RC fields they cover cleared; an SPI read clears nothing. A read that covers
a shadowed register acts on the path's shadows as well (R507). -/
def execRcFieldRead (path : Path) (off size : Nat) (s : State) : Host.Outcome State Fault Refusal :=
  if s.pathUp path = false then .next s
  else if accessOk off size = false then .next (if path = .bar0 then s.unsupported else s)
  else
    let t := s.readShadow path off
    let w := (if off = 0x0520 then t else s).busWord path (off / 4 * 4)
    let s := t.setBus (part w off size)
    .next (if path = .bar0 then s.clearRc off size else s)

/-- BAR0_UNSUPPORTED_ACCESS: wider than 4 bytes, or not aligned to its size (R310). -/
def execBar0UnsupportedAccess (off size : Nat) (s : State) : Host.Outcome State Fault Refusal :=
  if s.pathUp .bar0 = true ∧ accessOk off size = false then .next s.unsupported else .next s

/-! ### Writes -/

/-- A register word with the bytes `off … off + size − 1` replaced. -/
def mergeWord (old off size v : Nat) : Nat :=
  let lo := 8 * (off % 4)
  old - part old off size * 2 ^ lo + v % 2 ^ (8 * size) * 2 ^ lo

/-- The bytes of a write in their places of the word, 0 elsewhere. -/
def placed (off size v : Nat) : Nat := v % 2 ^ (8 * size) * 2 ^ (8 * (off % 4))

/-- The W1C flags of OVR_CNT1 and WAKE_STAT (R43, R434). -/
def State.w1c (s : State) (off size v : Nat) : State :=
  let m := placed off size v
  match off / 4 * 4 with
  | 0x0108 =>
    { s with ovr := { s.ovr with beatFlag := s.ovr.beatFlag && !bit m 16, frameFlag := s.ovr.frameFlag && !bit m 17
                                 roundFlag := s.ovr.roundFlag && !bit m 18 } }
  | 0x0508 =>
    s.modWd fun w => { w with wakeRtc := w.wakeRtc && !bit m 0, wakeBtn := w.wakeBtn && !bit m 1, wakeWarn := w.wakeWarn && !bit m 2
                              wakeFault := w.wakeFault && !bit m 3 }
  | _ => s

/-- The RW registers of the host link, written while EN is 0 (R311). -/
def State.hostReg (s : State) (off size v : Nat) : State :=
  if s.host.en then s
  else
    let w := mergeWord (s.reg .bar0 (off / 4 * 4)) off size v
    match off / 4 * 4 with
    | 0x0200 => { s with host := { s.host with baseLo := bits w 31 12 } }
    | 0x0204 => { s with host := { s.host with baseHi := w } }
    | 0x0208 => { s with host := { s.host with first := bits w 11 0, cnt := bits w 27 16 } }
    | 0x020C => { s with host := { s.host with evtLog2 := bits w 3 0, evtLo := bits w 31 6 } }
    | 0x0210 => { s with host := { s.host with evtHi := w } }
    | _ => s

/-- A write to a set-up register by path and access type (R310, R311, R508): BAR0 reaches every writable field and the MSI-X table, the SPI
ports of device 0 WAKE_STAT and the flags of OVR_CNT1, those of another device none. A read-only register, a rsvd offset and a write that
the path does not accept are ignored. -/
def State.regWrite (s : State) (path : Path) (off size v : Nat) : State :=
  match path with
  | .bar0 =>
    if 0x2000 ≤ off ∧ off < 0x2400 then { s with host := { s.host with msix := Mem.writeList s.host.msix (off - 0x2000) (leBytes size v) } }
    else if 0x0200 ≤ off ∧ off < 0x0214 then s.hostReg off size v
    else s.w1c off size v
  | _ => if s.ring.num = 0 then s.w1c off size v else s

/-- REGISTER_WRITE: a write to a register that has no row of its own. HOST_CTL byte 0, an effective START_CTL write and the turnstiles have
theirs. -/
def execRegisterWrite (path : Path) (off size v : Nat) (s : State) : Host.Outcome State Fault Refusal :=
  if (off = 0x0214 ∧ path = .bar0) ∨ (off = 0x0024 ∧ 2 ≤ size) ∨ (0x4000 ≤ off ∧ off < 0x8000 ∧ size = 4) then .refused .illFormed
  else if s.pathUp path = false then .next s
  else if accessOk off size = false then .next (if path = .bar0 then s.unsupported else s)
  else .next (s.regWrite path off size v)

/-- START_CTL_RESTART: KEY = 0xB4 and RESTART = 1 start a reset of cause RESTART in the barker and the no-image state; elsewhere, or over an
SPI port of a device other than 0, the write is ignored (R474, R508). -/
def execStartCtlRestart (path : Path) (v : Nat) (s : State) : Host.Outcome State Fault Refusal :=
  if s.pathUp path = true ∧ (path = .bar0 ∨ s.ring.num = 0) then .next (s.startCtl v) else .next s

/-! ### SPI transactions -/

/-- The path of an SPI port. -/
def spiPath : Port → Path
  | .a => .spiA
  | .b => .spiB
/-- The window client of an SPI port (R331). -/
def spiClient : Port → Nat
  | .a => 4094
  | .b => 4095

/-- One register that a run of bytes covers: its first byte in the run and how many. -/
def runPart (addr n w : Nat) : Nat × Nat := (max addr w, min (addr + n) (w + 4) - max addr w)

/-- The register words that bytes `addr … addr + n − 1` cover, in address order. -/
def wordsOf (addr n : Nat) : List Nat := (List.range ((addr + n + 3) / 4 - addr / 4)).map fun i => (addr / 4 + i) * 4

/-- An SPI write, applied by its bytes in address order: each register is one access; the window's ticket slots, client entry and turnstile
are written; the device alone writes stub and event slots (R332, R506, R508, log entry 65). -/
def State.spiApply (s : State) (p : Port) (addr : Nat) (data : List Nat) : State :=
  let c := (spiClient p)
  let n := data.length
  let s := (wordsOf addr n).foldl (fun s w =>
    let r := runPart addr n w
    let v := leNat ((data.drop (r.1 - addr)).take r.2)
    if w = 0x0024 then (if r.1 = w then s.startCtl v else s)
    else if w < 0x1000 then s.regWrite (spiPath p) r.1 r.2 v
    else if w < 0x1800 then s.modWin c fun x => { x with tkt := Mem.writeList x.tkt (r.1 - 0x1000) (leBytes r.2 v) }
    else if 0x1C20 ≤ w ∧ w < 0x1C40 then s.modWin c fun x => { x with entry := Mem.writeList x.entry (r.1 - 0x1C20) (leBytes r.2 v) }
    else if w = 0x1C00 ∧ r.2 = 4 then
      s.turnstile c v 0 fun u =>
        if bits v 31 30 = 0 then u.ticketTail c v else if bits v 31 30 = 1 then u.stubHeadWrite c v else u.eventHead c v
    else s) s
  s

/-- An SPI error of a port: SPI_CRC once per round per port; a running readmit check of the port fails (R331, R363). -/
def State.spiBad (s : State) (p : Port) : State :=
  let k : Nat := if p = .a then 0 else 1
  let r := roundOf s.time.clk
  let s := match s.portOf s.ring.num (spiClient p) with
    | some q => s.portErr q
    | none => s
  if (s.winOf (spiClient p)).crcRound == some r then s else (s.modWin (spiClient p) fun x => { x with crcRound := some r }).postDev 0x76 k

/-- SPI_WRITE: a write transaction is taken whole: its CRC-8 runs over the command, the address and the data; a failing one is discarded and
reported. A device other than device 0 discards it whatever its CRC (R331, R508). -/
def execSpiWrite (p : Port) (addr : Nat) (data : List Nat) (crc : Nat) (s : State) : Host.Outcome State Fault Refusal :=
  if s.ring.num ≠ 0 ∨ s.pathUp (spiPath p) = false ∨ 2048 < data.length then .next s
  else if crc8 ([0x01, addr / 256, addr] ++ data) ≠ crc then .next (s.spiBad p)
  else .next (s.spiApply p (addr % 65536) data)

/-- The side effects of an SPI read: byte 0 of CHAIN_CLK_LO captures the clock, byte 0 of RTC_TIME0 freezes the shadows, RTC_TIME1 releases
them; an RC field is not cleared (R507). Answers the word. -/
def State.spiWord (s : State) (p : Port) (first w : Nat) : Nat × State :=
  let path := (spiPath p)
  let win := s.winOf (spiClient p)
  let x := s.client (spiClient p)
  let next := fun (o : Host.Outcome State Fault Refusal) => match o with
    | .next t => t
    | _ => s
  if w = 0x0110 ∧ first = w then (s.reg path w, s.captureClk path)
  else if w = 0x0520 ∧ first = w then
    let t := next (execRtcTime0Read path s)
    (t.host.bus.getD 0, t)
  else if w = 0x0524 ∧ first = w then
    let t := next (execRtcTime1Read path s)
    (t.host.bus.getD 0, t)
  else if w < 0x1000 then (s.reg path w, s)
  else if s.ring.num ≠ 0 then (0, s)
  else if w < 0x1800 then (Mem.le win.tkt (w - 0x1000) 4, s)
  else if w < 0x1A00 then (Mem.le win.stub (w - 0x1800) 4, s)
  else if w < 0x1C00 then (Mem.le win.evt (w - 0x1A00) 4, s)
  else if w = 0x1C00 then (x.tktHead + 2 ^ 16 * x.stubTail, s)
  else if 0x1C20 ≤ w ∧ w < 0x1C40 then (s.winEntry (spiClient p) / 2 ^ (8 * (w - 0x1C20)) % 2 ^ 32, s)
  else (0, s)

/-- SPI_READ: the data and the CRC-8 over the command, the address and the data; each register is one access, in address order (R331, R506,
R507). -/
def execSpiRead (p : Port) (addr len : Nat) (s : State) : Host.Outcome State Fault Refusal :=
  if s.pathUp (spiPath p) = false ∨ 2048 < len then .next s
  else
    let addr := addr % 65536
    let r := (wordsOf addr len).foldl (fun (a : List Nat × State) w =>
      let q := runPart addr len w
      let v := a.2.spiWord p q.1 w
      (a.1 ++ leBytes q.2 (v.1 / 2 ^ (8 * (q.1 - w))), v.2)) (([] : List Nat), s)
    let out := r.1 ++ [crc8 ([0x02, addr / 256, addr % 256] ++ r.1)]
    .next (r.2.modWin (spiClient p) fun x => { x with out := out })

end Sys2Proof.Machine
end

