-- ==== Sys2Proof/Machine/Image.lean ====
section
/-! DEFINITION. Configuration images (R478 to R484), overlays (R485 to R489), the playbook in force (R490 to R492), and their coincidences
(R493). -/

namespace Sys2Proof.Machine

/-! ### Records -/

/-- Bytes and count of a record type (Table 20.2); PB_ORDER has at most the count. -/
def recInfo (t : Nat) : Option (Nat × Nat) :=
  match t with
  | 0x01 => some (16, 48) | 0x02 => some (4, 48) | 0x03 => some (32, 12) | 0x04 => some (32, 12) | 0x05 => some (16, 12)
  | 0x06 => some (16, 12) | 0x07 => some (16, 12) | 0x08 => some (16, 12) | 0x09 => some (32, 36) | 0x0A => some (16, 6)
  | 0x0B => some (16, 1) | 0x0C => some (16, 1) | 0x0D => some (64, 1) | 0x0E => some (8, 14) | 0x0F => some (32, 1)
  | 0x10 => some (42, 1) | 0x11 => some (32, 1) | 0x12 => some (4, 32) | 0x13 => some (4, 8) | 0x14 => some (80, 32)
  | 0x15 => some (4, 1) | 0x16 => some (8, 1) | 0x17 => some (8, 1) | 0x18 => some (16, 1) | 0x19 => some (8, 8)
  | 0x1A => some (8, 128) | 0x1B => some (16, 464)
  | _ => none

/-- Record `i` of a type. -/
def Cfg.getRec (c : Cfg) (t i : Nat) : Nat :=
  match t with
  | 0x01 => c.phCfg.toArray.getD i 0 | 0x02 => c.phPool.toArray.getD i 0 | 0x03 => c.railCfg.toArray.getD i 0
  | 0x04 => c.railComp.toArray.getD i 0 | 0x05 => c.railChain.toArray.getD i 0 | 0x06 => c.fcCfg.toArray.getD i 0
  | 0x07 => c.supCfg.toArray.getD i 0 | 0x08 => c.mpCfg.toArray.getD i 0 | 0x09 => c.mpComp.toArray.getD i 0
  | 0x0A => c.regionCfg.toArray.getD i 0 | 0x0B => c.twinCfg.toArray.getD i 0 | 0x0C => c.feedCfg.toArray.getD i 0
  | 0x0D => c.chainFeed.toArray.getD i 0 | 0x0E => c.hkCfg.toArray.getD i 0 | 0x0F => c.packCfg.toArray.getD i 0
  | 0x10 => c.gaugeOcv.toArray.getD i 0 | 0x11 => c.thermCfg.toArray.getD i 0 | 0x12 => c.meterAin.toArray.getD i 0
  | 0x13 => c.meterTmr.toArray.getD i 0 | 0x14 => c.meterSeq.toArray.getD i 0 | 0x15 => c.rtcCfg.toArray.getD i 0
  | 0x16 => c.ownCfg.toArray.getD i 0 | 0x17 => c.startCfg.toArray.getD i 0 | 0x18 => c.ringCfg.toArray.getD i 0
  | 0x19 => c.seqProg.toArray.getD i 0 | 0x1A => c.seqStep.toArray.getD i 0
  | _ => 0

/-- Record `i` of a type replaced. -/
def Cfg.setRec (c : Cfg) (t i x : Nat) : Cfg :=
  match t with
  | 0x01 => { c with phCfg := c.phCfg.setIfInBounds i x }
  | 0x02 => { c with phPool := c.phPool.setIfInBounds i x }
  | 0x03 => { c with railCfg := c.railCfg.setIfInBounds i x }
  | 0x04 => { c with railComp := c.railComp.setIfInBounds i x }
  | 0x05 => { c with railChain := c.railChain.setIfInBounds i x }
  | 0x06 => { c with fcCfg := c.fcCfg.setIfInBounds i x }
  | 0x07 => { c with supCfg := c.supCfg.setIfInBounds i x }
  | 0x08 => { c with mpCfg := c.mpCfg.setIfInBounds i x }
  | 0x09 => { c with mpComp := c.mpComp.setIfInBounds i x }
  | 0x0A => { c with regionCfg := c.regionCfg.setIfInBounds i x }
  | 0x0B => { c with twinCfg := c.twinCfg.setIfInBounds i x }
  | 0x0C => { c with feedCfg := c.feedCfg.setIfInBounds i x }
  | 0x0D => { c with chainFeed := c.chainFeed.setIfInBounds i x }
  | 0x0E => { c with hkCfg := c.hkCfg.setIfInBounds i x }
  | 0x0F => { c with packCfg := c.packCfg.setIfInBounds i x }
  | 0x10 => { c with gaugeOcv := c.gaugeOcv.setIfInBounds i x }
  | 0x11 => { c with thermCfg := c.thermCfg.setIfInBounds i x }
  | 0x12 => { c with meterAin := c.meterAin.setIfInBounds i x }
  | 0x13 => { c with meterTmr := c.meterTmr.setIfInBounds i x }
  | 0x14 => { c with meterSeq := c.meterSeq.setIfInBounds i x }
  | 0x15 => { c with rtcCfg := c.rtcCfg.setIfInBounds i x }
  | 0x16 => { c with ownCfg := c.ownCfg.setIfInBounds i x }
  | 0x17 => { c with startCfg := c.startCfg.setIfInBounds i x }
  | 0x18 => { c with ringCfg := c.ringCfg.setIfInBounds i x }
  | 0x19 => { c with seqProg := c.seqProg.setIfInBounds i x }
  | 0x1A => { c with seqStep := c.seqStep.setIfInBounds i x }
  | _ => c

/-- The fields, as (hi, lo), of a record that an overlay may change (Table 20.2, last column). -/
def ovlFields (t i : Nat) : List (Nat × Nat) :=
  match t with
  | 0x01 => [(127, 0)] | 0x03 => [(255, 0)] | 0x04 => [(255, 0)] | 0x05 => [(50, 48), (71, 64)] | 0x06 => [(127, 0)]
  | 0x07 => [(127, 0)] | 0x0A => [(12, 12), (18, 16), (23, 20), (39, 24), (87, 64)] | 0x0C => [(1, 0), (39, 32), (79, 64)]
  | 0x0E => [(0, 0), (7, 4)] | 0x0F => [(22, 16), (29, 24), (37, 32), (142, 136)]
  | 0x11 => [(7, 0), (23, 16), (47, 40), (71, 64), (87, 80), (103, 96), (119, 112), (135, 132), (143, 136)]
  | 0x13 => [(31, 0)] | 0x14 => if i < 3 then [] else [(639, 0)]
  | _ => []

/-- An overlay record changes only what Table 20.2 allows. -/
def changeOk (t i old new : Nat) : Bool := onlyBits (ovlFields t i) (old ^^^ new)

/-! ### The base -/

/-- A directory entry (R479): its place, record type, count and offset of the first record. -/
structure DirEnt where
  pos : Nat
  typ : Nat
  cnt : Nat
  off : Nat
deriving DecidableEq, Repr

/-- The directory of a base. -/
def dirOf (m : Mem) : List DirEnt :=
  (List.range (Mem.le m 19 1)).map fun k =>
    let p := 128 + 8 * k
    { pos := p, typ := Mem.le m p 1, cnt := Mem.le m (p + 2) 2, off := Mem.le m (p + 4) 4 }

/-- A directory entry stands for its type: a type of the table, not met before, with its count, and its records before the signature
(R480, log entry 71). -/
def DirEnt.ok (e : DirEnt) (l : List DirEnt) (len : Nat) : Bool :=
  match recInfo e.typ with
  | none => false
  | some (sz, n) => (if e.typ = 0x1B then decide (e.cnt ≤ n) else e.cnt == n) && decide (e.off + sz * e.cnt + 128 ≤ len)
      && !(l.any fun x => x.typ == e.typ && decide (x.pos < e.pos))

/-- The records of a directory entry put into a configuration. -/
def DirEnt.load (e : DirEnt) (m : Mem) (c : Cfg) : Cfg :=
  match recInfo e.typ with
  | some (sz, _) => (List.range e.cnt).foldl (fun c i => c.setRec e.typ i (Mem.le m (e.off + sz * i) sz)) c
  | none => c

/-- The place of a record in the slot; a type that the directory does not list has none, and the directory stands for it (log entry 71). -/
def recPlace (l : List DirEnt) (t i : Nat) : Nat :=
  match l.find? fun e => e.typ == t, recInfo t with
  | some e, some (sz, _) => e.off + sz * i
  | _, _ => 128

/-! ### Overlays in record form -/

/-- An entry of an overlay (R485): its place, record type, instance and record. -/
structure OvlEnt where
  pos : Nat
  typ : Nat
  ins : Nat
  val : Nat
deriving DecidableEq, Repr

/-- An overlay in record form (R485): `bad` is the place of what keeps it from being read. -/
structure Ovl where
  pos  : Nat
  idx  : Nat
  key  : Nat
  hash : Nat
  ver  : Nat
  rst  : Nat
  ents : List OvlEnt
  wmap : Option Nat
  sig  : Nat
  fin  : Nat
  bad  : Option Nat
deriving DecidableEq, Repr

/-- The entries of an overlay from a place on, where they end, and the place of one that names no record (R485). -/
def readEnts (m : Mem) (lim : Nat) : Nat → Nat → List OvlEnt × Nat × Option Nat
  | 0, p => ([], p, none)
  | n + 1, p =>
    let t := Mem.le m p 1
    let i := Mem.le m (p + 2) 2
    match recInfo t with
    | none => ([], p, some p)
    | some (sz, cnt) =>
      if lim < p + 4 + sz ∨ (t ≠ 0x1B ∧ cnt ≤ i) then ([], p, some p)
      else
        let r := readEnts m lim n (p + 4 + sz)
        ({ pos := p, typ := t, ins := i, val := Mem.le m (p + 4) sz } :: r.1, r.2)

/-- Read the overlay that stands at a place of a buffer of `lim` bytes (R485). -/
def readOvl (m : Mem) (pos lim : Nat) : Ovl :=
  let r := readEnts m lim (Mem.le m (pos + 6) 2) (pos + 64)
  let wm := bit (Mem.le m (pos + 45) 1) 0
  let sig := r.2.1 + (if wm then 64 else 0)
  let idx := Mem.le m (pos + 4) 1
  let bad := if Mem.bytes m pos 4 ≠ [0x54, 0x58, 0x4F, 0x56] ∨ lim < pos + 64 ∨ 7 < idx then some pos
    else match r.2.2 with
      | some p => some p
      | none => if lim < sig + 128 then some pos else none
  { pos := pos, idx := idx, key := Mem.le m (pos + 5) 1, hash := beNat (Mem.bytes m (pos + 8) 32), ver := Mem.le m (pos + 40) 4
    rst := Mem.le m (pos + 44) 1, ents := r.1, wmap := if wm then some (Mem.le m r.2.1 64) else none, sig := sig, fin := sig + 128, bad := bad }

/-- The overlays laid one after the other from a place on, up to the first that cannot be read. -/
def readOvls (m : Mem) (lim : Nat) : Nat → Nat → List Ovl
  | 0, _ => []
  | n + 1, p =>
    let o := readOvl m p lim
    if o.bad.isSome then [o] else o :: readOvls m lim n o.fin

/-- The orders of an overlay, by order number; a later entry of a number replaces an earlier one (log entry 71). -/
def Ovl.orders (o : Ovl) : List (Nat × Nat) :=
  (o.ents.filter fun e => e.typ == 0x1B).foldl (fun (l : List (Nat × Nat)) e =>
    let r := l.filter fun x => x.1 != e.ins
    (r.filter fun x => decide (x.1 < e.ins)) ++ [(e.ins, e.val)] ++ r.filter fun x => decide (e.ins < x.1)) []

/-- The records of an overlay. -/
def Ovl.recs (o : Ovl) : List OvlEnt := o.ents.filter fun e => e.typ != 0x1B

/-- A base with an overlay on it. -/
def Ovl.on (o : Ovl) (c : Cfg) : Cfg := o.recs.foldl (fun c e => c.setRec e.typ e.ins e.val) c

/-- The bytes that the runs of changed bytes take (R486): 4 for each run, and its bytes; changed bytes with at most 4 unchanged ones between
them lie in one run. `last` is the place of the last changed byte. -/
def runBytes : Option Nat → List Nat → Nat
  | _, [] => 0
  | none, p :: l => 5 + runBytes (some p) l
  | some q, p :: l => (if p ≤ q + 5 then p - q else 5) + runBytes (some p) l

/-- The delta bytes of an overlay against its base (R486). -/
def Ovl.delta (o : Ovl) (c : Cfg) : Nat :=
  (o.recs.map fun e =>
    let x := c.getRec e.typ e.ins ^^^ e.val
    let n := ((recInfo e.typ).map Prod.fst).getD 0
    runBytes none ((List.range n).filter fun i => byteAt x i != 0)).sum
  + 16 * o.orders.length + (if o.wmap.isSome then 64 else 0)

/-- Base order `k` stands while the overlay is in force: it is not withdrawn, and no overlay order has its key (R491). -/
def Ovl.keeps (o : Ovl) (k w : Nat) : Bool :=
  !bit (o.wmap.getD 0) k && !(o.orders.any fun x => orderKey x.2 == orderKey w)

/-- The orders of the three layers with their indices (R490, R491). -/
def ordersOf (net base : List Nat) (o : Option Ovl) : List Order :=
  ((List.range net.length).zip net).map (fun p => ({ idx := p.1, layer := 0, word := p.2 } : Order))
  ++ (((List.range base.length).zip base).filter fun p => match o with
      | some o => o.keeps p.1 p.2
      | none => true).map (fun p => ({ idx := 48 + p.1, layer := 1, word := p.2 } : Order))
  ++ (match o with
      | some o => ((List.range o.orders.length).zip o.orders).map fun p => ({ idx := 48 + base.length + p.1, layer := 2, word := p.2.2 } : Order)
      | none => [])

/-! ### Slots -/

/-- The bytes of a slot: B when true. -/
def State.slotMem (s : State) (b : Bool) : Mem := if b then s.nvm.slotB else s.nvm.slotA
/-- The extent of a slot. -/
def State.slotExt (s : State) (b : Bool) : Nat := if b then s.nvm.extB else s.nvm.extA
/-- The overlays that OVERLAY_COMMIT has stored in a slot. -/
def State.slotOvl (s : State) (b : Bool) : List (Nat × Nat × Mem) := if b then s.nvm.ovlB else s.nvm.ovlA
/-- The pool sectors of a slot's image. -/
def State.slotSectors (s : State) (b : Bool) : Nat := poolSectors (s.slotExt b) (s.slotOvl b)

/-- A slot's bytes, extent and stored overlays replaced. -/
def State.setSlot (s : State) (b : Bool) (m : Mem) (ext : Nat) (l : List (Nat × Nat × Mem)) : State :=
  if b then { s with nvm := { s.nvm with slotB := m, extB := ext, ovlB := l } }
  else { s with nvm := { s.nvm with slotA := m, extA := ext, ovlA := l } }

/-- The slot that IMAGE_WRITE writes: the one not in force; with none in force the one without the preferred mark, or slot A (R482). -/
def State.writeSlot (s : State) : Bool :=
  match s.cfg.inForce with
  | some b => !b
  | none => match s.nvm.pref with
    | some b => !b
    | none => false

/-- What a sound slot holds. -/
structure Img where
  cfg    : Cfg
  orders : List Nat
  ver    : Nat
  start  : Nat
  ovls   : List Ovl
  ext    : Nat
deriving DecidableEq, Repr

/-- The largest delta of an image's overlays (Table 1.14). -/
def deltaMax (c : Cfg) (l : List Ovl) : Nat := (l.map fun o => o.delta c).foldl max 0

/-- The number of slot key, when the signature block passes checks 1 to 4 of R354 over the bytes. -/
def State.blockOk (s : State) (key : Nat) (block msg : List Nat) : Bool :=
  let x := beNat (block.take 32)
  let y := beNat ((block.drop 32).take 32)
  let r := beNat ((block.drop 64).take 32)
  let v := beNat ((block.drop 96).take 32)
  decide (key < 4) && s.keySlot key == 1 && !s.keyRevoked key && Config.sha256 (be32 x ++ be32 y) == s.keyHash key
    && Config.onCurve x y && Config.ecdsaOk x y r v (Config.sha256 msg)

/-- The signature of an overlay (R485). -/
def State.ovlSigned (s : State) (m : Mem) (o : Ovl) : Bool := s.blockOk o.key (Mem.bytes m o.sig 128) (Mem.bytes m o.pos (o.sig - o.pos))

/-! ### The checks of Table 20.3 -/

/-- The places of what is malformed in an overlay against a base (step 4): its header, an entry outside Table 20.2, a record that fails only
with it, its orders or its withdraw map (R481, R485, R486, R491, log entry 71). -/
def State.ovlBad (s : State) (base : Cfg) (orders : List Nat) (hash ver rst : Nat) (o : Ovl) : List Nat :=
  let c := o.on base
  let first := (o.recs.head?.map OvlEnt.pos).getD o.pos
  let was := base.bad s.ring.num
  let new := (c.bad s.ring.num).filter fun b => !was.contains b
  let all := ordersOf s.cfg.netOrders orders (some o)
  let words := all.map Order.word
  (if o.hash ≠ hash ∨ o.ver ≠ ver ∨ o.rst ≠ rst then [o.pos] else [])
  ++ ((o.recs.filter fun e => !changeOk e.typ e.ins (base.getRec e.typ e.ins) e.val).map OvlEnt.pos)
  ++ (new.map fun b => ((o.recs.find? fun e => e.typ == b.1 && e.ins == b.2).map OvlEnt.pos).getD first)
  ++ (if o.orders.any (fun x => !c.orderOk x.2 || (s.cfg.netOrders.map orderKey).contains (orderKey x.2))
        || (all.any fun x => x.layer != 0 && tooMany words x.word) || decide (512 < all.length)
        || 2 ^ orders.length ≤ o.wmap.getD 0 then [o.pos] else [])

/-- The configuration of a combination, as the budget counts it: its sequences with AUTO run (R33, R36). -/
def State.asIf (s : State) (base : Cfg) (orders : List Nat) (omax : Nat) (o : Option Ovl) : State :=
  let c := match o with
    | some o => o.on base
    | none => base
  let s : State := { s with cfg := { s.cfg with cfg := c, inForce := some false, ovlMax := omax, orders := ordersOf s.cfg.netOrders orders o } }
  s.meterLoad

/-- The budget of the combinations, the first that does not fit (step 6; R36, R298). -/
def State.budgetBad (s : State) (base : Cfg) (orders : List Nat) (l : List Ovl) : Option Reply :=
  let m := deltaMax base l
  firstFail (l.map fun o =>
    let t := s.asIf base orders m (some o)
    failIf (!(t.fits && t.meterFits)) { status := 0x22, value := t.sumsValue })

/-- The overlays of a slot's image: those that its base carries, with the stored ones in their place. -/
def State.carriedIn (s : State) (b : Bool) (read : List Ovl) : List Ovl :=
  let st := (s.slotOvl b).map fun x => readOvl x.2.2 0 262144
  let l := (read.filter fun o => !(st.any fun x => x.idx == o.idx)) ++ st
  (List.range 8).filterMap fun n => l.find? fun o => o.idx == n

/-- Check a slot by Table 20.3, without its step 7: the reply of the first failing check, or what the slot holds. -/
def State.checkSlot (s : State) (b : Bool) : Except Reply Img :=
  let m := s.slotMem b
  let len := Mem.le m 8 4
  let dir := dirOf m
  let mask := Mem.le m 18 1
  let ver := Mem.le m 12 4
  let rst := Mem.le m 16 1
  let start := Mem.le m 17 1
  let head := Mem.bytes m 0 4 == [0x54, 0x58, 0x49, 0x4D] && Mem.le m 4 1 == 1 && Mem.le m 5 1 == 0xC0 && Mem.le m 6 1 == s.ring.num
    && len % 4 == 0 && decide (len ≤ 196608 ∧ len ≤ s.slotExt b) && inR 1 32 dir.length && decide (256 + 8 * dir.length ≤ len)
  let ovls := readOvls m (s.slotExt b) (popcount 8 mask) len
  let read := ovls.filter fun o => o.bad.isNone
  let signed := s.blockOk (Mem.le m 7 1) (Mem.bytes m (len - 128) 128) (Mem.bytes m 0 (len - 128)) && read.all (s.ovlSigned m)
  let ents := dir.filter fun e => e.ok dir len
  let cfg := (ents.filter fun e => e.typ != 0x1B).foldl (fun (c : Cfg) e => e.load m c) {}
  let pb := ents.find? fun e => e.typ == 0x1B
  let orders := match pb with
    | some e => (List.range e.cnt).map fun i => Mem.le m (e.off + 16 * i) 16
    | none => []
  let nets := s.cfg.netOrders.map orderKey
  let hash := Config.sha256 (Mem.bytes m 0 len)
  let places :=
    ((dir.filter fun e => !e.ok dir len).map DirEnt.pos)
    ++ ((cfg.bad s.ring.num).map fun x => recPlace ents x.1 x.2)
    ++ (((List.range orders.length).filter fun i =>
          let w := orders.getD i 0
          !cfg.orderOk w || nets.contains (orderKey w) || tooMany (s.cfg.netOrders ++ orders) w).map fun i => recPlace ents 0x1B i)
    ++ (if bit mask 0 then [] else [18]) ++ (if start < 8 ∧ bit mask start = true then [] else [17])
    ++ (ovls.filterMap Ovl.bad)
    ++ ((read.filter fun o => !bit mask o.idx || read.any fun x => x.idx == o.idx && decide (x.pos < o.pos)).map Ovl.pos)
    ++ read.flatMap (s.ovlBad cfg orders hash ver rst)
  let carried := s.carriedIn b read
  if !head then .error badTarget
  else if !signed || rst != s.resetRows 0x4C || decide (ver < s.nvm.verFloor) then .error (denied 4)
  else match places.min? with
    | some p => .error { status := 0x21, extra := 0x0002, value := p }
    | none =>
      if read.any fun o => decide (8192 < o.delta cfg) then .error { status := 0x20, value := 8192 }
      else match s.budgetBad cfg orders carried with
        | some r => .error r
        | none =>
          let img := Mem.bytes m 0 len
          .ok { cfg := { cfg with rotPeriod := Config.imageField 0 img % 65536, rotDelta := Config.imageField 1 img % 65536 }
                orders := orders, ver := ver, start := start, ovls := carried, ext := (read.getLast?.map Ovl.fin).getD len }

/-- The overlays of the image in force. -/
def State.carried (s : State) : List Ovl :=
  match s.cfg.inForce with
  | none => []
  | some b =>
    let m := s.slotMem b
    s.carriedIn b (readOvls m (s.slotExt b) (popcount 8 (Mem.le m 18 1)) (Mem.le m 8 4))

/-- The image in force holds the overlay. -/
def State.stored (s : State) (n : Nat) : Bool := s.carried.any fun o => o.idx == n

/-! ### The barker state -/

/-- The device enters the barker state (R466, R472, Table 19.5): BARKER with the failed tests is posted once; rails and supplies off, no image
in force, no control die ACTIVE; the ticket engine runs on the first control die that passed LOGIC and MEM (R473). -/
def State.enterBarker (s : State) : State :=
  if s.start.barker then s
  else
    let eng : Cd := if s.start.failA % 4 = 0 then .a else .b
    let low := Vector.replicate 16 false
    let s : State := { s with start := { s.start with barker := true }, arb := { s.arb with active := none, engine := eng, steerA := low, steerB := low }
                              pwr := { s.pwr with pg := 0, hostRst := none }, pack := { s.pack with chg := .off }
                              cfg := { netOrders := s.cfg.netOrders, orders := ordersOf s.cfg.netOrders [] none } }
    (s.hkAllOff.meterLoad).postDev 0x92 s.start.failA s.start.failB (s.start.failP + 256 * s.nvm.result)

/-! ### The overlay in force -/

/-- The running state of the orders across a change of the playbook: kept for an order whose key stands in both, under its new index
(R489). -/
def carryRuns (was now : List Order) (l : List OrderRun) : List OrderRun :=
  l.filterMap fun x =>
    match was.find? fun o => o.idx == x.idx with
    | none => none
    | some o =>
      let k := orderKey o.word
      match now.find? (fun n => n.idx == o.idx && orderKey n.word == k), now.find? fun n => orderKey n.word == k with
      | some n, _ => some { x with idx := n.idx }
      | none, some n => some { x with idx := n.idx }
      | none, none => none

/-- The set point, the sense source and the slots of a rail under new records (R77, R79, R95, R127, R489). -/
def State.railNewCfg (s : State) (r : Rail) : State :=
  if !s.railEn r then s
  else
    let x := s.railAt r
    let loc := RailCfg.snsLocal (s.rcfg r) || x.snsFault
    (s.modRail r fun x => { x with envLo := none, envHi := none, snsLocal := loc, respace := true }).compose r

/-- The base with an overlay comes into force (R488 to R490). -/
def State.putOverlay (s : State) (o : Option Ovl) (n : Nat) : State :=
  let plain := match o with
    | some o => o.on s.cfg.base
    | none => s.cfg.base
  let now := ordersOf s.cfg.netOrders s.cfg.baseOrders o
  let runs := carryRuns s.cfg.orders now s.orders
  { s with orders := runs, cfg := { s.cfg with plain := plain, cfg := plain, ovl := n, orders := now, reselect := none, switchAt := some s.time.clk } }

/-- An overlay comes into force at a round boundary: Table 20.4 (R29, R489). The lending decisions of the last frame are discarded;
forecasts, revisions, chirps, supplies and sequences follow their own rules (R120, R163, R248, R288, R292, R308). -/
def State.switchTo (s : State) (o : Ovl) : State :=
  let was := s.cfg.cfg
  let s := ((s.putOverlay (some o) o.idx).chirpOverlay).revCheck
  let s := (rails.foldl State.railNewCfg s).intent
  let s := (s.fcOverlay).hkOverlay was
  let s := (List.finRange 32).foldl (fun (s : State) k =>
    if was.meterSeq[k.val] = s.mcfg k then s
    else if MeterSeqCfg.defd (s.mcfg k) then s.unqueue k
    else s.meterStop k) s
  ({ s with lend := { s.lend with noLend := true } } : State).postDev 0x9A o.idx

/-- A selection that is due: the overlay, and the layer and index of the order when the playbook asked for it. -/
abbrev OvlSel := Nat × Option (Nat × Nat)

/-- The overlay selections due at this boundary, in the order they were posted. -/
def State.selections (s : State) (l : List Act) : List OvlSel :=
  l.filterMap fun a => match a with
    | .overlaySelect n ord => some (n, ord.map fun i => (((s.orderAt i).map Order.layer).getD 3, i))
    | _ => none

/-- A selection waits for a later boundary, or for the answers of the chain (R484, R488). -/
def State.switchWaits (s : State) : Bool :=
  s.cfg.chainSel != [] || s.cfg.reselect.isSome || s.sched.any fun x => match x.act with
    | .overlaySelect _ _ => true
    | _ => false

/-- The playbook's selection that applies: the lower layer, and within a layer the lower index (R492). -/
def bestOrder : List OvlSel → Option OvlSel
  | [] => none
  | x :: l => match bestOrder l, x.2 with
    | none, _ => some x
    | some y, some a => match y.2 with
      | some b => if a.1 < b.1 ∨ (a.1 = b.1 ∧ a.2 ≤ b.2) then some x else some y
      | none => some x
    | some y, none => some y

/-- The switch of a round boundary (R349, R487, R488, R492, R493): the playbook's selection, else the ticket processed last, else the overlay
in force when it was replaced. A live activation at the boundary drops every selection. -/
def State.ovlSwitch (s : State) (sel : List OvlSel) : State :=
  let drop := fun (s : State) (x : OvlSel) => s.postDev 0x9B x.1
  if s.cfg.live then
    sel.foldl drop { s with cfg := { s.cfg with live := false, reselect := none } }
  else
    let pb := sel.filter fun x => x.2.isSome
    let s := (pb.filter fun x => !s.stored x.1).foldl (fun (s : State) x => match x.2 with
      | some a => s.postOrder 0x1A a.2 s.ring.num
      | none => s) s
    let pb := pb.filter fun x => s.stored x.1
    let tk := (sel.filter fun x => x.2.isNone && s.stored x.1)
    let s := if pb.isEmpty then s else tk.foldl drop s
    let win := match bestOrder pb with
      | some x => some x.1
      | none => match tk.getLast? with
        | some x => some x.1
        | none => none
    let n := win.getD s.cfg.ovl
    if n == s.cfg.ovl && !s.cfg.reselect.any (fun b => decide (b ≤ s.time.clk)) then s
    else match s.carried.find? fun o => o.idx == n with
      | some o => s.switchTo o
      | none => s

/-! ### An image comes into force -/

/-- The recorded sums of a combination that differ from the computed ones are reported, period by period (R36, log entry 72). -/
def State.budgetDiff (s : State) (b : Bool) (x : Img) : State :=
  let m := s.slotMem b
  let top := deltaMax x.cfg x.ovls
  let st := (s.slotOvl b).map Prod.fst
  (x.ovls.filter fun o => !st.contains o.idx).foldl (fun (s : State) o =>
    let t := s.asIf x.cfg x.orders top (some o)
    let p := 32 + 8 * o.idx
    let l := [(0, Mem.le m p 1, t.beatSum), (1, Mem.le m (p + 2) 2, t.frameSum), (2, Mem.le m (p + 4) 4, t.roundSum)]
    l.foldl (fun (s : State) y => if y.2.1 = y.2.2 then s else s.postDev 0x01 y.1 y.2.1 y.2.2) s) s

/-- A phase of a device that an image comes into force on: assigned to its home rail, its steering output there high and the other one low, and
its weight that of its temperature (R62, R120, R130). -/
def State.phLoad (s : State) (p : Ph) : State :=
  let s := if s.arb.active.isSome then s.steerTo p (s.home p) else s
  let w := s.weffAt p ((s.phAt p).temp.getD (-200))
  s.modPh p fun y => { y with asg := some (s.home p), move := none, weff := w }

/-- An image comes into force with START_OVL (R469, R484, R488): flex phases at home (R120), the configured roles of the gangs (R138), the
sequences with AUTO (R298); order persistence starts anew, and the revisions of an earlier base are cleared (R292). IMAGE_LOAD carries the
slot, IMG_VER and the configuration version. -/
def State.loadImage (s : State) (b : Bool) (x : Img) : State :=
  let s := s.budgetDiff b x
  let fresh := s.nvm.newBase && s.nvm.pref == some b
  let s := if fresh then s.modTherm fun t => { t with revs := [], props := [] } else s
  let s : State := { s with
    cfg := { s.cfg with base := x.cfg, baseOrders := x.orders, inForce := some b, imgVer := x.ver, ovlMax := deltaMax x.cfg x.ovls, orders := [] }
    nvm := { s.nvm with newBase := s.nvm.newBase && s.nvm.pref != some b }
    start := { s.start with noimg := false } }
  let s := (s.putOverlay (x.ovls.find? fun o => o.idx == x.start) x.start).revCheck
  let s := phases.foldl State.phLoad s
  let s := (rails.foldl State.railNewCfg s).gangRoles.meterLoad
  let s := (if s.pack.nvm.isNone then s.gaugeResume else s).packOff
  s.postDev 0x99 (b2n b) x.ver s.nvm.cfgVer

/-- The configuration version advances; at its end it does not (R454). -/
def State.advance (s : State) : Option State :=
  if 2 ^ 32 - 1 ≤ s.nvm.cfgVer then none
  else some (({ s with nvm := { s.nvm with cfgVer := s.nvm.cfgVer + 1 } } : State).commitCount 1)

/-- A successful commit raises the floor to the IMG_VER of the image in force (R483, log entry 71). -/
def State.raiseFloor (s : State) : State :=
  if s.cfg.inForce.isSome then { s with nvm := { s.nvm with verFloor := max s.nvm.verFloor s.cfg.imgVer } } else s

/-- The conditions of a live activation (R484); an UNPROVISIONED device loads no image (R448). -/
def State.liveOk (s : State) : Bool :=
  !s.unprovisioned && (s.cfg.inForce.isNone
    || ((rails.all fun r => !s.railEn r || (s.railAt r).st == .off || s.railBenched r)
      && (s.seq.all fun x => !x.running) && !s.switchWaits))

/-- A control die was benched by its self-test: with ONE_DIE = 0 in the image that comes into force the device enters the barker state, with
ONE_DIE = 1 it runs on the other die (R469). -/
def State.oneDie (s : State) : State :=
  let out := fun (d : Cd) => s.dieOut d && s.arb.cause[d.ix.val] == 7
  if (out .a || out .b) && !StartCfg.oneDie s.stcfg then s.enterBarker else s

/-- The answer that refuses a commit at its boundary: to one whose slot or form fails, and to any while the RRAM programs no page (R452, R453,
log entry 128). -/
def State.commitFault {α : Type} (s : State) (c : Except Reply α) : Except Reply α :=
  match nvmFault s with
  | some r => .error r
  | none => c

/-- IMAGE_COMMIT at its round boundary: the slot is checked by Table 20.3, the version advances, the mark moves, and the image is activated
live or waits for the next start-up (R481 to R484). -/
def State.imageCommitAct (s : State) (ref : TkRef) : State :=
  let b := s.writeSlot
  let s : State := { s with nvm := { s.nvm with bundle := [], bundleLen := 0 } }
  match s.commitFault (s.checkSlot b) with
  | .error r => s.final ref r.status r.extra r.value
  | .ok x =>
    match s.advance with
    | none => (s.exhausted 1).final ref 0x31 0 1
    | some s =>
      let s := s.setSlot b (s.slotMem b) x.ext (s.slotOvl b)
      let wr := s.nvm.wrote.setIfInBounds (b2n b) false
      let s : State := { s with nvm := { s.nvm with pref := some b, newBase := true, wrote := wr } }
      let live := s.liveOk
      let first := s.cfg.inForce.isNone
      let s := if live then
          let s := s.loadImage b x
          let s : State := { s with cfg := { s.cfg with live := true } }
          if first then s.oneDie else s
        else s
      s.raiseFloor.final ref 0x00 0 (b2n live)

/-- OVERLAY_COMMIT at its round boundary: the staged form is checked against the slot in force, its delta is stored, and the version advances
(R487). -/
def State.overlayCommitAct (s : State) (ref : TkRef) (n len : Nat) : State :=
  match s.commitFault (s.cfg.inForce.elim (.error busy) .ok) with
  | .error r => s.final ref r.status r.extra r.value
  | .ok b =>
    let m := s.slotMem b
    let bl := Mem.le m 8 4
    let ver := Mem.le m 12 4
    let rst := Mem.le m 16 1
    let o := readOvl s.nvm.staging 0 len
    let form := o.bad.toList ++ (if o.idx = n then [] else [4]) ++ (if o.bad.isNone && o.fin != len then [o.fin] else [])
    let places := s.ovlBad s.cfg.base s.cfg.baseOrders (Config.sha256 (Mem.bytes m 0 bl)) ver rst o
    let d := o.delta s.cfg.base
    let all := (s.carried.filter fun x => x.idx != n) ++ [o]
    let stored := ((s.slotOvl b).filter fun x => x.1 != n) ++ [(n, d, s.nvm.staging)]
    match form.min? with
    | some p => s.final ref 0x21 0x0002 p
    | none =>
      if !s.ovlSigned s.nvm.staging o || rst != s.resetRows 0x4C || decide (ver < s.nvm.verFloor) then s.final ref 0x14 4
      else match places.min? with
        | some p => s.final ref 0x21 0x0002 p
        | none =>
          if 8192 < d then s.final ref 0x20 0 8192
          else match s.budgetBad s.cfg.base s.cfg.baseOrders all with
            | some r => s.final ref r.status r.extra r.value
            | none =>
              if 79 < poolSectors (s.slotExt b) stored + s.slotSectors (!b) then s.final ref 0x20 0 323584
              else match s.advance with
                | none => (s.exhausted 1).final ref 0x31 0 1
                | some s =>
                  let top := deltaMax s.cfg.base all
                  let used := ceilDiv (s.asIf s.cfg.base s.cfg.baseOrders top (some o)).roundSum 100
                  let s := (s.setSlot b m (s.slotExt b) stored).count 0x05B 1 (ceilDiv d 4096)
                  let s : State := { s with cfg := { s.cfg with ovlMax := top } }
                  let s : State := { s with cfg := { s.cfg with reselect := if n = s.cfg.ovl then some (s.time.clk + 4000) else s.cfg.reselect } }
                  s.raiseFloor.final ref 0x00 0 (fld d 32 0 + fld used 32 32)

/-! ### Tickets -/

/-- A commit of a kind waits for its boundary (R349). -/
def State.commitWaits (s : State) (image : Bool) : Bool :=
  s.sched.any fun x => match x.act with
    | .imageCommit _ => image
    | .overlayCommit _ _ _ => !image
    | _ => false

/-- The image of this device in a chain bundle: where it begins, and its length, to the next image or to the end of the bundle (R478). -/
def bundleOwn (m : Mem) (len dev : Nat) : Option (Nat × Nat) :=
  let isImg := fun (p : Nat) => Mem.bytes m p 4 == [0x54, 0x58, 0x49, 0x4D]
  let ps := (List.range (ceilDiv len 4096)).map (4096 * ·)
  match ps.find? fun p => isImg p && Mem.le m (p + 6) 1 == dev with
  | none => none
  | some p => some (p, ((ps.find? fun q => decide (p + max 4096 (Mem.le m (p + 8) 4) ≤ q) && isImg q).getD len) - p)

/-- The extent of the slot that IMAGE_WRITE writes before a write: 0 for the first write after a commit (R450). -/
def State.extBefore (s : State) : Nat := if s.nvm.wrote.toArray.getD (b2n s.writeSlot) false then s.slotExt s.writeSlot else 0

/-- A write would take the pool beyond its 79 sectors (R450). -/
def State.poolOver (s : State) (fin : Nat) : Bool :=
  decide (79 < poolSectors (max s.extBefore fin) [] + s.slotSectors (!s.writeSlot))

/-- Bytes are written into the slot that is not in force; sectors beyond its extent are erased first (R450, R482, log entry 68). -/
def State.imagePut (s : State) (off : Nat) (bs : List Nat) : State :=
  let b := s.writeSlot
  let was := s.extBefore
  let ext := max was (off + bs.length)
  let a := ceilDiv was 4096
  let n := ceilDiv ext 4096 - a
  let s := s.setSlot b (Mem.writeList (s.slotMem b) off bs) ext []
  let wr := s.nvm.wrote.setIfInBounds (b2n b) true
  let s : State := { s with nvm := { s.nvm with wrote := wr } }
  let s := (List.range n).foldl (fun (s : State) i => s.eraseSector (if b then 127 - (a + i) else 49 + a + i)) s
  s.count 0x05B 1 (ceilDiv bs.length 4096)

/-- A part of a chain bundle is taken in, and this device's image in it is written to its slot (R478). -/
def State.bundlePut (s : State) (off : Nat) (bs : List Nat) : State :=
  let m := Mem.writeList s.nvm.bundle off bs
  let len := max s.nvm.bundleLen (off + bs.length)
  let s : State := { s with nvm := { s.nvm with bundle := m, bundleLen := len } }
  match bundleOwn m len s.ring.num with
  | some (p, n) => s.imagePut 0 (Mem.bytes m p n)
  | none => s

/-- IMAGE_WRITE: the first LEN bytes of the segments go into the slot that is not in force; with CHAIN = 1 they are part of a bundle of which
each device keeps its own image (R326, R349, R450, R478, R482). -/
def execImageWrite (t : Tkt) (s : State) : Host.Outcome State Fault Refusal :=
  let off := t.le 20 4
  let len := t.le 24 4
  let bs := t.data.take len
  let fin := if t.chain then
      (match bundleOwn (Mem.writeList s.nvm.bundle off bs) (max s.nvm.bundleLen (off + len)) s.ring.num with
        | some (_, n) => n
        | none => 0)
    else off + len
  let fwd := s.isFwd t
  runTicket t 0x300 s
    { rng := [(24, decide (1 ≤ len ∧ len ≤ segSum t.segs))]
      pre := [failIf (decide (1048576 < len)) { status := 0x20, value := 1048576 },
              failIf (s.poolOver fin) { status := 0x20, value := 323584 }]
      post := [failIf (s.commitWaits true) busy, nvmFault s] } fun u =>
    let r : Reply := { status := 0x00, value := len }
    if t.chain then
      let u := u.bundlePut off bs
      if fwd then u.reply t r else u.chainPart t r
    else (u.imagePut off bs).reply t r

/-- IMAGE_COMMIT: QUEUED; the checks run at the round boundary (R349, R482). -/
def execImageCommit (t : Tkt) (s : State) : Host.Outcome State Fault Refusal :=
  runTicket t 0x310 s { post := [failIf (s.commitWaits true) busy, nvmFault s] } fun u =>
    (u.queued t).post (t.nbBeat u) .round (.imageCommit t.ref)

/-- OVERLAY_WRITE: the first LEN bytes of the segments go into the staging area (R326, R349, R487). -/
def execOverlayWrite (t : Tkt) (s : State) : Host.Outcome State Fault Refusal :=
  let off := t.le 20 4
  let len := t.le 24 4
  runTicket t 0x320 s
    { rng := [(24, decide (1 ≤ len ∧ len ≤ segSum t.segs))]
      pre := [failIf (decide (262144 < off + len)) { status := 0x20, value := 262144 }]
      post := [failIf (s.commitWaits false) busy] } fun u =>
    ({ u with nvm := { u.nvm with staging := Mem.writeList u.nvm.staging off (t.data.take len) } } : State).ok t 0 len

/-- OVERLAY_COMMIT: BUSY with no image in force or while another waits; else QUEUED, and the checks run at the round boundary (R349, R487). -/
def execOverlayCommit (t : Tkt) (s : State) : Host.Outcome State Fault Refusal :=
  let n := t.byte 16
  let len := t.le 20 4
  runTicket t 0x330 s
    { rng := [(16, decide (n < 8))]
      pre := [failIf (decide (262144 < len)) { status := 0x20, value := 262144 }]
      post := [failIf s.cfg.inForce.isNone busy, failIf (s.commitWaits false) busy, nvmFault s] } fun u =>
    (u.queued t).post (t.nbBeat u) .round (.overlayCommit t.ref n len)

/-! ### Tickets that change what the budget charges -/

/-- The state with the charges of an overlay that this image carries: its records and its orders (R33). -/
def State.withOvl (s : State) (n : Nat) : State :=
  match s.carried.find? fun o => o.idx == n with
  | some o => { s with cfg := { s.cfg with cfg := o.on s.cfg.base, orders := ordersOf s.cfg.netOrders s.cfg.baseOrders (some o) } }
  | none => s

/-- What an effect does to the charged items: it starts or ends a sequence, arms or disarms a check-in slot, puts an overlay in force (R37). -/
def State.chargeAct (s : State) (a : Act) : State :=
  match a with
  | .meterStart n => (match seqOf n with
    | some k => s.modMseq k fun q => { q with active := true }
    | none => s)
  | .meterStop n => (match seqOf n with
    | some k => s.modMseq k fun q => { q with active := false }
    | none => s)
  | .wdArm k _ _ => s.modSlot k fun y => { y with armed := true }
  | .wdDisarm k => s.modSlot k fun y => { y with armed := false }
  | .overlaySelect n _ => s.withOvl n
  | _ => s

/-- The length of a period in beats (R27). -/
def Period.beats : Period → Nat
  | .beat => 1
  | .frame => 32
  | .round => 4000

/-- The boundary at which an effect that waits will act: the first of its period at or after its not-before beat (R30). -/
def State.actsAt (s : State) (x : Sched) : Nat := ceilDiv (max x.nb s.bnd) x.per.beats * x.per.beats

/-- An effect put into a list that rises by its boundary, behind those of the same one. -/
def putAt (b : Nat) (a : Act) : List (Nat × Act) → List (Nat × Act)
  | [] => [(b, a)]
  | y :: l => if y.1 ≤ b then y :: putAt b a l else (b, a) :: y :: l

/-- The effects of the tickets processed so far with the boundaries at which they will act, in that order: those that wait, and the selections
of the chain that every device has yet to accept (R30, R488). -/
def State.awaited (s : State) : List (Nat × Act) :=
  let sel := s.cfg.chainSel.map fun x => (x.2.2, Act.overlaySelect (bits x.2.1 135 128) none)
  (s.sched.map (fun x => (s.actsAt x, x.act)) ++ sel).foldl (fun l x => putAt x.1 x.2 l) []

/-- The charged items at the first boundary, from `b` on, after which a period would exceed its capacity: none where every one fits (R37). -/
def overAt (b : Nat) : State → List (Nat × Act) → Option State
  | _, [] => none
  | s, x :: l =>
    let t := s.chargeAct x.2
    if decide (b ≤ x.1) && !(l.head?.any fun y => y.1 == x.1) && !t.fits then some t else overAt b t l

/-- BUDGET, with the sums that the change would give, where with this effect beside those that wait a period would exceed its capacity at its
boundary or at a later one (R37). -/
def State.overBudget (s : State) (x : Sched) : Option Reply :=
  (overAt (s.actsAt x) s (putAt (s.actsAt x) x.act s.awaited)).map fun t => { status := 0x22, value := t.sumsValue }

/-- METER_START: BAD_TARGET for a sequence that is not defined, BUDGET when a period would exceed its capacity (Table 11.7, R37). -/
def execMeterStart (t : Tkt) (s : State) : Host.Outcome State Fault Refusal :=
  let n := t.byte 16
  let undef := match seqOf n with
    | some k => !MeterSeqCfg.defd (s.mcfg k)
    | none => false
  let x : Sched := { nb := t.nbBeat s, per := .frame, act := .meterStart n }
  runTicket t 0x800 s { rng := [(16, decide (3 ≤ n ∧ n < 32))], pre := [failIf undef badTarget], post := [s.overBudget x] } fun u =>
    (u.post (t.nbBeat u) .frame (.meterStart n)).ok t

/-- WD_ARM: an arm with which a period would exceed its capacity is refused (R418, R37). -/
def execWdArm (t : Tkt) (s : State) : Host.Outcome State Fault Refusal :=
  let k := slotOf (t.byte 16)
  let x : Sched := { nb := t.nbBeat s, per := .round, act := .wdArm k (t.le 18 2) (t.le 20 2) }
  runTicket t 0x711 s
    { rng := [(16, t.byte 16 < 16), (17, t.byte 17 = 1), (18, t.le 18 2 != 0), (21, t.le 20 2 < 4096)], post := [s.overBudget x] } fun u =>
    (u.ok t).post (t.nbBeat u) .round (.wdArm k (t.le 18 2) (t.le 20 2))

/-- The round boundary of a selection: the first at or after its not-before beat; for the chain's it lies at least 3 rounds after processing
(R30, R488). -/
def State.selectBeat (s : State) (t : Tkt) : Nat :=
  if t.chain then ceilDiv (max (s.time.clk + 12000) (t.nbBeat s)) 4000 * 4000 else t.nbBeat s

/-- OVERLAY_SELECT: BAD_TARGET for an overlay not stored, BUDGET when a period would exceed its capacity under it with the sequences and
slots of its time (R37); the switch is at the round boundary. With CHAIN = 1 the head asks every device in service whether it holds the
overlay (R488). -/
def execOverlaySelect (t : Tkt) (s : State) : Host.Outcome State Fault Refusal :=
  let n := t.byte 16
  let fwd := s.isFwd t
  let x : Sched := { nb := s.selectBeat t, per := .round, act := .overlaySelect n none }
  runTicket t 0x340 s { rng := [(16, decide (n < 8))], pre := [failIf (!s.stored n) badTarget], post := [s.overBudget x] } fun u =>
    if !t.chain then (u.post (t.nbBeat u) .round (.overlaySelect n none)).ok t
    else if fwd then u.ok t
    else
      let b := u.selectBeat t
      if (u.askedFor t).isEmpty then (u.post b .round (.overlaySelect n none)).ok t
      else
        let u : State := { u with cfg := { u.cfg with chainSel := u.cfg.chainSel ++ [(t.ref, t.raw, b)] } }
        u.chainPart t { status := 0x00 }

end Sys2Proof.Machine
end

