-- ==== Sys2Proof/Machine/Startup.lean ====
section
/-! DEFINITION. Start-up (R462 to R471, R477): the steps of Table 19.1 as the events that end them, and the supply monitors (R496, R497). -/

namespace Sys2Proof.Machine

/-- Start-up changed. -/
def State.modStart (s : State) (f : StartSt → StartSt) : State := { s with start := f s.start }

/-- VAON_RISE: VAON rises above 4.5 V, the always-on reset releases, SUP_EN rises: step 2 with cause POWER, VAON or SHIP (R462, R463, R496), with
the balls CID and TEST_EN as they are tied (R502). -/
def execVaonRise (v : VaonIn) (s : State) : Host.Outcome State Fault Refusal :=
  if s.pwr.vaonOk = true ∧ 2 ≤ s.start.step then .next s
  else
    let ship := s.start.step == 1 && s.start.cause == 3
    let s := if ship then s.modStart (fun x => { x with step := 0 }) else s.resetTo (if v.kept then 1 else 0) 0
    let s := if v.kept then s else s.loseVrtc
    .next { s with pwr := { s.pwr with vaonOk := true, supEn := true, cid := v.cid % 64, testEn := v.testEn }, start := { s.start with step := 2 } }

/-- Retained memory is lost: its contents are cleared, and the alarms and lockouts are taken from their mirrors in NVM (R366, R400, R462). -/
def State.retainedLost (s : State) : State :=
  let al := Vector.ofFn fun k : Fin 64 => ({ isSet := bit s.nvm.almSetNvm k.val, count := s.nvm.almNvm[k.val] } : AlarmSt)
  let f := fun (k : Fin 4) =>
    let m := s.nvm.portNvm[k.val]
    ({ (s.own.ports[k.val]) with fails := m.1, level := m.2.1, remain := m.2.2 } : PortSt)
  let ports := Vector.ofFn f
  { s with log := { s.log with alarms := al }, own := { s.own with ports := ports }
           therm := { s.therm with recs := [], recWait := [] }
           wd := { s.wd with rstCnt := 0, wakeRtc := false, wakeBtn := false, wakeWarn := false, wakeFault := false } }

/-- STARTUP_AON_DONE: the checks of step 2 end: retained memory that fails its check is cleared, a stopped crystal restarts the calendar, the
higher copy of RST_CNT stands, the gauge resumes, and the RTC events of the time before are posted (R424, R428, R435, R462). -/
def execStartupAonDone (memOk xtalOk : Bool) (s : State) : Host.Outcome State Fault Refusal :=
  if s.start.step ≠ 2 then .next s
  else
    let s := if !memOk || s.start.cause == 0 then s.retainedLost else s
    let s := s.modWd fun w => { w with rstCnt := max w.rstCnt w.rstNvm, stopped := !xtalOk }
    let s := if xtalOk then s else (s.modWd fun w => { w with faultPend := true, valid := false, cal := {}, pre := 0, ended := false })
    let s := s.gaugeResume
    let s := match s.wd.rtcPosted with
      | some b => s.postDev 0x84 (b2n b)
      | none => s
    let s := if s.wd.faultPend then s.postDev 0x85 else s
    let s := s.modWd fun w => { w with rtcPosted := none, faultPend := false }
    .next (s.modStart fun x => { x with step := 3, aonLost := !memOk || s.start.cause == 0 })

/-- The safety net in OTP: as many orders as its header says, two rows each (Table 18.2). -/
def State.netOtp (s : State) : List Nat :=
  (List.range (min 48 ((s.otpDie 0).data 0xE0 % 64))).map fun k =>
    (s.otpDie 0).data (0x80 + 2 * k) + 2 ^ 64 * (s.otpDie 0).data (0x81 + 2 * k)

/-- OTP_CHECK: step 3. The straps CID give the device its number; a voiding that power or a reset cut short completes first; corrected and TORN
rows are posted; when integrity fails the policy row decides: both dies stay in reset, or the strict defaults hold; else the safety net is
in force and the islands power up (R371, R445, R446, R459, R475, R490, R502). -/
def execOtpCheck (s : State) : Host.Outcome State Fault Refusal :=
  if s.start.step ≠ 3 ∨ s.nvm.inReset = true then .next s
  else
    let ecc := s.eccRows
    let s : State := { s with ring := { s.ring with num := s.pwr.cid % 64 } }
    let s := ecc.foldl (fun (s : State) e => s.postDie 0x8B e.1 e.2) s
    let s := if s.voidRow && !s.nvm.void then s.voidSecrets.voided else s
    let bad := s.integrityBad
    let s : State := { s with nvm := { s.nvm with unprov := s.unprovisioned, hold := s.holdPolicy, serial := s.serialOtp
                                                  result := if bad then 2 else if ecc.isEmpty then 0 else 1 } }
    if bad && s.holdPolicy then .next { s with nvm := { s.nvm with inReset := true } }
    else
      let net := if bad then [] else s.netOtp
      let s : State := { s with cfg := { s.cfg with netOrders := net, orders := ordersOf net [] none }
                                nvm := { s.nvm with inReset := false }
                                host := { s.host with islA := true, islB := true } }
      let s := if bad then s.pswOpen 4 else s
      .next (s.modStart fun x => { x with step := 4 })

/-- The failed tests of a die are posted, test by test (R463). -/
def State.postFails (s : State) (die mask : Nat) : State :=
  ((List.range 8).filter fun k => bit mask k).foldl (fun (s : State) k => s.postDie 0x90 die k) s

/-- SELF_TEST_DONE: step 4, with the failed tests of Die A, Die B and Die P (Table 19.2); with TEST_EN high every test counts as failed (R502).
The barker state for a failed Die P, for two failed control dies and under the strict defaults; one failed control die is benched; a failed
ISLAND takes only its island out (R465, R466, R472). -/
def execSelfTestDone (a b p : Nat) (s : State) : Host.Outcome State Fault Refusal :=
  if s.start.step ≠ 4 then .next s
  else
    let a := if s.pwr.testEn then 0xBF else a &&& 0xBF
    let b := if s.pwr.testEn then 0xBF else b &&& 0xBF
    let p := if s.pwr.testEn then 0x5F else p &&& 0x5F
    let s := s.modStart fun x => { x with failA := a, failB := b, failP := p, doneA := true, doneB := true, doneP := true }
    let s := ((s.postFails 0 a).postFails 1 b).postFails 2 p
    let s : State := { s with host := { s.host with islA := !bit a 7, islB := !bit b 7 } }
    let fa := decide (a % 128 ≠ 0)
    let fb := decide (b % 128 ≠ 0)
    let s := if decide (p ≠ 0) || (fa && fb) || s.nvm.result == 2 then s.enterBarker
      else if fa then
        let s := (s.benchDie .a 7).setDie .b .active
        let s := s.setBias .b true
        { s with arb := { s.arb with active := some .b, engine := .b, engineMove := false } }
      else if fb then
        let s := (s.benchDie .b 7).setDie .a .active
        let s := s.setBias .a true
        { s with arb := { s.arb with active := some .a, engine := .a, engineMove := false } }
      else
        let s := ((s.setDie .a .active).setDie .b .standby).setBias .a true
        let s := s.setBias .b true
        { s with arb := { s.arb with active := some .a, engine := .a } }
    .next (s.modStart fun x => { x with step := 5, enter5 := s.time.clk })

/-- The slots that step 6 tries, in order (R482). -/
def State.slotOrder (s : State) : List Bool :=
  match s.nvm.pref with
  | some b => [b, !b]
  | none => [false, true]

/-- Try the slots in order: the first sound one is loaded, each other one before it is posted as IMAGE_REJECT (R469, R482). -/
def State.trySlots (s : State) : List Bool → State
  | [] => s.modStart fun x => { x with noimg := true }
  | b :: l => match s.checkSlot b with
    | .ok x => s.loadImage b x
    | .error r => (s.postDev 0x98 (b2n b) r.status).trySlots l

/-- IMAGE_LOAD: step 6. A sound slot is loaded or none can be; with a control die benched ONE_DIE decides; START carries the cause. An
UNPROVISIONED device loads no image and stays at this step (R448, R463, R469, R482). -/
def execImageLoad (s : State) : Host.Outcome State Fault Refusal :=
  if s.start.step ≠ 6 ∨ s.time.counting = false ∨ s.start.barker = true then .next s
  else if s.unprovisioned then .next (s.modStart fun x => { x with noimg := true })
  else
    let s := s.trySlots s.slotOrder
    let s := if s.cfg.inForce.isSome then s.oneDie else s
    let s := s.postDev 0x91 s.start.cause
    if s.start.barker then .next s else .next (s.modStart fun x => { x with step := 7, ownFrom := s.time.clk })

/-- OWNER_WAIT_END: at a round boundary of step 7, an owner is in force, or OWN_WAIT rounds have passed: START_NOOWN with the rounds waited.
OWN_WAIT = 0 skips the wait, 0xFFFF waits without limit (R351, R470). -/
def execOwnerWaitEnd (s : State) : Host.Outcome State Fault Refusal :=
  let w := StartCfg.ownWait s.stcfg
  if s.start.step ≠ 7 ∨ s.bnd % 4000 ≠ 0 then .next s
  else
    let owner := s.owned
    if owner || w == 0 then .next (s.modStart fun x => { x with step := 8, ownFrom := s.bnd })
    else if w = 65535 ∨ s.bnd < s.start.ownFrom + 4000 * w then .next s
    else .next (s.atBoundary fun s => (s.modStart fun x => { x with step := 8, ownFrom := s.time.clk, noown := true }).postDev 0x93 w)

/-- The programmes with AUTO = 1 and CHAIN = 1 start (R222, R471). -/
def State.chainStart (s : State) : State :=
  let s := (List.finRange 8).foldl (fun (s : State) n =>
    let w := s.progcfg n
    if SeqProg.defd w && SeqProg.auto w && SeqProg.chain w then s.seqRunChainAct n none else s) s
  s.modStart fun x => { x with chainAuto := true }

/-- SEQUENCE_STEP: a round boundary of step 8 at which something starts: the first slot, at the next round boundary after the step began; or
the chain programmes with AUTO = 1, on the keeper at least 2 rounds after it has seen every device in service reach step 8 (R247, R471, log
entry 66). -/
def execSequenceStep (s : State) : Host.Outcome State Fault Refusal :=
  if s.start.step ≠ 8 ∨ s.bnd % 4000 ≠ 0 ∨ s.cfg.inForce.isNone = true ∨ s.bnd < s.start.ownFrom + 4000 then .next s
  else if s.pwr.slot = 0 then .next (s.atBoundary State.slotStart)
  else if s.start.chainAuto then .next s
  else if s.own.keeper = s.ring.num ∧ s.ring.ready8.any (fun b => decide (b + 8000 ≤ s.bnd)) = false then .next s
  else .next (s.atBoundary State.chainStart)

/-- Die A's interface island is out of service: LINK_DOWN on a head, and both ring links are cut (R19, R465, Table 21.13). -/
def State.islandDown (s : State) : State :=
  let s : State := { s with host := { s.host with islA := false } }
  let cut := fun (x : LinkSt) => { x with rxDown := true, wrapPend := true : LinkSt }
  (s.pcieDown.modLink .east cut).modLink .west cut

/-- SUPPLY_MONITOR_TRIP: a device supply leaves its window (Table 21.3): SELF against the control die it supplies, Die A's island out of service
for VDDSD, VAON_LOW for VAON. The levels of VDD33 are POWER_FAIL and SUPPLY_RESET. -/
def execSupplyMonitorTrip (k : Supply) (s : State) : Host.Outcome State Fault Refusal :=
  let self := fun (d : Cd) => ({ s with arb := { s.arb with selfPend := s.arb.selfPend.set d.ix true } } : State)
  match k with
  | .vddcA => .next (self .a)
  | .vdd18A => .next (self .a)
  | .vddcB => .next (self .b)
  | .vdd18B => .next (self .b)
  | .vddsd => .next s.islandDown
  | .vaon =>
    if s.pwr.vaonOk then .next (({ s with pwr := { s.pwr with vaonOk := false } } : State).postDev 0x3D) else .next s

end Sys2Proof.Machine
end

