-- ==== Sys2Proof/Machine/Reads.lean ====
section
/-! DEFINITION. The reads that no other chapter holds (R290, R344, R345), and tickets whose opcode is not in the catalogue (R346). -/

namespace Sys2Proof.Machine

/-! ### Telemetry words -/

/-- Byte 17 of a TELEM_READ names a sub-unit that the word has (Table 13.5). -/
def subOk (sel sub : Nat) : Bool :=
  match sel with
  | 3 => decide (sub < 8)
  | 4 => decide (sub < 2)
  | 5 => decide (sub < 76)
  | _ => sub == 0

/-- The floors of a rail: 32 entries of 4 bytes, the client in [11:0] and the floor in [31:16] (Table 13.5). -/
def RailSt.floorWords (x : RailSt) : List Nat :=
  (List.range 32).flatMap fun k => match x.floors[k]? with
    | some f => leBytes 4 (fld f.1 12 0 + fld f.2 16 16)
    | none => [0, 0, 0, 0]

/-- The records of a rail in force: RAIL_CFG, RAIL_COMP, FC_CFG, SUP_CFG, RAIL_CHAIN, MP_CFG (Table 13.5). -/
def State.railRecords (s : State) (r : Rail) : List Nat :=
  leBytes 32 (s.rcfg r) ++ leBytes 32 (s.rcomp r) ++ leBytes 16 (s.fccfg r) ++ leBytes 16 (s.supcfg r) ++ leBytes 16 (s.rchain r)
    ++ leBytes 16 (s.mpcfg r)

/-- TELEM_READ: the word that byte 16 selects, in VALUE or in the segments (R344). -/
def execTelemRead (t : Tkt) (s : State) : Host.Outcome State Fault Refusal :=
  let sel := t.byte 16
  let sub := t.byte 17
  let seg := decide (6 ≤ sel ∧ sel ≤ 9)
  runTicket t 0x200 s { rng := [(1, !seg || t.sg), (16, decide (sel ≤ 10)), (17, subOk sel sub)], free := true } fun u =>
    match sel, t.rail, t.phase with
    | 0, some r, _ => u.ok t 0 (u.railStat r)
    | 1, _, some p => u.ok t 0 (u.phStat p + fld (u.phAt p).wear 32 32)
    | 2, some r, _ => u.ok t 0 (u.supStat r)
    | 3, _, _ => u.ok t 0 (match progOf sub with
        | some n => u.seqStat n
        | none => 0)
    | 4, _, _ => u.ok t 0 (u.feedAt (if sub = 0 then .a else .b)).word
    | 5, _, _ => u.ok t 0 (if h : sub < 76 then u.thermSrc ⟨sub, h⟩ else 0)
    | 6, _, _ => u.answer t 0 (leBytes 16 u.thermStat)
    | 7, some r, _ => u.answer t 0 (leBytes 16 (u.railAt r).capW.word ++ leBytes 16 (u.railAt r).capF.word)
    | 8, some r, _ => u.answer t 0 (u.railAt r).floorWords
    | 9, some r, _ => u.answer t 0 (u.railRecords r)
    | 9, none, some p => u.answer t 0 (leBytes 16 (u.pcfg p) ++ leBytes 4 (u.pool p))
    | _, _, _ => u.ok t 0 u.log.latches

/-! ### Bulk reads -/

/-- A byte list brought to a length, 0 where nothing is held (log entry 5). -/
def padTo (n : Nat) (l : List Nat) : List Nat := l.take n ++ List.replicate (n - l.length) 0

/-- The size per device of a bulk source (Table 13.6). -/
def bulkSize (src : Nat) : Nat :=
  match src with
  | 0 => 131072
  | 1 => 65536
  | 2 => 262144
  | 3 => 262144
  | _ => 4096

/-- The bytes of a bulk source of this device (Table 13.6). -/
def State.bulk (s : State) (src : Nat) : List Nat :=
  match src with
  | 0 => (List.range 4096).flatMap fun p => leBytes 32 (((s.log.journal.find? fun e => e.1 == p).map Prod.snd).getD 0)
  | 1 => padTo 65536 (s.log.trace.reverse.flatMap TraceEnt.bytes)
  | 2 => Mem.bytes s.nvm.slotA 0 262144
  | 3 => Mem.bytes s.nvm.slotB 0 262144
  | _ => padTo 4096 (s.log.snap.flatMap (leBytes 4))

/-- The size of the whole that a bulk read addresses: the source of one device, or of every device of the chain (R345). -/
def State.bulkWhole (s : State) (t : Tkt) (src : Nat) : Nat := bulkSize src * (if t.chain then s.others.length + 1 else 1)

/-- This device's part of a read over the whole chain: the bytes `a … b - 1` of the whole, the device's own standing at its number (R345). -/
def State.bulkSlice (s : State) (src a b : Nat) : List Nat :=
  let lo := s.ring.num * bulkSize src
  ((s.bulk src).take (b - lo)).drop (a - lo)

/-- BULK_READ: the first LEN bytes of a source, to its end at most, from CURSOR on; with CHAIN = 1 of every device of the chain in device order.
SHORT when the segments do not hold what is left of them; a CURSOR beyond the data asked for is malformed. SNAPSHOT needs CNTR too (R326,
R327, R335, R345, R415). -/
def execBulkRead (t : Tkt) (s : State) : Host.Outcome State Fault Refusal :=
  let src := t.byte 16
  let len := t.le 20 4
  let cur := t.le 24 4
  let fin := min len (s.bulkWhole t src)
  let fwd := s.isFwd t
  runTicket t 0x210 s
    { perm := if src = 4 then some 140 else none
      rng := [(16, decide (src < 5)), (20, decide (1 ≤ len)), (24, decide (cur ≤ fin))]
      pre := [failIf (decide (16777216 < len)) { status := 0x20, value := 16777216 }], free := true } fun u =>
    if t.chain then
      let lo := max cur (u.ring.num * bulkSize src)
      let bs := u.bulkSlice src lo fin
      if fwd then u.stub { ref := t.ref, value := fld bs.length 32 0 } bs
      else (u.fill (segDrop t.segs (lo - cur)) bs).chainPart t (fitReply (segSum t.segs) cur (fin - cur)) none (bulkSize src)
    else u.answer t cur (((u.bulk src).take fin).drop cur)

/-! ### Margin-plan proposals -/

/-- A pending proposal in VALUE form (Table 13.7). -/
def Proposal.word (x : Proposal) : Nat :=
  fld x.kind 8 0 + fld x.target 8 8 + fld x.num 16 16 + fld (uword 16 x.v1) 16 32 + fld (uword 16 x.v2) 16 48

/-- MP_READ: one proposal in VALUE, BAD_TARGET when it is not pending for the unit; 0xFFFF lists all pending in the segments (R290, log entry
47). -/
def execMpRead (t : Tkt) (s : State) : Host.Outcome State Fault Refusal :=
  let n := t.le 16 2
  let mine := fun (x : Proposal) => x.num == n && (match t.rail, t.phase with
    | some r, _ => x.kind != 2 && x.target == r.val
    | none, some p => x.kind == 2 && x.target == p.val
    | none, none => false)
  runTicket t 0x220 s { rng := [(1, n != 65535 || t.sg)], pre := [failIf (n != 65535 && !s.therm.props.any mine) badTarget], free := true } fun u =>
    if n = 65535 then u.answer t 0 (u.therm.props.flatMap fun x => leBytes 8 x.word)
    else match u.therm.props.find? mine with
      | some x => u.ok t 0 x.word
      | none => u.ok t

/-! ### Opcodes outside the catalogue -/

/-- UNKNOWN_OPCODE: malformed at byte 0, after the check of the generation; another device's ticket is refused by the head that fetched it
(R340, R346). -/
def execUnknownOpcode (t : Tkt) (s : State) : Host.Outcome State Fault Refusal :=
  if t.rowKey ≠ 4096 then .refused .illFormed
  else if s.ready t = false then .next s
  else
    let u := s.takeTicket
    if s.isFwd t = false ∧ t.gen ≠ (s.client t.client).gen then .next (u.reply t { status := 0x10 }) else .next (u.reply t (malformed 0))

end Sys2Proof.Machine
end

