-- ==== Sys2Proof/Machine/Tick.lean ====
section
/-! DEFINITION. The three ticks of Table 1.8: what a beat, a frame and a round boundary do, in the order of R29, and how an
overrun of each is held (R39). -/
namespace Sys2Proof.Machine
open Sys2Proof

/-! ### Effects at their boundary -/

/-- READMIT of a gang member acts: its self-test starts (R138, log entry 20). -/
def State.readmitGangAct (s : State) (r : Rail) (ref : TkRef) : State :=
  let g := s.gang[r.val]
  if g.role = .detached ∧ g.readmit.isNone = true then s.modGang r fun g => { g with readmit := some ref } else s.final ref 0x23

/-- The bench of a control die acts, or waits for a running vote (R189, Table 6.11). -/
def State.benchDieDue (s : State) (d : Cd) (cause : Nat) : State :=
  let x := s.benchDieAct d
  if x.2 then { x.1 with sched := x.1.sched ++ [{ nb := 0, per := .beat, act := .benchDie d cause }] } else x.1

/-- An effect acts (R30). A selected overlay is switched to ahead of the other effects of the boundary (R349, R488). -/
def State.runAct (s : State) : Act → State
  | .nop => s
  | .avsVreq r mv => s.modRail r fun x => { x with vreq := mv, vreqAcc := true }
  | .avsRate r up dn => s.modRail r fun x => { x with avsUp := up, avsDn := dn }
  | .setVreq r mv => s.modRail r fun x => { x with lastSet := some mv }
  | .setFloor r c mv => s.modRail r fun x => { x with floors := x.vote c mv }
  | .setEnv r lo hi => s.modRail r fun x => { x with envLo := some lo, envHi := some hi }
  | .cancelFc c q r => s.fcCancel c q r.val
  | .trustSet c r t => (s.setTrust c r.val t).trustReport c r.val
  | .benchPhase p c => s.benchOwner p c
  | .benchRail r c => s.benchRailOut r c
  | .benchDie d c => s.benchDieDue d c
  | .benchDev n => s.benchDevAct n
  | .rtcSet c => s.rtcSetAct c
  | .rtcShift n => s.rtcShiftAct n
  | .order i u thr wait => s.orderAct i u thr wait
  | .seqRun n ref ord => s.seqRunAct n ref ord
  | .seqSkip n => if (s.seq[n.val]).running then s.modSeq n fun x => { x with skipPend := true } else s
  | .seqAbort n => if (s.seq[n.val]).running then s.modSeq n fun x => { x with abortPend := true } else s
  | .clearLatch r m ref w => s.clearLatch r m ref w
  | .readmitPhase p ref => s.readmitPh p ref
  | .readmitRail r ref => s.readmitRail r ref
  | .readmitDie d ref => s.readmitDieStart d ref
  | .readmitCharger ref => s.readmitChargerAct ref
  | .readmitGang r ref => s.readmitGangAct r ref
  | .readmitDev n ref => s.readmitDevAct n ref
  | .readmitPort k ref => s.readmitPortAct k ref
  | .swap _ => s.swapAct
  | .thermClear k => s.thermClear k
  | .meterStart n => if h : n < 32 then s.meterStart ⟨n, h⟩ else s
  | .meterStop n => if h : n < 32 then s.meterStop ⟨n, h⟩ else s
  | .meterClear m => s.meterClear m
  | .alarmClear m => s.alarmClearAct m
  | .seqRunChain n ref => s.seqRunChainAct n ref
  | .overlaySelect _ _ => s
  | .mpAccept n => s.mpAcceptAct n
  | .mpReset t b => s.mpResetAct t b
  | .hkSwitch k on => s.hkSwitchAct k on
  | .wdArm k p c => s.wdArmAct k p c
  | .wdDisarm k => s.wdDisarmAct k
  | .rtcWake w => s.rtcWakeAct w
  | .chgSet n => s.modPack fun x => { x with ichg := n }
  | .shipArm keep => s.shipArmAct keep
  | .shipCancel => s.shipCancelAct
  | .cntCtl b c l ch sm => s.cntCtlAct b c l ch sm
  | .imageCommit ref => s.imageCommitAct ref
  | .railOn r => s.railOnAct r
  | .railOff r => s.railOffAct r
  | .cutRails => rails.foldl State.enterOff s
  | .pgSet k on => s.pgAct k on
  | .overlayCommit ref i n => s.overlayCommitAct ref i n

/-- BUDGET, with the sums that an effect would give, where a period would then exceed its capacity (R37). -/
def State.overNow (s : State) (a : Act) : Option Reply :=
  let t := s.chargeAct a
  failIf (!t.fits) { status := 0x22, value := t.sumsValue }

/-- The checks of a ticket against the configuration, made again for its effect: the reply where one fails (R349). -/
def State.actBad (s : State) : Act → Option Reply
  | .setVreq r _ => failIf (RailCfg.avsEn (s.rcfg r)) busy
  | .setEnv r lo hi => failIf (decide (lo < RailCfg.vminOwn (s.rcfg r) ∨ RailCfg.vmaxOwn (s.rcfg r) < hi)) (denied 3)
  | .hkSwitch k _ => failIf (!HkCfg.en (s.hkcfg k)) badTarget
  | .seqRun n (some _) _ => failIf (!SeqProg.defd (s.progcfg n)) badTarget
  | .meterStart n => (match seqOf n with
    | some k => if MeterSeqCfg.defd (s.mcfg k) then s.overNow (.meterStart n) else some badTarget
    | none => none)
  | .wdArm k p c => s.overNow (.wdArm k p c)
  | _ => none

/-- An effect that fails its check is not taken: a run still to be answered gets the failing status, every other ticket has had its stub (R349, log
entry 126). -/
def State.actFails (s : State) (a : Act) (r : Reply) : State :=
  match a with
  | .seqRun _ (some ref) _ => s.final ref r.status r.extra r.value
  | _ => s

/-- An effect acts; on a boundary on which an overlay has come into force it is checked against that overlay first (R349). -/
def State.actNow (s : State) (a : Act) : State :=
  if s.cfg.switchAt = some s.time.clk then
    match s.actBad a with
    | some r => s.actFails a r
    | none => s.runAct a
  else s.runAct a

/-- The effects of a period that are due at this boundary act in the order they were posted (R30); INTENT_CRC follows the intent fields that
they have changed (R167). -/
def State.runDue (s : State) (per : Period) : State :=
  if (s.due per).isEmpty then s else ((s.due per).foldl State.actNow (s.undue per)).intentCrcs

/-- A commit of an image or an overlay (R482, R487). -/
def Act.commits : Act → Bool
  | .imageCommit _ => true
  | .overlayCommit _ _ _ => true
  | _ => false

/-! ### The beat -/

/-- The count of the new beat. Where the device starts the chain clock, the beat is number 0, the clock counts from there on, and start-up
step 5 ends (R31, R384, R467, R468). -/
def State.nextBeat (s : State) : State :=
  if s.time.startPend then
    let s := s.rebase 0
    let t := s.time
    let hs := s.heads
    { s with time := { t with counting := true, startPend := false }
             start := { s.start with step := if s.start.step = 5 ∧ s.start.barker = false then 6 else s.start.step }
             ring := { s.ring with aligned := s.ring.aligned || !s.start.solo, almAll := hs } }
  else { s with time := { s.time with clk := s.time.clk + 1 } }

/-- This device computes the loop of a rail: it closes it, or shadows it as the deputy of a gang (R137). -/
def State.loops (s : State) (r : Rail) : Bool := s.railEn r && (s.leads r || (s.gang[r.val]).role == .deputy)

/-- The rails whose result on a die was late for the edge scheduling of the new beat. -/
def State.lateRails (s : State) (d : Cd) (l : List Rail) : List Rail := if s.dieOut d then [] else rails.filter fun r => l.contains r && s.loops r

/-- A beat overrun is counted, flagged and reported for each die; the rails it touched stand out of the next lending decision, and those of
one die alone out of the comparison (R39, R41, R43). -/
def State.beatOverrun (s : State) (la lb : List Rail) : State :=
  if la.isEmpty && lb.isEmpty then s
  else
    let o := s.ovr
    let held := Vector.ofFn fun (r : Rail) => o.heldRails[r.val] || la.contains r || lb.contains r
    let s : State := { s with ovr := { o with beat := satAdd 16 o.beat 1, beatFlag := true, heldRails := held } }
    let s := rails.foldl (fun (s : State) (r : Rail) =>
      let a := la.contains r
      let b := lb.contains r
      let s := if a || b then s.count (0x040 + r.val) 1 1 else s
      if a != b then s.modRail r fun x => { x with railOverrun := true } else s) s
    let s := if la.isEmpty then s else (s.count 0x050 1 1).postDev 0x00 0 0
    if lb.isEmpty then s else (s.count 0x051 1 1).postDev 0x00 0 1

/-- The commands that take effect on a rail at the boundary, before the capture. A gang's other members take the ends of ramps from the leader
(R133, R137). -/
def State.railStart (s : State) (r : Rail) : State :=
  if !s.railEn r then s
  else
    let s := (((s.fallback r).slewMove r).compose r).gangBeat r
    let s := if s.leads r then s.slewEnd r else s
    ((s.catchAddStep r).slotJoin r).lightStep r

/-- The capture of the phase currents (R28). -/
def State.captureAll (s : State) : State := { s with phd := s.phd.map fun v => v.map PhDie.capture }

/-- Forecasts in force and the current of a rail on both dies (R82, R154, R157). -/
def State.railCurrent (s : State) (r : Rail) : State :=
  if s.railEn r then ((s.fcBeat r).currentStep .a r).currentStep .b r else s

/-- The high interval that a die makes of a rail's duty for a phase's next cycle: its own u, or on a gang the command of the beat before, as every
member uses it; none in a catch-OV; a rail whose result is late repeats the last one (R39, R100, R104, R133, R134). -/
def State.dutyHi (s : State) (r : Rail) (late : Cd → Bool) (p : Ph) (d : Cd) (len : Nat) : Nat :=
  let g := s.gang[r.val]
  if s.ganged r && g.role != .leader then s.gangHi r p g.u d len
  else if (s.gangCatch r).1 = 2 then 0
  else if late d then (s.phDie d p).hi
  else if s.ganged r then s.hiOf d r p g.u g.myK len
  else s.hiOf d r p (s.railDie d r).u0 0 len

/-- The loop of a rail on both dies, its trims and the schedule of its edges (R96, R101, R133, R134, R166). -/
def State.railLoop (s : State) (la lb : List Rail) (r : Rail) : State :=
  if !s.railEn r then s
  else
    let late := fun (d : Cd) => (if d = .a then la else lb).contains r
    let s := if s.loops r then (s.regulate .a r (late .a)).regulate .b r (late .b) else s
    let s := (s.drivenOf r).foldl (fun (s : State) p => (s.trimStep .a r p).trimStep .b r p) s
    let uv := (s.gangCatch r).1 == 1
    let s := (s.drivenOf r).foldl (fun (s : State) p => s.schedule r (s.dutyHi r late p) uv p) s
    let s := if s.loops r then s.shadow r else s
    s.gangSend r (s.railAct r).u0

/-- What a rail records of the beat (R159, R170, R174, R199, R212). -/
def State.railRecord (s : State) (r : Rail) : State :=
  if !s.railEn r then s
  else
    let s := (((s.dischargeBeat r).laneBeat r).fcSample r).blankBeat r
    (s.modRailDie .a r fun x => x.halfAdd (s.drivenBy .a r).length).modRailDie .b r fun x => x.halfAdd (s.drivenBy .b r).length

/-- What a phase records of the beat (R70, R287). -/
def State.phRecord (s : State) (p : Ph) : State := if s.fitted p then (s.wearBeat p).ageBeat p else s

/-- CHAT counts the frames of one round (R205). -/
def State.chatBeat (s : State) : State :=
  if s.time.clk % 4000 = 0 then { s with rail := s.rail.map fun (x : RailSt) => { x with chat := 0 } } else s

/-- The beat count of the regulation pipelines in service (Table 16.6). -/
def State.dieCount (s : State) (blk : Nat) : State :=
  let s := if s.dieOut .a then s else s.count blk 0 1
  if s.dieOut .b then s else s.count (blk + 1) 0 1

/-- The regulation pipelines' work of a beat (Table 1.8, Table 1.9). -/
def State.beatPipeline (s : State) (i : BeatIn) : State :=
  let s := (s.arbBeat.fastDetect i.noTokA i.noTokB).biasSense
  let s := phases.foldl State.phBeatCauses s
  let s := rails.foldl State.railStart s
  let s := rails.foldl State.chirpBeat s
  let s := phases.foldl (fun (s : State) p => if s.fitted p then s.cycleBeat p else s) s
  let s := s.captureAll
  let s := if s.time.clk % 32 = 16 then s.halfClose else s
  let s := rails.foldl State.railCurrent s
  let la := s.lateRails .a i.lateA
  let lb := s.lateRails .b i.lateB
  let s := s.beatOverrun la lb
  let s := rails.foldl (fun (s : State) r => s.railLoop la lb r) s
  let s := rails.foldl State.railRecord s
  let s := phases.foldl State.phRecord s
  ((s.dieCount 0x050).count 0x050 3 i.eccA).count 0x051 3 i.eccB

/-- BEAT_TICK: the beat starts, the commands due at it take effect, and its work is done (R27 to R30, R39). -/
def execBeatTick (i : BeatIn) (s : State) : Host.Outcome State Fault Refusal :=
  let s := (s.nextBeat.chatBeat).runDue .beat
  .next (((s.beatPipeline i).meterBeat).feedBeat).ringBeat

/-! ### The frame -/

/-- The samples of a frame whose work is discarded: the next frame starts from fresh ones (R39). -/
def State.frameDiscard (s : State) : State :=
  let clr := fun (y : PhDie) => { y with fSum := 0, fN := 0, quiet := true, raised := false }
  let s : State := { s with phd := s.phd.map fun v => v.map clr
                            ph := s.ph.map fun (x : PhaseSt) => { x with idleFull := x.st == .idle }
                            gang := s.gang.map fun (g : GangSt) => { g with iframe := Vector.replicate 4 0 }
                            lend := { s.lend with noLend := false } }
  s.meterDiscard

/-- The phase work that the frame engine decides: derating and sheds, the demand of every rail, lending, rotation, gang trims, region budgets
and the interleave (R49, R60, R62, R63, R72, R106, R107, R121, R128, R129, R136). -/
def State.frameDecide (s : State) : State :=
  let s := phases.foldl (fun (s : State) p => if s.fitted p then s.phLearn p else s) s
  let s := phases.foldl State.derate s
  let s := rails.foldl (fun (s : State) r => if s.railEn r then (s.demandFrame r).lightFrame r else s) s
  let s := s.lendFrame
  let s := phases.foldl (fun (s : State) p => if s.fitted p then s.phFrame p else s) s
  let s := s.rotApply
  let s := rails.foldl (fun (s : State) r => if s.railEn r then s.gangTrim r else s) s
  let s := (List.finRange 6).foldl State.regionBudget s
  rails.foldl (fun (s : State) r => if s.railEn r then s.respaceFrame r else s) s

/-- The work the frame engines count: frames, meter steps, near-limit sources (Table 16.6). -/
def State.frameCount (s : State) : State :=
  let n := countP MeterSeq.active s.mseq.toList
  let k := countP (fun (x : SrcSt) => x.near && !x.suspect) s.therm.src.toList
  let s := s.dieCount 0x052
  let s := if s.dieOut .a then s else (s.count 0x052 6 n).count 0x052 7 k
  if s.dieOut .b then s else (s.count 0x053 6 n).count 0x053 7 k

/-- The readings of a frame and what is evaluated on them. With the frame held the sums are empty, so no reading changes (R39, R235, R236,
R266, R276, R299). -/
def State.frameReadings (s : State) (held : Bool) : State :=
  let s := (s.feedFrame .a).feedFrame .b
  let s := if held then s else s.shareFrame.pinFrame
  let s := s.packFrame
  let s := if held then s.pkgFrame else s.thermFrame
  let s := (s.meterFrame held).thermSlots
  if held then s else rails.foldl State.vinFrame s

/-- The frame engines' work at a frame boundary (Table 1.8). `la` and `lb`: the die's frame engine was late; the frame that an adoption of
the chain's count cuts short counts as an overrun too (R385). -/
def State.frameWork (s : State) (i : FrameIn) : State :=
  let la := i.lateA && !s.dieOut .a
  let lb := i.lateB && !s.dieOut .b
  let cut := s.ovr.frameHeld
  let held := la || lb || cut
  let s := i.badIntent.foldl State.intentCorrupt s
  let s := ({ s with ovr := { s.ovr with frameHeld := false } } : State).frameOverrun (la && !cut) (lb && !cut)
  let s := (s.runDue .frame).dieTestFrame
  let s := (s.twinFrame i.noRecords (la || cut) (lb || cut)).stallFrame (la || cut) (lb || cut)
  let s := s.fcScores
  let s := (List.finRange 8).foldl State.seqFrame s
  let s := rails.foldl (fun (s : State) r => s.supFrame held r) s
  let s := if held then s.frameDiscard else s.frameDecide
  let s : State := { s with ovr := { s.ovr with heldRails := Vector.replicate 12 false } }
  let s := rails.foldl State.gangReport s
  let s := (s.frameReadings held).frameCount
  (if held then s else s.playbookFrame).snapFrame

/-- FRAME_TICK: the reports, the staging and the messages of the frame that ends, then the frame engines' work (R27, R39, R330, R401, R403).
Without a frame boundary at hand nothing happens. -/
def execFrameTick (i : FrameIn) (s : State) : Host.Outcome State Fault Refusal :=
  if s.bnd % 32 = 0 then .next (s.atBoundary fun s => (((s.msixFrame).ringFrame).stageFrame).frameWork i) else .next s

/-! ### The round -/

/-- The least-squares fit of drop in mV on current in 0.1 A: the slope in µΩ and the offset in 0.1 mV, unbounded, with the slope kept where
the currents span less than 1 A (R94). -/
def dropFit (l : List (Q × Q)) (g : Q) : Q × Q :=
  let n := l.length
  let sx := l.foldl (fun a x => Q.add a x.1) {}
  let sy := l.foldl (fun a x => Q.add a x.2) {}
  let sxx := l.foldl (fun a x => Q.add a (Q.mul x.1 x.1)) {}
  let sxy := l.foldl (fun a x => Q.add a (Q.mul x.1 x.2)) {}
  let lo := (l.map Prod.fst).foldl (fun a x => if Q.lt x a then x else a) ((l.map Prod.fst).getD 0 {})
  let hi := (l.map Prod.fst).foldl (fun a x => if Q.lt a x then x else a) ((l.map Prod.fst).getD 0 {})
  let den := Q.sub (Q.mul (Q.ofInt n) sxx) (Q.mul sx sx)
  let slope := if Q.lt (Q.sub hi lo) (Q.ofInt 10) || den.num == 0 then g
    else Q.mul (Q.div (Q.sub (Q.mul (Q.ofInt n) sxy) (Q.mul sx sy)) den) (Q.ofInt 10000)
  let off := Q.sub (Q.divN (Q.mul sy (Q.ofInt 10)) (max 1 n)) (Q.divN (Q.mul slope sx) (1000 * max 1 n))
  (slope, off)

/-- A number held between two bounds. -/
def Q.clamp (lo hi : Int) (x : Q) : Q := if Q.lt x (Q.ofInt lo) then Q.ofInt lo else if Q.lt (Q.ofInt hi) x then Q.ofInt hi else x

/-- A die learns the drop of a rail from a round in which it had in-band remote comparisons: the means of the last 256 such rounds, G from 0
to 1,000 µΩ, D0 to ±50 mV (R94). -/
def RailDie.learnDrop (x : RailDie) : RailDie :=
  let y : RailDie := { x with ioutRound := {}, dropRound := 0, dropN := 0, iN := 0 }
  if x.iN = 0 ∨ x.dropN = 0 then y
  else
    let l := ((Q.divN x.ioutRound x.iN, Q.divN (Q.ofInt x.dropRound) x.dropN) :: x.fit).take 256
    let f := dropFit l x.g
    { y with fit := l, g := Q.clamp 0 1000 f.1, d0 := Q.clamp (-500) 500 f.2, hasFit := true }

/-- The control dies' work of a round, which no management core can delay: the drop of each rail, and the calibration of each channel's delay
lines in its next cycle (R53, R94). -/
def State.dieRound (s : State) : State :=
  { s with raild := s.raild.map fun v => v.map RailDie.learnDrop
           ph := s.ph.map fun (x : PhaseSt) => { x with calib := true } }

/-- A member whose cycle grid runs from its own timebase reports once per round a gang that has lost alignment by more than Q/64. How far the
grids lie apart only the hardware shows: a free value, in units of 78.125 ps (R141, log entry 75). -/
def State.alignRail (s : State) (r : Rail) : State :=
  let role := (s.gang[r.val]).role
  if !s.railEn r || !s.ganged r || role == .none || role == .detached then s
  else
    let d := s.draw (2 ^ 32)
    if Q.lt (s.qOf r) (Q.ofInt (64 * d.1 : Nat)) then d.2.postRail 0x10 r d.1 else d.2

/-- The alignment of the gangs in a round in which the device runs from its own timebase (R141). -/
def State.alignRound (s : State) : State := if s.time.gridOwn then rails.foldl State.alignRail s else s

/-- A round overrun is counted, flagged and reported (R39, R43). The event names the die that hosts the ticket engine. -/
def State.roundOverrun (s : State) : State :=
  let o := s.ovr
  ({ s with ovr := { o with round := satAdd 16 o.round 1, roundFlag := true } } : State).postDev 0x00 2 s.arb.engine.ix.val

/-- The commands of a round boundary: the commits act, then the overlay that is selected comes into force, then the other effects, checked
against it, and last an automatic revision that waited for it (R29, R293, R349, R488, R493). -/
def State.roundCommands (s : State) : State :=
  let l := s.due .round
  let t := (l.filter Act.commits).foldl State.runAct (s.undue .round)
  let u := (l.filter fun a => !a.commits).foldl State.actNow (t.ovlSwitch (t.selections l))
  (if l.isEmpty then u else u.intentCrcs).autoLate

/-- The allowances of forecasts start anew with the round, and the final stubs that waited for its ticket window are written (R149, R157,
R160). -/
def State.fcRound (s : State) : State :=
  ({ s with fc := { s.fc with filed := [], usedRail := Vector.replicate 12 0, usedCli := [] } } : State).fcFinals

/-- The keeper has seen every device in service reach step 8 (R476). -/
def State.readyRound (s : State) : State :=
  let all := s.own.keeper == s.ring.num && decide (8 ≤ s.start.step) && s.inChain.all fun d => (s.devAt d).step8
  if s.ring.ready8.isNone && all then { s with ring := { s.ring with ready8 := some s.time.clk } } else s

/-- The management core's work of a round (Table 1.8). A late round's unfinished work runs first in the round that starts, at this boundary;
only its commands wait for the next boundary without an overrun (R39, log entry 74). -/
def State.roundWork (s : State) (late : Bool) : State :=
  let s := s.dieRound
  let s := if late then s.roundOverrun else s.roundCommands
  let s := ((s.feedRound).hkRound).packRound
  let s := ((s.voteRound).engineMoved).meterRound
  let s := (s.thermRound).fcRound
  let s := (s.alignRound).hostRound
  let s := (((s.presenceRound).ownRound).ringRound).verdictRound
  let s := s.nvmRound
  let s := ((s.playbookRound).traceRound).snapRound late
  (s.commitRound).readyRound

/-- What the pages of the RRAM have shown by a round boundary: a corrected one is counted and rewritten at the commit, and a sector with a page
that failed its verify is retired (R450, R453). An RRAM that programs no page fails none (R452). -/
def State.pageWork (s : State) (i : RoundIn) : State :=
  let s := if i.ecc = 0 then s else
    let s := s.count 0x05B 2 i.ecc
    { s with log := { s.log with dirtyLog := true } }
  if s.noRram then s else i.badPages.foldl State.retire s

/-- ROUND_TICK (R27, R39). Without a round boundary at hand nothing happens. -/
def execRoundTick (i : RoundIn) (s : State) : Host.Outcome State Fault Refusal :=
  if s.bnd % 4000 = 0 then .next (s.atBoundary fun s => (s.pageWork i).roundWork i.late) else .next s

end Sys2Proof.Machine
end

