-- ==== Sys2Proof/Machine/Dispatch.lean ====
section
/-! DEFINITION. One arm per command: a direct call of its meaning, or a rejection by name. -/

namespace Sys2Proof.Machine

/-- The effect of a command on the state. The queue of waiting commands is the one in `s`, already without it (R27). -/
def exec (i : Instr) (s : State) : Host.Outcome State Fault Refusal :=
  match i with
  | .beatTick ir => Sys2Proof.Machine.execBeatTick ir s
  | .frameTick ir => Sys2Proof.Machine.execFrameTick ir s
  | .roundTick ir => Sys2Proof.Machine.execRoundTick ir s
  | .catchEnd d r => Sys2Proof.Machine.execCatchEnd d r s
  | .catchRearm d r => Sys2Proof.Machine.execCatchRearm d r s
  | .lendSteerOn p => Sys2Proof.Machine.execLendSteerOn p s
  | .lendArrive p => Sys2Proof.Machine.execLendArrive p s
  | .currentSample d p mv uv => Sys2Proof.Machine.execCurrentSample d p mv uv s
  | .stageFault d p => Sys2Proof.Machine.execStageFault d p s
  | .phLimitCrossing d p low => Sys2Proof.Machine.execPhLimitCrossing d p low s
  | .negativeLimit d p => Sys2Proof.Machine.execNegativeLimit d p s
  | .zeroCurrentTrip d p => Sys2Proof.Machine.execZeroCurrentTrip d p s
  | .windowSample d r half uv low high => Sys2Proof.Machine.execWindowSample d r half uv low high s
  | .trackingSample d r remote uv => Sys2Proof.Machine.execTrackingSample d r remote uv s
  | .senseWatchEnd r => Sys2Proof.Machine.execSenseWatchEnd r s
  | .phaseStaticCheckEnd p => Sys2Proof.Machine.execPhaseStaticCheckEnd p s
  | .phaseLiveCheckEnd p => Sys2Proof.Machine.execPhaseLiveCheckEnd p s
  | .phWearCommit => Sys2Proof.Machine.execPhWearCommit s
  | .rotationPeriod => Sys2Proof.Machine.execRotationPeriod s
  | .gangCommandReceive r m x => Sys2Proof.Machine.execGangCommandReceive r m x s
  | .gangReturnReceive r m x => Sys2Proof.Machine.execGangReturnReceive r m x s
  | .gangCommandMiss r => Sys2Proof.Machine.execGangCommandMiss r s
  | .gangHoldExpiry r => Sys2Proof.Machine.execGangHoldExpiry r s
  | .dieSelfReport d => Sys2Proof.Machine.execDieSelfReport d s
  | .laneMismatch p t => Sys2Proof.Machine.execLaneMismatch p t s
  | .vote c1 c2 => Sys2Proof.Machine.execVote c1 c2 s
  | .trapeze => Sys2Proof.Machine.execTrapeze s
  | .gateMonitorFault lane => Sys2Proof.Machine.execGateMonitorFault lane s
  | .refoscLost d => Sys2Proof.Machine.execRefoscLost d s
  | .beatStrobeLost => Sys2Proof.Machine.execBeatStrobeLost s
  | .dieSelftestEnd pass => Sys2Proof.Machine.execDieSelftestEnd pass s
  | .dieResyncEnd ok => Sys2Proof.Machine.execDieResyncEnd ok s
  | .dieObservationEnd => Sys2Proof.Machine.execDieObservationEnd s
  | .hiccupOffEnd r => Sys2Proof.Machine.execHiccupOffEnd r s
  | .hiccupGoodTime r => Sys2Proof.Machine.execHiccupGoodTime r s
  | .dischargeEnd r => Sys2Proof.Machine.execDischargeEnd r s
  | .railReadmitRampEnd r => Sys2Proof.Machine.execRailReadmitRampEnd r s
  | .riseFail n => Sys2Proof.Machine.execRiseFail n s
  | .seqWaitEnd n => Sys2Proof.Machine.execSeqWaitEnd n s
  | .seqStall n => Sys2Proof.Machine.execSeqStall n s
  | .barrierArrival rx dev n a => Sys2Proof.Machine.execBarrierArrival rx dev n a s
  | .barrierTimeout n => Sys2Proof.Machine.execBarrierTimeout n s
  | .feedLost f cause => Sys2Proof.Machine.execFeedLost f cause s
  | .feedPresent f => Sys2Proof.Machine.execFeedPresent f s
  | .feedReturn => Sys2Proof.Machine.execFeedReturn s
  | .feedRev f => Sys2Proof.Machine.execFeedRev f s
  | .feedOv f => Sys2Proof.Machine.execFeedOv f s
  | .hkPowerGood k good => Sys2Proof.Machine.execHkPowerGood k good s
  | .hkExcursion k above => Sys2Proof.Machine.execHkExcursion k above s
  | .chgTimeout => Sys2Proof.Machine.execChgTimeout s
  | .packRemoved => Sys2Proof.Machine.execPackRemoved s
  | .packOn => Sys2Proof.Machine.execPackOn s
  | .packOpenTimeEnd => Sys2Proof.Machine.execPackOpenTimeEnd s
  | .chargerCheckEnd => Sys2Proof.Machine.execChargerCheckEnd s
  | .svcBtnPress => Sys2Proof.Machine.execSvcBtnPress s
  | .svcBtnHold => Sys2Proof.Machine.execSvcBtnHold s
  | .svcBtnResetEnd => Sys2Proof.Machine.execSvcBtnResetEnd s
  | .shipEffect => Sys2Proof.Machine.execShipEffect s
  | .shipEnd => Sys2Proof.Machine.execShipEnd s
  | .gaugeRestPoint => Sys2Proof.Machine.execGaugeRestPoint s
  | .gaugeCommit => Sys2Proof.Machine.execGaugeCommit s
  | .thermalSample k q => Sys2Proof.Machine.execThermalSample k q s
  | .ageRoMeasure d drift => Sys2Proof.Machine.execAgeRoMeasure d drift s
  | .chirpStart r => Sys2Proof.Machine.execChirpStart r s
  | .chirpToneStep r c esr => Sys2Proof.Machine.execChirpToneStep r c esr s
  | .warnProposal r => Sys2Proof.Machine.execWarnProposal r s
  | .mpAutoApply => Sys2Proof.Machine.execMpAutoApply s
  | .meterTimerTick n => Sys2Proof.Machine.execMeterTimerTick n s
  | .meterPwmTrigger c p falling => Sys2Proof.Machine.execMeterPwmTrigger c p falling s
  | .conversionComplete c ch code code2 stalled => Sys2Proof.Machine.execConversionComplete c ch code code2 stalled s
  | .turnstileTicketTail c w entry => Sys2Proof.Machine.execTurnstileTicketTail c w entry s
  | .turnstileStubHead c w entry => Sys2Proof.Machine.execTurnstileStubHead c w entry s
  | .turnstileEventHead c w => Sys2Proof.Machine.execTurnstileEventHead c w s
  | .ticketFetch c entry data => Sys2Proof.Machine.execTicketFetch c entry data s
  | .dmaErr c op seq gen err => Sys2Proof.Machine.execDmaErr c op seq gen err s
  | .staleCompletion c gen n => Sys2Proof.Machine.execStaleCompletion c gen n s
  | .generationAdopt c gen => Sys2Proof.Machine.execGenerationAdopt c gen s
  | .stubWrite c => Sys2Proof.Machine.execStubWrite c s
  | .stubStall c => Sys2Proof.Machine.execStubStall c s
  | .eventWrite => Sys2Proof.Machine.execEventWrite s
  | .pcieLinkDown => Sys2Proof.Machine.execPcieLinkDown s
  | .pcieLinkUp x => Sys2Proof.Machine.execPcieLinkUp x s
  | .pcieHotReset => Sys2Proof.Machine.execPcieHotReset s
  | .hostCtlEnSet v => Sys2Proof.Machine.execHostCtlEnSet v s
  | .hostCtlEnClear v => Sys2Proof.Machine.execHostCtlEnClear v s
  | .spiWrite p addr data crc => Sys2Proof.Machine.execSpiWrite p addr data crc s
  | .spiRead p addr len => Sys2Proof.Machine.execSpiRead p addr len s
  | .chainClkLoRead path => Sys2Proof.Machine.execChainClkLoRead path s
  | .rtcTime0Read path => Sys2Proof.Machine.execRtcTime0Read path s
  | .rtcTime1Read path => Sys2Proof.Machine.execRtcTime1Read path s
  | .rtcShadowRelease path => Sys2Proof.Machine.execRtcShadowRelease path s
  | .rcFieldRead path off size => Sys2Proof.Machine.execRcFieldRead path off size s
  | .startCtlRestart path v => Sys2Proof.Machine.execStartCtlRestart path v s
  | .registerWrite path off size v => Sys2Proof.Machine.execRegisterWrite path off size v s
  | .bar0UnsupportedAccess off size => Sys2Proof.Machine.execBar0UnsupportedAccess off size s
  | .avsTargetVoltageWrite port sel v => Sys2Proof.Machine.execAvsTargetVoltageWrite port sel v s
  | .avsTargetVoltageRead port sel => Sys2Proof.Machine.execAvsTargetVoltageRead port sel s
  | .avsTransitionRateWrite port sel v => Sys2Proof.Machine.execAvsTransitionRateWrite port sel v s
  | .avsTransitionRateRead port sel => Sys2Proof.Machine.execAvsTransitionRateRead port sel s
  | .avsReadRailCurrent port sel => Sys2Proof.Machine.execAvsReadRailCurrent port sel s
  | .avsReadTemperature port sel => Sys2Proof.Machine.execAvsReadTemperature port sel s
  | .avsResetVoltage port sel => Sys2Proof.Machine.execAvsResetVoltage port sel s
  | .avsStatusRead port sel => Sys2Proof.Machine.execAvsStatusRead port sel s
  | .avsStatusWrite port sel v => Sys2Proof.Machine.execAvsStatusWrite port sel v s
  | .avsVersionRead port sel => Sys2Proof.Machine.execAvsVersionRead port sel s
  | .avsUnsupported port => Sys2Proof.Machine.execAvsUnsupported port s
  | .avsCrcError port => Sys2Proof.Machine.execAvsCrcError port s
  | .avsPortFault port => Sys2Proof.Machine.execAvsPortFault port s
  | .linkTrained p t num hop => Sys2Proof.Machine.execLinkTrained p t num hop s
  | .trainingComplete ndev => Sys2Proof.Machine.execTrainingComplete ndev s
  | .ringTrainingTimeout => Sys2Proof.Machine.execRingTrainingTimeout s
  | .laneDown p => Sys2Proof.Machine.execLaneDown p s
  | .linkHeal p => Sys2Proof.Machine.execLinkHeal p s
  | .ringSplit => Sys2Proof.Machine.execRingSplit s
  | .referenceChange => Sys2Proof.Machine.execReferenceChange s
  | .clockAdopt => Sys2Proof.Machine.execClockAdopt s
  | .ringResend p ticket => Sys2Proof.Machine.execRingResend p ticket s
  | .forwardGap head => Sys2Proof.Machine.execForwardGap head s
  | .forwardStubTimeout dev => Sys2Proof.Machine.execForwardStubTimeout dev s
  | .ringTicketPacket rx src raw => Sys2Proof.Machine.execRingTicketPacket rx src raw s
  | .ringStubPacket rx src x => Sys2Proof.Machine.execRingStubPacket rx src x s
  | .ringAck rx alarms tickets => Sys2Proof.Machine.execRingAck rx alarms tickets s
  | .timePacket rx dev count late => Sys2Proof.Machine.execTimePacket rx dev count late s
  | .cutPacket rx dev p => Sys2Proof.Machine.execCutPacket rx dev p s
  | .presencePacket rx dev pr => Sys2Proof.Machine.execPresencePacket rx dev pr s
  | .headAnnounce rx dev first count => Sys2Proof.Machine.execHeadAnnounce rx dev first count s
  | .alarmReportReceive rx dev kind a => Sys2Proof.Machine.execAlarmReportReceive rx dev kind a s
  | .ownershipRecord rx rec => Sys2Proof.Machine.execOwnershipRecord rx rec s
  | .claimResult rx cl => Sys2Proof.Machine.execClaimResult rx cl s
  | .epochCommit rx dev epoch key => Sys2Proof.Machine.execEpochCommit rx dev epoch key s
  | .epochAck rx dev => Sys2Proof.Machine.execEpochAck rx dev s
  | .heartbeatForward rx dev round ended => Sys2Proof.Machine.execHeartbeatForward rx dev round ended s
  | .ringTelemetryPacket rx x ga ia gb ib => Sys2Proof.Machine.execRingTelemetryPacket rx x ga ia gb ib s
  | .tracePacket rx dev e => Sys2Proof.Machine.execTracePacket rx dev e s
  | .chainDeviceCheckEnd dev => Sys2Proof.Machine.execChainDeviceCheckEnd dev s
  | .claimVerifyDone c => Sys2Proof.Machine.execClaimVerifyDone c s
  | .claimDecision => Sys2Proof.Machine.execClaimDecision s
  | .ownerRecordEffect => Sys2Proof.Machine.execOwnerRecordEffect s
  | .ownerDead => Sys2Proof.Machine.execOwnerDead s
  | .lockoutEnd port => Sys2Proof.Machine.execLockoutEnd port s
  | .portCheckEnd port => Sys2Proof.Machine.execPortCheckEnd port s
  | .wdPeriodEnd k => Sys2Proof.Machine.execWdPeriodEnd k s
  | .wdVerdict k => Sys2Proof.Machine.execWdVerdict k s
  | .hostRstRelease => Sys2Proof.Machine.execHostRstRelease s
  | .coreWdExpiry d => Sys2Proof.Machine.execCoreWdExpiry d s
  | .debugHalt d => Sys2Proof.Machine.execDebugHalt d s
  | .debugRelease d => Sys2Proof.Machine.execDebugRelease d s
  | .rtcWakeExpiry => Sys2Proof.Machine.execRtcWakeExpiry s
  | .rtcCrystalStop => Sys2Proof.Machine.execRtcCrystalStop s
  | .rtcCalendarEnd => Sys2Proof.Machine.execRtcCalendarEnd s
  | .rtcCompensationWindow => Sys2Proof.Machine.execRtcCompensationWindow s
  | .rtcShiftEnd => Sys2Proof.Machine.execRtcShiftEnd s
  | .vrtcSwitch toVbak => Sys2Proof.Machine.execVrtcSwitch toVbak s
  | .tokenRefill => Sys2Proof.Machine.execTokenRefill s
  | .traceOvw => Sys2Proof.Machine.execTraceOvw s
  | .fuseWriteDone ok => Sys2Proof.Machine.execFuseWriteDone ok s
  | .voidingDone verified => Sys2Proof.Machine.execVoidingDone verified s
  | .powerFail => Sys2Proof.Machine.execPowerFail s
  | .supplyMonitorTrip k => Sys2Proof.Machine.execSupplyMonitorTrip k s
  | .supplyReset => Sys2Proof.Machine.execSupplyReset s
  | .vaonRise v => Sys2Proof.Machine.execVaonRise v s
  | .startupAonDone memOk xtalOk => Sys2Proof.Machine.execStartupAonDone memOk xtalOk s
  | .otpCheck => Sys2Proof.Machine.execOtpCheck s
  | .selfTestDone a b p => Sys2Proof.Machine.execSelfTestDone a b p s
  | .imageLoad => Sys2Proof.Machine.execImageLoad s
  | .ownerWaitEnd => Sys2Proof.Machine.execOwnerWaitEnd s
  | .sequenceStep => Sys2Proof.Machine.execSequenceStep s
  | .voteFloor t => Sys2Proof.Machine.execVoteFloor t s
  | .setTarget t => Sys2Proof.Machine.execSetTarget t s
  | .setEnvelope t => Sys2Proof.Machine.execSetEnvelope t s
  | .forecast t => Sys2Proof.Machine.execForecast t s
  | .forecastHeadroomRamp c seq => Sys2Proof.Machine.execForecastHeadroomRamp c seq s
  | .forecastWindowOpen c seq => Sys2Proof.Machine.execForecastWindowOpen c seq s
  | .forecastWindowClose c seq => Sys2Proof.Machine.execForecastWindowClose c seq s
  | .forecastScore c seq => Sys2Proof.Machine.execForecastScore c seq s
  | .forecastCancel t => Sys2Proof.Machine.execForecastCancel t s
  | .forecastTrustRead t => Sys2Proof.Machine.execForecastTrustRead t s
  | .forecastTrustSet t => Sys2Proof.Machine.execForecastTrustSet t s
  | .telemRead t => Sys2Proof.Machine.execTelemRead t s
  | .bulkRead t => Sys2Proof.Machine.execBulkRead t s
  | .mpRead t => Sys2Proof.Machine.execMpRead t s
  | .imageWrite t => Sys2Proof.Machine.execImageWrite t s
  | .imageCommit t => Sys2Proof.Machine.execImageCommit t s
  | .overlayWrite t => Sys2Proof.Machine.execOverlayWrite t s
  | .overlayCommit t => Sys2Proof.Machine.execOverlayCommit t s
  | .overlaySelect t => Sys2Proof.Machine.execOverlaySelect t s
  | .mpAccept t => Sys2Proof.Machine.execMpAccept t s
  | .mpReject t => Sys2Proof.Machine.execMpReject t s
  | .mpReset t => Sys2Proof.Machine.execMpReset t s
  | .seqRun t => Sys2Proof.Machine.execSeqRun t s
  | .seqSkip t => Sys2Proof.Machine.execSeqSkip t s
  | .seqAbort t => Sys2Proof.Machine.execSeqAbort t s
  | .hkSwitch t => Sys2Proof.Machine.execHkSwitch t s
  | .clearLatch t => Sys2Proof.Machine.execClearLatch t s
  | .benchPhase t => Sys2Proof.Machine.execBenchPhase t s
  | .benchRail t => Sys2Proof.Machine.execBenchRail t s
  | .benchControlDie t => Sys2Proof.Machine.execBenchControlDie t s
  | .benchChainDevice t => Sys2Proof.Machine.execBenchChainDevice t s
  | .readmitPhase t => Sys2Proof.Machine.execReadmitPhase t s
  | .readmitRail t => Sys2Proof.Machine.execReadmitRail t s
  | .readmitControlDie t => Sys2Proof.Machine.execReadmitControlDie t s
  | .readmitCharger t => Sys2Proof.Machine.execReadmitCharger t s
  | .readmitGangMember t => Sys2Proof.Machine.execReadmitGangMember t s
  | .gangMemberSelftestEnd r pass => Sys2Proof.Machine.execGangMemberSelftestEnd r pass s
  | .readmitChainDevice t => Sys2Proof.Machine.execReadmitChainDevice t s
  | .readmitHostPort t => Sys2Proof.Machine.execReadmitHostPort t s
  | .swap t => Sys2Proof.Machine.execSwap t s
  | .thermClear t => Sys2Proof.Machine.execThermClear t s
  | .claimPart t => Sys2Proof.Machine.execClaimPart t s
  | .claim t => Sys2Proof.Machine.execClaim t s
  | .heartbeat t => Sys2Proof.Machine.execHeartbeat t s
  | .handover t => Sys2Proof.Machine.execHandover t s
  | .ownerRead t => Sys2Proof.Machine.execOwnerRead t s
  | .wdCheckin t => Sys2Proof.Machine.execWdCheckin t s
  | .wdArm t => Sys2Proof.Machine.execWdArm t s
  | .wdDisarm t => Sys2Proof.Machine.execWdDisarm t s
  | .rtcSet t => Sys2Proof.Machine.execRtcSet t s
  | .rtcShift t => Sys2Proof.Machine.execRtcShift t s
  | .rtcWake t => Sys2Proof.Machine.execRtcWake t s
  | .rtcRead t => Sys2Proof.Machine.execRtcRead t s
  | .meterStart t => Sys2Proof.Machine.execMeterStart t s
  | .meterStop t => Sys2Proof.Machine.execMeterStop t s
  | .meterRead t => Sys2Proof.Machine.execMeterRead t s
  | .meterClear t => Sys2Proof.Machine.execMeterClear t s
  | .gaugeRead t => Sys2Proof.Machine.execGaugeRead t s
  | .chgSet t => Sys2Proof.Machine.execChgSet t s
  | .packSwitchOpen t => Sys2Proof.Machine.execPackSwitchOpen t s
  | .packSwitchRelease t => Sys2Proof.Machine.execPackSwitchRelease t s
  | .shipArm t => Sys2Proof.Machine.execShipArm t s
  | .shipCancel t => Sys2Proof.Machine.execShipCancel t s
  | .gaugeSetSoc t => Sys2Proof.Machine.execGaugeSetSoc t s
  | .gaugeReset t => Sys2Proof.Machine.execGaugeReset t s
  | .cntRead t => Sys2Proof.Machine.execCntRead t s
  | .cntCtl t => Sys2Proof.Machine.execCntCtl t s
  | .traceStreamStart t => Sys2Proof.Machine.execTraceStreamStart t s
  | .traceStreamStop t => Sys2Proof.Machine.execTraceStreamStop t s
  | .alarmClear t => Sys2Proof.Machine.execAlarmClear t s
  | .fuseWrite t => Sys2Proof.Machine.execFuseWrite t s
  | .attest t => Sys2Proof.Machine.execAttest t s
  | .debugUnlockPart t => Sys2Proof.Machine.execDebugUnlockPart t s
  | .debugUnlock t held => Sys2Proof.Machine.execDebugUnlock t held s
  | .unknownOpcode t => Sys2Proof.Machine.execUnknownOpcode t s
  | .k281Received p => Sys2Proof.Machine.execK281Received p s
  | .linkHealPacket rx dev p => Sys2Proof.Machine.execLinkHealPacket rx dev p s
  | .rtcEdge => Sys2Proof.Machine.execRtcEdge s
  | .belzapolRestart d => Sys2Proof.Machine.execBelzapolRestart d s

end Sys2Proof.Machine
end

