-- ==== Sys2Proof/WellFormed.lean ====
section
/-! DEFINITION. What makes a command one that the hardware can meet: every number within the width the spec gives it,
every ticket 64 bytes of its own row, and every write that the table gives a row of its own under that row. -/

namespace Sys2Proof

/-- A ticket as the ring or the SPI window holds it: 64 bytes, a client of 12 bits, scatter data in bytes. -/
def Tkt.wf (t : Tkt) : Bool :=
  decide (t.client < 4096) && decide (t.raw < 2 ^ 512) && t.data.all (fun b => decide (b < 256)) && t.sgl.all fun e => decide (e < 2 ^ 128)

/-- The operands of a command lie within the widths the spec gives them (R3, R331, R505). -/
def Instr.wf (i : Instr) : Bool :=
  match i.ticket with
  | some (t, k) => t.wf && decide (t.rowKey = k)
  | none =>
    match i with
    | .gangCommandReceive _ _ x => decide (x.pkt < 2 ^ 64)
    | .gangReturnReceive _ _ x => decide (x.pkt < 2 ^ 64)
    | .roundTick x => x.badPages.all fun k => decide (k < 128)
    | .vaonRise v => decide (v.cid < 64)
    | .linkTrained _ _ num _ => decide (num < 64)
    | .currentSample _ _ _ uv => decide (uv < 1000)
    | .barrierArrival _ dev _ a => decide (dev < 64 ∧ a.bar < 16)
    | .conversionComplete _ ch _ _ _ => decide (ch < 128)
    | .turnstileTicketTail c w e => decide (c < 4096) && decide (w < 2 ^ 32) && decide (e < 2 ^ 256) && decide (bits w 31 30 = 0 ∨ bits w 31 30 = 3)
    | .turnstileStubHead c w e => decide (c < 4096) && decide (w < 2 ^ 32) && decide (e < 2 ^ 256) && decide (bits w 31 30 = 1)
    | .turnstileEventHead c x => decide (c < 4096) && decide (x.w < 2 ^ 32) && decide (x.entry < 2 ^ 256) && decide (bits x.w 31 30 = 2)
    | .ticketFetch c e d => decide (c < 4096) && decide (e < 2 ^ 256) && d.all fun raw => decide (raw < 2 ^ 512)
    | .hostCtlEnSet v => decide (v < 2 ^ 32) && bit v 0
    | .hostCtlEnClear v => decide (v < 2 ^ 32) && !bit v 0
    | .pcieLinkUp x => decide (1 ≤ x.speed ∧ x.speed ≤ 3)
    | .spiWrite _ addr d crc => decide (addr < 65536) && decide (1 ≤ d.length ∧ d.length ≤ 2048) && decide (crc < 256)
    | .spiRead _ addr len => decide (addr < 65536) && decide (1 ≤ len ∧ len ≤ 2048)
    | .registerWrite path off size v => decide (off < 65536) && decide (v < 2 ^ 32) && !(off == 0x0214 && path == .bar0)
        && !(off == 0x0024 && decide (2 ≤ size)) && !(decide (0x4000 ≤ off ∧ off < 0x8000) && size == 4)
    | .ringTicketPacket _ src raw => decide (src < 64) && decide (raw < 2 ^ 512)
    | .ringStubPacket _ src x => decide (src < 64) && decide (x.raw < 2 ^ 128) && x.data.all fun b => decide (b < 256)
    | .headAnnounce _ dev _ n => decide (dev < 64) && decide (n < 4096)
    | .alarmReportReceive _ dev kind a => decide (dev < 64) && decide (kind < 64) && decide (a.count < 65536)
    | .ringTelemetryPacket _ x _ _ _ _ => decide (x.dev < 64) && (match x.event with
      | some w => decide (w < 2 ^ 256)
      | none => true)
    | .presencePacket _ dev pr => decide (dev < 64) && decide (pr.arb < 256) && decide (pr.svc < 8) && decide (pr.slots.length ≤ 4)
    | _ => true

end Sys2Proof
end

