-- ==== Sys2Proof/Safety.lean ====
section
/-! DEFINITION. What counts as a safe step, in the terms the statements use. -/

namespace Sys2Proof.Machine

/-- A step that neither faults nor is refused. -/
def Goes (s : State) : Prop := ∃ t, step s = .next t

/-- Every command in the queue is well formed (WellFormed.lean). -/
def queueWf (s : State) : Bool := s.pending.all Instr.wf

/-- A ticket that this device processes itself, with none of the checks of R340 against it: it is of the row `key`, its turn has come, and
every check of the row's common part passes. `c` names what the row changes in the common part (`TCheck`). -/
def State.admits (s : State) (t : Tkt) (key : Nat) (c : TCheck) : Bool :=
  decide (t.rowKey = key) && s.ready t && !t.failed && (match opRow t.op with
    | none => false
    | some row => (firstFail (headChecks s t row c)).isNone && !(row.tgt != .none && !t.chain && s.tktDst t != s.ring.num)
        && (firstFail (tailChecks s t key row c)).isNone)

/-- Every fuse blown in `a` is blown in `b`, and every redirection entry of `a` stands in `b` (R437, R442). -/
def OtpDie.le (a b : OtpDie) : Prop :=
  (∀ row i, bit (a.phys row) i = true → bit (b.phys row) i = true) ∧ ∀ e ∈ a.redir, e ∈ b.redir

/-- No fuse of `s` is unblown in `t`. -/
def State.fusesKept (s t : State) : Prop := ∀ d : Fin 3, (s.otpDie d).le (t.otpDie d)

end Sys2Proof.Machine
end

