-- ==== Sys2Proof/Certificates/Slice0/Obligations.lean ====
section
/-! DEFINITION. The statements about the model: what every step does, what each command does, and where it completes. -/

open Sys2Proof

open Sys2Proof.Machine

/-- A step takes the command at the front of the queue and runs it on the state with the queue's rest; with an empty queue the
block idles (the model's choice, log entry 12). -/
def Obligations.StepRunsTheFront : Prop :=
  (∀ (c : Instr) (rest : List Instr) (s : State), step { s with pending := c :: rest } = exec c { s with pending := rest }) ∧
  ∀ s : State, s.pending = [] → step s = .next s

/-- What reset leaves, of the values the spec gives: no clock, no overruns, nothing in force, every phase OFF at mid, every rail
OFF with no request, no floor and no forecast, both feeds absent, the charger OFF and the pack switch armed, no alarm report due,
no event, no trace, every counter at 0, the queue empty (R10, R32, R43, R75, R114, R149, R205, R224, R240, R253, R261, R412). -/
def Obligations.ResetValues : Prop :=
  let s := State.reset
  s.pending = [] ∧ s.time.counting = false ∧ s.time.clk = 0 ∧ (∀ path : Path, s.time.hiShadow[path.ix.val] = 0) ∧
    s.ovr.beat = 0 ∧ s.ovr.frame = 0 ∧ s.ovr.round = 0 ∧ s.ovr.beatFlag = false ∧ s.ovr.frameFlag = false ∧ s.ovr.roundFlag = false ∧
    s.cfg.inForce = none ∧ s.fc.fcs = [] ∧ s.sched = [] ∧
    (∀ p : Ph, (s.phAt p).st = .off ∧ (s.phAt p).ball = .mid ∧ (s.phAt p).benchCause = 0 ∧ (∀ d : Cd, (s.phDie d p).trim = 0) ∧ (s.phAt p).test = none) ∧
    (∀ r : Rail, (s.railAt r).st = .off ∧ (s.railAt r).vreqAcc = false ∧ (s.railAt r).lastSet = none ∧ (s.railAt r).floors = [] ∧ (s.railAt r).latch = 0 ∧ (s.railAt r).left = 0
      ∧ (s.railAt r).chat = 0 ∧ (s.railAt r).benched = none ∧ (s.railAt r).cmdOn = false ∧ s.gang[r.val].role = .none) ∧
    (∀ n : Prog, (s.seq[n.val]).st = .idle ∧ (s.seq[n.val]).step = 0 ∧ (s.seq[n.val]).held = 0) ∧
    (∀ f : Feed, (s.feedAt f).st = .absent ∧ (s.feedAt f).uv = false ∧ (s.feedAt f).ov = false ∧ (s.feedAt f).rev = false) ∧
    (∀ k : Hk, (s.hk[k.val]).on = false ∧ (s.hk[k.val]).good = false) ∧
    s.pack.chg = .off ∧ s.pack.psw = .armed ∧ s.pack.ship = false ∧ s.pwr.pg = 0 ∧ s.pwr.supEn = false ∧ s.host.en = false ∧ s.log.trace = [] ∧
    (∀ k : Fin 160, (s.log.cnts[k.val]).lo = 0 ∧ (s.log.cnts[k.val]).hi = 0)

/-- What no command moves: the queue of the commands that wait, which is the sender's, and, but for the beat tick, the packets and
events that set the clock and the resets, the beat count. -/
def Obligations.QueueAndClockKept : Prop :=
  ∀ (c : Instr) (s t : State), exec c s = .next t →
    t.pending = s.pending ∧
    (t.time.clk = s.time.clk ∨ match c with
      | .beatTick _ => t.time.clk = s.bnd
      | .timePacket _ _ _ _ => True
      | .clockAdopt => True
      | .vaonRise _ => True
      | .svcBtnResetEnd => True
      | .shipEnd => True
      | .supplyReset => True
      | .startCtlRestart _ _ => True
      | .spiWrite _ _ _ _ => True
      | _ => False)

/-- No command stops the block: every well-formed command goes in every state, no command faults, and the one refusal is that of a
command that is not well formed (log entry 6). -/
def Obligations.CommandsGo : Prop :=
  ∀ (c : Instr) (s : State), (c.wf = true → ∃ t : State, exec c s = .next t) ∧ ((∃ t : State, exec c s = .next t) ∨ exec c s = .refused .illFormed)

/-- A ticket of a stale generation takes no effect: whatever its row, its stub carries STALE_GEN and its own generation, and
HOST_CNT.STALE counts it. A turnstile write whose generation differs from the entry's is discarded as a bad turnstile (R323). -/
def Obligations.StaleGenerations : Prop :=
  (∀ (i : Instr) (t : Tkt) (k : Nat) (s : State), i.ticket = some (t, k) → t.rowKey = k → s.ready t = true → s.isFwd t = false → t.gen ≠ (s.client t.client).gen →
    ∃ v : State, v.host.stale = satAdd 16 s.host.stale 1 ∧ v = { s with host := { (s.takeTicket).host with stale := v.host.stale }, log := v.log }
      ∧ exec i s = .next (v.stub { ref := { client := t.client, gen := t.gen, seq := t.seq }, status := 0x10 })) ∧
  (∀ (s u : State) (c w entry : Nat), s.tsPath c = true → s.inRange c = true → (u.client c).entryGen ≠ bits w 23 16 →
    u = (s.count 0x055 0 1).meetEntry c entry (some (bits w 23 16)) →
    (bits w 31 30 = 0 → exec (.turnstileTicketTail c w entry) s = .next (u.badTs c 0)) ∧
    (bits w 31 30 = 1 → exec (.turnstileStubHead c w entry) s = .next (u.badTs c 1)) ∧
    (bits w 31 30 = 2 → exec (.turnstileEventHead c { w := w, entry := entry }) s = .next (u.badTs c 2)))

/-- Only the owner commands. A ticket that the catalogue gives to the owner, sent by any other client, has no effect but its
answer: it is answered STALE_GEN, malformed, DEPOSED or NOT_OWNER, and every rail, phase, record, order, programme, feed, fuse,
clock and watchdog stands, with the owner and its epoch (R340, R351; a first provisioning through FUSE_WRITE apart). -/
def Obligations.OnlyTheOwner : Prop :=
  ∀ (i : Instr) (t : Tkt) (k : Nat) (row : OpRow) (s : State), i.ticket = some (t, k) → t.rowKey = k → opRow t.op = some row →
    (row.owner = true ∧ k ≠ 0xE00) ∨ k = 0x121 → s.isOwner t = false →
    ∃ v : State, exec i s = .next v ∧ v = { s with host := v.host, log := v.log, ring := v.ring, own := { s.own with depRound := v.own.depRound } } ∧
      (s.ready t = true → ∃ (w : State) (r : Reply), v = w.reply t r ∧ r.status ∈ [0x10, 0x21, 0x12, 0x11])

/-- Fuses are blown for good: whatever fuses of the three dies and whatever redirection entries stand blown, they stand blown
after every step, resets among them (an invariant of every step, from every state). -/
def Obligations.FusesStayBlown : Prop :=
  ∀ (o : Fin 3 → OtpDie) (s t : State), (∀ d : Fin 3, (o d).le (s.otpDie d)) → step s = .next t → ∀ d : Fin 3, (o d).le (t.otpDie d)

/-- The invariant of FusesStayBlown holds at reset for the fuses the device leaves reset with, and for no fuses. -/
def Obligations.FusesAtReset : Prop :=
  (∀ d : Fin 3, (State.reset.otpDie d).le (State.reset.otpDie d)) ∧ ∀ d : Fin 3, OtpDie.le {} (State.reset.otpDie d)

/-- Floors, targets and envelopes (R76 to R78): an admitted VOTE_FLOOR, SET_TARGET or SET_ENVELOPE waits for the first beat
boundary at or after its not-before beat and answers OK; a floor above VHI sets EXTRA bit 0. -/
def Obligations.VoltageTickets : Prop :=
  ∀ (s : State) (t : Tkt) (r : Rail), t.rail = some r →
    let u := s.takeTicket
    let mv := t.le 16 2
    (s.admits t 0x000 {} = true → mv = 0 ∨ (250 ≤ mv ∧ mv ≤ 3300) →
      mv = 0 ∨ (s.floorClients r).contains t.client = true ∨ (s.floorClients r).length < 32 →
      let l := (u.railAt r).vote t.client mv
      exec (.voteFloor t) s = .next ((u.post (t.nbBeat u) .beat (.setFloor r t.client mv)).ok t (b2n (decide (u.vhi r < mv)))
        (fld ((l.map Prod.snd).foldl max 0) 16 0 + fld l.length 8 16))) ∧
    (s.admits t 0x010 {} = true → 250 ≤ mv → mv ≤ 3300 → RailCfg.avsEn (s.rcfg r) = false →
      exec (.setTarget t) s = .next ((u.post (t.nbBeat u) .beat (.setVreq r mv)).ok t)) ∧
    (s.admits t 0x020 {} = true → RailCfg.vminOwn (s.rcfg r) ≤ mv → mv ≤ t.le 18 2 → t.le 18 2 ≤ RailCfg.vmaxOwn (s.rcfg r) →
      exec (.setEnvelope t) s = .next ((u.post (t.nbBeat u) .beat (.setEnv r mv (t.le 18 2))).ok t))

/-- Forecast tickets (R146 to R151, R162, R165). An admitted FORECAST within its limits, with a trust entry to spare, is filed
with its width, its step and its headroom bounded, and answered QUEUED, EXTRA bits 0 and 1 saying which bound acted; a cancel
before TS, a trust set and a trust read have their effect. -/
def Obligations.ForecastTickets : Prop :=
  ∀ (s : State) (t : Tkt) (r : Rail), t.rail = some r →
    let u := s.takeTicket
    let di := sint 32 (t.le 20 4)
    let w := t.le 24 2
    let lim : Int := 10 * s.ratingG r
    let uc := min w (FcCfg.fcWmax (s.fccfg r))
    (s.admits t 0x100 {} = true → di ≠ 0 → di.natAbs ≤ 115200 → 4 ≤ w → w ≤ 1023 → FcCfg.fcEn (s.fccfg r) = true → s.leads r = true →
      s.fcTimeBad (resolve s.time.clk (t.le 16 4)) uc = false → (s.railAt r).st = .regulate → (s.fcPending r).length < 8 →
      ((s.fcPending r).filter fun f => f.client == t.client).length < 2 →
      countP (fun x => x.1 == t.client && x.2 == r.val) s.fc.filed < FcCfg.fcRate (s.fccfg r) → s.trustRoom t.client r.val = true →
      ∃ (v : State) (ex : Nat), exec (.forecast t) s = .next (v.queued t ex) ∧ v = { u with fc := v.fc }
        ∧ bit ex 0 = decide (uc < w) ∧ bit ex 1 = decide (clampI (-lim) lim di ≠ di)
        ∧ v.fc.filed = u.fc.filed ++ [(t.client, r.val)]
        ∧ ∃ f : Fc, v.fc.fcs = u.fc.fcs ++ [f] ∧ f.client = t.client ∧ f.seq = t.seq ∧ f.rail = r.val
          ∧ f.tstep = resolve s.time.clk (t.le 16 4) ∧ f.u = uc ∧ f.di = clampI (-lim) lim di ∧ (f.di ≤ 0 → f.head = 0)
          ∧ f.filedAt = u.time.clk) ∧
    (∀ f : Fc, s.admits t 0x110 {} = true →
      (s.fc.fcs.find? fun (f : Fc) => f.client == t.client && f.seq == t.le 16 2 && f.rail == r.val) = some f → s.time.clk < f.ts →
      exec (.forecastCancel t) s = .next ((u.post (t.nbBeat u) .beat (.cancelFc t.client (t.le 16 2) r)).ok t)) ∧
    (s.admits t 0x120 { own := some (t.le 16 2 != t.client), nb := some false } = true → t.le 16 2 < 4096 → t.byte 18 = 0 → t.byte 19 = 0 →
      exec (.forecastTrustRead t) s = .next (u.ok t 0 (fld (u.trustOf (t.le 16 2) r.val) 8 0
        + fld (countP (fun f => f.client == t.le 16 2 && f.rail == r.val) u.fc.fcs) 8 8 + fld (u.fcUsed (t.le 16 2) r.val) 16 16))) ∧
    (s.admits t 0x121 { own := some true } = true → t.le 16 2 < 4096 → s.trustRoom (t.le 16 2) r.val = true →
      exec (.forecastTrustSet t) s = .next ((u.post (t.nbBeat u) .beat (.trustSet (t.le 16 2) r (t.byte 19))).ok t))

/-- BENCH tickets answer OK and wait for the first beat boundary at or after their not-before beat: a phase, a rail, a control die
that is STANDBY or BENCHED, a chain device (R68, R189, R214, R392). -/
def Obligations.BenchTickets : Prop :=
  ∀ (s : State) (t : Tkt),
    let u := s.takeTicket
    (∀ p : Ph, s.admits t 0x510 {} = true → t.phase = some p → t.byte 16 = 0 → t.byte 17 = 0 →
      (∀ r : Rail, s.railOfPh p = some r → s.usable p = true → s.benchWaits p = false → RailCfg.nmin (s.rcfg r) < (s.stayingOf r).length) →
      exec (.benchPhase t) s = .next ((u.post (t.nbBeat u) .beat (.benchPhase p 6)).ok t)) ∧
    (∀ r : Rail, s.admits t 0x511 { free := true } = true → t.rail = some r → t.byte 17 = 0 → s.followsGang r = false → s.ring.benchedMe = false →
      exec (.benchRail t) s = .next ((u.post (t.nbBeat u) .beat (.benchRail r 0)).ok t)) ∧
    (∀ d : Cd, s.admits t 0x512 {} = true → dieOf t = d → t.byte 17 ≤ 1 → (s.arb.st[d.ix.val] = .standby ∨ s.arb.st[d.ix.val] = .benched) →
      exec (.benchControlDie t) s = .next ((u.post (t.nbBeat u) .beat (.benchDie d 6)).ok t)) ∧
    (s.admits t 0x515 { free := true } = true → t.byte 17 = 0 → t.dev = s.ring.num ∨ (s.devAt t.dev).known = true →
      exec (.benchChainDevice t) s = .next ((u.ok t).post (t.nbBeat u) .beat (.benchDev t.dev)))

/-- READMIT tickets answer QUEUED and start at the first frame boundary at or after their not-before beat, one for each kind of
unit; SWAP answers OK and asks for the handover at a frame boundary (R17, R69, R138, R189, R190, R213, R257, R363, R395). -/
def Obligations.ReadmitTickets : Prop :=
  ∀ (s : State) (t : Tkt),
    let u := s.takeTicket
    let nb := t.nbBeat u
    (∀ p : Ph, s.admits t 0x520 {} = true → t.phase = some p → t.byte 16 = 0 → t.byte 17 = 0 → (s.phAt p).st = .benched → (s.phAt p).test = none →
      exec (.readmitPhase t) s = .next ((u.queued t).post nb .frame (.readmitPhase p t.ref))) ∧
    (∀ r : Rail, s.admits t 0x521 { free := true } = true → t.rail = some r → t.byte 17 = 0 → (s.railAt r).benched.isSome = true →
      s.followsGang r = false → s.ring.benchedMe = false → (s.railAt r).ramp = none →
      exec (.readmitRail t) s = .next ((u.queued t).post nb .frame (.readmitRail r t.ref))) ∧
    (s.admits t 0x522 {} = true → t.byte 17 ≤ 1 → s.arb.st[(dieOf t).ix.val] = .benched →
      s.arb.active = some (dieOf t).other → s.arb.voteQ = [] →
      exec (.readmitControlDie t) s = .next ((u.queued t).post nb .frame (.readmitDie (dieOf t) t.ref))) ∧
    (s.admits t 0x523 {} = true → t.byte 17 = 0 → s.chgBenched = true → s.pack.missing = false → s.pack.check = none →
      exec (.readmitCharger t) s = .next ((u.queued t).post nb .frame (.readmitCharger t.ref))) ∧
    (∀ r : Rail, s.admits t 0x524 { free := true } = true → t.rail = some r → t.byte 17 = 0 → s.gang[r.val].role = .detached →
      s.gang[r.val].readmit = none → s.ring.benchedMe = false → exec (.readmitGangMember t) s = .next ((u.queued t).post nb .frame (.readmitGang r t.ref))) ∧
    (s.admits t 0x525 { free := true } = true → t.byte 17 = 0 → (s.devAt t.dev).benched = true → (s.devAt t.dev).check = none →
      roundOf s.time.clk ≤ (s.devAt t.dev).seen + 1 →
      exec (.readmitChainDevice t) s = .next ((u.queued t).post nb .frame (.readmitDev t.dev t.ref))) ∧
    (∀ k : OPort, s.admits t 0x526 { free := true } = true → t.byte 17 = k.val → (s.own.ports[k.val]).benched = true →
      (s.own.ports[k.val]).check = none → s.ring.benchedMe = false →
      exec (.readmitHostPort t) s = .next ((u.queued t).post nb .frame (.readmitPort k t.ref))) ∧
    (s.admits t 0x530 {} = true → s.standby.isSome = true → s.arb.voteQ = [] →
      exec (.swap t) s = .next ((u.post nb .frame (.swap t.ref)).ok t))

/-- Programmes and housekeeping supplies: SEQ_RUN is answered QUEUED and starts at a frame boundary, in chain scope at the first
round boundary at least 2 rounds later that the head hands to every device; SEQ_SKIP, which answers the step it ends, and
SEQ_ABORT act at a frame boundary, HK_SWITCH at a round boundary (R222, R223, R248; the place of the step's number in the stub is
the model's choice, log entry 38). -/
def Obligations.SequenceTickets : Prop :=
  ∀ (s : State) (t : Tkt),
    let u := s.takeTicket
    (∀ n : Prog, t.byte 16 = n.val →
      (s.admits t 0x400 {} = true → SeqProg.defd (s.progcfg n) = true → s.cfg.inForce.isSome = true → 8 ≤ s.start.step → s.seqBusy n = false →
        (t.chain = false → exec (.seqRun t) s = .next ((u.queued t).post (t.nbBeat u) .frame (.seqRun n (some t.ref) none))) ∧
        (t.chain = true → SeqProg.chain (s.progcfg n) = true → s.isFwd t = false →
          let b := ceilDiv (max (u.time.clk + 8000) (t.nbBeat u)) 4000 * 4000
          exec (.seqRun t) s = .next ((u.chainPart t { status := 0x02 } (some b)).post b .round (.seqRunChain n (some t.ref))))) ∧
      (s.admits t 0x410 {} = true → s.seq[n.val].running = true →
        exec (.seqSkip t) s = .next ((u.post (t.nbBeat u) .frame (.seqSkip n)).ok t 0 s.seq[n.val].step)) ∧
      (s.admits t 0x420 {} = true → s.seq[n.val].running = true →
        exec (.seqAbort t) s = .next ((u.post (t.nbBeat u) .frame (.seqAbort n)).ok t))) ∧
    (∀ k : Hk, t.byte 16 = k.val → s.admits t 0x430 {} = true → t.byte 17 < 2 → HkCfg.en (s.hkcfg k) = true → s.cfg.inForce.isSome = true →
      exec (.hkSwitch t) s = .next ((u.post (t.nbBeat u) .round (.hkSwitch k (t.byte 17 == 1))).ok t))

/-- What clears latches: CLEAR_LATCH, with and without a latched sense fault, THERM_CLEAR, METER_CLEAR and ALARM_CLEAR act at a
frame boundary (R198, R278, R402, Table 11.7). -/
def Obligations.ClearTickets : Prop :=
  ∀ (s : State) (t : Tkt),
    let u := s.takeTicket
    let nb := t.nbBeat u
    (∀ r : Rail, s.admits t 0x500 {} = true → t.rail = some r →
      let m := t.byte 16
      (bit m 6 = false → exec (.clearLatch t) s = .next ((u.post nb .frame (.clearLatch r m none false)).ok t)) ∧
      (bit m 6 = true → (s.railAt r).snsFault = false → exec (.clearLatch t) s = .next (u.post nb .frame (.clearLatch r m (some t.ref) false))) ∧
      (bit m 6 = true → (s.railAt r).snsFault = true → s.watching r = false →
        exec (.clearLatch t) s = .next ((u.queued t).post nb .frame (.clearLatch r m (some t.ref) true)))) ∧
    (s.admits t 0x540 {} = true → t.byte 16 < 76 ∨ t.byte 16 = 255 →
      exec (.thermClear t) s = .next ((u.post nb .frame (.thermClear (t.byte 16))).ok t)) ∧
    (s.admits t 0x830 {} = true → exec (.meterClear t) s = .next ((u.post nb .frame (.meterClear (t.byte 16))).ok t)) ∧
    (s.admits t 0xA30 {} = true → exec (.alarmClear t) s = .next ((u.ok t).post nb .frame (.alarmClear (t.le 16 8))))

/-- The margin plan: an accepted proposal and a reset act at a round boundary; a rejected proposal is gone at once, and nothing
else is (R290, R291). -/
def Obligations.MarginTickets : Prop :=
  ∀ (s : State) (t : Tkt),
    let u := s.takeTicket
    let n := t.le 16 2
    (∀ x : Proposal, s.admits t 0x350 {} = true → nvmFault s = none → s.propAt n = some x → s.valueOk s.cfg.cfg x.kind x.target x.v1 x.v2 = true →
      exec (.mpAccept t) s = .next ((u.post (t.nbBeat u) .round (.mpAccept n)).ok t)) ∧
    (s.admits t 0x360 {} = true → (s.propAt n).isSome = true → ∃ v : State, exec (.mpReject t) s = .next (v.ok t)
      ∧ v = { u with therm := { u.therm with props := v.therm.props } } ∧ (∀ x, x ∈ v.therm.props ↔ x ∈ u.therm.props ∧ x.num ≠ n)) ∧
    (s.admits t 0x370 {} = true → nvmFault s = none → exec (.mpReset t) s = .next ((u.post (t.nbBeat u) .round (.mpReset t.rail (bit (t.byte 16) 0))).ok t))

/-- What reads answer (R290, R295, R344, R413, R430, Table 9.6): each selector of TELEM_READ, BULK_READ of one device, MP_READ,
GAUGE_READ, METER_READ, CNT_READ, RTC_READ and OWNER_READ answer the word or the bytes they name, and change nothing but what
taking and answering a ticket changes. -/
def Obligations.ReadTickets : Prop :=
  ∀ (s : State) (t : Tkt),
    let u := s.takeTicket
    let k := t.byte 16
    (s.admits t 0x200 { free := true } = true → subOk k (t.byte 17) = true → t.sg = true ∨ k < 6 ∨ 9 < k →
      (∀ r : Rail, t.rail = some r →
        (k = 0 → exec (.telemRead t) s = .next (u.ok t 0 (u.railStat r))) ∧
        (k = 2 → exec (.telemRead t) s = .next (u.ok t 0 (u.supStat r))) ∧
        (k = 7 → exec (.telemRead t) s = .next (u.answer t 0 (leBytes 16 (u.railAt r).capW.word ++ leBytes 16 (u.railAt r).capF.word))) ∧
        (k = 8 → exec (.telemRead t) s = .next (u.answer t 0 (u.railAt r).floorWords)) ∧
        (k = 9 → exec (.telemRead t) s = .next (u.answer t 0 (u.railRecords r)))) ∧
      (∀ p : Ph, t.phase = some p →
        (k = 1 → exec (.telemRead t) s = .next (u.ok t 0 (u.phStat p + fld (u.phAt p).wear 32 32))) ∧
        (k = 9 → t.rail = none → exec (.telemRead t) s = .next (u.answer t 0 (leBytes 16 (u.pcfg p) ++ leBytes 4 (u.pool p))))) ∧
      (∀ n : Prog, k = 3 → t.byte 17 = n.val → exec (.telemRead t) s = .next (u.ok t 0 (u.seqStat n))) ∧
      (k = 4 → exec (.telemRead t) s = .next (u.ok t 0 (u.feedAt (if t.byte 17 = 0 then .a else .b)).word)) ∧
      (∀ x : Src, k = 5 → t.byte 17 = x.val → exec (.telemRead t) s = .next (u.ok t 0 (u.thermSrc x))) ∧
      (k = 6 → exec (.telemRead t) s = .next (u.answer t 0 (leBytes 16 u.thermStat))) ∧
      (k = 10 → exec (.telemRead t) s = .next (u.ok t 0 u.log.latches))) ∧
    (s.admits t 0x210 { perm := if k = 4 then some 140 else none, free := true } = true → k < 5 → 1 ≤ t.le 20 4 → t.le 20 4 ≤ 16777216 →
      let cur := t.le 24 4
      let fin := min (t.le 20 4) (s.bulkWhole t k)
      let lo := max cur (u.ring.num * bulkSize k)
      let bs := u.bulkSlice k lo fin
      cur ≤ fin →
      (t.chain = false → exec (.bulkRead t) s = .next (u.answer t cur (((u.bulk k).take fin).drop cur))) ∧
      (t.chain = true → s.isFwd t = true → exec (.bulkRead t) s = .next (u.stub { ref := t.ref, value := fld bs.length 32 0 } bs)) ∧
      (t.chain = true → s.isFwd t = false → exec (.bulkRead t) s
        = .next ((u.fill (segDrop t.segs (lo - cur)) bs).chainPart t (fitReply (segSum t.segs) cur (fin - cur)) none (bulkSize k)))) ∧
    (s.admits t 0x220 { free := true } = true →
      (t.le 16 2 = 65535 → t.sg = true → exec (.mpRead t) s = .next (u.answer t 0 (u.therm.props.flatMap fun x => leBytes 8 x.word))) ∧
      (∀ (x : Proposal) (r : Rail), t.le 16 2 ≠ 65535 → t.rail = some r →
        (s.therm.props.find? fun y => y.num == t.le 16 2 && (y.kind != 2 && y.target == r.val)) = some x → exec (.mpRead t) s = .next (u.ok t 0 x.word)) ∧
      (∀ (x : Proposal) (p : Ph), t.le 16 2 ≠ 65535 → t.rail = none → t.phase = some p →
        (s.therm.props.find? fun y => y.num == t.le 16 2 && (y.kind == 2 && y.target == p.val)) = some x → exec (.mpRead t) s = .next (u.ok t 0 x.word))) ∧
    (s.admits t 0x900 {} = true →
      (k = 0 → exec (.gaugeRead t) s = .next (u.ok t 0 u.pack.word)) ∧
      (k = 1 → t.sg = true → exec (.gaugeRead t) s
        = .next (u.answer t 0 ((u.pack.imp.toList.map fun w => (w.toList.map (leBytes 2)).flatten).flatten))) ∧
      (k = 2 → exec (.gaugeRead t) s = .next (u.ok t 0 (uword 64 (Q.divN u.pack.count 3600).round)))) ∧
    (s.admits t 0x820 { free := true } = true →
      (∀ q : Fin 32, k = 0 → t.byte 17 = q.val → t.sg = true → exec (.meterRead t) s = .next (u.answer t 0 (u.seqWords q))) ∧
      (∀ c : Conv, k = 1 → t.byte 17 = c.ix.val → exec (.meterRead t) s = .next (u.ok t 0 (u.convAt c).word))) ∧
    (s.admits t 0xA00 { free := true } = true →
      let n := t.byte 19
      let l := u.cntRead (t.le 16 2) (t.byte 18) n
      0 < cntCount (t.le 16 2) → 1 ≤ n → n ≤ 8 → t.byte 18 + n ≤ cntCount (t.le 16 2) →
      (n ≤ 2 → exec (.cntRead t) s = .next (u.ok t 0 (fld (l.getD 0 0) 32 0 + fld (l.getD 1 0) 32 32))) ∧
      (2 < n → t.sg = true → exec (.cntRead t) s = .next (u.answer t 0 (l.flatMap (leBytes 4))))) ∧
    (s.admits t 0x750 {} = true → exec (.rtcRead t) s = .next (u.ok t 0 (fld (2000 + u.wd.cal.year) 16 0 + fld u.wd.cal.month 8 16
      + fld u.wd.cal.day 8 24 + fld u.wd.cal.hour 8 32 + fld u.wd.cal.min 8 40 + fld u.wd.cal.sec 8 48 + fld (u.wd.pre / 128) 8 56))) ∧
    (s.admits t 0x630 {} = true → exec (.ownerRead t) s
      = .next (u.ok t 0 (fld (if u.own.valid then u.own.port else 0xFF) 8 0 + fld u.own.epoch 32 32)))

/-- Images and overlays: IMAGE_WRITE and OVERLAY_WRITE store the first LEN bytes at OFFSET and answer their number, a chain-wide
IMAGE_WRITE puts the bytes of the bundle that are this device's; the commits are answered QUEUED and checked at a round boundary;
OVERLAY_SELECT of a stored overlay switches at a round boundary, in chain scope at least 3 rounds later (R349, R482, R487, R488).
-/
def Obligations.ImageTickets : Prop :=
  ∀ (s : State) (t : Tkt),
    let u := s.takeTicket
    let off := t.le 20 4
    let len := t.le 24 4
    let n := t.byte 16
    (s.admits t 0x300 {} = true → 1 ≤ len → len ≤ segSum t.segs → len ≤ 1048576 → t.chain = false → s.poolOver (off + len) = false →
      s.commitWaits true = false → nvmFault s = none →
      exec (.imageWrite t) s = .next ((u.imagePut off (t.data.take len)).reply t { status := 0x00, value := len })) ∧
    (∀ fin : Nat, (match bundleOwn (Mem.writeList s.nvm.bundle off (t.data.take len)) (max s.nvm.bundleLen (off + len)) s.ring.num with
        | some (_, n) => n
        | none => 0) = fin →
      s.admits t 0x300 {} = true → 1 ≤ len → len ≤ segSum t.segs → len ≤ 1048576 → t.chain = true → s.poolOver fin = false → s.commitWaits true = false → nvmFault s = none →
      (s.isFwd t = true → exec (.imageWrite t) s = .next ((u.bundlePut off (t.data.take len)).reply t { status := 0x00, value := len })) ∧
      (s.isFwd t = false → exec (.imageWrite t) s = .next ((u.bundlePut off (t.data.take len)).chainPart t { status := 0x00, value := len }))) ∧
    (s.admits t 0x310 {} = true → s.commitWaits true = false → nvmFault s = none →
      exec (.imageCommit t) s = .next ((u.queued t).post (t.nbBeat u) .round (.imageCommit t.ref))) ∧
    (s.admits t 0x320 {} = true → 1 ≤ len → len ≤ segSum t.segs → off + len ≤ 262144 → s.commitWaits false = false →
      exec (.overlayWrite t) s
        = .next (({ u with nvm := { u.nvm with staging := Mem.writeList u.nvm.staging off (t.data.take len) } } : State).ok t 0 len)) ∧
    (s.admits t 0x330 {} = true → n < 8 → off ≤ 262144 → s.cfg.inForce.isSome = true → s.commitWaits false = false → nvmFault s = none →
      exec (.overlayCommit t) s = .next ((u.queued t).post (t.nbBeat u) .round (.overlayCommit t.ref n off))) ∧
    (s.admits t 0x340 {} = true → n < 8 → s.stored n = true →
      s.overBudget { nb := s.selectBeat t, per := .round, act := .overlaySelect n none } = none →
      (t.chain = false → exec (.overlaySelect t) s = .next ((u.post (t.nbBeat u) .round (.overlaySelect n none)).ok t)) ∧
      (t.chain = true → s.isFwd t = false →
        let b := u.selectBeat t
        (u.askedFor t = [] → exec (.overlaySelect t) s = .next ((u.post b .round (.overlaySelect n none)).ok t)) ∧
        (u.askedFor t ≠ [] → exec (.overlaySelect t) s
          = .next (({ u with cfg := { u.cfg with chainSel := u.cfg.chainSel ++ [(t.ref, t.raw, b)] } } : State).chainPart t { status := 0x00 }))))

/-- Ownership tickets: a part of a claim is held and answered OK; part 3 makes the claim of the frame it is processed in, not yet
verified unless R355 refuses it; a heartbeat with the epoch in force counts for the round of its beat at the keeper and travels to
it elsewhere; a handover of an eligible port is on its way, and with no epoch left answers COUNTER_EXHAUSTED and posts it (R348,
R355, R356, R360, R364). -/
def Obligations.OwnershipTickets : Prop :=
  ∀ (s : State) (t : Tkt),
    let u := s.takeTicket
    (s.admits t 0x600 {} = true → s.partFits t false = true → t.byte 17 ≤ 3 → exec (.claimPart t) s = .next ((u.holdPart t false).ok t)) ∧
    (s.admits t 0x603 {} = true → s.partFits t false = true → t.byte 17 ≤ 3 → nvmFault s = none → ∃ (v : State) (c : Claim),
      v.own.claims = u.own.claims ++ [c] ∧ c.client = t.client ∧ c.seq = t.seq ∧ c.dev = u.ring.num ∧ c.key = t.byte 17 ∧ c.epoch = t.le 20 4
        ∧ c.frame = u.time.clk / 32 * 32 ∧ c.verified = c.refusal.isSome ∧ c.refusal = (u.dropParts t.client).claimRefusal u.ring.num t.client
        ∧ v = { u.dropParts t.client with own := { u.own with claims := v.own.claims } }
        ∧ exec (.claim t) s = .next (if c.refusal.isSome then v.sendClaim c else v)) ∧
    (s.admits t 0x610 {} = true → t.le 20 4 = s.own.epoch →
      (u.own.keeper = u.ring.num → exec (.heartbeat t) s = .next ((u.countBeat (roundOf t.ts)).ok t)) ∧
      (u.own.keeper ≠ u.ring.num → exec (.heartbeat t) s
        = .next ((u.ctrl u.own.keeper 70 (fld u.ring.num 6 0 + fld (roundOf t.ts) 48 8)).ok t))) ∧
    (∀ k : OPort, s.admits t 0x620 {} = true → t.byte 16 = k.val → t.le 20 4 = s.own.epoch → s.candidate k = true →
      ¬ (s.own.valid = true ∧ s.own.port = k.val) → (s.own.ports[k.val]).benched = false → (s.own.ports[k.val]).remain = 0 → s.own.pend = none →
      nvmFault s = none →
      (s.own.epoch = 2 ^ 32 - 1 → exec (.handover t) s = .next ((u.exhausted 0).reply t { status := 0x31 })) ∧
      (∀ c d : Nat, s.own.epoch ≠ 2 ^ 32 - 1 → u.own.keeper = u.ring.num → u.portClient k = some c → u.portDev k = some d → exec (.handover t) s
        = .next ((({ u with own := { u.own with handQ := none } } : State).startEffect k.val c (if d = u.ring.num then (u.client c).gen else 256)
          (u.own.epoch + 1) d 4 none).ok t)) ∧
      (s.own.epoch ≠ 2 ^ 32 - 1 → u.own.keeper ≠ u.ring.num → exec (.handover t) s
        = .next ((u.ctrl u.own.keeper 67 (claimBody { client := t.client, gen := t.gen, seq := t.seq, port := k.val, dev := u.ring.num
                                                      epoch := u.own.epoch, handover := true })).ok t)))

/-- Watchdog and RTC tickets: a check-in marks the running period that holds its beat, or a pending verdict whose period does, and
nothing else; arm, disarm, set, shift and wake wait for their boundary (R40, R418, R419, R431 to R433). -/
def Obligations.WatchdogTickets : Prop :=
  ∀ (s : State) (t : Tkt),
    let u := s.takeTicket
    let nb := t.nbBeat u
    (∀ k : Slot, t.byte 16 = k.val →
      (s.admits t 0x711 {} = true → t.byte 17 = 1 → t.le 18 2 ≠ 0 → t.le 20 2 < 4096 →
        s.overBudget { nb := t.nbBeat s, per := .round, act := .wdArm k (t.le 18 2) (t.le 20 2) } = none →
        exec (.wdArm t) s = .next ((u.ok t).post nb .round (.wdArm k (t.le 18 2) (t.le 20 2)))) ∧
      (s.admits t 0x710 {} = true → t.le 20 2 < 4096 → exec (.wdDisarm t) s = .next ((u.ok t).post nb .round (.wdDisarm k))) ∧
      (s.admits t 0x700 {} = true → (s.wd.slots[k.val]).armed = true → (s.wd.slots[k.val]).client = t.client →
        let x := s.wd.slots[k.val]
        (x.beg ≤ t.ts → t.ts < x.beg + 4000 * x.period → exec (.wdCheckin t) s = .next ((u.modSlot k fun y => { y with good := true }).ok t)) ∧
        (x.beg + 4000 * x.period ≤ t.ts → exec (.wdCheckin t) s = .next (u.ok t)) ∧
        (t.ts < x.beg → ∃ v : State, exec (.wdCheckin t) s = .next (v.ok t) ∧ v = { u with wd := { u.wd with verdicts := v.wd.verdicts } }
          ∧ v.wd.verdicts.length = u.wd.verdicts.length ∧ ∀ i (h : i < u.wd.verdicts.length) (h' : i < v.wd.verdicts.length),
            v.wd.verdicts[i].good = (u.wd.verdicts[i].good
              || decide (u.wd.verdicts[i].slot = k.val ∧ u.wd.verdicts[i].beg ≤ t.ts ∧ t.ts < u.wd.verdicts[i].fin))))) ∧
    (∀ c : Cal, s.admits t 0x720 {} = true → t.le 16 2 = 2000 + c.year → c.year < 200 → t.byte 18 = c.month → t.byte 19 = c.day →
      t.byte 20 = c.hour → t.byte 21 = c.min → t.byte 22 = c.sec → 1 ≤ c.month → c.month ≤ 12 → 1 ≤ c.day →
      c.day ≤ monthDays (2000 + c.year) c.month → c.hour < 24 → c.min < 60 → c.sec < 60 →
      exec (.rtcSet t) s = .next ((u.ok t 0 (max nb (u.time.clk + 1))).post nb .beat (.rtcSet c))) ∧
    (s.admits t 0x730 {} = true → (sint 32 (t.le 16 4)).natAbs ≤ 32768 → s.wd.shifting = false →
      exec (.rtcShift t) s = .next ((u.ok t).post nb .beat (.rtcShift (sint 32 (t.le 16 4))))) ∧
    (s.admits t 0x740 {} = true → t.le 16 4 ≤ 5529600 → exec (.rtcWake t) s = .next ((u.ok t).post nb .round (.rtcWake (t.le 16 4))))

/-- Meter, counter and trace-stream tickets: METER_START of a defined sequence that fits and METER_STOP act at a frame boundary,
CNT_CTL at a round boundary; a stream starts with the ticket's segments, QUEUED, and its end posts STREAM_END and gives the start
ticket its final stub (R37, R410, R412, Table 11.7). -/
def Obligations.MeterTickets : Prop :=
  ∀ (s : State) (t : Tkt),
    let u := s.takeTicket
    let nb := t.nbBeat u
    (∀ q : Fin 32, t.byte 16 = q.val → 3 ≤ q.val →
      (s.admits t 0x800 {} = true → MeterSeqCfg.defd (s.mcfg q) = true →
        s.overBudget { nb := t.nbBeat s, per := .frame, act := .meterStart q.val } = none →
        exec (.meterStart t) s = .next ((u.post nb .frame (.meterStart q.val)).ok t)) ∧
      (s.admits t 0x810 {} = true → exec (.meterStop t) s = .next ((u.post nb .frame (.meterStop q.val)).ok t))) ∧
    (s.admits t 0xA10 {} = true → 0 < cntCount (t.le 16 2) → t.byte 18 < cntCount (t.le 16 2) → t.byte 19 < cntCount (t.le 16 2) →
      t.byte 20 < 4 → exec (.cntCtl t) s
        = .next ((u.ok t).post nb .round (.cntCtl (t.le 16 2) (t.byte 18) (t.byte 19) (bit (t.byte 20) 0) (bit (t.byte 20) 1)))) ∧
    (s.admits t 0xA21 {} = true → t.sg = true → s.log.stream = none →
      ∃ v : State, exec (.traceStreamStart t) s = .next v ∧ v = { u.queued t with log := v.log } ∧ v.log.stream = some (t.ref, 0, 0, t.segs)) ∧
    (s.admits t 0xA20 {} = true → t.byte 16 = 0 →
      (u.log.stream = none → exec (.traceStreamStop t) s = .next (u.ok t)) ∧
      (∀ ref n off segs, u.log.stream = some (ref, n, off, segs) →
        let v : State := { u with log := { u.log with stream := none } }
        exec (.traceStreamStop t) s = .next (((v.postDev 0xA2 n).final ref 0x00 0 (fld n 32 0 + fld off 32 32)).ok t)))

/-- Pack tickets: the charge current and ship mode act at a round boundary, the pack switch and the gauge at once; a gauge set to
SOC per mille counts that share of the full charge, a gauge reset takes the configured capacity and impedance, and both are
committed (R261, R265, Table 9.6). -/
def Obligations.PackTickets : Prop :=
  ∀ (s : State) (t : Tkt),
    let u := s.takeTicket
    let nb := t.nbBeat u
    (s.admits t 0x910 {} = true → t.le 16 2 ≤ 80 → exec (.chgSet t) s = .next ((u.post nb .round (.chgSet (t.le 16 2))).ok t)) ∧
    (s.admits t 0x920 { nb := some false } = true → t.byte 16 < 2 → ¬ (s.pack.psw = .closed ∧ s.bothBelowRes = true) →
      exec (.packSwitchOpen t) s = .next ((u.pswOpen 2).ok t)) ∧
    (s.admits t 0x921 { nb := some false } = true → t.byte 16 < 2 → exec (.packSwitchRelease t) s = .next ((u.pswRelease 6).ok t)) ∧
    (s.admits t 0x930 {} = true → ¬ (s.pack.psw = .closed ∧ s.bothBelowRes = true) →
      exec (.shipArm t) s = .next ((u.post nb .round (.shipArm (bit (t.byte 16) 1))).ok t)) ∧
    (s.admits t 0x931 {} = true → ¬ (s.pack.psw = .closed ∧ s.bothBelowRes = true) →
      exec (.shipCancel t) s = .next ((u.post nb .round .shipCancel).ok t)) ∧
    (s.admits t 0x940 {} = true → t.byte 16 < 2 → t.le 17 2 ≤ 1000 → nvmFault s = none →
      (s.packOn = false → exec (.gaugeSetSoc t) s = .next (u.ok t)) ∧
      (s.packOn = true → ∃ v : State, exec (.gaugeSetSoc t) s = .next (v.gaugeCommit.ok t)
        ∧ v = { u with pack := { u.pack with count := v.pack.count } } ∧ v.pack.count = Q.divN (Q.mul u.pack.full (Q.ofInt (t.le 17 2))) 1000)) ∧
    (s.admits t 0x941 {} = true → t.byte 16 < 2 → nvmFault s = none →
      (s.packOn = false → exec (.gaugeReset t) s = .next (u.ok t)) ∧
      (s.packOn = true → ∃ v : State, exec (.gaugeReset t) s = .next (v.gaugeCommit.ok t)
        ∧ v = { u with pack := { u.pack with fcc := v.pack.fcc, imp := v.pack.imp } } ∧ v.pack.fcc = PackCfg.capDes u.pkcfg
        ∧ ∀ (i : Fin 16) (j : Fin 8), (v.pack.imp[i.val])[j.val] = PackCfg.rInit u.pkcfg))

/-- Security tickets: a fuse write that none of R443, R444, R448 and R455 bars is under way with its target, its stub outstanding,
and one whose rows hold the DATA already answers OK and blows nothing; an attestation over the nonce fills the segments; a debug
unlock whose signature fails is DENIED with EXTRA 4, one whose signature holds blows the VOID row before anything opens; an
unknown opcode is malformed at byte 0 (R340, R443, R456 to R458). -/
def Obligations.SecurityTickets : Prop :=
  ∀ (s : State) (t : Tkt),
    let u := s.takeTicket
    let die := t.byte 16
    let r := t.le 18 2
    let data := t.le 20 8
    let mine := provisionRow die r && (t.dev != s.ring.num || s.unprovisioned) && s.designated t.client
    (s.admits t 0xE00 { own := if mine then some false else none } = true → die < 3 → (if die = 2 then pRow r else ctlRow r) = true →
      neverWritten r = false → (die ≠ 2 → domainI r = true → s.lockBars r data = false) → (die = 2 → r = 0x41 → s.unprovisioned = true) →
      (epochRow die r = true → data ≠ 0 ∧ s.own.epoch = 2 ^ 32 - 1 ∧ ((∀ d ∈ fuseDies die r, s.rowHas d r data = true) ∨ s.noSlotLeft = false)) →
      (cfgRow die r = true → data ≠ 0 ∧ s.nvm.cfgVer = 2 ^ 32 - 1) → (s.feed[0]).present = true ∨ (s.feed[1]).present = true → (s.dieMax 2).getD 0 ≤ 500 →
      s.nvm.fuse = none → s.nvm.voiding = none → s.pwr.powerFail = false →
      ((∀ d ∈ fuseDies die r, s.rowHas d r data = true) → exec (.fuseWrite t) s = .next (u.ok t)) ∧
      (¬ (∀ d ∈ fuseDies die r, s.rowHas d r data = true) → (∀ d ∈ fuseDies die r, (s.otpDie d).read r = .blank ∨ (s.otpDie d).read r = .torn ∨ s.rowHas d r data = true) →
        (die ≠ 2 → r = 0xEF → u.lockWrong data = false) → ∃ v : State, exec (.fuseWrite t) s = .next v ∧ v = { u with nvm := { u.nvm with fuse := v.nvm.fuse } }
          ∧ v.nvm.fuse = some { ref := t.ref, die := die, row := r, data := data })) ∧
    (s.admits t 0xE10 {} = true → s.nvm.void = false → s.nvm.keySector = true → exec (.attest t) s
      = .next (({ u with fresh := u.fresh + 1 } : State).answer t 0 ((Config.attestation (t.le 16 32) u.fresh).map fun b => b % 256))) ∧
    (s.admits t 0xE20 {} = true → s.partFits t true = true → t.byte 17 ≤ 3 → exec (.debugUnlockPart t) s = .next ((u.holdPart t true).ok t)) ∧
    (∀ e : Option Nat, s.admits t 0xE23 {} = true → s.partFits t true = true → t.byte 17 ≤ 3 → nvmFault s = none → s.nvm.fuse = none → s.nvm.voiding = none → t.le 20 4 = s.own.epoch →
      (let l := ((s.holdPart t true).client t.client).parts
       s.sigCheck [0x54, 0x58, 0x44, 0x55] (t.byte 17) (l.getD 0 0) (l.getD 1 0) (l.getD 2 0) (l.getD 3 0) (t.le 20 4) (t.le 24 8) = e) →
      let w := (u.dropParts t.client).queued t
      (w.nvm.void = true → exec (.debugUnlock t true) s
        = .next (if e.isSome then u.reply t (denied 4) else ({ w with nvm := { w.nvm with debugOpen := true } } : State).final t.ref 0x00)) ∧
      (w.nvm.void = false → ∃ v : State, exec (.debugUnlock t true) s = .next (if e.isSome then u.reply t (denied 4) else v) ∧ v.nvm.voiding = some (some t.ref)
        ∧ v.nvm.debugOpen = w.nvm.debugOpen
        ∧ ((w.otpDie 2).read 0x40 = .blank → (v.otpDie 2).phys ((w.otpDie 2).where_ 0x40) = fusesOf ((w.draw (2 ^ 64)).1))
        ∧ v = { w with nvm := { w.nvm with otp := v.nvm.otp, voiding := v.nvm.voiding }, fresh := w.fresh + 1 })) ∧
    (t.rowKey = 4096 → s.ready t = true → s.isFwd t = true ∨ t.gen = (s.client t.client).gen → exec (.unknownOpcode t) s = .next (u.reply t (malformed 0)))

/-- The detectors of a phase. A sample of a phase that is not OFF is taken by its die as a code, and the active die's sample ends
the cycle. The positive limit on the active die ends the high interval, counts the cycle once and posts the phase-in-limit event
when LIM_EVT consecutive cycles have done so; the negative limit, in a discharge too, and the zero-current trip rest the phase at
mid; a stage fault raises cause STAGE_FAULT (R47, R54 to R58, Table 2.3). -/
def Obligations.PhaseDetectors : Prop :=
  ∀ (s : State) (d : Cd) (p : Ph),
    (∀ (r : Rail) (y : Disch), (s.phAt p).st = .off → s.railOfPh p = some r → (s.railAt r).disch = some y → y.start.isSome = true → d = s.act →
      PhCfg.ilimNeg (s.pcfg p) ≠ 0 → exec (.negativeLimit d p) s = .next (s.modPh p fun x => { x with ball := .mid, rest := true })) ∧
    ((s.phAt p).st ≠ .off →
    (∀ mv uv : Nat, let v := s.phSample d p (imonCode (1000 * mv + uv))
      exec (.currentSample d p mv uv) s = .next (if d = s.act then v.cycleEnd p else v)) ∧
    exec (.stageFault d p) s = .next (s.raiseCause d p 5) ∧
    ((s.phAt p).st = .active ∨ (s.phAt p).st = .test → d = s.act → (s.phAt p).limCyc = false →
      let v := s.modPh p fun x => { x with ball := .low, cut := true, limitNow := true, limCyc := true, limRun := satAdd 8 x.limRun 1
                                           test := x.test.map fun t => { t with bad := true } }
      exec (.phLimitCrossing d p false) s
        = .next (if PhCfg.limEvt (s.pcfg p) ≤ satAdd 8 (s.phAt p).limRun 1 ∧ (s.phAt p).limRaised = false
            then ((v.count p.val 0 1).modPh p fun x => { x with limRaised := true }).postPh 0x02 p else v.count p.val 0 1)) ∧
    ((s.phAt p).st = .active ∨ (s.phAt p).st = .test → d = s.act → PhCfg.ilimNeg (s.pcfg p) ≠ 0 →
      exec (.negativeLimit d p) s = .next (s.modPh p fun x => { x with ball := .mid, rest := true })) ∧
    (∀ r : Rail, (s.phAt p).st = .active ∨ (s.phAt p).st = .test → d = s.act → s.railOfPh p = some r →
      (PhCfg.deEn (s.pcfg p) = true ∧ (s.railAct r).light = true) ∨ (s.railAt r).st = .rampUp ∨ (s.railAt r).st = .rampDown →
      exec (.zeroCurrentTrip d p) s = .next ((s.modPh p fun x => { x with ball := .mid, rest := true, deNow := true }).count p.val 2 1)))

/-- Wear, rotation and the readmit test of a phase. The wear counts go to NVM as they stand; a comparison of the carousel leaves
at most one pending swap a rail, for rails in use only; the static check ends 4 frames after its start, fails at once on a bad
sample, else puts the phase into TEST, after the wait of its steering outputs when both are low; the live check ends at the frame
boundary after 64 cycles, IDLE on a pass. A lending move: the receiving steering output goes high FLX_DT beats after the move's
boundary, and FLX_DT + FLX_ON beats after it the phase is the receiver's, where no bench takes it at that boundary (R67, R69, R70,
R72, R124, Tables 2.5, 2.6 and 4.3; the beats at which the wear and the carousel come round are the model's choice, log entry 82).
-/
def Obligations.PhaseTestsAndMoves : Prop :=
  (∀ (s : State) (p : Ph),
      (s.noRram = false → s.bnd % 240000000 = 0 → ∃ v : State, exec .phWearCommit s = .next v ∧ v = { s with nvm := { s.nvm with wearNvm := v.nvm.wearNvm } }
        ∧ ∀ q : Ph, v.nvm.wearNvm[q.val] = (s.phAt q).wear) ∧
      (s.cfg.cfg.rotPeriod ≠ 0 → s.bnd % (4000 * s.cfg.cfg.rotPeriod) = 0 →
        ∃ v : State, exec .rotationPeriod s = .next v ∧ v = { s with lend := { s.lend with rotPend := v.lend.rotPend } }
        ∧ ∀ (r : Rail) (a b : Nat), (r.val, a, b) ∈ v.lend.rotPend ↔ s.railEn r = true
          ∧ (s.rotPair r).map (fun x => (x.1.val, x.2.val)) = some (a, b)) ∧
      (∀ t : PhTest, (s.phAt p).test = some t → t.live = false →
        (t.steered = none ∧ t.start + 128 ≤ s.bnd ∧ s.bnd % 32 = 0)
          ∨ (∃ b, t.steered = some b ∧ b + (RegionCfg.flxDt (s.phRegCfg p) + RegionCfg.flxOn (s.phRegCfg p)) ≤ s.bnd) →
        (s.staticOk p = false → exec (.phaseStaticCheckEnd p) s = .next (s.atBoundary fun u => u.failTest p 0)) ∧
        (s.staticOk p = true → s.steerLow p = true → t.steered = none → ∃ v : State, exec (.phaseStaticCheckEnd p) s = .next v
          ∧ (v.phAt p).st = (s.phAt p).st ∧ (v.phAt p).test = some { t with steered := some s.bnd }) ∧
        (s.staticOk p = true → s.steerLow p = false ∨ t.steered ≠ none → ∃ v : State, exec (.phaseStaticCheckEnd p) s = .next v
          ∧ (v.phAt p).st = .test ∧ (v.phAt p).test.any (fun y => y.live && decide (y.cycles = 0 ∧ y.start = s.bnd)) = true)) ∧
      (∀ t : PhTest, (s.phAt p).test = some t → t.live = true → 64 ≤ t.cycles →
        exec (.phaseLiveCheckEnd p) s = .next (if s.bnd % 32 ≠ 0 then s
          else s.atBoundary fun u => if t.bad then u.failTest p 0 else (u.toIdle p).testEnd p true 0))) ∧
  (∀ (s : State) (p : Ph) (m : Move), (s.phAt p).move = some m →
      let g := s.phRegCfg p
      exec (.lendSteerOn p) s = .next (if m.atBeat + RegionCfg.flxDt g ≤ s.bnd
        then (s.steerTo p m.dst).modPh p fun x => { x with move := some { m with steered := true } } else s) ∧
      (s.benchDue p = true → exec (.lendArrive p) s = .next s) ∧
      (m.steered = true → m.atBeat + RegionCfg.flxDt g + RegionCfg.flxOn g ≤ s.bnd → s.benchDue p = false →
        ∃ v : State, exec (.lendArrive p) s = .next v ∧ (v.phAt p).asg = some m.dst ∧ (v.phAt p).move = none ∧ (v.phAt p).lastMove = some s.bnd
          ∧ (∀ r : Rail, m.dst = r.val → (v.phAt p).st = if (s.railAt r).st = .off then .off else .active)))

/-- The gang links. RING_CFG steers a packet: one that its entry takes not is passed on at most, as its entry says (R379). A good
command packet of the beat expected latches u and waits with its rail state and catch for the next beat boundary at a deputy or
follower; a good return at most 2 beats old gives the leader or deputy the member's current and phase count. After MISS_N missed
commands the deputy leads, takes the forecasts over and biases the sense pair, the follower holds; a follower that has held for
HOLD beats detaches; a detached member's passed self-test makes it follower or deputy, never leader (R91, R133 to R138, R164,
R379, R380; that the rail state and the catch act at the beat boundary is the model's choice, log entry 91). -/
def Obligations.GangLinks : Prop :=
  ∀ (s : State) (r : Rail), s.ganged r = true →
    let g := s.gang[r.val]
    (∀ (m : GMem) (x : GangRx), g.role = .deputy ∨ g.role = .follower → bit (s.gangEntry r false x) 5 = true → bits x.pkt 63 57 = gangCrc x.pkt →
      (bits x.pkt 15 0 + 1) % 65536 = s.time.clk % 65536 → s.memberBenched r m = false →
      ∃ v : State, exec (.gangCommandReceive r m x) s = .next v ∧ v.gang[r.val].u = sint 24 (bits x.pkt 39 16)
        ∧ v.gang[r.val].pend = some x.pkt ∧ v.gang[r.val].got = true ∧ v.gang[r.val].holdFrom = none
        ∧ (bits x.pkt 15 0 % 32 ≠ 31 →
          v = { s.gangPass (s.gangEntry r false x) x with gang := v.gang, log := v.log, raild := v.raild, ph := v.ph, phd := v.phd })) ∧
    (∀ (m : GMem) (x : GangRx), g.role = .leader ∨ g.role = .deputy → bit (s.gangEntry r true x) 5 = true → bits x.pkt 63 57 = gangCrc x.pkt →
      (s.time.clk % 65536 + 65536 - bits x.pkt 15 0) % 65536 ≤ 2 → m.val ≠ s.myIx r → m.val < RailChain.size (s.rchain r) → s.memberBenched r m = false →
      ∃ v : State, exec (.gangReturnReceive r m x) s = .next v ∧ v = { s.gangPass (s.gangEntry r true x) x with gang := v.gang }
        ∧ v.gang[r.val].isum[m.val] = sint 16 (bits x.pkt 31 16) ∧ v.gang[r.val].nact[m.val] = bits x.pkt 40 36
        ∧ (∀ n : GMem, n ≠ m → v.gang[r.val].isum[n.val] = g.isum[n.val] ∧ v.gang[r.val].nact[n.val] = g.nact[n.val])) ∧
    (∀ (m : GMem) (x : GangRx) (ret : Bool), bit (s.gangEntry r ret x) 5 = false →
      exec (if ret then .gangReturnReceive r m x else .gangCommandReceive r m x) s = .next (s.gangPass (s.gangEntry r ret x) x)) ∧
    (g.role = .deputy → RailChain.missN (s.rchain r) ≤ g.misses → exec (.gangCommandMiss r) s = .next (s.atBoundary fun u =>
      ((u.modGang r fun g => { g with role := .leader, noDep := true, miss := 0, retMiss := 0, gotRet := true, got := true }).fcTakeover r).biasSense)) ∧
    (g.role = .leader → g.noDep = false → RailChain.missN (s.rchain r) ≤ g.retMisses → exec (.gangCommandMiss r) s
      = .next (s.atBoundary fun u => u.gangDetach r)) ∧
    (g.role = .follower → RailChain.missN (s.rchain r) ≤ g.misses → exec (.gangCommandMiss r) s
      = .next (s.modGang r fun g => { g with holdFrom := some (g.holdFrom.getD s.time.clk) })) ∧
    (∀ b : Nat, g.role = .follower → g.holdFrom = some b → g.got = false → b + RailChain.hold (s.rchain r) ≤ s.bnd →
      exec (.gangHoldExpiry r) s = .next (s.atBoundary fun u => u.gangDetach r)) ∧
    (∀ ref : TkRef, g.readmit = some ref → ∃ v : State, exec (.gangMemberSelftestEnd r true) s = .next ((v.postRail 0x08 r 4 0x00).final ref 0x00)
      ∧ v = { s with gang := v.gang, rail := v.rail } ∧ (v.railAt r).benched = none ∧ v.gang[r.val].readmit = none
      ∧ v.gang[r.val].role = if RailChain.role (s.rchain r) ≤ 1 ∧ g.noDep = true then .deputy else .follower)

/-- The arbiter's evidence: a die's own report waits for the beat boundary; LANE_N consecutive cycles whose high times differ by
more than LANE_TOL raise a vote for the rail at the next beat boundary and start the count again, and a blanked cycle starts it
again too (the model's choice, log entry 96); a conducting gate of the other die is ordered off and reported once, with no
handover; a control die moves to its own oscillator or its own beats, each loss reported (R22, R26, R173, R174, R180). -/
def Obligations.ArbiterEvidence : Prop :=
  ∀ (s : State) (d : Cd),
    (∃ v : State, exec (.dieSelfReport d) s = .next v ∧ v = { s with arb := { s.arb with selfPend := v.arb.selfPend } }
      ∧ v.arb.selfPend[d.ix.val] = true ∧ v.arb.selfPend[d.other.ix.val] = s.arb.selfPend[d.other.ix.val]) ∧
    (∀ (p : Ph) (r : Rail) (t : LaneTimes), s.railOfPh p = some r → s.arb.active = some d →
      (((s.phAt p).st ≠ .active ∧ (s.phAt p).st ≠ .test) ∨ s.laneBlanked r = true ∨ (s.phAt p).cycSt ≠ (s.phAt p).st →
        exec (.laneMismatch p t) s = .next (s.modPh p fun x => { x with laneRun := 0 })) ∧
      ((s.phAt p).st = .active ∨ (s.phAt p).st = .test → (s.phAt p).cycSt = (s.phAt p).st → s.laneBlanked r = false →
        (s.laneDiffers r t = false → exec (.laneMismatch p t) s = .next (s.modPh p fun x => { x with laneRun := 0 })) ∧
        (s.laneDiffers r t = true → s.arb.st[d.other.ix.val] ≠ .resync →
          let n := min 3 ((s.phAt p).laneRun + 1)
          exec (.laneMismatch p t) s = .next (if n < TwinCfg.laneN s.tcfg then s.modPh p fun x => { x with laneRun := n }
            else { s.modPh p fun x => { x with laneRun := 0 } with
              arb := { s.arb with dueVotes := s.arb.dueVotes ++ [{ phase := false, unit := r.val, lane := true }] } })))) ∧
    (∀ lane : Nat, lane < 80 → s.arb.active.isSome = true → lane ∉ s.arb.gateOff → exec (.gateMonitorFault lane) s
      = .next (({ s with arb := { s.arb with gateOff := s.arb.gateOff ++ [lane] } } : State).postDie 0x17 2 lane)) ∧
    (∀ lane : Nat, lane ∈ s.arb.gateOff → exec (.gateMonitorFault lane) s = .next s) ∧
    (s.time.pllLocal[d.ix.val] = false → exec (.refoscLost d) s
      = .next (({ s with time := { s.time with pllLocal := s.time.pllLocal.set d.ix true } } : State).postDie 0x18 d.ix.val 0)) ∧
    (∃ v : State, exec .beatStrobeLost s = .next v ∧ v.time = { s.time with strobeOwn := #v[true, true] })

/-- Votes and handovers. A vote in which the intent, or failing that the measurement, speaks against one die only makes the
standby die's bench or a handover from the active die due; one that speaks against both or neither stays open. At the handover the
standby die is ACTIVE and drives, and the former active die stands by after a SWAP, else is benched (R175 to R178, R185, R190,
Table 6.3). -/
def Obligations.VotesAndHandovers : Prop :=
  ∀ (s : State) (d o : Cd), s.arb.active = some d → s.standby = some o →
    (∀ (v : VoteReq) (rest : List VoteReq) (c1 c2 : Nat), s.arb.voteQ = v :: rest →
      let w := ({ s with arb := { s.arb with voteQ := rest, votes := satAdd 16 s.arb.votes 1, voteFrom := s.time.clk } } : State).count (0x052 + d.ix.val) 5 1
      let bad := fun (e : Cd) => match s.voteRail v with
        | some r => s.intentBad r e
        | none => false
      let intent := bad d != bad o
      let mv := Q.norm ((c1 + c2 : Nat) * 4800) (2 * 16384)
      let against := fun (e : Cd) => if intent then bad e else s.measBad e v mv
      let cause := if intent then 5 else if v.lane then 3 else 4
      let n := if v.phase then 64 + v.unit else v.unit
      let k := if intent then 1 else 2
      ∃ t : State, exec (.vote c1 c2) s = .next t ∧ t.arb.active = some d ∧ t.arb.votes = satAdd 16 s.arb.votes 1 ∧
        (against d = false → against o = true → t.arb.dueBench[o.ix.val] = some cause ∧ t.arb.voteQ = [] ∧ t.arb.handover = s.arb.handover) ∧
        (against d = true → against o = false → t.arb.voteQ = [] ∧ t.arb.dueBench = s.arb.dueBench
          ∧ t.arb.handover = some (cause, cause, match s.voteRail v with
            | some r => 2 ^ r.val
            | none => 0)) ∧
        (against d = against o → t = ((if intent then w else (w.voteAbort.convWrite .p 61 (convCode 61 c1)).convWrite .p 61 (convCode 61 c2)).trace 0x07 n k (if against d then 3 else 2)).voteOpen v (against d))) ∧
    (∀ cause det mask : Nat, s.arb.handover = some (cause, det, mask) → ∃ t : State, exec .trapeze s = .next t ∧ t.arb.active = some o
      ∧ t.arb.handover = none ∧ t.arb.trapezes = satAdd 16 s.arb.trapezes 1 ∧ t.arb.gateOff = [] ∧ t.arb.st[o.ix.val] = .active
      ∧ t.arb.st[d.ix.val] = if cause = 0 then .standby else .benched)

/-- The readmission of a control die: a passed self-test leads to RESYNC at the next beat boundary, the completed copy starts an
observation of 16 frames at the next frame boundary, which ends when the last one's records have been compared, passed unless
something disagreed; a failed test or copy ends it failed at the next frame boundary (Table 6.9, R189). -/
def Obligations.DieReadmission : Prop :=
  ∀ (s : State) (d : Cd) (ref : TkRef) (b : Nat), s.arb.readmit = some (d, ref, b) →
    (∀ pass : Bool, s.arb.st[d.ix.val] = .selftest → exec (.dieSelftestEnd pass) s = .next { s with arb := { s.arb with testEnd := some pass } }) ∧
    (b = 0 → s.arb.st[d.ix.val] = .resync → exec (.dieResyncEnd false) s = .next { s with arb := { s.arb with testEnd := some false } } ∧
      ∃ v : State, exec (.dieResyncEnd true) s = .next v ∧ v.arb.readmit = some (d, ref, nextFrame s.time.clk) ∧ v.arb.obsBad = false
        ∧ v.arb.intentSeen[d.ix.val] = s.arb.intentSeq) ∧
    (0 < b → b + 544 ≤ s.bnd → s.bnd % 32 = 0 → exec .dieObservationEnd s = .next (s.atBoundary fun u => u.dieEnd d ref (!u.arb.obsBad))) ∧
    (s.arb.testEnd = some true → s.arbBeat.arb.st[d.ix.val] = .resync ∧ s.arbBeat.arb.testEnd = none) ∧
    (s.arb.testEnd = some false → s.dieTestFrame = s.dieEnd d ref false)

/-- What time does to a rail: after PARAM1 frames in HICCUP it ramps again; a rail that has stayed in REGULATE for an order's good
time gives that order its attempts back; a discharge ends at the first frame boundary after 2 samples below its threshold or its
frames, with the phases at mid; a readmit ramp passes after 16 good frames and clears the bench, and fails at its limit with
FAULT, EXTRA 3, OFF (R211 to R213). -/
def Obligations.RailTimes : Prop :=
  ∀ (s : State) (r : Rail),
    (∀ b : Nat, (s.railAt r).hiccupEnd = some b → (s.railAt r).st = .hiccup → b ≤ s.bnd →
      exec (.hiccupOffEnd r) s = .next (s.atBoundary fun u => u.rampOn r)) ∧
    ((s.railAt r).st = .regulate → ∃ v : State, exec (.hiccupGoodTime r) s = .next v ∧ v = { s with orders := v.orders }
      ∧ v.orders.length = s.orders.length ∧ ∀ i (h : i < s.orders.length) (h' : i < v.orders.length) (w : Order), s.orderAt (s.orders[i]).idx = some w →
        v.orders[i].used = if PbOrder.action w.word = 1 ∧ s.unitRail (PbOrder.scope w.word) (s.orders[i]).unit = some r
          ∧ (s.railAt r).regFrom + 4000 * bits (PbOrder.param2 w.word) 15 8 ≤ s.bnd then 0 else s.orders[i].used) ∧
    (∀ (y : Disch) (b : Nat), (s.railAt r).disch = some y → y.start = some b → s.bnd % 32 = 0 → 2 ≤ y.run ∨ b + 32 * y.frames ≤ s.bnd →
      ∃ v : State, exec (.dischargeEnd r) s = .next v ∧ v = { s with rail := v.rail, ph := v.ph } ∧ (v.railAt r).disch = none
        ∧ ∀ p : Ph, (v.phAt p).ball = if p ∈ s.usableOf r then .mid else (s.phAt p).ball) ∧
    (∀ y : Ramp, (s.railAt r).ramp = some y →
      (16 ≤ y.good → exec (.railReadmitRampEnd r) s = .next (s.atBoundary fun u =>
        let v := u.modRail r fun x => { x with ramp := none, benched := none }
        (({ v with ring := { v.ring with outMe := false } } : State).final y.ref 0x00).postRail 0x08 r 1 0x00 0)) ∧
      (y.good < 16 → y.limit ≤ s.bnd → exec (.railReadmitRampEnd r) s = .next (s.atBoundary fun u =>
        (((u.modRail r fun x => { x with ramp := none, cmdOn := false }).enterOff r).final y.ref 0x3F 0x0003).postRail 0x08 r 1 0x3F 0)))

/-- The converters of a rail. The code of a window sample of an enabled rail is the distance of the sensed input from the window
reference in 0.5 mV, halves away from zero, clamped to 255, and stands in its half; the other half of that die, its other rails
and the other die are as they were; the comparators and then the catch follow. A tracking sample in its beat is a code of 1 mV
that saturates at 4095: a remote one stands as read and is compared with the last VLOC sample where the rail's comparison runs, a
VLOC one stands beside it; in any other beat nothing is sampled (R88, R89, R92, R101, R197). -/
def Obligations.RailSamples : Prop :=
  ∀ (s : State) (d : Cd) (r : Rail), s.railEn r = true →
    (∀ (half : Bool) (uv : Int) (low high : List Ph), ∃ (t v : State) (dv w : Int), exec (.windowSample d r half uv low high) s = .next t
      ∧ w = clampI (-255) 255 (roundAway (uv - 125 * (s.railDie d r).wref) 500) ∧ v = { s with raild := v.raild }
      ∧ (v.railDie d r).w1 = (if half then (s.railDie d r).w1 else w)
      ∧ (v.railDie d r).w2 = (if half then w else (s.railDie d r).w2)
      ∧ (∀ q : Rail, v.railDie d.other q = s.railDie d.other q) ∧ (∀ q : Rail, q ≠ r → v.railDie d q = s.railDie d q)
      ∧ t = ((if d = s.act ∧ (s.railAt r).st ≠ .off ∧ (s.railAt r).st ≠ .hiccup
          then v.compared r half dv (s.railAt r).blankW (s.railAt r).blankF else v).catchSample d r half w low high).gangRefresh r) ∧
    (∀ (remote : Bool) (uv : Nat), s.trackBeat remote = true → ∃ t v : State, exec (.trackingSample d r remote uv) s = .next t
      ∧ (let code := min ((uv + 500) / 1000) 4095
        t = (if remote = (v.railAt r).snsLocal then v else if d = s.act then (v.offCompare d r code).offSample r code else v.offCompare d r code)
        ∧ (remote = false → v = s.vlocSample d r code)
        ∧ (remote = true → s.compares r = true → v = (s.modRailDie d r fun x => { x with vRemote := code }).compareSns d r)
        ∧ (remote = true → s.compares r = false → v = s.modRailDie d r fun x => { x with vRemote := code, snsRun := 0 }))) ∧
    (∀ (remote : Bool) (uv : Nat), s.trackBeat remote = false → exec (.trackingSample d r remote uv) s = .next s)

/-- A catch ends at the end of the beat in which both converters have come back inside, or its hold is over: the die may catch
again 4 beats later; on the active die the rail is spaced anew and the trace carries rail, direction and beats. The sense watch
resumes remote sense at a frame boundary after 16 good frames, the stub OK, and gives up after 64, the stub FAULT, EXTRA 3 (R95,
R105). -/
def Obligations.CatchAndSense : Prop :=
  ∀ (s : State) (d : Cd) (r : Rail),
    (∀ c : CatchSt, (s.railDie d r).ctch = some c → s.catchDue r c = true → ∃ v : State, v = { s with raild := v.raild }
      ∧ (v.railDie d r).ctch = none ∧ (v.railDie d r).rearm = some (s.time.clk + 5)
      ∧ exec (.catchEnd d r) s = .next (if d = s.act then (v.modRail r fun x => { x with respace := true }).trace 0x02 r.val (b2n c.ov) (s.time.clk + 1 - c.start) else v)) ∧
    (∀ b : Nat, (s.railDie d r).rearm = some b →
      exec (.catchRearm d r) s = .next (if b ≤ s.bnd then s.modRailDie d r fun x => { x with rearm := none } else s)) ∧
    (∀ w : Watch, (s.railAt r).watch = some w → s.bnd % 32 = 0 →
      (16 ≤ w.good → exec (.senseWatchEnd r) s = .next (s.atBoundary fun u =>
        let v := u.modRail r fun x => { x with watch := none, snsLocal := RailCfg.snsLocal (u.rcfg r), snsFault := false, snsPend := false }
        ((v.modRailDies r fun x => { x with snsRun := 0 }).postRail 0x09 r u.act.ix.val 2).final w.ref 0x00)) ∧
      (w.good < 16 → 64 ≤ w.frames → exec (.senseWatchEnd r) s = .next (s.atBoundary fun u =>
        ((u.modRail r fun x => { x with watch := none }).postRail 0x09 r u.act.ix.val 3).final w.ref 0x3F 0x0003)))

/-- The AVSBus writes: a voltage from 0.250 V to 3.300 V, a rate pair, a return to VBOOT and the clearing of alert bits reach
every rail the selector names, in order, acknowledged 0; another voltage, or a selector that names no rail, is acknowledged 3 and
changes nothing else. The AVSBus reads of one rail put the word on the bus and acknowledge 0: VSET, the rates, the current in 10
mA saturating at 0xFFFF, the hottest qualified stage in 0.1 °C, the status with VDone, the version 0; with no qualified stage
temperature the word is a free value. A broadcast read, an unknown command, a CRC error and a port fault change only what they
name (R79, R80, R85 to R87). -/
def Obligations.AvsBus : Prop :=
  (∀ (s : State) (port : Avs) (sel v : Nat),
      (∀ l : List Rail, s.avsRails port sel = l → l ≠ [] →
        (250 ≤ v → v ≤ 3300 → exec (.avsTargetVoltageWrite port sel v) s
          = .next ((l.foldl (fun (u : State) r => u.post 0 .beat (.avsVreq r v)) s).avsAck 0)) ∧
        exec (.avsTransitionRateWrite port sel v) s
          = .next ((l.foldl (fun (u : State) r => u.post 0 .beat (.avsRate r (bits v 15 8) (bits v 7 0))) s).avsAck 0) ∧
        exec (.avsResetVoltage port sel) s
          = .next ((l.foldl (fun (u : State) r => u.post 0 .beat (.avsVreq r (RailCfg.vboot (u.rcfg r)))) s).avsAck 0) ∧
        ∃ w : State, exec (.avsStatusWrite port sel v) s = .next (w.avsAck 0) ∧ w = { s with rail := w.rail }
          ∧ ∀ r : Rail, (w.railAt r).alert = if r ∈ l then (s.railAt r).alert &&& (0x7FFF - (v &&& 0x7FFF)) else (s.railAt r).alert) ∧
      (s.avsRails port sel = [] → exec (.avsTransitionRateWrite port sel v) s = .next (s.avsAck 3) ∧ exec (.avsResetVoltage port sel) s = .next (s.avsAck 3)) ∧
      (v < 250 ∨ 3300 < v → exec (.avsTargetVoltageWrite port sel v) s = .next (s.avsAck 3))) ∧
  (∀ (s : State) (port : Avs) (sel : Nat),
      (∀ (r : Rail) (l : List Rail), sel ≠ 15 → s.avsRails port sel = r :: l →
        let bus := fun (u : State) (n : Nat) => ({ u with host := { u.host with bus := some (n % 65536), avsAck := some 0 } } : State)
        exec (.avsTargetVoltageRead port sel) s = .next (bus s (s.railAt r).vset) ∧
        exec (.avsTransitionRateRead port sel) s = .next (bus s (fld (s.rateDn r) 8 0 + fld (s.rateUp r) 8 8)) ∧
        exec (.avsReadRailCurrent port sel) s = .next (bus s (clampI 0 65535 (Q.mul (s.railAct r).ioutF (Q.ofInt 10)).round).toNat) ∧
        (∀ q : Int, maxTemp ((s.activeOf r).filterMap fun p => (s.therm.src[p.val + 24]'(by omega)).tq) = some q →
          exec (.avsReadTemperature port sel) s = .next (bus s (uword 16 (roundNear (5 * q) 2)))) ∧
        (maxTemp ((s.activeOf r).filterMap fun p => (s.therm.src[p.val + 24]'(by omega)).tq) = none →
          ∃ n : Nat, exec (.avsReadTemperature port sel) s = .next (bus { s with fresh := s.fresh + 1 } n)) ∧
        exec (.avsStatusRead port sel) s
          = .next (bus s (fld (b2n (decide ((s.railAct r).slew = 4 * ((s.railAt r).vset : Int)))) 1 15 + fld (s.railAt r).alert 15 0)) ∧
        exec (.avsVersionRead port sel) s = .next (bus s 0)) ∧
      exec (.avsTargetVoltageRead port 15) s = .next { s with host := { s.host with avsAck := none, bus := none } } ∧
      exec (.avsUnsupported port) s = .next (s.avsAck 3) ∧ exec (.avsCrcError port) s = .next (s.avsAck 2) ∧
      exec (.avsPortFault port) s = .next (s.postDev 0x1B port.val))

/-- The windows of a forecast. Headroom starts only at its beat, at TS the baseline closes and the armed forecast is live, after
TE it is live no more, and at the frame boundary after TE + 8 it is scored; each touches the forecast it names only (R154, R155,
R159). -/
def Obligations.ForecastEvents : Prop :=
  ∀ (s : State) (c seq : Nat),
    (∃ v : State, exec (.forecastHeadroomRamp c seq) s = .next v ∧ v = { s with fc := { s.fc with fcs := v.fc.fcs } } ∧ v.fc.fcs.length = s.fc.fcs.length
      ∧ ∀ i (h : i < s.fc.fcs.length) (h' : i < v.fc.fcs.length), let f := s.fc.fcs[i]
        v.fc.fcs[i] = if f.client = c ∧ f.seq = seq ∧ f.ended = none ∧ s.fcHeads f s.bnd = true ∧ f.curtailed = false then { f with live := true } else f) ∧
    (∃ v : State, exec (.forecastWindowOpen c seq) s = .next v ∧ v = { s with fc := { s.fc with fcs := v.fc.fcs } } ∧ v.fc.fcs.length = s.fc.fcs.length
      ∧ ∀ i (h : i < s.fc.fcs.length) (h' : i < v.fc.fcs.length) (r : Rail), let f := s.fc.fcs[i]
        f.rail = r.val → (∀ d : Cd, ((v.fc.fcs[i]).scOf d).ib = if f.client = c ∧ f.seq = seq ∧ f.ended = none ∧ f.ts = s.bnd
            then mean8 (s.railDie d r).iHist else (f.scOf d).ib)
          ∧ v.fc.fcs[i] = { f with sc := (v.fc.fcs[i]).sc
                                   live := f.live || (decide (f.client = c ∧ f.seq = seq ∧ f.ended = none ∧ f.ts = s.bnd) && f.arms s.bnd && !f.curtailed) }) ∧
    (∃ v : State, exec (.forecastWindowClose c seq) s = .next v ∧ v = { s with fc := { s.fc with fcs := v.fc.fcs } } ∧ v.fc.fcs.length = s.fc.fcs.length
      ∧ ∀ i (h : i < s.fc.fcs.length) (h' : i < v.fc.fcs.length), let f := s.fc.fcs[i]
        v.fc.fcs[i] = if f.client = c ∧ f.seq = seq ∧ f.te < s.bnd then { f with live := false } else f) ∧
    (∀ f : Fc, (s.fc.fcs.find? fun (f : Fc) => f.client == c && f.seq == seq && f.ended.isNone) = some f →
      exec (.forecastScore c seq) s = .next (s.atBoundary fun u => if f.scoreAt ≤ s.bnd then u.fcScoreOne f else u))

/-- What time does to a running step of a programme: a RAIL_ON step that has not risen in ARG frames fails, a WAIT step is done, a
RAIL_OFF step that has held for STALL_T frames without reaching its threshold is reported once and holds on, a barrier that has
waited its time names the lowest device missing at it and their number and releases at the next round boundary when the programme
turns rails on; an arrival at a barrier is noted once a device (R219, R221, R222). -/
def Obligations.SequenceTimes : Prop :=
  ∀ (s : State) (n : Prog) (b : Nat),
    (∀ r : Rail, s.stepUntil n 1 (32 * SeqStep.arg (s.stepRec n)) = some b → railOf (SeqStep.unit (s.stepRec n)) = some r →
      exec (.riseFail n) s = .next (if s.bnd < b ∨ s.risen r = true then s else s.atBoundary fun u => u.riseFailed n r)) ∧
    (s.stepUntil n 3 (32 * SeqStep.arg (s.stepRec n)) = some b →
      exec (.seqWaitEnd n) s = .next (if s.bnd < b then s else s.modSeq n fun x => { x with done := some s.bnd })) ∧
    (∀ r : Rail, s.stepUntil n 2 (32 * SeqProg.stallT (s.progcfg n)) = some b → railOf (SeqStep.unit (s.stepRec n)) = some r →
      exec (.seqStall n) s = .next (if s.bnd < b ∨ (s.seq[n.val]).stalled = true ∨ 2 ≤ (s.railAt r).offAt then s
        else s.atBoundary fun u => (u.modSeq n fun x => { x with stalled := true, stalls := satAdd 8 x.stalls 1 }).postRail 0x27 r)) ∧
    (∀ miss : List Nat, s.stepUntil n 5 (4000 * (SeqStep.arg (s.stepRec n) / 16)) = some b → s.bnd ≥ b → (s.seq[n.val]).stalled = false →
      s.barrierMiss n = miss → miss ≠ [] →
      exec (.barrierTimeout n) s = .next (s.atBoundary fun u =>
        (u.modSeq n fun x => { x with stalled := true, btos := satAdd 8 x.btos 1
                                      release := if u.firstRail 128 (SeqProg.start (u.progcfg n)) = 1 then some (nextRound u.time.clk) else none }).postDev 0x28
          (miss.min?.getD 0) miss.length)) ∧
    (∀ (rx : RxIn) (dev : Nat) (a : Arrival), exec (.barrierArrival rx dev n a) s = .next (s.rxPkt rx 2 fun u =>
      let v := u.relay rx.via dev 71 (fld n.val 8 0 + fld a.beat 64 8 + fld a.bar 4 72)
      if (v.seq[n.val]).running = true ∧ ((v.seq[n.val]).arrived.any fun e => e.1 == a.bar && e.2.1 == dev) = false ∧ dev ≠ v.ring.num ∧ v.seqStays dev = true
          ∧ (v.seq[n.val]).left.contains dev = false
      then v.modSeq n fun x => { x with arrived := x.arrived ++ [(a.bar, dev, a.beat)], parts := if x.parts.contains dev then x.parts else x.parts ++ [dev] } else v))

/-- The feeds and the housekeeping supplies. A reversed or underrun conducting feed is declared lost at once; an overvoltage needs
the other feed present; a droop declares the preferred feed only. A feed becomes present in its window unless it is reversed or
was within the last round; the device returns to the preferred feed after RET_T rounds with the alternate pair off first; a
reversed feed's pair is off; an overvoltage with the other feed absent keeps the pair on. A supply whose soft-start time has
passed low, or that leaves its window after it, posts HK_FAULT (R229, R231, R233, R234, R241, R247, R248). -/
def Obligations.FeedEvents : Prop :=
  ∀ (s : State) (f : Feed),
    ((s.feedAt f).pairOn = true → exec (.feedLost f .reverse) s
      = .next (s.feedDeclare f 0 fun x => { x with present := false, rev := true, revAt := some s.time.clk })) ∧
    (let under := fun (x : FeedSt) => { x.seen s.time.clk with present := false, uv := true, ov := false };
      exec (.feedLost f .under) s = .next (if (s.feedAt f).pairOn = true then s.feedDeclare f 1 under else (s.setFeed f under).bothLostCheck)) ∧
    (let overv := fun (x : FeedSt) => { x.seen s.time.clk with present := false, ov := true, uv := false };
      exec (.feedLost f .overv) s = .next (if (s.feedAt f).pairOn = false then s.setFeed f overv
        else if (s.feedAt f.other).present = true then (s.feedDeclare f 2 overv).postDev 0x33 f.ix.val
        else s.setFeed f fun y => y.seen s.time.clk)) ∧
    ((s.feedAt f).pairOn = true → s.prefFeed = some f → exec (.feedLost f .droop) s
      = .next (s.feedDeclare f 3 fun x => { x with presentFrom := s.time.clk })) ∧
    (∀ x : FeedSt, x.seen s.time.clk = { x with revOn := false, lvlAt := some s.time.clk, revAt := if x.revOn then some s.time.clk else x.revAt }) ∧
    ((s.feedAt f).present = false → (s.feedAt f).revOn = true ∨ (∃ b, (s.feedAt f).revAt = some b ∧ s.time.clk < b + 4000) →
      exec (.feedPresent f) s = .next (s.setFeed f fun x => { x.seen s.time.clk with uv := false, ov := false })) ∧
    ((s.feedAt f).present = false → (s.feedAt f).revOn = false → (∀ b, (s.feedAt f).revAt = some b → b + 4000 ≤ s.time.clk) →
      ∃ v : State, exec (.feedPresent f) s = .next v ∧ v = { s with feed := v.feed, pwr := { s.pwr with everPresent := true, bothLost := false } }
        ∧ v.feedAt f.other = s.feedAt f.other
        ∧ (v.feedAt f).st = (if (v.feedAt f).pairOn = true then .conducting else .standby)
        ∧ v.feedAt f = { s.feedAt f with
            st := (v.feedAt f).st, present := true, presentFrom := s.time.clk, uv := false, ov := false, rev := false
            lvlAt := some s.time.clk, pairOn := (s.feedAt f).pairOn || s.feedTakes f }) ∧
    (s.prefFeed = some f → s.bnd % 4000 = 0 → (s.feedAt f).present = true → (s.feedAt f).pairOn = false →
      (s.feedAt f).presentFrom + 4000 * FeedCfg.retT s.fdcfg ≤ s.bnd → s.feedsHeld = false → exec .feedReturn s = .next (s.atBoundary fun u =>
        ((u.setFeed f.other fun x => { x with pairOn := false }).setFeed f fun x => { x with pairOn := true }).postDev 0x31)) ∧
    (let rev := fun (x : FeedSt) => { x with
      present := false, pairOn := false, rev := true, revAt := some s.time.clk, revOn := true, uv := true, ov := false, lvlAt := some s.time.clk };
      exec (.feedRev f) s = .next (if (s.feedAt f).pairOn = true then (s.feedDeclare f 0 rev).postDev 0x32 f.ix.val
        else ((s.setFeed f rev).postDev 0x32 f.ix.val).bothLostCheck)) ∧
    ((s.feedAt f.other).present = false → exec (.feedOv f) s
      = .next ((s.setFeed f fun x => { x.seen s.time.clk with present := false, ov := true, uv := false }).postDev 0x33 f.ix.val)) ∧
    (∀ (k : Hk) (good : Bool), (s.hk[k.val]).on = true → (s.hk[k.val]).good = false →
      good = true ∨ ((s.hk[k.val]).ended = false ∧ (s.hk[k.val]).since + 1000 * 2 ^ HkCfg.ss (s.hkcfg k) ≤ s.bnd) →
      let v := s.modHk k fun x => { x with good := good, ended := true };
      exec (.hkPowerGood k good) s = .next (if good then v else v.postDev 0x3C k.val)) ∧
    (∀ (k : Hk) (above : Bool), exec (.hkExcursion k above) s = .next (if (s.hk[k.val]).on && (s.hk[k.val]).ended then s.postDev 0x3C k.val else s))

/-- The pack. The armed switch closes below RES_TH, an order's open time ends, a charger stage that outlasts its timer is reported
once and carries on, a pack removed while it charges stops the charger at once, a charger check ends after 16 rounds, OFF on a
pass and benched on a fail, the rest point takes SOC from the OCV record unless the segment is too flat and keeps it with the
charge moved since, and the gauge record goes to NVM (R256, R257, R259, R261, R267, R268, R271). -/
def Obligations.PackEvents : Prop :=
  ∀ s : State,
    (s.pack.psw = .armed → s.packOn = true → s.pack.revPosted = false →
      exec .packOn s = .next ((s.modPack fun x => { x with psw := .closed }).postDev 0x46)) ∧
    (∀ b : Nat, s.pack.openEnd = some b → exec .packOpenTimeEnd s
      = .next (if s.bnd < b then s else (s.modPack fun x => { x with openEnd := none }).pswRelease 2)) ∧
    (∀ n : Nat, (s.pack.chg = .precharge ∧ n = 240000000 * PackCfg.preT s.pkcfg)
        ∨ ((s.pack.chg = .fast ∨ s.pack.chg = .cv) ∧ n = 1200000000 * PackCfg.fastT s.pkcfg) → s.pack.toutPosted = false → s.pack.stageFrom + n ≤ s.bnd →
      exec .chgTimeout s = .next (s.atBoundary fun u => (u.modPack fun x => { x with toutPosted := true, toutStage := true }).postDev 0x42)) ∧
    (s.pack.chg = .precharge ∨ s.pack.chg = .fast ∨ s.pack.chg = .cv → ∃ v : State, v.pack.chg = .removed
      ∧ exec .packRemoved s = .next ((v.modPack fun x => { x with stopPend := false }).postDev 0x44)) ∧
    (∀ ref : TkRef, s.pack.check = some ref → 16 ≤ s.pack.checkN →
      (s.pack.checkBad = true → exec .chargerCheckEnd s
        = .next (((s.modPack fun x => { x with check := none }).final ref 0x3F 0x0003).postDev 0x08 3 0x3F)) ∧
      (s.pack.checkBad = false → ∃ v : State, v.pack.chg = .off ∧ v.pack.check = none
        ∧ exec .chargerCheckEnd s = .next ((v.final ref 0x00).postDev 0x08 3 0x00))) ∧
    (∀ (v : Q) (soc : Nat) (u : State), s.packOn = true → s.pack.restN ≠ 0 → s.pack.restN % 1200000 = 0 → s.pack.missing = false → s.pack.vMean = some v →
      (s.ocvSoc (Q.divN v (max 1 s.cells)) = (soc, true, u) → exec .gaugeRestPoint s
        = .next (((u.modPack fun x => { x with unsure := false }).gaugeCommit).postDev 0x4B 0 1)) ∧
      (s.ocvSoc (Q.divN v (max 1 s.cells)) = (soc, false, u) →
        let w := (u.modPack fun x => { x with unsure := false }).fccLearn soc
        let count := Q.divN (Q.mul w.pack.full (Q.ofInt soc)) 1000
        exec .gaugeRestPoint s
          = .next ((w.modPack fun x => { x with count := count, rests := (soc, x.moved) :: x.rests.filter fun e => e.1 != soc }).gaugeCommit.postDev 0x4B
          (argI ((soc : Int) - s.pack.soc)) 0))) ∧
    (s.packOn = true → s.bnd % 240000000 = 0 → exec .gaugeCommit s = .next (if s.noRram = true then s
      else s.modPack fun x => { x with nvm := some (x.count, x.fcc, x.cycles), nvmImp := x.imp }))

/-- The button and ship mode. A press posts BTN and sets the wake cause; 8 s of hold turn both pairs, the pack switch and HOST_RST
off and SUP_EN low, and every rail off at the next beat boundary; 2 s later the reset enters start-up at the OTP check with cause
BUTTON, or leaves a device without a feed unpowered; ship mode in effect takes SUP_EN and VAON; its end and a supply reset enter
start-up with their causes (R264, R265, R434, R463, R496, R497). -/
def Obligations.ButtonAndShip : Prop :=
  ∀ s : State,
    exec .svcBtnPress s = .next (({ s with wd := { s.wd with wakeBtn := true } } : State).postDev 0x4D) ∧
    (∃ v : State, exec .svcBtnHold s = .next v ∧ v.pack.hold = some s.time.clk ∧ v.pack.psw = .open_ ∧ (v.feedAt .a).pairOn = false ∧ (v.feedAt .b).pairOn = false
      ∧ v.pwr.supEn = false ∧ v.pwr.hostRst = none ∧ { nb := 0, per := .beat, act := .cutRails } ∈ v.sched) ∧
    (∀ b : Nat, s.pack.hold = some b → b + 7840000 ≤ s.time.clk →
      ∃ v : State, exec .svcBtnResetEnd s = .next v ∧ v.start.cause = 2 ∧ v.start.step = (if s.anyFeed then 3 else 0)
        ∧ v.pwr.supEn = s.anyFeed ∧ v.pack.hold = none ∧ v.ring.num = s.ring.num ∧ v.cfg.inForce = none) ∧
    (s.pack.ship = true → exec .shipEffect s
      = .next { s with pack := { s.pack with shipIn := true }, pwr := { s.pwr with supEn := false, vaonOk := false } }) ∧
    (s.pack.shipIn = true → ∃ v : State, exec .shipEnd s = .next v ∧ v.start.cause = 3 ∧ v.start.step = 1 ∧ v.ring.num = s.ring.num ∧ v.cfg.inForce = none) ∧
    (s.pwr.vaonOk = true → ∃ v : State, exec .supplyReset s = .next v ∧ v.start.cause = 5 ∧ v.start.step = 3 ∧ v.ring.num = s.ring.num ∧ v.cfg.inForce = none)

/-- The turnstile writes. A write of KIND 0, 1 or 2 counts, meets the client's entry and, when the range, the entry and the
generation fit, sets the ticket tail, frees stub slots or advances the event head within what is outstanding; any other write is a
bad turnstile. A pending generation is adopted with every index of the old one at 0; a completion of an ended generation is
counted stale (R316, R318, R320, R322, R324, R329). -/
def Obligations.Turnstiles : Prop :=
  ∀ (s : State) (c w entry : Nat), s.tsPath c = true →
    (∀ u : State, s.inRange c = true → u = (s.count 0x055 0 1).meetEntry c entry (some (bits w 23 16)) → bits w 29 24 = 0 →
      (u.client c).bad = false → (u.client c).entryGen = bits w 23 16 →
      (bits w 31 30 = 0 → (u.client c).genPend = none → (bits w 15 0 + 2 ^ 16 - (u.client c).tktHead) % 2 ^ 16 ≤ (u.client c).tktSize →
        exec (.turnstileTicketTail c w entry) s
          = .next (u.modClient c fun y => { y with tktTail := bits w 15 0, tsAt := y.tsAt ++ [(bits w 15 0, u.time.clk)], noFetch := false })) ∧
      (bits w 31 30 = 1 → (u.client c).genPend = none →
        (bits w 15 0 + 2 ^ 16 - (u.client c).stubHead) % 2 ^ 16 ≤ ((u.client c).stubTail + 2 ^ 16 - (u.client c).stubHead) % 2 ^ 16 →
        exec (.turnstileStubHead c w entry) s = .next (u.modClient c fun y => { y with stubHead := bits w 15 0, noFetch := false }))) ∧
    (∀ u : State, s.inRange c = true → u = (s.count 0x055 0 1).meetEntry c entry (some (bits w 23 16)) → bits w 29 24 = 0 → bits w 31 30 = 2 →
      (u.client c).bad = false → (u.client c).entryGen = bits w 23 16 → u.ownerHere c = true → u.own.gen = bits w 23 16 → isWindow c = false →
      (bits w 15 0 + 2 ^ 16 - (u.evIdx c).1) % 2 ^ 16 ≤ ((u.evIdx c).2 + 2 ^ 16 - (u.evIdx c).1) % 2 ^ 16 →
      let v := u.modClient c fun y => { y with noFetch := false }
      exec (.turnstileEventHead c { w := w, entry := entry }) s = .next { v with host := { v.host with evHead := bits w 15 0 } }) ∧
    (s.inRange c = false → bits w 31 30 = 0 → exec (.turnstileTicketTail c w entry) s = .next ((s.count 0x055 0 1).badTs c 0)) ∧
    (∀ gen : Nat, (s.client c).genPend = some gen → s.own.valid = false → ∃ v : State, exec (.generationAdopt c gen) s = .next v
      ∧ (v.client c).gen = gen ∧ (v.client c).genPend = none ∧ (v.client c).tktHead = 0 ∧ (v.client c).stubHead = 0 ∧ (v.client c).stubTail = 0
      ∧ (v.client c).held = [] ∧ (v.client c).parts = []) ∧
    (∀ gen n : Nat, (s.client c).gen ≠ gen ∨ (s.client c).genPend ≠ none →
      exec (.staleCompletion c gen n) s = .next { s with host := { s.host with stale := satAdd 16 s.host.stale n } })

/-- Tickets in and stubs out. Fetching takes at most 8 tickets up to the tail, in order, from the ring or the window, in the
client's turn, and none while a stub is held because the ring is full, a read has failed, a generation is pending or the ticket
engine is stopped; a failed access ends its ticket in FAULT with a DMA_ERR event, and one of an ended generation counts as stale;
the oldest held stub goes into the next slot of the client's ring or window with its phase bit and asks for a message; a stub held
for 1,000 rounds is reported once; kept events go to the owner (R319 to R321, R324, R328 to R331). -/
def Obligations.FetchAndAnswer : Prop :=
  ∀ (s : State) (c : Nat),
    (∀ (entry : Nat) (data : List Nat), s.host.fetchOn = true → s.inRange c = true → s.tsPath c = true → s.engineStopped = false → s.fetchTurn c = true →
      let u := (s.meetEntry c entry none).modClient c Client.dropIdle
      let x := u.client c
      let left := (x.tktTail + 2 ^ 16 - x.tktHead) % 2 ^ 16
      let ring := if isWindow c then (List.range (min 8 left)).map fun i => Mem.le (u.winOf c).tkt (64 * ((x.tktHead + i) % 32)) 64 else data
      let l := (ring.take (min 8 left)).map fun raw => raw % 2 ^ 512
      (x.bad = true ∨ x.genPend ≠ none ∨ x.noFetch = true ∨ u.stubHeld c = true ∨ x.tktTail = x.tktHead → exec (.ticketFetch c entry data) s = .next u) ∧
      (x.bad = false → x.genPend = none → x.noFetch = false → u.stubHeld c = false → x.tktTail ≠ x.tktHead →
        ∃ w : State, w = { u with host := w.host, log := w.log } ∧ w.host.fetched = u.host.fetched ∧ (l = [] → w = u)
          ∧ (∀ y : Nat, y ≠ c → w.client y = u.client y) ∧ w.client c = { x with burstAt := (w.client c).burstAt }
          ∧ (isWindow c = true → w.host.hostMem = u.host.hostMem)
          ∧ exec (.ticketFetch c entry data) s
            = .next (l.foldl (fun (v : State) raw => (v.modClient c Client.dropIdle).take1 c raw ((v.client c).dropIdle.cover)) w))) ∧
    (∀ (entry : Nat) (data : List Nat), s.engineStopped = true ∨ s.fetchTurn c = false → exec (.ticketFetch c entry data) s = .next s) ∧
    (∀ (op seq gen : Nat) (err : DmaFault), let ref : TkRef := { client := c, gen := gen, seq := seq }
      let st : Stub := { ref := ref, status := 0x3F, extra := if err.write then 0x0002 else 0x0001 }
      let b := s.count 0x055 4 1
      let u : State := if err.unc then State.headPortErr { b with host := { b.host with uncErr := true } } else b
      ((s.client c).gen ≠ gen ∨ (s.client c).genPend ≠ none → exec (.dmaErr c op seq gen err) s
        = .next { u with host := { u.host with stale := satAdd 16 s.host.stale 1 } }) ∧
      ((s.client c).gen = gen → (s.client c).genPend = none →
        ((∃ x ∈ (s.client c).held, x.ref = ref ∧ x.status ≠ 0x02) → exec (.dmaErr c op seq gen err) s
          = .next ((u.postClient 0x74 c op seq).modClient c fun x =>
            { x with held := x.held.map fun y => if y.ref = ref ∧ y.status ≠ 0x02 then { st with since := y.since } else y })) ∧
        ((∀ x ∈ (s.client c).held, ¬ (x.ref = ref ∧ x.status ≠ 0x02)) → ∃ v : State, exec (.dmaErr c op seq gen err) s = .next (v.stub st)
          ∧ v.host.fetched = s.host.fetched.filter (fun f => !(f.client == c && !f.fwd && bits f.raw 63 48 == seq && bits f.raw 7 0 == op))))) ∧
    (∀ (st : Stub) (rest : List Stub), (s.client c).held = st :: rest → s.tsPath c = true → s.inRange c = true → s.arb.engineMove = false →
      let u := s.meetEntry c (Mem.le s.host.hostMem (s.entryAddr c) 32) none
      let x := u.client c
      let n := stubLog c x
      let bytes := leBytes 16 (st.word + fld (slotPhase x.stubTail n) 1 31)
      (x.stubTail + 2 ^ 16 - x.stubHead) % 2 ^ 16 < 2 ^ n →
      exec (.stubWrite c) s = .next ((if isWindow c then u.modWin c fun w => { w with stub := Mem.writeList w.stub (16 * (x.stubTail % 2 ^ n)) bytes }
        else u.hostWrite (bits x.entry 127 70 * 64 + 16 * (x.stubTail % 2 ^ n)) bytes).modClient c fun y =>
          { y with held := rest, stubTail := wrapAdd 16 y.stubTail 1, msgVec := true })) ∧
    (s.arb.engineMove = true → exec (.stubWrite c) s = .next s) ∧
    (∀ (st : Stub) (l r : List Stub), (s.client c).held = l ++ st :: r → (∀ y ∈ l, y.stalled = true ∨ s.time.clk < y.since + 4000000) → st.stalled = false →
      st.since + 4000000 ≤ s.time.clk → st ∉ l →
      exec (.stubStall c) s = .next ((s.modClient c fun y => { y with held := l ++ { st with stalled := true } :: r }).postClient 0x75 c)) ∧
    (s.ownerHere s.own.client = true → s.tsPath s.own.client = true → s.inRange s.own.client = true →
      isWindow s.own.client = true ∨ s.host.evtEn = true → exec .eventWrite s = .next (State.eventOut 256 s)) ∧
    (s.owned = true → s.own.ownDev ≠ s.ring.num → exec .eventWrite s = .next (if s.linkUp .east || s.linkUp .west then s.eventSend else s))

/-- The host link. EN makes the device a head unless its range is refused, clearing it stops the turnstiles at the next round
boundary; the link's loss and return are posted; a hot reset returns the host-link registers, the message table and the entry
cache and nothing else; the event bucket gains a token every 3,600 rounds up to 2,048; overwritten trace entries are counted in
one entry (R309, R312, R335, R405, R409, R463). -/
def Obligations.HostLink : Prop :=
  ∀ (s : State) (v : Nat),
    (s.bar0Up = true → v % 2 = 1 →
      (s.host.en = false → s.enRefused = true → exec (.hostCtlEnSet v) s
        = .next { s with host := { s.host with evtEn := bit v 1, stopPend := false, refused := true } }) ∧
      (s.host.en = false → s.enRefused = false → exec (.hostCtlEnSet v) s = .next (State.announce
        { s with host := { s.host with evtEn := bit v 1, en := true, stopPend := false, refused := s.host.refused && !bit v 2 }
                 ring := { s.ring with almAll := if s.ring.num ∈ s.ring.almAll then s.ring.almAll else s.ring.almAll ++ [s.ring.num] } })) ∧
      (s.host.en = true → exec (.hostCtlEnSet v) s
        = .next { s with host := { s.host with evtEn := bit v 1, stopPend := false, refused := s.host.refused && !bit v 2 } })) ∧
    (s.bar0Up = true → v % 2 = 0 → exec (.hostCtlEnClear v) s
      = .next { s with host := { s.host with evtEn := bit v 1, stopPend := s.host.en, refused := s.host.refused && !bit v 2 } }) ∧
    (s.linkTrained = true → let u := s.headPortErr
      exec .pcieLinkDown s = .next (({ u with host := { u.host with speed := 0 } } : State).postDev 0x70 u.ring.num)) ∧
    (∀ x : PcieUp, 4 ≤ s.start.step → 1 ≤ x.speed → x.speed ≤ 3 → s.host.islA = true → exec (.pcieLinkUp x) s
      = .next (((({ s with host := { s.host with speed := x.speed, msixEn := x.msixEn, fMask := x.fMask, d3 := x.d3, uncErr := false } } : State)).count 0x055 7 1).postDev
        0x71 s.ring.num x.speed)) ∧
    (∃ u : State, exec .pcieHotReset s = .next u ∧ u = { s with host := u.host } ∧ u.host.en = false ∧ u.host.evtEn = false ∧ u.host.first = 0 ∧ u.host.cnt = 0
      ∧ u.host.baseLo = 0 ∧ u.host.baseHi = 0 ∧ u.host.msix = msixReset ∧ u.host.msixEn = false ∧ u.host.fMask = false ∧ u.host.d3 = false ∧ u.host.pba = 0 ∧ u.host.fetched = s.host.fetched ∧ u.host.speed = s.host.speed
      ∧ u.host.win = s.host.win ∧ u.host.hostMem = s.host.hostMem ∧ ∀ x ∈ u.host.clients, isWindow x.id = false → x.cached = false) ∧
    (s.log.refillAt + 3600 ≤ roundOf s.bnd → exec .tokenRefill s
      = .next { s with log := { s.log with tokens := min 2048 (s.log.tokens + 1), refillAt := s.log.refillAt + 3600 } }) ∧
    (1000 ≤ s.log.overRounds → exec .traceOvw s
      = .next (({ s with log := { s.log with lost := 0, lostMark := 0, overRounds := 0 } } : State).trace 0x08 (min s.log.lost 65535) 0 0))

/-- The meter's and the sensors' instants. A timer of period PER ticks on the beats b with (b − OFS) mod PER = 0 and triggers the
active sequences that name it; an edge of a lane counts towards DEC at the sequences that follow it; a converter's result stands
in its data register and in its channel, or among the references, and goes to the entry it is running. A sample of an enabled
thermal source in a period of its own shifts its three latest samples, runs the checks of its kind and, unless its sensor is
SUSPECT or out of the NTC range, qualifies the source; any other is not taken; a drift of a die's oscillators above 3 % is posted
(R275 to R279, R287, R294, R297, R305). -/
def Obligations.MeterAndThermalInstants : Prop :=
  (∀ s : State,
      (∀ n : Tmr, let w := s.cfg.cfg.meterTmr[n.val]
        MeterTmr.per w ≠ 0 → ((s.time.clk : Int) - MeterTmr.ofs w) % MeterTmr.per w = 0 → exec (.meterTimerTick n) s
          = .next (mseqs.foldl (fun (u : State) (k : Fin 32) =>
            if 2 < k.val ∧ (u.mseq[k.val]).takes = true ∧ MeterSeqCfg.tsrc (u.mcfg k) = n.val then u.triggerAll k else u) s).convStarts) ∧
      (∀ n : Tmr, MeterTmr.per (s.cfg.cfg.meterTmr[n.val]) = 0 → exec (.meterTimerTick n) s = .next s) ∧
      (∀ (c : Conv) (p : Ph) (falling : Bool), (s.phAt p).st = .active ∨ (s.phAt p).st = .test → exec (.meterPwmTrigger c p falling) s
        = .next (mseqs.foldl (fun (u : State) (k : Fin 32) => let cfg := u.mcfg k
          if 2 < k.val ∧ (u.mseq[k.val]).takes = true ∧ MeterSeqCfg.tsrc cfg = 8 ∧ MeterSeqCfg.phase cfg = p.val ∧ MeterSeqCfg.edge cfg = falling ∧ c ∈ u.passConvs k then
            if MeterSeqCfg.dec cfg < (u.mseq[k.val]).dec[c.ix.val] + 1 then (u.modMseq k fun q => { q with dec := q.dec.set c.ix.val 0 }).trigger k c
            else u.modMseq k fun q => { q with dec := q.dec.set c.ix.val ((u.mseq[k.val]).dec[c.ix.val] + 1) }
          else u) s).convStarts) ∧
      (∀ (c : Conv) (ch : Nat) (code code2 : Int), ch < 120 → (s.convAt c).run = none →
        exec (.conversionComplete c ch code code2 false) s = .next ((s.convWrite c ch (convCode ch code)).modConv c id).convStarts) ∧
      (∀ (c : Conv) (i : Fin 3) (code code2 : Int), (s.convAt c).run = none →
        ∃ v : State, exec (.conversionComplete c (120 + i.val) code code2 false) s = .next v.convStarts
          ∧ v = ((s.convWrite c (120 + i.val) (clampI 0 16383 code)).modConv c fun x =>
            { x with refs := (v.convAt c).refs, plan := (v.convAt c).plan, due := (v.convAt c).due }) ∧ (v.convAt c).refs[i.val] = clampI 0 16383 code) ∧
      (∀ (c : Conv) (p : Pass) (ch : Nat) (code code2 : Int) (stalled : Bool), (s.convAt c).run = some p → passCh p = ch →
        let ch2 := MeterEnt.ch2 (passEnt p)
        let u := (s.convWrite c ch (convCode ch code)).modConv c fun x => { x with run := none }
        let w := if ch2 = 0x7F then u else u.convWrite c ch2 (convCode ch2 code2)
        let v := w.modConv c fun x => { x with stalled := some { pass := p, code := convCode ch code, code2 := convCode ch2 code2, beat := w.time.clk } }
        exec (.conversionComplete c ch code code2 stalled) s = .next ((if stalled ∧ c = .p then v else w).entryDone c p (convCode ch code) (convCode ch2 code2)
          (stalled && c == .p)).convStarts) ∧
      (∀ (c : Conv) (ch : Nat) (code : Int), ((s.convWrite c ch code).convAt c).data = code ∧ ((s.convWrite c ch code).convAt c).stalled = none)) ∧
  (∀ s : State,
      (∀ (k : Src) (q : Int), s.srcEn k = true → (s.convAt (s.srcConv k)).plan.contains k.val = true → ∃ v : State,
        v.therm.src[k.val].s0 = some q ∧ v.therm.src[k.val].s1 = s.therm.src[k.val].s0 ∧ v.therm.src[k.val].s2 = s.therm.src[k.val].s1
          ∧ (let u := (({ s with fresh := s.fresh + 1 } : State).convWrite (s.srcConv k) (srcCh k) ((s.draw 16384).1 : Nat)).slotTaken k
            v = { u with therm := v.therm })
          ∧ (∀ p : Ph, stagePh k = some p → exec (.thermalSample k q) s = .next (let u := (v.tfltCheck p q).crossCheck k q
              if (u.therm.src[k.val]).suspect then u else u.qualifySrc k q))
          ∧ (stagePh k = none → k.val < 72 → exec (.thermalSample k q) s = .next (let u := v.crossCheck k q
              if (u.therm.src[k.val]).suspect then u else u.qualifySrc k q))
          ∧ (∀ n : Fin 4, k.val = 72 + n.val → exec (.thermalSample k q) s = .next (let u := (v.ntcCheck n q).crossCheck k q
              if (u.therm.src[k.val]).suspect ∨ (u.pwr.ntcRange[n.val]) then u else u.qualifySrc k q))) ∧
      (∀ (k : Src) (q : Int), s.srcEn k = false ∨ (s.convAt (s.srcConv k)).plan.contains k.val = false → exec (.thermalSample k q) s = .next s) ∧
      (∀ (d : Cd) (l : List Int), s.bnd % 4000000 = 0 → ∃ u : State, u = { s with therm := { s.therm with ro := u.therm.ro } }
        ∧ (∀ i : Fin 4, (u.therm.ro[d.ix.val])[i.val] = l.getD i.val 0) ∧ u.therm.ro[d.other.ix.val] = s.therm.ro[d.other.ix.val]
        ∧ exec (.ageRoMeasure d l) s = .next (if ∃ i : Fin 4, 30 < l.getD i.val 0 then u.postDie 0x56 d.ix.val else u)))

/-- The margin plan's instants. Once per 24 h of REGULATE a warning pair of the peaks plus W_MARGIN is proposed, inside the
envelope or not; a pending proposal is applied automatically at a round boundary when REV_GAP has passed, after an overlay that is
due there; a chirp starts at most once per CHIRP_T under the conditions of R288, and each of its tones runs 4 rounds (R288, R290
to R293). -/
def Obligations.MarginInstants : Prop :=
  ∀ (s : State) (r : Rail),
    (MpCfg.mpEn (s.mpcfg r) = true → s.railEn r = true → 86400000 ≤ (s.railAt r).regBeats →
      let lo := (s.railAt r).peakLo + MpCfg.wMargin (s.mpcfg r)
      let hi := (s.railAt r).peakHi + MpCfg.wMargin (s.mpcfg r)
      exec (.warnProposal r) s = .next ((s.modRail r fun x => { x with regBeats := 0, peakLo := 0, peakHi := 0 }).propose 0 r.val lo hi
        (decide (MpCfg.wMin (s.mpcfg r) ≤ lo ∧ lo ≤ MpCfg.wMax (s.mpcfg r)) && decide (MpCfg.wMin (s.mpcfg r) ≤ hi ∧ hi ≤ MpCfg.wMax (s.mpcfg r))))) ∧
    (let b : State := { s with time := { s.time with clk := s.bnd } };
     s.bnd % 4000 = 0 → (b.ovlDue = true → exec .mpAutoApply s = .next (s.modTherm fun t => { t with autoPend := true })) ∧
    (b.ovlDue = false →
    ((∀ x ∈ s.therm.props, x.inside = false) → exec .mpAutoApply s = .next s) ∧
    (∀ (x : Proposal) (l : List Proposal) (q : Rail), s.cfg.inForce ≠ none → (∀ b : Int, s.therm.lastAuto = some b → b + 14400000000 * (ThermCfg.revGap s.thcfg : Int) ≤ s.bnd) →
      s.therm.props = x :: l → x.inside = true →
      railOf (s.propRail x) = some q → MpCfg.auto (s.mpcfg q) = true → MpCfg.mpEn (s.mpcfg q) = true → s.valueOk s.cfg.cfg x.kind x.target x.v1 x.v2 = true → x.kind ≠ 2 →
      exec .mpAutoApply s = .next (s.atBoundary fun u => (u.mpApply x).modTherm fun t => { t with lastAuto := some (s.bnd : Int) })))) ∧
    (s.bnd % 4000 = 0 → s.railEn r = true → MpCfg.chirpEn (s.mpcfg r) = true → s.therm.chirpAt[r.val] = none → (s.railAt r).st = .regulate →
      (s.railAct r).light = true ∨ 4 ≤ s.therm.iLow[r.val] →
      s.fcOf r = [] → (s.railDie .a r).ctch = none → (s.railDie .b r).ctch = none → (s.railAt r).left % 4 = 0 → s.therm.chirps[r.val] = none →
      ∃ n : ChirpSt, n.start = s.bnd ∧ n.tone = 0 ∧ n.die = s.arb.active ∧ exec (.chirpStart r) s
        = .next (s.modTherm fun t => { t with chirps := t.chirps.set r.val (some n), chirpAt := t.chirpAt.set r.val (some s.bnd) }).intent) ∧
    (∀ (x : ChirpSt) (c esr : Nat), s.therm.chirps[r.val] = some x → x.start + 16000 ≤ s.bnd →
      let acc := if x.tone < 2 then x.cAcc + c else x.cAcc
      (x.tone < 7 → exec (.chirpToneStep r c esr) s
        = .next (s.modTherm fun t => { t with chirps := t.chirps.set r.val (some { x with tone := x.tone + 1, start := s.bnd, cAcc := acc }) })) ∧
      (7 ≤ x.tone → exec (.chirpToneStep r c esr) s = .next (s.chirpDone r (acc / 2) esr)))

/-- The ring's links. A trained link is UP with its counts at 0, or begins its 16 clean rounds behind a wrap, and a failed
training is reported; a lost lane and the second K28.1 ask for a wrap; a link clean for 16 rounds heals; the keeper names the
devices a second cut leaves out of reach, once; what the second ACK does not cover is sent again and counted (R371, R372, R376,
R388, R390, R391). -/
def Obligations.RingLinks : Prop :=
  ∀ (s : State) (p : Side),
    (∀ (t : LinkTrain) (num hop : Nat), s.trainCause p t num hop = none → (s.linkAt p).st ≠ .wrapped →
      ∃ v : State, exec (.linkTrained p t num hop) s = .next v ∧ v = { s with ring := { s.ring with links := v.ring.links } }
      ∧ (v.linkAt p).st = .up ∧ (v.linkAt p).hop = hop ∧ (v.linkAt p).rxAlarm = 0 ∧ (v.linkAt p).rxTicket = 0 ∧ (v.linkAt p).unAlarm = [] ∧ (v.linkAt p).unTicket = []
      ∧ v.linkAt p.other = s.linkAt p.other) ∧
    (∀ (t : LinkTrain) (num hop : Nat), s.trainCause p t num hop = none → (s.linkAt p).st = .wrapped → ∃ v : State, exec (.linkTrained p t num hop) s = .next v
      ∧ (v.linkAt p).st = .wrapped ∧ (v.linkAt p).retrained = true ∧ (v.linkAt p).cleanRounds = 0 ∧ v.linkAt p.other = s.linkAt p.other) ∧
    (∀ (t : LinkTrain) (num hop cause : Nat), s.trainCause p t num hop = some cause → exec (.linkTrained p t num hop) s
      = .next ((s.modLink p fun x => { x with st := if x.st = .wrapped then .wrapped else .down, retrained := false }).postDev 0x6F p.ix.val cause)) ∧
    (∀ (t : LinkTrain) (num hop : Nat), (s.trainCause p t num hop = none
      ↔ t.sync = true ∧ t.twice = false ∧ num ≠ s.ring.num ∧ mayJoin s.ring.num p num = true ∧ hop ≤ 512)) ∧
    exec (.laneDown p) s = .next (s.modLink p fun x => { x with rxDown := true, missed := 4, wrapPend := true, retrained := false, cleanRounds := 0 }) ∧
    exec (.k281Received p) s = .next (s.modLink p fun x => { x with
      k281 := min 2 (x.k281 + 1), wrapPend := x.wrapPend || decide (1 ≤ x.k281), retrained := x.retrained && decide (x.k281 = 0) }) ∧
    ((s.linkAt p).st = .wrapped → (s.linkAt p).retrained = true → 16 ≤ (s.linkAt p).cleanRounds → s.bnd % 4000 = 0 → exec (.linkHeal p) s
      = .next (s.atBoundary fun u =>
        let u := (u.modLink p fun x => { x with st := .up, retrained := false, wrapPend := false }).mend u.ring.num p
        (u.postDev 0x69 p.ix.val).ctrl 64 74 (fld u.ring.num 6 0 + fld p.ix.val 1 8))) ∧
    (∀ l : List Nat, s.unreachable = l → l ≠ [] → s.own.keeper = s.ring.num → 2 ≤ s.cutLinks.length → s.ring.splitPosted = false → exec .ringSplit s
      = .next (({ s with ring := { s.ring with splitPosted := true } } : State).postChain 0x6A ((l.map fun d => 2 ^ d).sum % 2 ^ 32) ((l.map fun d => 2 ^ d).sum / 2 ^ 32))) ∧
    (∀ (a : RingPkt) (l : List RingPkt), ((s.linkAt p).unTicket.dropWhile fun k => decide (k.tries < 2)) = a :: l → ∃ v : State,
      exec (.ringResend p true) s = .next (v.count (0x056 + p.ix.val) 3 (l.length + 1)) ∧ v.ring.resent = satAdd 8 s.ring.resent (l.length + 1)
      ∧ v.ring.tx = ((a :: l).map fun k => { k with tries := 3, via := some p }) ++ s.ring.tx)

/-- The ring's clock. The end of training makes the root's chain clock start at its next beat boundary, a device alone that learns
of a chain joining it as such; 200 ms without a TIME packet start it alone, SOLO set; a device without a count adopts the count a
TIME packet names, and the sender of TIME is its root; a device that counted alone steps its count to the round boundary after the
packet, its cut frame held, with the old and the new count in CLK_ALIGNED; the reference moves to the other neighbour or is lost
(R384 to R386, R468). -/
def Obligations.RingClock : Prop :=
  ∀ s : State,
    (∀ n : Nat, (s.time.counting = false ∧ s.time.startPend = false) ∨ s.start.solo = true → n ≤ 63 → ∃ v : State, exec (.trainingComplete n) s = .next v
      ∧ v = { s with ring := { s.ring with ndev := n, devs := v.ring.devs }, time := { s.time with startPend := v.time.startPend }
                     own := { s.own with keeper := v.root } }
      ∧ (∀ d : Fin 64, (v.ring.devs[d.val]).known = decide (d.val ≤ n))
      ∧ (s.time.counting = false → s.time.startPend = false → v.root = v.ring.num → v.time.startPend = true)
      ∧ (s.time.counting = true ∨ s.time.startPend = true ∨ v.root ≠ v.ring.num → v.time = s.time)) ∧
    (s.time.counting = false → s.time.startPend = false → s.start.step = 5 → s.start.enter5 + 800000 ≤ s.bnd → exec .ringTrainingTimeout s
      = .next ((({ s with time := { s.time with startPend := true }, start := { s.start with solo := true }, ring := { s.ring with ndev := 0 }, own := { s.own with keeper := s.ring.num } } : State)).postDev 0x6F
        (if s.linkUp .east then 1 else 0) 2)) ∧
    (∀ (rx : RxIn) (dev count late : Nat) (u : State), rx.ok = true → s.rxPkt rx 2 id = u → rx.again = true ∨ (s.linkAt rx.via).waitAlarm = false → dev ≠ s.ring.num →
      (s.time.counting = false → ∃ v : State, exec (.timePacket rx dev count late) s = .next v ∧ v.time.clk = count + late ∧ v.time.counting = true ∧ v.ring.aligned = true
        ∧ v.start.step = (if s.start.step = 5 ∧ s.start.barker = false then 6 else s.start.step)) ∧
      (s.time.counting = true → s.start.solo = false → exec (.timePacket rx dev count late) s = .next (u.relay rx.via dev 72 count)) ∧
      (s.time.counting = true → s.start.solo = true → ∃ v : State, v = u.relay rx.via dev 72 count
        ∧ exec (.timePacket rx dev count late) s = .next { v with time := { v.time with timeSeen := some count }, own := { v.own with keeper := dev } })) ∧
    (∀ c : Nat, s.start.solo = true → s.time.timeSeen = some c → ∃ v : State, exec .clockAdopt s = .next (v.atBoundary fun u => u.postDev 0x6E (s.bnd % 2 ^ 32) (s.bnd / 2 ^ 32) ((c + 4000) % 2 ^ 32))
      ∧ v.time.clk = c + 3999 ∧ v.start.solo = false ∧ v.ring.aligned = true ∧ v.ovr.frameHeld = true
      ∧ (s.dieOut .a = false ∨ s.dieOut .b = false → v.ovr.frame = satAdd 16 s.ovr.frame 1 ∧ v.ovr.frameFlag = true)) ∧
    (s.own.keeper ≠ s.ring.num → s.time.clockStopped = false → let cur : Side := if s.ring.refEast then .east else .west
      (s.linkUp cur.other = true → exec .referenceChange s = .next { s with ring := { s.ring with refEast := !s.ring.refEast } }) ∧
      (s.linkUp cur.other = false → exec .referenceChange s
        = .next (({ s with time := { s.time with clockStopped := true, gridOwn := true }, ring := { s.ring with aligned := false } } : State).postDev 0x6D)))

/-- Packets of the ring. A packet that fails its CRC is discarded, counted, and holds its class until the resend; a good one that
is not held is counted, and then: cuts and heals are noted and passed on, an ACK releases what it covers, a ticket packet for
another device is passed on and one for this device waits for its turn in the head's count, a stub for another head's client is
passed on, the data a stub brings fills its ticket's segments, and a second copy of a stub changes nothing more (R321, R375 to
R378, R388, R389, R391). -/
def Obligations.RingPackets : Prop :=
  ∀ (s : State) (rx : RxIn),
    (rx.ok = false → ∀ (dev : Nat) (p : Side), ∃ v : State, exec (.cutPacket rx dev p) s = .next (v.count (0x056 + rx.via.ix.val) 2 1)
      ∧ v = { s with ring := { s.ring with links := v.ring.links, crc := satAdd 16 s.ring.crc 1 } } ∧ (v.linkAt rx.via).waitAlarm = true ∧ (v.linkAt rx.via).crcRound = true) ∧
    (∀ u : State, rx.ok = true → rx.again = true ∨ (s.linkAt rx.via).waitAlarm = false → s.rxPkt rx 2 id = u →
      u = (s.modLink rx.via fun x => { x with rxAlarm := wrapAdd 16 x.rxAlarm 1, waitAlarm := false }).count (0x056 + rx.via.ix.val) 1 1 ∧
      (∀ (dev : Nat) (p : Side), exec (.cutPacket rx dev p) s = .next (let v := u.relay rx.via dev 73 (fld dev 6 0 + fld p.ix.val 1 8)
        if (dev, p) ∈ v.ring.cuts then v else { v with ring := { v.ring with cuts := v.ring.cuts ++ [(dev, p)] } })) ∧
      (∀ (dev : Nat) (p : Side), exec (.linkHealPacket rx dev p) s = .next ((u.relay rx.via dev 74 (fld dev 6 0 + fld p.ix.val 1 8)).mend dev p)) ∧
      (∀ alarms tickets : Nat, ∃ v : State, exec (.ringAck rx alarms tickets) s = .next v ∧ (v.linkAt rx.via).ackAlarm = alarms % 2 ^ 16 ∧ (v.linkAt rx.via).ackTicket = tickets % 2 ^ 16
        ∧ (v.linkAt rx.via).unAlarm.length = (u.linkAt rx.via).unAlarm.length - (alarms % 2 ^ 16 + 2 ^ 16 - (u.linkAt rx.via).ackAlarm) % 2 ^ 16)) ∧
    (∀ (u : State) (src raw : Nat), rx.ok = true → rx.again = true ∨ (s.linkAt rx.via).waitTicket = false → s.rxPkt rx 0 id = u → let dst := u.tktDst { raw := raw }
      (dst ≠ s.ring.num → exec (.ringTicketPacket rx src raw) s = .next (u.send { kind := 0, src := src, dst := dst, body := raw, via := some rx.via.other })) ∧
      (dst = s.ring.num → 2 ^ 12 ≤ (bits raw 95 83 + 2 ^ 13 - (u.devAt src).fwdRx) % 2 ^ 13 → exec (.ringTicketPacket rx src raw) s = .next u) ∧
      (dst = s.ring.num → (u.devAt src).fwdHold = [] → bits raw 95 83 = (u.devAt src).fwdRx → (u.devAt src).fwdRx < 2 ^ 13 → exec (.ringTicketPacket rx src raw) s
        = .next (State.drain src 1 (u.modDev src fun x => { x with fwdHold := [(bits raw 95 83, raw, u.time.clk)] })))) ∧
    (∀ (u : State) (src : Nat) (i : StubIn) (x : Stub), rx.ok = true → rx.again = true ∨ (s.linkAt rx.via).waitTicket = false → s.rxPkt rx 1 id = u →
      stubOf i.raw = x →
      (∀ h : Nat, u.stubHead x.ref.client = some h → exec (.ringStubPacket rx src i) s
        = .next (u.send { kind := 1, src := src, dst := h, body := i.raw, data := i.data, via := some rx.via.other })) ∧
      (u.stubHead x.ref.client = none → (∀ e ∈ (u.devAt src).fwdOut, e.ref ≠ x.ref) → exec (.ringStubPacket rx src i) s = .next u) ∧
      (∀ (e : FwdEnt) (v : State), u.stubHead x.ref.client = none → (u.devAt src).fwdOut = [e] → e.ref = x.ref → e.atBeat < 2 ^ 64 → u.ring.chainOut = [] →
        (u.answered src x.ref (x.status == 0x02)).claimDone x.ref = v →
        (i.data = [] → exec (.ringStubPacket rx src i) s = .next (v.stub x)) ∧
        (i.data ≠ [] → i.data.length ≤ segSum e.segs → exec (.ringStubPacket rx src i) s
          = .next ((v.fill e.segs i.data).stub { x with status := 0x00, value := i.data.length % 2 ^ 32 })) ∧
        (i.data ≠ [] → segSum e.segs < i.data.length → exec (.ringStubPacket rx src i) s = .next ((v.fill e.segs i.data).stub
          { x with status := 0x01, value := segSum e.segs % 2 ^ 32 + (e.cur + segSum e.segs) % 2 ^ 32 * 2 ^ 32 }))))

/-- What the ring gives up on, and what it learns of the other devices: a gap in a head's count passed over after 125 frames, the
stub of a forwarded ticket after 1,000 rounds, a device's check after 16 rounds, presences, heads' ranges, alarm reports, feed
currents, events for the owner and streamed trace entries; a packet addressed to another device is passed on and changes nothing
more (R237, R329, R377, R378, R387, R392, R393, R395, R401, R410; that an event travels in a telemetry packet is the model's
choice, log entry 62). -/
def Obligations.RingReports : Prop :=
  ∀ (s : State) (dev : Nat), dev < 64 →
    (∀ (n raw b : Nat), (s.devAt dev).fwdHold = [(n, raw, b)] → b + 4000 ≤ s.time.clk → n < 2 ^ 13 → (s.devAt dev).fwdRx < 2 ^ 13 → ∃ v : State,
      exec (.forwardGap dev) s = .next (State.drain dev 1 v) ∧ (v.devAt dev).fwdRx = n ∧ v.ring.gap = satAdd 8 s.ring.gap 1) ∧
    (∀ e : FwdEnt, (s.devAt dev).fwdOut = [e] → e.atBeat + 4000000 ≤ s.time.clk → s.ring.chainOut = [] →
      exec (.forwardStubTimeout dev) s = .next ((s.answered dev e.ref false).stub { ref := e.ref, status := 0x3F, extra := 0x0001 })) ∧
    (∀ ref : TkRef, (s.devAt dev).check = some ref →
      ((s.devAt dev).checkBad = true → exec (.chainDeviceCheckEnd dev) s
        = .next ((s.modDev dev fun x => { x with check := none, checkN := 0, checkBad := false }).final ref 0x3F 0x0003)) ∧
      ((s.devAt dev).checkBad = false → 16 ≤ (s.devAt dev).checkN → s.bnd % 4000 = 0 → ∃ v : State, exec (.chainDeviceCheckEnd dev) s = .next (v.final ref 0x00)
        ∧ (v.devAt dev).benched = false ∧ (v.devAt dev).dead = false ∧ (v.devAt dev).check = none) ∧
      ((s.devAt dev).checkBad = false → (s.devAt dev).checkN < 16 ∨ s.bnd % 4000 ≠ 0 → exec (.chainDeviceCheckEnd dev) s = .next s)) ∧
    (∀ (rx : RxIn) (u : State), rx.ok = true → rx.again = true ∨ (s.linkAt rx.via).waitAlarm = false → s.rxPkt rx 2 id = u → dev ≠ s.ring.num →
      (∀ pr : Presence, rx.dst = none ∨ rx.dst = some s.ring.num → s.own.keeper = s.ring.num → (u.devAt dev).benched = false → ∃ v : State,
        exec (.presencePacket rx dev pr) s = .next v
        ∧ (v.devAt dev).known = true ∧ (v.devAt dev).seen = roundOf u.time.clk ∧ (v.devAt dev).missing = 0 ∧ (v.devAt dev).arb = pr.arb ∧ (v.devAt dev).step8 = pr.step8) ∧
      (∀ first n : Nat, s.host.en = false → ∃ v : State, exec (.headAnnounce rx dev first n) s = .next v ∧ (v.devAt dev).range = some (first, n)
        ∧ (v.devAt dev).rangeRound = roundOf s.time.clk) ∧
      (∀ first n : Nat, s.host.en = true → dev < s.ring.num → first < s.host.first + s.host.cnt → s.host.first < first + n → ∃ v : State,
        exec (.headAnnounce rx dev first n) s = .next v ∧ v.host.en = false ∧ v.host.refused = true) ∧
      (∀ (kind : Nat) (a : AlarmRep), rx.dst = none ∨ rx.dst = some s.ring.num → exec (.alarmReportReceive rx dev kind a) s = .next (u.takeReport dev kind a.count)) ∧
      (∀ (kind d : Nat) (a : AlarmRep), rx.dst = some d → d ≠ s.ring.num → exec (.alarmReportReceive rx dev kind a) s
        = .next (u.send { kind := 2, src := dev, dst := d, code := kind, body := reportBody a, via := some rx.via.other }))) ∧
    (∀ (rx : RxIn) (u : State), rx.ok = true → s.rxPkt rx 3 id = u → ∀ (ga : Nat) (ia : Int) (gb : Nat) (ib : Int),
      (rx.dst = none ∨ rx.dst = some s.ring.num → exec (.ringTelemetryPacket rx { dev := dev } ga ia gb ib) s
        = .next { u with pwr := { u.pwr with chainI := (u.pwr.chainI.filter fun e => e.1 != dev) ++ [(dev, ga, ia, gb, ib, roundOf u.time.clk)] } }) ∧
      (∀ w : Nat, rx.dst = none ∨ rx.dst = some s.ring.num → qJoin (eventOf w) u.log.ringQ = none → u.log.ringQ.length < 256 →
        exec (.ringTelemetryPacket rx { dev := dev, event := some w } ga ia gb ib) s
          = .next { u with log := { u.log with ringQ := u.log.ringQ ++ [eventOf w] } }) ∧
      (∀ d : Nat, rx.dst = some d → d ≠ s.ring.num →
        exec (.ringTelemetryPacket rx { dev := dev } ga ia gb ib) s = .next (u.send { chainPkt dev ga ia gb ib with dst := d, via := some rx.via.other }) ∧
        ∀ w : Nat, exec (.ringTelemetryPacket rx { dev := dev, event := some w } ga ia gb ib) s
          = .next (u.send { kind := 3, src := dev, dst := d, len := 8, body := w, via := some rx.via.other }))) ∧
    (∀ (rx : RxIn) (u : State), rx.ok = true → s.rxPkt rx 4 id = u → ∀ e : TraceEnt,
      (∀ d : Nat, rx.dst = some d → d ≠ s.ring.num → exec (.tracePacket rx dev e) s
        = .next (u.send { kind := 4, src := dev, dst := d, body := leNat e.bytes, via := some rx.via.other })) ∧
      (rx.dst = none ∨ rx.dst = some s.ring.num → (u.devAt dev).stream = none → exec (.tracePacket rx dev e) s = .next u) ∧
      (∀ (ref : TkRef) (off a : Nat) (segs : List (Nat × Nat)), rx.dst = none ∨ rx.dst = some s.ring.num →
        (u.devAt dev).stream = some (ref, off, segs) → segAddr segs off = some a → segSum segs ≠ 0 →
        exec (.tracePacket rx dev e) s = .next ((u.hostWrite a e.bytes).modDev dev fun x => { x with stream := some (ref, (off + 16) % segSum segs, segs) })))

/-- Ownership packets. A device takes the record of a keeper in service and learns whether it is benched; the highest epoch it
knows stands, and a keeper keeps its own record against one of a higher number; a new epoch is committed and acknowledged, and
with the NVM not at hand neither committed nor acknowledged; the keeper notes acknowledgements, the owner's heartbeats and the
results of claims, each once; a packet addressed to another device is passed on (R352, R355, R357, R360, R377, R389, R392, R393).
-/
def Obligations.OwnershipPackets : Prop :=
  ∀ (s u : State) (rx : RxIn), rx.ok = true → rx.again = true ∨ (s.linkAt rx.via).waitAlarm = false → s.rxPkt rx 2 id = u →
    (∀ o : OwnRec, o.keeper ≠ s.ring.num → (u.devAt o.keeper).benched = false →
      (s.own.keeper ≠ s.ring.num → ∃ v : State, exec (.ownershipRecord rx o) s = .next v
        ∧ v.own.keeper = o.keeper ∧ v.own.valid = o.valid ∧ v.own.port = o.port ∧ v.own.client = o.client ∧ v.own.epoch = max s.own.epoch o.epoch ∧ v.own.ownDev = o.dev
        ∧ v.own.noRec = 0 ∧ v.ring.benchedMe = o.benched.contains s.ring.num ∧ ∀ k : OPort, (v.own.ports[k.val]).benched = o.portsOut.contains k.val) ∧
      (s.own.keeper = s.ring.num → s.ring.num < o.keeper → s.ring.num ∉ o.benched → ∃ v : State, exec (.ownershipRecord rx o) s = .next v
        ∧ v.own = { s.own with epoch := max s.own.epoch o.epoch, epochNvm := max s.own.epochNvm o.epoch })) ∧
    (∀ dev epoch key : Nat, dev ≠ s.ring.num → epoch ≠ 0 → key < 4 →
      (s.noRram = false → ∃ v : State, exec (.epochCommit rx dev epoch key) s = .next (v.ctrl dev 69 (fld s.ring.num 6 0 + fld epoch 32 8))
        ∧ v.own.epochNvm = epoch ∧ v.nvm.won = u.nvm.won ||| 2 ^ key) ∧
      (s.noRram = true → exec (.epochCommit rx dev epoch key) s = .next (u.relay rx.via dev 68 (fld dev 6 0 + fld epoch 32 8 + fld key 3 40)))) ∧
    (rx.dst = none ∨ rx.dst = some s.ring.num →
      (∀ dev : Nat, exec (.epochAck rx dev) s = .next (if dev ∈ u.own.acks then u else { u with own := { u.own with acks := u.own.acks ++ [dev] } })) ∧
      (∀ round : Nat, s.own.keeper = s.ring.num → (u.devAt s.own.ownDev).benched = false → s.own.valid = true →
        exec (.heartbeatForward rx s.own.ownDev round true) s = .next { u with own := { u.own with genEnd := true } } ∧
        exec (.heartbeatForward rx s.own.ownDev round false) s = .next (u.countBeat round)) ∧
      (∀ cl : ClaimMsg, s.own.keeper = s.ring.num → (u.devAt cl.dev).benched = false → cl.readmit = false → cl.handover = false →
        ((∃ x ∈ u.own.claims, x.client = cl.client ∧ x.seq = cl.seq ∧ x.dev = cl.dev) → exec (.claimResult rx cl) s = .next u) ∧
        ((∀ x ∈ u.own.claims, ¬ (x.client = cl.client ∧ x.seq = cl.seq ∧ x.dev = cl.dev)) → u.own.pendRef ≠ some { client := cl.client, gen := cl.gen, seq := cl.seq } →
          ∃ c : Claim, c.client = cl.client ∧ c.seq = cl.seq ∧ c.epoch = cl.epoch ∧ c.key = cl.key
          ∧ c.verified = true ∧ exec (.claimResult rx cl) s = .next { u with own := { u.own with claims := u.own.claims ++ [c] } }))) ∧
    (∀ cl : ClaimMsg, ∀ d : Nat, rx.dst = some d → d ≠ s.ring.num → exec (.claimResult rx cl) s
      = .next (u.send { kind := 2, src := cl.dev, dst := d, code := 67, body := claimBody cl, via := some rx.via.other }))

/-- Ownership's instants. A verified claim goes to the keeper; the keeper decides the claims of a frame 8,000 beats later in order
of frame and port; an acknowledged record takes effect at a round boundary with OWNER_NEW; a silent owner's port is benched and
nobody owns the chain; a lockout ends at the round boundary of its last round, and a port's check ends after its rounds (R353 to
R357, R361 to R365). -/
def Obligations.OwnershipInstants : Prop :=
  ∀ s : State,
    (∀ (c : Nat) (x : Claim), s.own.claims = [x] → x.client = c → x.dev = s.ring.num → x.verified = false → x.ep5 = true → ∃ y : Claim,
      y = { x with verified := true, fail := y.fail } ∧ exec (.claimVerifyDone c) s = .next (({ s with own := { s.own with claims := [y] } } : State).sendClaim y)) ∧
    (s.own.keeper = s.ring.num → s.own.mismatch = false → s.bnd % 4000 = 0 → exec .claimDecision s = .next (s.atBoundary fun u =>
      (u.dueClaims).foldl State.decideClaim { u with own := { u.own with claims := u.own.claims.filter fun c => !u.dueClaims.contains c } })) ∧
    (∀ (port client gen epoch : Nat), s.own.pend = some (port, client, gen, epoch) → s.own.keeper = s.ring.num → s.bnd % 4000 = 0 → s.own.pendFrom < s.bnd →
      (∀ d ∈ s.inChain, d ∈ s.own.acks) → epoch ≤ s.own.epochNvm → port < 4 → s.own.valid = false → gen < 256 → s.own.pendRef = none → s.own.handQ = none →
      ∃ v : State, exec .ownerRecordEffect s = .next v ∧ v.own.valid = true ∧ v.own.port = port ∧ v.own.client = client ∧ v.own.gen = gen ∧ v.own.epoch = epoch ∧ v.own.pend = none) ∧
    (s.own.keeper = s.ring.num → s.own.valid = true → s.bnd % 4000 = 0 → OwnCfg.deadT s.owcfg ≤ s.own.silent ∨ s.own.genEnd = true → s.own.port < 4 → ∃ v : State,
      exec .ownerDead s = .next v ∧ v.own.valid = false ∧ s.own.client ∈ v.own.deposed ∧ ∀ k : OPort, k.val = s.own.port → (v.own.ports[k.val]).benched = true) ∧
    (∀ port : OPort, (s.own.ports[port.val]).remain = 1 → s.bnd % 4000 = 0 →
      (s.own.portsAt ≠ s.bnd → exec (.lockoutEnd port) s = .next (s.modPort port fun x => { x with remain := 0 }).commitPorts) ∧
      (s.own.portsAt = s.bnd → exec (.lockoutEnd port) s = .next s)) ∧
    (∀ (port : OPort) (ref : TkRef), (s.own.ports[port.val]).check = some ref →
      ((s.own.ports[port.val]).checkBad = true → exec (.portCheckEnd port) s
        = .next ((s.modPort port fun x => { x with check := none, checkN := 0, checkBad := false, benched := x.benched }).final ref 0x3F 0x0003)) ∧
      ((s.own.ports[port.val]).checkBad = false → 16 ≤ (s.own.ports[port.val]).checkN → s.own.keeper = s.ring.num → exec (.portCheckEnd port) s
        = .next ((s.modPort port fun x => { x with check := none, checkN := 0, checkBad := false, benched := false }).final ref 0x00)))

/-- The watchdogs. An armed slot's period of PERIOD rounds ends into a verdict, which is given at the round boundary once the
client's earlier tickets are processed; HOST_RST ends after its pulse; the expiry of a core's watchdog restarts the core, or is
posted alone while a debugger holds it, with 3 ms of grace after a release (R421, R423, R425, R426). -/
def Obligations.WatchdogInstants : Prop :=
  ∀ s : State,
    (∀ k : Slot, let x := s.wd.slots[k.val]
      (x.armed = true → x.beg + 4000 * x.period ≤ s.bnd → exec (.wdPeriodEnd k) s
        = .next ((s.modWd fun w => { w with verdicts := w.verdicts ++ [{ slot := k.val, beg := x.beg, fin := x.beg + 4000 * x.period, client := x.client, good := x.good }] }).modSlot k fun y =>
          { y with beg := x.beg + 4000 * x.period, good := false })) ∧
      (x.armed = false → exec (.wdPeriodEnd k) s = .next s)) ∧
    (∀ (k : Slot) (v : Verdict), s.wd.verdicts = [v] → v.slot = k.val → s.bnd % 4000 = 0 → s.engineStopped = false → v.fin ≤ s.bnd → v.left = 0 →
      exec (.wdVerdict k) s = .next (s.atBoundary fun u =>
        let w := (u.modWd fun x => { x with verdicts := [] }).modSlot k fun x => { x with missed := !v.good }
        (if v.good then w else w.postDev 0x80 k.val v.client).verdictOrders k.val (!v.good))) ∧
    (∀ b : Nat, s.pwr.hostRst = some b → exec .hostRstRelease s = .next (if s.bnd < b then s else { s with pwr := { s.pwr with hostRst := none } })) ∧
    (∀ d : Cd, let i := d.ix.val
      (s.wd.grace[i] = none → s.wd.halted[i] = false → ∃ v : State, exec (.coreWdExpiry d) s = .next (v.postDie 0x81 i) ∧ v = { s with wd := { s.wd with restart := v.wd.restart } }
        ∧ v.wd.restart[i] = true) ∧
      (s.wd.grace[i] = none → s.wd.halted[i] = true → exec (.coreWdExpiry d) s = .next (s.postDie 0x82 i)) ∧
      (∀ b : Nat, s.wd.grace[i] = some b → s.time.clk < b → exec (.coreWdExpiry d) s = .next s) ∧
      exec (.belzapolRestart d) s = .next (s.modWd fun w => { w with restart := w.restart.set i false d.ix.isLt }) ∧
      (s.nvm.debugOpen = true → exec (.debugHalt d) s = .next (s.modWd fun w => { w with halted := w.halted.set i true d.ix.isLt })) ∧
      (s.nvm.debugOpen = false → exec (.debugHalt d) s = .next s) ∧
      (s.wd.halted[i] = true → exec (.debugRelease d) s
        = .next (s.modWd fun w => { w with halted := w.halted.set i false d.ix.isLt, grace := w.grace.set i (some (s.time.clk + 12000)) d.ix.isLt })))

/-- The RTC. An edge clears STOPPED, applies a pending set and the pending shifts, skips a withheld increment or counts the prescaler with the
window's compensation; the window's compensation follows from OFS, K and the temperature within 255; the calendar stops at its end
and restarts when the crystal stops; the wake period's expiry sets its cause; VRTC follows its source, and a VBAK that does not
hold loses it (while no image is in force whether it holds is a free value, log entry 40); a read of RTC_TIME0 freezes the path's
shadows, RTC_TIME1 releases them, and so does 1 s (R427 to R433, R435). -/
def Obligations.RtcInstants : Prop :=
  ∀ s : State,
    (s.wd.setPend = true → exec .rtcEdge s
      = .next ((s.modWd fun w => { w with stopped := false, compDone := (w.compDone + 1) % 2097152, setPend := false, pre := 0, wakeN := 0, shiftPend := []
                                          withhold := w.withhold + w.drops, shifting := w.shifting || decide (0 < w.drops) }).prescale s.wd.adds)) ∧
    (s.wd.setPend = false → 0 < s.wd.withhold + s.wd.drops → exec .rtcEdge s
      = .next ((s.modWd fun w => { w with stopped := false, compDone := (w.compDone + 1) % 2097152, shiftPend := [], withhold := w.withhold + w.drops - 1
                                          shifting := w.shifting || decide (0 < w.drops) }).prescale s.wd.adds)) ∧
    (s.wd.setPend = false → s.wd.withhold = 0 → s.wd.drops = 0 → exec .rtcEdge s
      = .next ((s.modWd fun w => { w with stopped := false, compDone := (w.compDone + 1) % 2097152, shiftPend := [] }).prescale
          (1 + rtcStep s.wd.comp s.wd.compDone + s.wd.adds).toNat)) ∧
    (s.wd.withhold = 0 → exec .rtcShiftEnd s = .next (s.modWd fun w => { w with shifting := false })) ∧
    (∃ v : State, exec .rtcCompensationWindow s = .next v ∧ v = { s with wd := { s.wd with comp := v.wd.comp, compDone := 0 } } ∧ -255 ≤ v.wd.comp ∧ v.wd.comp ≤ 255
      ∧ (let d := s.therm.comp[3] - (4 * (RtcCfg.t0 s.rtccfg : Int) - 200)
         v.wd.comp = clampI (-255) 255 (-(roundNear ((16000 * sint 8 (RtcCfg.ofs s.rtccfg) - (RtcCfg.k s.rtccfg : Int) * d * d) * 65536) 1000000000)))) ∧
    (s.wd.cal = calEnd → s.wd.ended = false → exec .rtcCalendarEnd s = .next (s.modWd fun w => { w with ended := true }).rtcFault) ∧
    (s.wd.stopped = false → exec .rtcCrystalStop s = .next (s.modWd fun w => { w with stopped := true }).rtcRestart) ∧
    (s.wd.stopped = true → exec .rtcCrystalStop s = .next s) ∧
    (s.wd.wakeW ≠ 0 → s.wd.wakeW ≤ s.wd.wakeN → s.wd.stopped = false → exec .rtcWakeExpiry s
      = .next ((s.modWd fun w => { w with wakeN := w.wakeN - w.wakeW, wakeRtc := true }).postDev 0x83)) ∧
    (∀ u : State, s.vbakUp = (false, u) → exec (.vrtcSwitch true) s = .next u.loseVrtc) ∧
    (∀ (b : Bool) (u : State), (b = false ∧ u = s) ∨ (b = true ∧ s.vbakUp = (true, u)) → exec (.vrtcSwitch b) s = .next (if s.running = true
      then (u.modWd fun w => { w with supply := b }).postDev 0x84 (b2n b) else u.modWd fun w => { w with supply := b, rtcPosted := some b })) ∧
    (∀ path : Path, ∃ x : RtcShadow, x.cal = s.wd.cal ∧ x.pre = s.wd.pre ∧ x.valid = s.wd.valid ∧ x.shifting = s.wd.shifting ∧ x.supply = s.wd.supply ∧ x.frozen = true ∧ x.atBeat = s.time.clk
      ∧ exec (.rtcTime0Read path) s = .next { s with wd := { s.wd with shadows := s.wd.shadows.set path.ix.val x path.ix.isLt }, host := { s.host with bus := some x.time0, busUr := false } }) ∧
    (∀ path : Path, exec (.rtcTime1Read path) s
      = .next { s with wd := { s.wd with shadows := s.wd.shadows.set path.ix.val {} path.ix.isLt }, host := { s.host with bus := some (s.rtcView path).time1, busUr := false } }) ∧
    (∀ path : Path, (s.wd.shadows[path.ix.val]).frozen = true → (s.wd.shadows[path.ix.val]).atBeat + 4000000 ≤ s.time.clk →
      exec (.rtcShadowRelease path) s = .next (s.modWd fun w => { w with shadows := w.shadows.set path.ix.val {} path.ix.isLt }))

/-- Fuses and power. The end of a fuse write frees the writer and leaves its stub for the round boundary: OK, or FAULT 4 with the
row's result; a voiding whose fuses verify opens debug access and answers, one that does not repeats; a power failure leaves the
write TORN and the power-fail flag set (R443, R444, R451, R457, R461). -/
def Obligations.FuseInstants : Prop :=
  ∀ s : State,
    (∀ (w : FuseWr) (ok : Bool) (u : State), s.nvm.fuse = some w →
      (s.programAll (fuseDies w.die w.row) w.row w.data ok = (none, u) → exec (.fuseWriteDone ok) s
        = .next { u with nvm := { u.nvm with fuse := none, fuseStub := some { ref := w.ref, status := 0x00 } } }) ∧
      (∀ k : Nat, s.programAll (fuseDies w.die w.row) w.row w.data ok = (some k, u) → exec (.fuseWriteDone ok) s
        = .next { u with nvm := { u.nvm with fuse := none, fuseStub := some { ref := w.ref, status := 0x3F, extra := 0x0004, value := k } } })) ∧
    (∀ ref : TkRef, s.nvm.voiding = some (some ref) →
      exec (.voidingDone false) s = .next s.voidSecrets ∧ ∃ v : State, exec (.voidingDone true) s = .next (v.final ref 0x00) ∧ v.nvm.debugOpen = true ∧ v.nvm.void = true ∧ v.nvm.voiding = none) ∧
    (s.nvm.voiding = some none → ∃ v : State, exec (.voidingDone true) s = .next v ∧ v.nvm.debugOpen = true ∧ v.nvm.void = true ∧ v.nvm.voiding = none) ∧
    (∃ v : State, exec .powerFail s = .next v ∧ v.pwr.powerFail = true ∧ v.nvm.fuse = none ∧ v.log.prev = none)

/-- Start-up, step by step: VAON's rise enters step 2 with its cause, the straps giving the device's number and the debug unlock's
pin, the always-on checks step 3, a sound OTP step 4 with the safety net in force and an unsound one under the hold policy both
dies in reset, the self-tests step 5 with Die A active and Die B standby, with the one sound die active, or in the barker state,
the image step 7, the owner or OWN_WAIT rounds step 8, and a device supply's trip acts on what it supplies (R371, R445, R462,
R463, R465, R466, R469 to R472, R482, R497, R502). -/
def Obligations.StartupSteps : Prop :=
  ∀ s : State,
    (∀ i : VaonIn, s.pwr.vaonOk = false ∨ s.start.step < 2 → ∃ v : State, exec (.vaonRise i) s = .next v ∧ v.start.step = 2 ∧ v.pwr.vaonOk = true ∧ v.pwr.supEn = true
      ∧ v.pwr.cid = i.cid % 64 ∧ v.pwr.testEn = i.testEn ∧ v.start.cause = (if s.start.step = 1 ∧ s.start.cause = 3 then 3 else if i.kept then 1 else 0)) ∧
    (∀ mem xtal : Bool, s.start.step = 2 → ∃ v : State, exec (.startupAonDone mem xtal) s = .next v ∧ v.start.step = 3 ∧ v.start.aonLost = (!mem || s.start.cause == 0) ∧ v.wd.stopped = !xtal
      ∧ (mem = true → s.start.cause ≠ 0 → v.wd.rstCnt = max s.wd.rstCnt s.wd.rstNvm) ∧ (xtal = false → v.wd.valid = false ∧ v.wd.cal = {})) ∧
    (s.start.step = 3 → s.nvm.inReset = false → s.voidRow = false →
      (s.integrityBad = true → s.holdPolicy = true → ∃ v : State, exec .otpCheck s = .next v ∧ v.nvm.inReset = true ∧ v.nvm.result = 2 ∧ v.start.step = 3) ∧
      (s.integrityBad = false → ∃ v : State, exec .otpCheck s = .next v ∧ v.start.step = 4 ∧ v.ring.num = s.pwr.cid % 64 ∧ v.nvm.inReset = false ∧ v.nvm.result < 2 ∧ v.cfg.netOrders = s.netOtp
        ∧ v.host.islA = true ∧ v.host.islB = true)) ∧
    (∀ a b p fa fb fp : Nat, s.start.step = 4 → fa = (if s.pwr.testEn then 0xBF else a &&& 0xBF) → fb = (if s.pwr.testEn then 0xBF else b &&& 0xBF) →
      fp = (if s.pwr.testEn then 0x5F else p &&& 0x5F) → ∃ v : State, exec (.selfTestDone a b p) s = .next v ∧ v.start.step = 5 ∧ v.start.enter5 = s.time.clk
      ∧ v.start.failA = fa ∧ v.start.failB = fb ∧ v.start.failP = fp ∧ v.host.islA = !bit fa 7 ∧ v.host.islB = !bit fb 7
      ∧ (fa % 128 = 0 → fb % 128 = 0 → fp = 0 → s.nvm.result ≠ 2 → v.arb.active = some .a ∧ v.arb.engine = .a ∧ v.arb.st[0] = .active ∧ v.arb.st[1] = .standby)
      ∧ (fa % 128 ≠ 0 → fb % 128 = 0 → fp = 0 → s.nvm.result ≠ 2 → v.arb.active = some .b ∧ v.arb.st[0] = .benched ∧ v.arb.st[1] = .active)
      ∧ (fa % 128 = 0 → fb % 128 ≠ 0 → fp = 0 → s.nvm.result ≠ 2 → v.arb.active = some .a ∧ v.arb.st[0] = .active ∧ v.arb.st[1] = .benched)
      ∧ (fp ≠ 0 ∨ s.nvm.result = 2 ∨ (fa % 128 ≠ 0 ∧ fb % 128 ≠ 0) → v.start.barker = true)) ∧
    (s.start.step = 6 → s.time.counting = true → s.start.barker = false →
      (s.unprovisioned = true → exec .imageLoad s = .next (s.modStart fun x => { x with noimg := true })) ∧
      (s.unprovisioned = false → exec .imageLoad s = .next (let u := s.trySlots s.slotOrder
        let v := if u.cfg.inForce.isSome then u.oneDie else u
        let w := v.postDev 0x91 v.start.cause
        if w.start.barker then w else w.modStart fun x => { x with step := 7, ownFrom := w.time.clk }))) ∧
    (s.start.step = 7 → s.bnd % 4000 = 0 →
      ((s.own.valid = true ∧ s.own.noRec < 2) ∨ StartCfg.ownWait s.stcfg = 0 → exec .ownerWaitEnd s = .next (s.modStart fun x => { x with step := 8, ownFrom := s.bnd })) ∧
      (s.own.valid = false → StartCfg.ownWait s.stcfg = 65535 → exec .ownerWaitEnd s = .next s) ∧
      (s.own.valid = false → StartCfg.ownWait s.stcfg ≠ 0 → StartCfg.ownWait s.stcfg ≠ 65535 → exec .ownerWaitEnd s
        = .next (if s.bnd < s.start.ownFrom + 4000 * StartCfg.ownWait s.stcfg then s
          else s.atBoundary fun u => (u.modStart fun x => { x with step := 8, ownFrom := u.time.clk, noown := true }).postDev 0x93 (StartCfg.ownWait s.stcfg)))) ∧
    (s.start.step = 8 → s.bnd % 4000 = 0 → s.cfg.inForce ≠ none → s.start.ownFrom + 4000 ≤ s.bnd →
      (s.pwr.slot = 0 → exec .sequenceStep s = .next (s.atBoundary State.slotStart)) ∧
      (s.pwr.slot ≠ 0 → s.start.chainAuto = true → exec .sequenceStep s = .next s) ∧
      (s.pwr.slot ≠ 0 → s.start.chainAuto = false → s.own.keeper ≠ s.ring.num ∨ (∃ b, s.ring.ready8 = some b ∧ b + 8000 ≤ s.bnd) →
        exec .sequenceStep s = .next (s.atBoundary State.chainStart))) ∧
    (exec (.supplyMonitorTrip .vddcA) s = .next { s with arb := { s.arb with selfPend := s.arb.selfPend.set 0 true } } ∧
     exec (.supplyMonitorTrip .vdd18A) s = .next { s with arb := { s.arb with selfPend := s.arb.selfPend.set 0 true } } ∧
     exec (.supplyMonitorTrip .vddcB) s = .next { s with arb := { s.arb with selfPend := s.arb.selfPend.set 1 true } } ∧
     exec (.supplyMonitorTrip .vdd18B) s = .next { s with arb := { s.arb with selfPend := s.arb.selfPend.set 1 true } } ∧
     (∃ v : State, exec (.supplyMonitorTrip .vddsd) s = .next v ∧ v.host.islA = false ∧ v.linkTrained = false
       ∧ ∀ p : Side, (v.linkAt p).rxDown = true ∧ (v.linkAt p).wrapPend = true) ∧
     (s.pwr.vaonOk = true → exec (.supplyMonitorTrip .vaon) s = .next (({ s with pwr := { s.pwr with vaonOk := false } } : State).postDev 0x3D)))

/-- Register accesses. A read of the chain clock's low word captures the high word in its path's shadow; a read returns the bytes
and over BAR0 clears the clearing fields it covers, and one that covers CHAIN_CLK_LO or the RTC's two words captures, freezes or
releases the path's shadow as well; a read of a client's turnstile returns TKT_HEAD and STUB_TAIL; an access over BAR0 that is
wider than 4 bytes or not aligned ends with Unsupported Request; a write reaches its register; RESTART acts in the barker and the
no-image state only (R11, R32, R310, R474, R507, R508, Table 12.11). -/
def Obligations.RegisterAccess : Prop :=
  ∀ (s : State) (path : Path), s.pathUp path = true →
    exec (.chainClkLoRead path) s = .next { s with
      time := { s.time with hiShadow := s.time.hiShadow.set path.ix.val (if s.time.counting then s.time.clk / 2 ^ 32 % 2 ^ 32 else 0) path.ix.isLt }
      host := { s.host with bus := some (if s.time.counting then s.time.clk % 2 ^ 32 else 0), busUr := false } } ∧
    (∀ off size : Nat, accessOk off size = true →
      let answer : State → State → State := fun u t =>
        let v : State := { t with host := { t.host with
          bus := some (u.busWord path (off / 4 * 4) / 2 ^ (8 * (off % 4)) % 2 ^ (8 * size)), busUr := false } }
        if path = .bar0 then v.clearRc off size else v
      (off ≠ 0x0110 → off ≠ 0x0520 → off / 4 ≠ 0x0524 / 4 → exec (.rcFieldRead path off size) s = .next (answer s s)) ∧
      (off = 0x0110 → exec (.rcFieldRead path off size) s = .next (answer s { s with time := { s.time with
        hiShadow := s.time.hiShadow.set path.ix.val (if s.time.counting then s.time.clk / 2 ^ 32 % 2 ^ 32 else 0) path.ix.isLt } })) ∧
      (off = 0x0520 → ∃ t : State, exec (.rtcTime0Read path) s = .next t ∧ exec (.rcFieldRead path off size) s = .next (answer t t)) ∧
      (off / 4 = 0x0524 / 4 → ∃ t : State, exec (.rtcTime1Read path) s = .next t ∧ exec (.rcFieldRead path off size) s = .next (answer s t))) ∧
    (∀ c : Nat, path = .bar0 → c < 4096 → s.inRange c = true → ∃ t : State, exec (.rcFieldRead path (0x4000 + 4 * c) 4) s = .next t
      ∧ t.host.bus = some (fld (s.client c).tktHead 16 0 + fld (s.client c).stubTail 16 16)) ∧
    (path = .bar0 → exec (.rcFieldRead path 0x0218 2) s
      = .next { s with host := { s.host with bus := some (s.host.stale % 2 ^ 16), busUr := false, stale := 0 } }) ∧
    (∀ off size : Nat, path = .bar0 → accessOk off size = false → exec (.bar0UnsupportedAccess off size) s = .next { s with host := { s.host with bus := none, busUr := true } }) ∧
    (∀ off size v : Nat, Instr.wf (.registerWrite path off size v) = true →
      (accessOk off size = true → exec (.registerWrite path off size v) s = .next (s.regWrite path off size v)) ∧
      (accessOk off size = false → path = .bar0 → exec (.registerWrite path off size v) s = .next { s with host := { s.host with bus := none, busUr := true } })) ∧
    (∀ v : Nat, path = .bar0 ∨ s.ring.num = 0 →
      (bit v 0 = true → bits v 15 8 = 0xB4 → s.start.barker = true ∨ s.start.noimg = true → ∃ u : State, exec (.startCtlRestart path v) s = .next u
        ∧ u.start.cause = 4 ∧ u.start.step = 3 ∧ u.start.barker = false ∧ u.ring.num = s.ring.num) ∧
      (s.start.barker = false → s.start.noimg = false → exec (.startCtlRestart path v) s = .next s))

/-- SPI transactions. A write whose CRC-8 over command, address and data holds is taken whole on device 0, a failing one is
discarded and reported; a read returns its bytes followed by their CRC-8 and clears nothing (R331, R506 to R508). -/
def Obligations.SpiAccess : Prop :=
  ∀ (s : State) (p : Port) (addr : Nat) (data : List Nat) (crc : Nat), s.pathUp (spiPath p) = true →
    (s.ring.num = 0 → data.length ≤ 2048 → crc8 ([0x01, addr / 256, addr] ++ data) = crc → exec (.spiWrite p addr data crc) s = .next (s.spiApply p (addr % 65536) data)) ∧
    (s.ring.num = 0 → data.length ≤ 2048 → crc8 ([0x01, addr / 256, addr] ++ data) ≠ crc → exec (.spiWrite p addr data crc) s = .next (s.spiBad p)) ∧
    (s.ring.num ≠ 0 → exec (.spiWrite p addr data crc) s = .next s) ∧
    (∀ w : Nat, w % 4 = 0 → w < 0x1000 → w ≠ 0x0110 → w ≠ 0x0520 → w ≠ 0x0524 → ∃ v : State, exec (.spiRead p w 4) s = .next v
      ∧ v = { s with host := { s.host with win := v.host.win } }
      ∧ (v.winOf (spiClient p)).out = leBytes 4 (s.reg (spiPath p) w) ++ [crc8 ([0x02, w / 256, w % 256] ++ leBytes 4 (s.reg (spiPath p) w))])

/-- The ticks. BEAT_TICK starts the next beat, runs what is due at it and does the beat's work; FRAME_TICK and ROUND_TICK do the
work of the boundary at hand and of no other, in the order of R27's periods, and leave the beat count to BEAT_TICK (R27 to R30,
R39; log entry 8). -/
def Obligations.Ticks : Prop :=
  ∀ s : State,
    (∀ i : BeatIn, ∃ v : State, exec (.beatTick i) s = .next v ∧ v.time.clk = s.bnd
      ∧ v = ((((s.nextBeat.chatBeat).runDue .beat).beatPipeline i).meterBeat.feedBeat).ringBeat) ∧
    (∀ i : FrameIn, s.bnd % 32 = 0 → ∃ v : State, exec (.frameTick i) s = .next v ∧ v.time.clk = s.time.clk
      ∧ v = s.atBoundary fun u => (((u.msixFrame).ringFrame).stageFrame).frameWork i) ∧
    (∀ i : FrameIn, s.bnd % 32 ≠ 0 → exec (.frameTick i) s = .next s) ∧
    (∀ i : RoundIn, s.bnd % 4000 = 0 → ∃ v : State, exec (.roundTick i) s = .next v ∧ v.time.clk = s.time.clk ∧ v = s.atBoundary fun u => (u.pageWork i).roundWork i.late) ∧
    (∀ i : RoundIn, s.bnd % 4000 ≠ 0 → exec (.roundTick i) s = .next s)

/-- Which phase a rail adds and which it sheds: the IDLE phase with the lowest wear among those it may use; the ACTIVE phase with
the highest wear among those with NO_ROT = 0, or the highest number when all have NO_ROT = 1; ties go to the higher number (R71).
-/
def Obligations.PhaseChoice : Prop :=
  ∀ (s : State) (r : Rail),
    (let can := (s.phasesOf r).filter fun p => (s.phAt p).st == .idle && !(s.phAt p).limHot && !s.heldOut p
     (can = [] → s.addPhases r 1 = s) ∧
     (can ≠ [] → ∃ p ∈ can, s.addPhases r 1 = s.toActive p
       ∧ ∀ q ∈ can, (s.phAt p).wear < (s.phAt q).wear ∨ ((s.phAt p).wear = (s.phAt q).wear ∧ q.val ≤ p.val))) ∧
    (let act := s.activeOf r
     let free := act.filter fun p => !PhCfg.noRot (s.pcfg p)
     (act = [] → s.shedPick act = none) ∧
     (act ≠ [] → free = [] → ∃ p ∈ act, s.shedPick act = some p ∧ ∀ q ∈ act, q.val ≤ p.val) ∧
     (free ≠ [] → ∃ p ∈ free, s.shedPick act = some p
       ∧ ∀ q ∈ free, (s.phAt q).wear < (s.phAt p).wear ∨ ((s.phAt q).wear = (s.phAt p).wear ∧ q.val ≤ p.val)))

/-- An event coalesces into a record still pending in the same queue when the two agree in CODE, DEV, SCOPE, UNIT, CLOSE and OBS,
and neither is a summary: COUNT rises by 1 and saturates at 65,535, everything else of the record keeps the first occurrence's
values; the owner-ring queue and the journal queue alike (R404). -/
def Obligations.Coalescing : Prop :=
  let agree := fun (a b : Event) => a.code = b.code ∧ a.dev = b.dev ∧ a.scope = b.scope ∧ a.unit = b.unit ∧ a.close = b.close ∧ a.obs = b.obs ∧ a.summary = false ∧ b.summary = false
  (∀ (e : Event) (q : List Event), (∀ x ∈ q, ¬ agree x e) ↔ qJoin e q = none) ∧
  (∀ (e x : Event) (l r : List Event), (∀ y ∈ l, ¬ agree y e) → agree x e → qJoin e (l ++ x :: r) = some (l ++ { x with count := min 65535 (x.count + 1) } :: r, x)) ∧
  (∀ (s : State) (e x : Event) (l r : List Event), (∀ y ∈ l, ¬ agree y e) → agree x e →
    (s.log.ringQ = l ++ x :: r → (s.ringPut e).2.log.ringQ = l ++ { x with count := min 65535 (x.count + 1) } :: r ∧ (s.ringPut e).2.log.eseq = s.log.eseq) ∧
    (s.log.jro = false → s.log.jrnQ = l ++ x :: r → (s.jrnPut e).log.jrnQ = l ++ { x with count := min 65535 (x.count + 1) } :: r))

/-- The set point of a rail: VREQ is the last voltage accepted on its AVSBus binding with AVS_EN = 1, else the last SET_TARGET
value, and VBOOT before any; FLOOR is the highest floor held, 0 with none; VSET lies within the owner's envelope and is the larger
of the two wherever the envelope lets it. What is posted for a rail's voltage, rates, floors and envelope changes that and nothing
else; a vote of 0 withdraws the client's floor (R76 to R78, R80). -/
def Obligations.SetPoints : Prop :=
  ∀ (s : State) (r : Rail),
    (let v := s.compose r
     let want := max (s.vreqOf r) (s.railAt r).floor
     (s.vlo r ≤ s.vhi r → s.vlo r ≤ (v.railAt r).vset ∧ (v.railAt r).vset ≤ s.vhi r ∧ (want < s.vlo r → (v.railAt r).vset = s.vlo r) ∧ (s.vhi r < want → (v.railAt r).vset = s.vhi r)
       ∧ (s.vlo r ≤ want → want ≤ s.vhi r → (v.railAt r).vset = want)) ∧
     ((v.railAt r).clamped = true ↔ (v.railAt r).vset ≠ want) ∧ (∀ q : Rail, q ≠ r → v.railAt q = s.railAt q) ∧ v = { s with rail := v.rail }) ∧
    (RailCfg.avsEn (s.rcfg r) = true → s.vreqOf r = if (s.railAt r).vreqAcc then (s.railAt r).vreq else RailCfg.vboot (s.rcfg r)) ∧
    (RailCfg.avsEn (s.rcfg r) = false → s.vreqOf r = (s.railAt r).lastSet.getD (RailCfg.vboot (s.rcfg r))) ∧
    ((∀ f ∈ (s.railAt r).floors, f.2 ≤ (s.railAt r).floor) ∧ ((s.railAt r).floors = [] → (s.railAt r).floor = 0) ∧
      ((s.railAt r).floor ≠ 0 → ∃ f ∈ (s.railAt r).floors, f.2 = (s.railAt r).floor)) ∧
    (∀ mv : Nat, s.runAct (.setVreq r mv) = s.modRail r fun x => { x with lastSet := some mv }) ∧
    (∀ mv : Nat, s.runAct (.avsVreq r mv) = s.modRail r fun x => { x with vreq := mv, vreqAcc := true }) ∧
    (∀ up dn : Nat, s.runAct (.avsRate r up dn) = s.modRail r fun x => { x with avsUp := up, avsDn := dn }) ∧
    (∀ lo hi : Nat, s.runAct (.setEnv r lo hi) = s.modRail r fun x => { x with envLo := some lo, envHi := some hi }) ∧
    (∀ c mv : Nat, ∃ v : State, s.runAct (.setFloor r c mv) = v ∧ v = { s with rail := v.rail } ∧ (∀ q : Rail, q ≠ r → v.railAt q = s.railAt q)
      ∧ v.railAt r = { s.railAt r with floors := (v.railAt r).floors }
      ∧ (∀ f : Nat × Nat, f.1 ≠ c → (f ∈ (v.railAt r).floors ↔ f ∈ (s.railAt r).floors))
      ∧ (∀ n : Nat, (c, n) ∈ (v.railAt r).floors ↔ n = mv ∧ mv ≠ 0))

/-- The addressed buffers (host memory as the device wrote it, the SPI windows, the vector table, the staging areas): a write
reads back and leaves every other byte as it was, two buffers in canonical form that read alike are the same buffer, and a byte
never written reads 0 (the model's choice, log entry 5). -/
def Obligations.Buffers : Prop :=
  (∀ (m : Mem) (a : Nat) (b : Byte), m.wf = true → (m.write a b).read a = b ∧ ∀ x : Nat, x ≠ a → (m.write a b).read x = m.read x) ∧
  (∀ (m : Mem) (a : Nat) (l : List Nat), m.wf = true →
    (∀ i (h : i < l.length), (m.writeList a l).read (a + i) = BitVec.ofNat 8 l[i]) ∧ ∀ x : Nat, x < a ∨ a + l.length ≤ x → (m.writeList a l).read x = m.read x) ∧
  (∀ m n : Mem, m.wf = true → n.wf = true → (∀ a : Nat, m.read a = n.read a) → m = n) ∧
  ∀ a : Nat, Mem.read [] a = 0

/-- SEC-DED over a row of fuses: a programmed row reads COMPLETE with its DATA; with any single fuse of DATA or CHK misread it
reads COMPLETE with the same DATA, corrected; with any one of its COMMIT fuses unblown it reads COMPLETE with its DATA (R437,
R438). -/
def Obligations.SecDed : Prop :=
  ∀ d : Nat, d < 2 ^ 64 → fusesOf d ≠ 2 ^ 80 - 1 →
    readFuses (fusesOf d) = .complete d false ∧
    (∀ i : Nat, i < 72 → fusesOf d ^^^ 2 ^ i ≠ 2 ^ 80 - 1 → readFuses (fusesOf d ^^^ 2 ^ i) = .complete d true) ∧
    (∀ i : Nat, 72 ≤ i → i < 80 → readFuses (fusesOf d ^^^ 2 ^ i) = .complete d false)
end

