-- ==== Sys2Proof/Laws/FrameBase.lean ====
section
/-! SUPPORT. What the frame lemmas of the operations rest on: a fold over operations that keep the queue, the fuses and
the beat count keeps them too. -/

namespace Sys2Proof.Machine

@[simp] theorem foldl_keeps {α : Type} {g : State → α → State} (h : ∀ s x, (g s x).pending = s.pending ∧ (g s x).nvm.otp = s.nvm.otp ∧ (g s x).time.clk = s.time.clk) (l : List α) (s : State) :
    (l.foldl g s).pending = s.pending ∧ (l.foldl g s).nvm.otp = s.nvm.otp ∧ (l.foldl g s).time.clk = s.time.clk := by
  induction l generalizing s with
  | nil => exact ⟨rfl, rfl, rfl⟩
  | cons a l ih => obtain ⟨p, q, r⟩ := ih (g s a); obtain ⟨p', q', r'⟩ := h s a; exact ⟨p.trans p', q.trans q', r.trans r'⟩
theorem foldl_pend {α : Type} {g : State → α → State} (h : ∀ s x, (g s x).pending = s.pending) (l : List α) (s : State) : (l.foldl g s).pending = s.pending := by
  induction l generalizing s with
  | nil => rfl
  | cons a l ih => exact (ih (g s a)).trans (h s a)
theorem foldl_otp {α : Type} {g : State → α → State} (h : ∀ s x, (g s x).nvm.otp = s.nvm.otp) (l : List α) (s : State) : (l.foldl g s).nvm.otp = s.nvm.otp := by
  induction l generalizing s with
  | nil => rfl
  | cons a l ih => exact (ih (g s a)).trans (h s a)
theorem foldl_clk {α : Type} {g : State → α → State} (h : ∀ s x, (g s x).time.clk = s.time.clk) (l : List α) (s : State) : (l.foldl g s).time.clk = s.time.clk := by
  induction l generalizing s with
  | nil => rfl
  | cons a l ih => exact (ih (g s a)).trans (h s a)
@[simp] theorem ite_pending (c : Prop) [Decidable c] (a b : State) : (if c then a else b).pending = if c then a.pending else b.pending := by split <;> rfl
@[simp] theorem ite_otp (c : Prop) [Decidable c] (a b : State) : (if c then a else b).nvm.otp = if c then a.nvm.otp else b.nvm.otp := by split <;> rfl
@[simp] theorem ite_clk (c : Prop) [Decidable c] (a b : State) : (if c then a else b).time.clk = if c then a.time.clk else b.time.clk := by split <;> rfl

end Sys2Proof.Machine
end

