-- ==== Sys2Proof/Laws/FrameCore.lean ====
section
/-! SUPPORT. Frame lemmas of the shared operations, fuses, flags and phase units: an operation leaves the queue of waiting commands, the fuses and the
beat count as they were, except where the lemma leaves one of the three out. -/

namespace Sys2Proof.Machine

set_option linter.unusedSimpArgs false
set_option linter.unusedVariables false

@[simp] theorem State.modRail_keeps (s : State) (r : Rail) (f : RailSt → RailSt) :
    (State.modRail s r f).pending = s.pending ∧ (State.modRail s r f).nvm.otp = s.nvm.otp ∧ (State.modRail s r f).time.clk = s.time.clk := by simp [State.modRail]
@[simp] theorem State.modRailDie_keeps (s : State) (d : Cd) (r : Rail) (f : RailDie → RailDie) :
    (State.modRailDie s d r f).pending = s.pending ∧ (State.modRailDie s d r f).nvm.otp = s.nvm.otp ∧ (State.modRailDie s d r f).time.clk = s.time.clk := by simp [State.modRailDie]
@[simp] theorem State.modRailDies_keeps (s : State) (r : Rail) (f : RailDie → RailDie) :
    (State.modRailDies s r f).pending = s.pending ∧ (State.modRailDies s r f).nvm.otp = s.nvm.otp ∧ (State.modRailDies s r f).time.clk = s.time.clk := by simp [State.modRailDies]
@[simp] theorem State.modPh_keeps (s : State) (p : Ph) (f : PhaseSt → PhaseSt) :
    (State.modPh s p f).pending = s.pending ∧ (State.modPh s p f).nvm.otp = s.nvm.otp ∧ (State.modPh s p f).time.clk = s.time.clk := by simp [State.modPh]
@[simp] theorem State.modPhDie_keeps (s : State) (d : Cd) (p : Ph) (f : PhDie → PhDie) :
    (State.modPhDie s d p f).pending = s.pending ∧ (State.modPhDie s d p f).nvm.otp = s.nvm.otp ∧ (State.modPhDie s d p f).time.clk = s.time.clk := by simp [State.modPhDie]
@[simp] theorem State.modGang_keeps (s : State) (r : Rail) (f : GangSt → GangSt) :
    (State.modGang s r f).pending = s.pending ∧ (State.modGang s r f).nvm.otp = s.nvm.otp ∧ (State.modGang s r f).time.clk = s.time.clk := by simp [State.modGang]
@[simp] theorem State.modSeq_keeps (s : State) (n : Prog) (f : SeqSt → SeqSt) :
    (State.modSeq s n f).pending = s.pending ∧ (State.modSeq s n f).nvm.otp = s.nvm.otp ∧ (State.modSeq s n f).time.clk = s.time.clk := by simp [State.modSeq]
@[simp] theorem State.modFeed_keeps (s : State) (x : Feed) (f : FeedSt → FeedSt) :
    (State.modFeed s x f).pending = s.pending ∧ (State.modFeed s x f).nvm.otp = s.nvm.otp ∧ (State.modFeed s x f).time.clk = s.time.clk := by simp [State.modFeed]
@[simp] theorem State.modHk_keeps (s : State) (k : Hk) (f : HkSt → HkSt) :
    (State.modHk s k f).pending = s.pending ∧ (State.modHk s k f).nvm.otp = s.nvm.otp ∧ (State.modHk s k f).time.clk = s.time.clk := by simp [State.modHk]
@[simp] theorem State.modConv_keeps (s : State) (c : Conv) (f : ConvSt → ConvSt) :
    (State.modConv s c f).pending = s.pending ∧ (State.modConv s c f).nvm.otp = s.nvm.otp ∧ (State.modConv s c f).time.clk = s.time.clk := by simp [State.modConv]
@[simp] theorem State.modMseq_keeps (s : State) (k : Fin 32) (f : MeterSeq → MeterSeq) :
    (State.modMseq s k f).pending = s.pending ∧ (State.modMseq s k f).nvm.otp = s.nvm.otp ∧ (State.modMseq s k f).time.clk = s.time.clk := by simp [State.modMseq]
@[simp] theorem State.modSrc_keeps (s : State) (k : Src) (f : SrcSt → SrcSt) :
    (State.modSrc s k f).pending = s.pending ∧ (State.modSrc s k f).nvm.otp = s.nvm.otp ∧ (State.modSrc s k f).time.clk = s.time.clk := by simp [State.modSrc]
@[simp] theorem State.modLink_keeps (s : State) (p : Side) (f : LinkSt → LinkSt) :
    (State.modLink s p f).pending = s.pending ∧ (State.modLink s p f).nvm.otp = s.nvm.otp ∧ (State.modLink s p f).time.clk = s.time.clk := by simp [State.modLink]
@[simp] theorem State.modDev_keeps (s : State) (n : Nat) (f : DevSt → DevSt) :
    (State.modDev s n f).pending = s.pending ∧ (State.modDev s n f).nvm.otp = s.nvm.otp ∧ (State.modDev s n f).time.clk = s.time.clk := by unfold State.modDev; (repeat' split) <;> simp
@[simp] theorem State.modPort_keeps (s : State) (k : OPort) (f : PortSt → PortSt) :
    (State.modPort s k f).pending = s.pending ∧ (State.modPort s k f).nvm.otp = s.nvm.otp ∧ (State.modPort s k f).time.clk = s.time.clk := by simp [State.modPort]
@[simp] theorem State.modSlot_keeps (s : State) (k : Slot) (f : SlotSt → SlotSt) :
    (State.modSlot s k f).pending = s.pending ∧ (State.modSlot s k f).nvm.otp = s.nvm.otp ∧ (State.modSlot s k f).time.clk = s.time.clk := by simp [State.modSlot]
@[simp] theorem State.hostWrite_keeps (s : State) (a : Nat) (bs : List Nat) :
    (State.hostWrite s a bs).pending = s.pending ∧ (State.hostWrite s a bs).nvm.otp = s.nvm.otp ∧ (State.hostWrite s a bs).time.clk = s.time.clk := by simp [State.hostWrite]
@[simp] theorem State.draw_keeps (s : State) (m : Nat) :
    ((State.draw s m).2).pending = s.pending ∧ ((State.draw s m).2).nvm.otp = s.nvm.otp ∧ ((State.draw s m).2).time.clk = s.time.clk := by simp [State.draw]
@[simp] theorem State.drawInt_keeps (s : State) :
    ((State.drawInt s).2).pending = s.pending ∧ ((State.drawInt s).2).nvm.otp = s.nvm.otp ∧ ((State.drawInt s).2).time.clk = s.time.clk := by simp [State.drawInt]
@[simp] theorem State.atBoundary_keeps (s : State) (f : State → State)
    (h : ∀ u : State, (f u).pending = u.pending ∧ (f u).nvm.otp = u.nvm.otp) :
    (State.atBoundary s f).pending = s.pending ∧ (State.atBoundary s f).nvm.otp = s.nvm.otp ∧ (State.atBoundary s f).time.clk = s.time.clk := by
  simp [State.atBoundary, h]
@[simp] theorem State.cntSample_keeps (s : State) (blk ctr : Nat) :
    (State.cntSample s blk ctr).pending = s.pending ∧ (State.cntSample s blk ctr).nvm.otp = s.nvm.otp ∧ (State.cntSample s blk ctr).time.clk = s.time.clk := by simp [State.cntSample]
@[simp] theorem State.bumpPair_keeps (s : State) (blk ctr p e k : Nat) :
    (State.bumpPair s blk ctr p e k).pending = s.pending ∧ (State.bumpPair s blk ctr p e k).nvm.otp = s.nvm.otp ∧ (State.bumpPair s blk ctr p e k).time.clk = s.time.clk := by unfold State.bumpPair; (repeat' split) <;> simp
@[simp] theorem State.countIn_keeps (s : State) (blk e k : Nat) :
    (State.countIn s blk e k).pending = s.pending ∧ (State.countIn s blk e k).nvm.otp = s.nvm.otp ∧ (State.countIn s blk e k).time.clk = s.time.clk := by unfold State.countIn; (repeat' split) <;> simp
@[simp] theorem State.count_keeps (s : State) (blk e k : Nat) :
    (State.count s blk e k).pending = s.pending ∧ (State.count s blk e k).nvm.otp = s.nvm.otp ∧ (State.count s blk e k).time.clk = s.time.clk := by simp [State.count]
@[simp] theorem State.commitCount_keeps (s : State) (k : Nat) :
    (State.commitCount s k).pending = s.pending ∧ (State.commitCount s k).nvm.otp = s.nvm.otp ∧ (State.commitCount s k).time.clk = s.time.clk := by simp [State.commitCount]
@[simp] theorem State.raise_keeps (s : State) (k : Fin 64) :
    (State.raise s k).pending = s.pending ∧ (State.raise s k).nvm.otp = s.nvm.otp ∧ (State.raise s k).time.clk = s.time.clk := by simp [State.raise]
@[simp] theorem State.emit_keeps (s : State) (e : Event) :
    (State.emit s e).pending = s.pending ∧ (State.emit s e).nvm.otp = s.nvm.otp ∧ (State.emit s e).time.clk = s.time.clk := by unfold State.emit; dsimp only; (repeat' split) <;> simp_all
@[simp] theorem State.postPh_keeps (s : State) (code : Nat) (p : Ph) (a0 a1 a2 : Nat) :
    (State.postPh s code p a0 a1 a2).pending = s.pending ∧ (State.postPh s code p a0 a1 a2).nvm.otp = s.nvm.otp ∧ (State.postPh s code p a0 a1 a2).time.clk = s.time.clk := by simp [State.postPh]
@[simp] theorem State.postRail_keeps (s : State) (code : Nat) (r : Rail) (a0 a1 a2 : Nat) :
    (State.postRail s code r a0 a1 a2).pending = s.pending ∧ (State.postRail s code r a0 a1 a2).nvm.otp = s.nvm.otp ∧ (State.postRail s code r a0 a1 a2).time.clk = s.time.clk := by simp [State.postRail]
@[simp] theorem State.postRegion_keeps (s : State) (code : Nat) (g : Nat) (a0 a1 a2 : Nat) :
    (State.postRegion s code g a0 a1 a2).pending = s.pending ∧ (State.postRegion s code g a0 a1 a2).nvm.otp = s.nvm.otp ∧ (State.postRegion s code g a0 a1 a2).time.clk = s.time.clk := by simp [State.postRegion]
@[simp] theorem State.postDie_keeps (s : State) (code d : Nat) (a0 a1 a2 : Nat) :
    (State.postDie s code d a0 a1 a2).pending = s.pending ∧ (State.postDie s code d a0 a1 a2).nvm.otp = s.nvm.otp ∧ (State.postDie s code d a0 a1 a2).time.clk = s.time.clk := by simp [State.postDie]
@[simp] theorem State.postDev_keeps (s : State) (code : Nat) (a0 a1 a2 : Nat) :
    (State.postDev s code a0 a1 a2).pending = s.pending ∧ (State.postDev s code a0 a1 a2).nvm.otp = s.nvm.otp ∧ (State.postDev s code a0 a1 a2).time.clk = s.time.clk := by simp [State.postDev]
@[simp] theorem State.postChain_keeps (s : State) (code : Nat) (a0 a1 a2 : Nat) :
    (State.postChain s code a0 a1 a2).pending = s.pending ∧ (State.postChain s code a0 a1 a2).nvm.otp = s.nvm.otp ∧ (State.postChain s code a0 a1 a2).time.clk = s.time.clk := by simp [State.postChain]
@[simp] theorem State.postClient_keeps (s : State) (code c : Nat) (a0 a1 a2 : Nat) :
    (State.postClient s code c a0 a1 a2).pending = s.pending ∧ (State.postClient s code c a0 a1 a2).nvm.otp = s.nvm.otp ∧ (State.postClient s code c a0 a1 a2).time.clk = s.time.clk := by simp [State.postClient]
@[simp] theorem State.send_keeps (s : State) (p : RingPkt) :
    (State.send s p).pending = s.pending ∧ (State.send s p).nvm.otp = s.nvm.otp ∧ (State.send s p).time.clk = s.time.clk := by simp [State.send]
@[simp] theorem State.streamStep_keeps (s : State) :
    (State.streamStep s).pending = s.pending ∧ (State.streamStep s).nvm.otp = s.nvm.otp ∧ (State.streamStep s).time.clk = s.time.clk := by unfold State.streamStep; (repeat' split) <;> simp
@[simp] theorem State.streamOut_keeps (s : State) (e : TraceEnt) :
    (State.streamOut s e).pending = s.pending ∧ (State.streamOut s e).nvm.otp = s.nvm.otp ∧ (State.streamOut s e).time.clk = s.time.clk := by unfold State.streamOut; (repeat' split) <;> simp
@[simp] theorem State.traceAdd_keeps (s : State) (e : TraceEnt) :
    (State.traceAdd s e).pending = s.pending ∧ (State.traceAdd s e).nvm.otp = s.nvm.otp ∧ (State.traceAdd s e).time.clk = s.time.clk := by simp [State.traceAdd]
@[simp] theorem State.trace_keeps (s : State) (kind d0 d1 d2 : Nat) (d3 : Nat) :
    (State.trace s kind d0 d1 d2 d3).pending = s.pending ∧ (State.trace s kind d0 d1 d2 d3).nvm.otp = s.nvm.otp ∧ (State.trace s kind d0 d1 d2 d3).time.clk = s.time.clk := by simp [State.trace]
@[simp] theorem State.modClient_keeps (s : State) (c : Nat) (f : Client → Client) :
    (State.modClient s c f).pending = s.pending ∧ (State.modClient s c f).nvm.otp = s.nvm.otp ∧ (State.modClient s c f).time.clk = s.time.clk := by simp [State.modClient]
@[simp] theorem State.ctrl_keeps (s : State) (dst code body : Nat) :
    (State.ctrl s dst code body).pending = s.pending ∧ (State.ctrl s dst code body).nvm.otp = s.nvm.otp ∧ (State.ctrl s dst code body).time.clk = s.time.clk := by simp [State.ctrl]
@[simp] theorem State.rxBad_keeps (s : State) (p : Side) (cls : Nat) :
    (State.rxBad s p cls).pending = s.pending ∧ (State.rxBad s p cls).nvm.otp = s.nvm.otp ∧ (State.rxBad s p cls).time.clk = s.time.clk := by simp [State.rxBad]
@[simp] theorem State.rxPkt_keeps (s : State) (rx : RxIn) (cls : Nat) (f : State → State)
    (h : ∀ u : State, (f u).pending = u.pending ∧ (f u).nvm.otp = u.nvm.otp ∧ (f u).time.clk = u.time.clk) :
    (State.rxPkt s rx cls f).pending = s.pending ∧ (State.rxPkt s rx cls f).nvm.otp = s.nvm.otp ∧ (State.rxPkt s rx cls f).time.clk = s.time.clk := by
  unfold State.rxPkt; (repeat' split) <;> simp [h]
@[simp] theorem State.rxFor_keeps (s : State) (rx : RxIn) (k : RingPkt) (f : State → State)
    (h : ∀ u : State, (f u).pending = u.pending ∧ (f u).nvm.otp = u.nvm.otp ∧ (f u).time.clk = u.time.clk) :
    (State.rxFor s rx k f).pending = s.pending ∧ (State.rxFor s rx k f).nvm.otp = s.nvm.otp ∧ (State.rxFor s rx k f).time.clk = s.time.clk := by
  unfold State.rxFor
  refine State.rxPkt_keeps s rx k.kind _ fun u => ?_
  (repeat' split) <;> simp [h]
@[simp] theorem State.relay_keeps (s : State) (via : Side) (src code body : Nat) :
    (State.relay s via src code body).pending = s.pending ∧ (State.relay s via src code body).nvm.otp = s.nvm.otp ∧ (State.relay s via src code body).time.clk = s.time.clk := by simp [State.relay]
@[simp] theorem State.stub_keeps (s : State) (st : Stub) (data : List Nat) :
    (State.stub s st data).pending = s.pending ∧ (State.stub s st data).nvm.otp = s.nvm.otp ∧ (State.stub s st data).time.clk = s.time.clk := by unfold State.stub; dsimp only; (repeat' split) <;> simp_all
@[simp] theorem State.final_keeps (s : State) (ref : TkRef) (status : Nat) (extra : Nat) (value : Nat) :
    (State.final s ref status extra value).pending = s.pending ∧ (State.final s ref status extra value).nvm.otp = s.nvm.otp ∧ (State.final s ref status extra value).time.clk = s.time.clk := by simp [State.final]
@[simp] theorem State.intentCrcs_keeps (s : State) :
    (State.intentCrcs s).pending = s.pending ∧ (State.intentCrcs s).nvm.otp = s.nvm.otp ∧ (State.intentCrcs s).time.clk = s.time.clk := by simp [State.intentCrcs]
@[simp] theorem State.intent_keeps (s : State) :
    (State.intent s).pending = s.pending ∧ (State.intent s).nvm.otp = s.nvm.otp ∧ (State.intent s).time.clk = s.time.clk := by simp [State.intent]
@[simp] theorem State.post_keeps (s : State) (nb : Nat) (per : Period) (act : Act) :
    (State.post s nb per act).pending = s.pending ∧ (State.post s nb per act).nvm.otp = s.nvm.otp ∧ (State.post s nb per act).time.clk = s.time.clk := by simp [State.post]
@[simp] theorem State.undue_keeps (s : State) (per : Period) :
    (State.undue s per).pending = s.pending ∧ (State.undue s per).nvm.otp = s.nvm.otp ∧ (State.undue s per).time.clk = s.time.clk := by simp [State.undue]

@[simp] theorem State.intentIf_keeps (s : State) (b : Bool) :
    (State.intentIf s b).pending = s.pending ∧ (State.intentIf s b).nvm.otp = s.nvm.otp ∧ (State.intentIf s b).time.clk = s.time.clk := by simp [State.intentIf]
@[simp] theorem State.endClient_keeps (s : State) (c : Nat) :
    (State.endClient s c).pending = s.pending ∧ (State.endClient s c).nvm.otp = s.nvm.otp ∧ (State.endClient s c).time.clk = s.time.clk := by simp [State.endClient]
@[simp] theorem State.takeTicket_keeps (s : State) :
    (State.takeTicket s).pending = s.pending ∧ (State.takeTicket s).nvm.otp = s.nvm.otp ∧ (State.takeTicket s).time.clk = s.time.clk := by simp [State.takeTicket]
@[simp] theorem State.deposedSpeaks_keeps (s : State) (t : Tkt) :
    (State.deposedSpeaks s t).pending = s.pending ∧ (State.deposedSpeaks s t).nvm.otp = s.nvm.otp ∧ (State.deposedSpeaks s t).time.clk = s.time.clk := by simp [State.deposedSpeaks]
@[simp] theorem State.reply_keeps (s : State) (t : Tkt) (r : Reply) :
    (State.reply s t r).pending = s.pending ∧ (State.reply s t r).nvm.otp = s.nvm.otp ∧ (State.reply s t r).time.clk = s.time.clk := by simp [State.reply]
@[simp] theorem State.ok_keeps (s : State) (t : Tkt) (extra : Nat) (value : Nat) :
    (State.ok s t extra value).pending = s.pending ∧ (State.ok s t extra value).nvm.otp = s.nvm.otp ∧ (State.ok s t extra value).time.clk = s.time.clk := by simp [State.ok]
@[simp] theorem State.queued_keeps (s : State) (t : Tkt) (extra : Nat) :
    (State.queued s t extra).pending = s.pending ∧ (State.queued s t extra).nvm.otp = s.nvm.otp ∧ (State.queued s t extra).time.clk = s.time.clk := by simp [State.queued]
@[simp] theorem State.forward_keeps (s : State) (t : Tkt) (d : Nat) :
    (State.forward s t d).pending = s.pending ∧ (State.forward s t d).nvm.otp = s.nvm.otp ∧ (State.forward s t d).time.clk = s.time.clk := by simp [State.forward]
@[simp] theorem State.handOn_keeps (s : State) (t : Tkt) (d : Nat) :
    (State.handOn s t d).pending = s.pending ∧ (State.handOn s t d).nvm.otp = s.nvm.otp ∧ (State.handOn s t d).time.clk = s.time.clk := by simp [State.handOn]
@[simp] theorem State.chainPart_keeps (s : State) (t : Tkt) (r : Reply) (nb : Option Nat) (per : Nat) :
    (State.chainPart s t r nb per).pending = s.pending ∧ (State.chainPart s t r nb per).nvm.otp = s.nvm.otp ∧ (State.chainPart s t r nb per).time.clk = s.time.clk := by simp [State.chainPart]
@[simp] theorem State.segWrite_keeps (s : State) (l : List (Nat × Nat)) (b : List Nat) :
    (s.segWrite l b).pending = s.pending ∧ (s.segWrite l b).nvm.otp = s.nvm.otp ∧ (s.segWrite l b).time.clk = s.time.clk := by
  induction l generalizing s b with
  | nil => simp [State.segWrite]
  | cons x l ih => unfold State.segWrite; split <;> simp [ih]
@[simp] theorem State.fill_keeps (s : State) (segs : List (Nat × Nat)) (bs : List Nat) :
    (State.fill s segs bs).pending = s.pending ∧ (State.fill s segs bs).nvm.otp = s.nvm.otp ∧ (State.fill s segs bs).time.clk = s.time.clk := by simp [State.fill]
@[simp] theorem State.answer_keeps (s : State) (t : Tkt) (cur : Nat) (bs : List Nat) :
    (State.answer s t cur bs).pending = s.pending ∧ (State.answer s t cur bs).nvm.otp = s.nvm.otp ∧ (State.answer s t cur bs).time.clk = s.time.clk := by simp [State.answer]



@[simp] theorem State.respacePh_keeps (s : State) (p : Ph) :
    (State.respacePh s p).pending = s.pending ∧ (State.respacePh s p).nvm.otp = s.nvm.otp ∧ (State.respacePh s p).time.clk = s.time.clk := by unfold State.respacePh; (repeat' split) <;> simp
@[simp] theorem State.blank_keeps (s : State) (r : Rail) (n : Nat) :
    (State.blank s r n).pending = s.pending ∧ (State.blank s r n).nvm.otp = s.nvm.otp ∧ (State.blank s r n).time.clk = s.time.clk := by simp [State.blank]
@[simp] theorem State.blankAdd_keeps (s : State) (p : Ph) :
    (State.blankAdd s p).pending = s.pending ∧ (State.blankAdd s p).nvm.otp = s.nvm.otp ∧ (State.blankAdd s p).time.clk = s.time.clk := by unfold State.blankAdd; (repeat' split) <;> simp
@[simp] theorem State.blankShed_keeps (s : State) (p : Ph) :
    (State.blankShed s p).pending = s.pending ∧ (State.blankShed s p).nvm.otp = s.nvm.otp ∧ (State.blankShed s p).time.clk = s.time.clk := by unfold State.blankShed; (repeat' split) <;> simp
@[simp] theorem State.trimZero_keeps (s : State) (p : Ph) :
    (State.trimZero s p).pending = s.pending ∧ (State.trimZero s p).nvm.otp = s.nvm.otp ∧ (State.trimZero s p).time.clk = s.time.clk := by simp [State.trimZero]
@[simp] theorem State.setView_keeps (s : State) (d : Cd) (p : Ph) (v : PhState) :
    (State.setView s d p v).pending = s.pending ∧ (State.setView s d p v).nvm.otp = s.nvm.otp ∧ (State.setView s d p v).time.clk = s.time.clk := by simp [State.setView]
@[simp] theorem State.toIdle_keeps (s : State) (p : Ph) :
    (State.toIdle s p).pending = s.pending ∧ (State.toIdle s p).nvm.otp = s.nvm.otp ∧ (State.toIdle s p).time.clk = s.time.clk := by simp [State.toIdle]
@[simp] theorem State.toActive_keeps (s : State) (p : Ph) :
    (State.toActive s p).pending = s.pending ∧ (State.toActive s p).nvm.otp = s.nvm.otp ∧ (State.toActive s p).time.clk = s.time.clk := by simp [State.toActive]
@[simp] theorem State.toOff_keeps (s : State) (p : Ph) :
    (State.toOff s p).pending = s.pending ∧ (State.toOff s p).nvm.otp = s.nvm.otp ∧ (State.toOff s p).time.clk = s.time.clk := by simp [State.toOff]
@[simp] theorem State.testEnd_keeps (s : State) (p : Ph) (pass : Bool) (why : Nat) :
    (State.testEnd s p pass why).pending = s.pending ∧ (State.testEnd s p pass why).nvm.otp = s.nvm.otp ∧ (State.testEnd s p pass why).time.clk = s.time.clk := by unfold State.testEnd; (repeat' split) <;> simp
@[simp] theorem State.steer_keeps (s : State) (p : Ph) (a b : Bool) :
    (State.steer s p a b).pending = s.pending ∧ (State.steer s p a b).nvm.otp = s.nvm.otp ∧ (State.steer s p a b).time.clk = s.time.clk := by simp [State.steer]
@[simp] theorem State.steerTo_keeps (s : State) (p : Ph) (r : Nat) :
    (State.steerTo s p r).pending = s.pending ∧ (State.steerTo s p r).nvm.otp = s.nvm.otp ∧ (State.steerTo s p r).time.clk = s.time.clk := by simp [State.steerTo]
@[simp] theorem State.respaceAt_keeps (s : State) (n : Nat) :
    (State.respaceAt s n).pending = s.pending ∧ (State.respaceAt s n).nvm.otp = s.nvm.otp ∧ (State.respaceAt s n).time.clk = s.time.clk := by unfold State.respaceAt; (repeat' split) <;> simp
@[simp] theorem State.unmove_keeps (s : State) (p : Ph) :
    (State.unmove s p).pending = s.pending ∧ (State.unmove s p).nvm.otp = s.nvm.otp ∧ (State.unmove s p).time.clk = s.time.clk := by unfold State.unmove; (repeat' split) <;> simp
@[simp] theorem State.benchPh_keeps (s : State) (p : Ph) (cause : Nat) :
    (State.benchPh s p cause).pending = s.pending ∧ (State.benchPh s p cause).nvm.otp = s.nvm.otp ∧ (State.benchPh s p cause).time.clk = s.time.clk := by simp [State.benchPh]
@[simp] theorem State.benchAll_keeps (s : State) (p : Ph) (c : Nat) (more : List Nat) :
    (State.benchAll s p c more).pending = s.pending ∧ (State.benchAll s p c more).nvm.otp = s.nvm.otp ∧ (State.benchAll s p c more).time.clk = s.time.clk := by simp [State.benchAll]
@[simp] theorem State.failTest_keeps (s : State) (p : Ph) (why : Nat) :
    (State.failTest s p why).pending = s.pending ∧ (State.failTest s p why).nvm.otp = s.nvm.otp ∧ (State.failTest s p why).time.clk = s.time.clk := by simp [State.failTest]
@[simp] theorem State.raiseCause_keeps (s : State) (d : Cd) (p : Ph) (cause : Nat) :
    (State.raiseCause s d p cause).pending = s.pending ∧ (State.raiseCause s d p cause).nvm.otp = s.nvm.otp ∧ (State.raiseCause s d p cause).time.clk = s.time.clk := by simp [State.raiseCause]
@[simp] theorem State.suspectMark_keeps (s : State) (p : Ph) (l : List Nat) :
    (State.suspectMark s p l).pending = s.pending ∧ (State.suspectMark s p l).nvm.otp = s.nvm.otp ∧
      (State.suspectMark s p l).time.clk = s.time.clk := by
  cases l <;> simp [State.suspectMark]
@[simp] theorem State.raiseRun_keeps (s : State) (d : Cd) (p : Ph) (cause n run : Nat) :
    (State.raiseRun s d p cause n run).pending = s.pending ∧ (State.raiseRun s d p cause n run).nvm.otp = s.nvm.otp ∧ (State.raiseRun s d p cause n run).time.clk = s.time.clk := by simp [State.raiseRun]
@[simp] theorem State.phSample_keeps (s : State) (d : Cd) (p : Ph) (code : Nat) :
    (State.phSample s d p code).pending = s.pending ∧ (State.phSample s d p code).nvm.otp = s.nvm.otp ∧ (State.phSample s d p code).time.clk = s.time.clk := by simp [State.phSample]
@[simp] theorem State.cycleEnd_keeps (s : State) (p : Ph) :
    (State.cycleEnd s p).pending = s.pending ∧ (State.cycleEnd s p).nvm.otp = s.nvm.otp ∧ (State.cycleEnd s p).time.clk = s.time.clk := by simp [State.cycleEnd]
@[simp] theorem State.readmitPh_keeps (s : State) (p : Ph) (ref : TkRef) :
    (State.readmitPh s p ref).pending = s.pending ∧ (State.readmitPh s p ref).nvm.otp = s.nvm.otp ∧ (State.readmitPh s p ref).time.clk = s.time.clk := by simp [State.readmitPh]
@[simp] theorem State.wearBeat_keeps (s : State) (p : Ph) :
    (State.wearBeat s p).pending = s.pending ∧ (State.wearBeat s p).nvm.otp = s.nvm.otp ∧ (State.wearBeat s p).time.clk = s.time.clk := by simp [State.wearBeat]
@[simp] theorem State.rotApply_keeps (s : State) :
    (State.rotApply s).pending = s.pending ∧ (State.rotApply s).nvm.otp = s.nvm.otp ∧ (State.rotApply s).time.clk = s.time.clk := by
  unfold State.rotApply
  refine ⟨?_, ?_, ?_⟩ <;> (repeat' (first | intro _ _ | split | rw [foldl_pend] | rw [foldl_otp] | rw [foldl_clk] | simp))
@[simp] theorem State.derate_keeps (s : State) (p : Ph) :
    (State.derate s p).pending = s.pending ∧ (State.derate s p).nvm.otp = s.nvm.otp ∧ (State.derate s p).time.clk = s.time.clk := by unfold State.derate; dsimp only; (repeat' split) <;> simp_all
@[simp] theorem State.learnOfs_keeps (s : State) (d : Cd) (p : Ph) :
    (State.learnOfs s d p).pending = s.pending ∧ (State.learnOfs s d p).nvm.otp = s.nvm.otp ∧ (State.learnOfs s d p).time.clk = s.time.clk := by simp [State.learnOfs]
@[simp] theorem State.phLearn_keeps (s : State) (p : Ph) :
    (State.phLearn s p).pending = s.pending ∧ (State.phLearn s p).nvm.otp = s.nvm.otp ∧ (State.phLearn s p).time.clk = s.time.clk := by simp [State.phLearn]
@[simp] theorem State.phFrame_keeps (s : State) (p : Ph) :
    (State.phFrame s p).pending = s.pending ∧ (State.phFrame s p).nvm.otp = s.nvm.otp ∧ (State.phFrame s p).time.clk = s.time.clk := by simp [State.phFrame]
@[simp] theorem State.phBeatCauses_keeps (s : State) (p : Ph) :
    (State.phBeatCauses s p).pending = s.pending ∧ (State.phBeatCauses s p).nvm.otp = s.nvm.otp ∧ (State.phBeatCauses s p).time.clk = s.time.clk := by
  unfold State.phBeatCauses
  dsimp only
  simp only [State.suspectMark_keeps, State.modPhDie_keeps, State.modPh_keeps]
  split <;> simp
@[simp] theorem State.benchOwner_keeps (s : State) (p : Ph) (cause : Nat) :
    (State.benchOwner s p cause).pending = s.pending ∧ (State.benchOwner s p cause).nvm.otp = s.nvm.otp ∧ (State.benchOwner s p cause).time.clk = s.time.clk := by unfold State.benchOwner; (repeat' split) <;> simp

end Sys2Proof.Machine
end

