-- ==== Sys2Proof/Laws/FrameRails.lean ====
section
/-! SUPPORT. Frame lemmas of forecasts, rails, lending, the meter, the twin dies, supervision and sequences: an operation leaves the queue of waiting commands, the fuses and the
beat count as they were, except where the lemma leaves one of the three out. -/

namespace Sys2Proof.Machine

set_option linter.unusedSimpArgs false
set_option linter.unusedVariables false

@[simp] theorem State.setTrust_keeps (s : State) (c r t : Nat) :
    (State.setTrust s c r t).pending = s.pending ∧ (State.setTrust s c r t).nvm.otp = s.nvm.otp ∧ (State.setTrust s c r t).time.clk = s.time.clk := by simp [State.setTrust]
@[simp] theorem State.trustReport_keeps (s : State) (c r : Nat) :
    (State.trustReport s c r).pending = s.pending ∧ (State.trustReport s c r).nvm.otp = s.nvm.otp ∧ (State.trustReport s c r).time.clk = s.time.clk := by unfold State.trustReport; (repeat' split) <;> simp
@[simp] theorem State.trustUpdate_keeps (s : State) (c r q conf : Nat) :
    (State.trustUpdate s c r q conf).pending = s.pending ∧ (State.trustUpdate s c r q conf).nvm.otp = s.nvm.otp ∧ (State.trustUpdate s c r q conf).time.clk = s.time.clk := by simp [State.trustUpdate]
@[simp] theorem State.fcEnd_keeps (s : State) (f : Fc) (result q : Nat) (dm : Int) (tx : Option Int) :
    (State.fcEnd s f result q dm tx).pending = s.pending ∧ (State.fcEnd s f result q dm tx).nvm.otp = s.nvm.otp ∧ (State.fcEnd s f result q dm tx).time.clk = s.time.clk := by simp [State.fcEnd]
@[simp] theorem State.fcEndAll_keeps (s : State) (r : Rail) (result : Nat) :
    (State.fcEndAll s r result).pending = s.pending ∧ (State.fcEndAll s r result).nvm.otp = s.nvm.otp ∧ (State.fcEndAll s r result).time.clk = s.time.clk := by simp [State.fcEndAll]
@[simp] theorem State.fcGenEnd_keeps (s : State) (c : Nat) :
    (State.fcGenEnd s c).pending = s.pending ∧ (State.fcGenEnd s c).nvm.otp = s.nvm.otp ∧ (State.fcGenEnd s c).time.clk = s.time.clk := by simp [State.fcGenEnd]
@[simp] theorem State.fcCancel_keeps (s : State) (c seq r : Nat) :
    (State.fcCancel s c seq r).pending = s.pending ∧ (State.fcCancel s c seq r).nvm.otp = s.nvm.otp ∧ (State.fcCancel s c seq r).time.clk = s.time.clk := by unfold State.fcCancel; (repeat' split) <;> simp
@[simp] theorem State.fcFinals_keeps (s : State) :
    (State.fcFinals s).pending = s.pending ∧ (State.fcFinals s).nvm.otp = s.nvm.otp ∧ (State.fcFinals s).time.clk = s.time.clk := by simp [State.fcFinals]
@[simp] theorem State.fcUse_keeps (s : State) (c r : Nat) :
    (State.fcUse s c r).pending = s.pending ∧ (State.fcUse s c r).nvm.otp = s.nvm.otp ∧ (State.fcUse s c r).time.clk = s.time.clk := by simp [State.fcUse]
@[simp] theorem State.fcBeat_keeps (s : State) (r : Rail) :
    (State.fcBeat s r).pending = s.pending ∧ (State.fcBeat s r).nvm.otp = s.nvm.otp ∧ (State.fcBeat s r).time.clk = s.time.clk := by simp [State.fcBeat]
@[simp] theorem State.fcSample_keeps (s : State) (r : Rail) :
    (State.fcSample s r).pending = s.pending ∧ (State.fcSample s r).nvm.otp = s.nvm.otp ∧ (State.fcSample s r).time.clk = s.time.clk := by simp [State.fcSample]
@[simp] theorem State.fcScoreOne_keeps (s : State) (f : Fc) :
    (State.fcScoreOne s f).pending = s.pending ∧ (State.fcScoreOne s f).nvm.otp = s.nvm.otp ∧ (State.fcScoreOne s f).time.clk = s.time.clk := by simp [State.fcScoreOne]
@[simp] theorem State.fcScores_keeps (s : State) :
    (State.fcScores s).pending = s.pending ∧ (State.fcScores s).nvm.otp = s.nvm.otp ∧ (State.fcScores s).time.clk = s.time.clk := by simp [State.fcScores]
@[simp] theorem State.fcOverlay_keeps (s : State) :
    (State.fcOverlay s).pending = s.pending ∧ (State.fcOverlay s).nvm.otp = s.nvm.otp ∧ (State.fcOverlay s).time.clk = s.time.clk := by simp [State.fcOverlay]
@[simp] theorem State.fcTakeover_keeps (s : State) (r : Rail) :
    (State.fcTakeover s r).pending = s.pending ∧ (State.fcTakeover s r).nvm.otp = s.nvm.otp ∧ (State.fcTakeover s r).time.clk = s.time.clk := by simp [State.fcTakeover]

@[simp] theorem State.compose_keeps (s : State) (r : Rail) :
    (State.compose s r).pending = s.pending ∧ (State.compose s r).nvm.otp = s.nvm.otp ∧ (State.compose s r).time.clk = s.time.clk := by simp [State.compose]
@[simp] theorem State.setSt_keeps (s : State) (r : Rail) (v : RailState) :
    (State.setSt s r v).pending = s.pending ∧ (State.setSt s r v).nvm.otp = s.nvm.otp ∧ (State.setSt s r v).time.clk = s.time.clk := by simp [State.setSt]
@[simp] theorem State.lightOff_keeps (s : State) (r : Rail) :
    (State.lightOff s r).pending = s.pending ∧ (State.lightOff s r).nvm.otp = s.nvm.otp ∧ (State.lightOff s r).time.clk = s.time.clk := by simp [State.lightOff]
@[simp] theorem State.leaveRegulate_keeps (s : State) (r : Rail) :
    (State.leaveRegulate s r).pending = s.pending ∧ (State.leaveRegulate s r).nvm.otp = s.nvm.otp ∧ (State.leaveRegulate s r).time.clk = s.time.clk := by simp [State.leaveRegulate]
@[simp] theorem State.enterOff_keeps (s : State) (r : Rail) :
    (State.enterOff s r).pending = s.pending ∧ (State.enterOff s r).nvm.otp = s.nvm.otp ∧ (State.enterOff s r).time.clk = s.time.clk := by simp [State.enterOff]
@[simp] theorem State.addPhases_keeps (s : State) (r : Rail) (n : Nat) :
    (s.addPhases r n).pending = s.pending ∧ (s.addPhases r n).nvm.otp = s.nvm.otp ∧ (s.addPhases r n).time.clk = s.time.clk := by
  induction n generalizing s with
  | zero => simp [State.addPhases]
  | succ n ih => unfold State.addPhases; split <;> simp [ih]
@[simp] theorem State.standbyDecides_keeps (s : State) (r : Rail) (view : State → Cd → State) (own : State → State)
    (h : ∀ u : State, (own u).pending = u.pending ∧ (own u).nvm.otp = u.nvm.otp ∧ (own u).time.clk = u.time.clk) :
    (State.standbyDecides s r view own).pending = s.pending ∧ (State.standbyDecides s r view own).nvm.otp = s.nvm.otp ∧
      (State.standbyDecides s r view own).time.clk = s.time.clk := by
  unfold State.standbyDecides
  split <;> simp [h]
@[simp] theorem State.rampOn_keeps (s : State) (r : Rail) :
    (State.rampOn s r).pending = s.pending ∧ (State.rampOn s r).nvm.otp = s.nvm.otp ∧ (State.rampOn s r).time.clk = s.time.clk := by simp [State.rampOn]
@[simp] theorem State.turnOff_keeps (s : State) (r : Rail) :
    (State.turnOff s r).pending = s.pending ∧ (State.turnOff s r).nvm.otp = s.nvm.otp ∧ (State.turnOff s r).time.clk = s.time.clk := by unfold State.turnOff; dsimp only; (repeat' split) <;> simp_all
@[simp] theorem State.enterHiccup_keeps (s : State) (r : Rail) (frames : Nat) :
    (State.enterHiccup s r frames).pending = s.pending ∧ (State.enterHiccup s r frames).nvm.otp = s.nvm.otp ∧ (State.enterHiccup s r frames).time.clk = s.time.clk := by simp [State.enterHiccup]
@[simp] theorem State.benchRail_keeps (s : State) (r : Rail) (code : Nat) :
    (State.benchRail s r code).pending = s.pending ∧ (State.benchRail s r code).nvm.otp = s.nvm.otp ∧ (State.benchRail s r code).time.clk = s.time.clk := by simp [State.benchRail]
@[simp] theorem State.slewMove_keeps (s : State) (r : Rail) :
    (State.slewMove s r).pending = s.pending ∧ (State.slewMove s r).nvm.otp = s.nvm.otp ∧ (State.slewMove s r).time.clk = s.time.clk := by simp [State.slewMove]
@[simp] theorem State.slewEndDie_keeps (s : State) (d : Cd) (r : Rail) :
    (State.slewEndDie s d r).pending = s.pending ∧ (State.slewEndDie s d r).nvm.otp = s.nvm.otp ∧ (State.slewEndDie s d r).time.clk = s.time.clk := by unfold State.slewEndDie; dsimp only; (repeat' split) <;> simp_all
@[simp] theorem State.slewEnd_keeps (s : State) (r : Rail) :
    (State.slewEnd s r).pending = s.pending ∧ (State.slewEnd s r).nvm.otp = s.nvm.otp ∧ (State.slewEnd s r).time.clk = s.time.clk := by simp [State.slewEnd]
@[simp] theorem State.compareSns_keeps (s : State) (d : Cd) (r : Rail) :
    (State.compareSns s d r).pending = s.pending ∧ (State.compareSns s d r).nvm.otp = s.nvm.otp ∧ (State.compareSns s d r).time.clk = s.time.clk := by simp [State.compareSns]
@[simp] theorem State.fallback_keeps (s : State) (r : Rail) :
    (State.fallback s r).pending = s.pending ∧ (State.fallback s r).nvm.otp = s.nvm.otp ∧ (State.fallback s r).time.clk = s.time.clk := by simp [State.fallback]
@[simp] theorem State.snsUnmark_keeps (s : State) (r : Rail) (d : Cd) :
    (State.snsUnmark s r d).pending = s.pending ∧ (State.snsUnmark s r d).nvm.otp = s.nvm.otp ∧ (State.snsUnmark s r d).time.clk = s.time.clk := by simp [State.snsUnmark]
@[simp] theorem State.biasSense_keeps (s : State) :
    (State.biasSense s).pending = s.pending ∧ (State.biasSense s).nvm.otp = s.nvm.otp ∧ (State.biasSense s).time.clk = s.time.clk := by simp [State.biasSense]
@[simp] theorem State.vlocSample_keeps (s : State) (d : Cd) (r : Rail) (code : Nat) :
    (State.vlocSample s d r code).pending = s.pending ∧ (State.vlocSample s d r code).nvm.otp = s.nvm.otp ∧ (State.vlocSample s d r code).time.clk = s.time.clk := by simp [State.vlocSample]
@[simp] theorem State.offSample_keeps (s : State) (r : Rail) (code : Nat) :
    (State.offSample s r code).pending = s.pending ∧ (State.offSample s r code).nvm.otp = s.nvm.otp ∧ (State.offSample s r code).time.clk = s.time.clk := by simp [State.offSample]
@[simp] theorem State.qualify_keeps (s : State) (r : Rail) (k : Nat) (half : Bool) (c : Cmp) :
    (State.qualify s r k half c).pending = s.pending ∧ (State.qualify s r k half c).nvm.otp = s.nvm.otp ∧ (State.qualify s r k half c).time.clk = s.time.clk := by simp [State.qualify]
@[simp] theorem State.compared_keeps (s : State) (r : Rail) (half : Bool) (d : Int) (blankW blankF : Bool) :
    (State.compared s r half d blankW blankF).pending = s.pending ∧ (State.compared s r half d blankW blankF).nvm.otp = s.nvm.otp ∧ (State.compared s r half d blankW blankF).time.clk = s.time.clk := by simp [State.compared]
@[simp] theorem State.gangRefresh_keeps (s : State) (r : Rail) :
    (State.gangRefresh s r).pending = s.pending ∧ (State.gangRefresh s r).nvm.otp = s.nvm.otp ∧ (State.gangRefresh s r).time.clk = s.time.clk := by simp [State.gangRefresh]
@[simp] theorem State.catchStart_keeps (s : State) (d : Cd) (r : Rail) (ov : Bool) (thr : Nat) (low high : List Ph) :
    (State.catchStart s d r ov thr low high).pending = s.pending ∧ (State.catchStart s d r ov thr low high).nvm.otp = s.nvm.otp ∧ (State.catchStart s d r ov thr low high).time.clk = s.time.clk := by simp [State.catchStart]
@[simp] theorem State.catchSample_keeps (s : State) (d : Cd) (r : Rail) (half : Bool) (w : Int) (low high : List Ph) :
    (State.catchSample s d r half w low high).pending = s.pending ∧ (State.catchSample s d r half w low high).nvm.otp = s.nvm.otp ∧ (State.catchSample s d r half w low high).time.clk = s.time.clk := by unfold State.catchSample; dsimp only; (repeat' split) <;> simp_all
@[simp] theorem State.offCompare_keeps (s : State) (d : Cd) (r : Rail) (code : Nat) :
    (State.offCompare s d r code).pending = s.pending ∧ (State.offCompare s d r code).nvm.otp = s.nvm.otp ∧ (State.offCompare s d r code).time.clk = s.time.clk := by simp [State.offCompare]
@[simp] theorem State.currentStep_keeps (s : State) (d : Cd) (r : Rail) :
    (State.currentStep s d r).pending = s.pending ∧ (State.currentStep s d r).nvm.otp = s.nvm.otp ∧ (State.currentStep s d r).time.clk = s.time.clk := by simp [State.currentStep]
@[simp] theorem State.trimStep_keeps (s : State) (d : Cd) (r : Rail) (p : Ph) :
    (State.trimStep s d r p).pending = s.pending ∧ (State.trimStep s d r p).nvm.otp = s.nvm.otp ∧ (State.trimStep s d r p).time.clk = s.time.clk := by simp [State.trimStep]
@[simp] theorem State.schedule_keeps (s : State) (r : Rail) (f : Cd → Nat → Nat) (uv : Bool) (p : Ph) :
    (State.schedule s r f uv p).pending = s.pending ∧ (State.schedule s r f uv p).nvm.otp = s.nvm.otp ∧ (State.schedule s r f uv p).time.clk = s.time.clk := by simp [State.schedule]
@[simp] theorem State.rewrite_keeps (s : State) (f : Cd → Nat → Nat) (p : Ph) :
    (State.rewrite s f p).pending = s.pending ∧ (State.rewrite s f p).nvm.otp = s.nvm.otp ∧ (State.rewrite s f p).time.clk = s.time.clk := by unfold State.rewrite; dsimp only; (repeat' split) <;> simp_all
@[simp] theorem State.cycleBeat_keeps (s : State) (p : Ph) :
    (State.cycleBeat s p).pending = s.pending ∧ (State.cycleBeat s p).nvm.otp = s.nvm.otp ∧ (State.cycleBeat s p).time.clk = s.time.clk := by unfold State.cycleBeat; dsimp only; (repeat' split) <;> simp_all
@[simp] theorem State.regulate_keeps (s : State) (d : Cd) (r : Rail) (late : Bool) :
    (State.regulate s d r late).pending = s.pending ∧ (State.regulate s d r late).nvm.otp = s.nvm.otp ∧ (State.regulate s d r late).time.clk = s.time.clk := by simp [State.regulate]
@[simp] theorem State.blankBeat_keeps (s : State) (r : Rail) :
    (State.blankBeat s r).pending = s.pending ∧ (State.blankBeat s r).nvm.otp = s.nvm.otp ∧ (State.blankBeat s r).time.clk = s.time.clk := by simp [State.blankBeat]
@[simp] theorem State.catchAddStep_keeps (s : State) (r : Rail) :
    (State.catchAddStep s r).pending = s.pending ∧ (State.catchAddStep s r).nvm.otp = s.nvm.otp ∧ (State.catchAddStep s r).time.clk = s.time.clk := by simp [State.catchAddStep]
@[simp] theorem State.lightStep_keeps (s : State) (r : Rail) :
    (State.lightStep s r).pending = s.pending ∧ (State.lightStep s r).nvm.otp = s.nvm.otp ∧ (State.lightStep s r).time.clk = s.time.clk := by simp [State.lightStep]
@[simp] theorem State.avsAck_keeps (s : State) (a : Nat) :
    (State.avsAck s a).pending = s.pending ∧ (State.avsAck s a).nvm.otp = s.nvm.otp ∧ (State.avsAck s a).time.clk = s.time.clk := by simp [State.avsAck]
@[simp] theorem State.avsRead_keeps (s : State) (port : Avs) (sel : Nat) (f : State → Rail → Nat × State)
    (h : ∀ (u : State) (r : Rail), (f u r).2.pending = u.pending ∧ (f u r).2.nvm.otp = u.nvm.otp ∧ (f u r).2.time.clk = u.time.clk) :
    (s.avsRead port sel f).pending = s.pending ∧ (s.avsRead port sel f).nvm.otp = s.nvm.otp ∧ (s.avsRead port sel f).time.clk = s.time.clk := by
  unfold State.avsRead; (repeat' split) <;> simp [h]
@[simp] theorem State.avsWrite_keeps (s : State) (port : Avs) (sel : Nat) (f : State → Rail → State)
    (h : ∀ (u : State) (r : Rail), (f u r).pending = u.pending ∧ (f u r).nvm.otp = u.nvm.otp ∧ (f u r).time.clk = u.time.clk) :
    (s.avsWrite port sel f).pending = s.pending ∧ (s.avsWrite port sel f).nvm.otp = s.nvm.otp ∧ (s.avsWrite port sel f).time.clk = s.time.clk := by
  unfold State.avsWrite; split <;> simp [h]

@[simp] theorem State.slotJoin_keeps (s : State) (r : Rail) :
    (State.slotJoin s r).pending = s.pending ∧ (State.slotJoin s r).nvm.otp = s.nvm.otp ∧ (State.slotJoin s r).time.clk = s.time.clk := by simp [State.slotJoin]
@[simp] theorem State.respace_keeps (s : State) (r : Rail) (extra : List Ph) :
    (State.respace s r extra).pending = s.pending ∧ (State.respace s r extra).nvm.otp = s.nvm.otp ∧ (State.respace s r extra).time.clk = s.time.clk := by simp [State.respace]
@[simp] theorem State.respaceFrame_keeps (s : State) (r : Rail) :
    (State.respaceFrame s r).pending = s.pending ∧ (State.respaceFrame s r).nvm.otp = s.nvm.otp ∧ (State.respaceFrame s r).time.clk = s.time.clk := by simp [State.respaceFrame]
@[simp] theorem State.demandStep_keeps (s : State) (d : Cd) (r : Rail) (add : State → Nat → State) (shed : State → Ph → State)
    (ha : ∀ (u : State) (n : Nat), (add u n).pending = u.pending ∧ (add u n).nvm.otp = u.nvm.otp ∧ (add u n).time.clk = u.time.clk)
    (hs : ∀ (u : State) (p : Ph), (shed u p).pending = u.pending ∧ (shed u p).nvm.otp = u.nvm.otp ∧ (shed u p).time.clk = u.time.clk) :
    (State.demandStep s d r add shed).pending = s.pending ∧ (State.demandStep s d r add shed).nvm.otp = s.nvm.otp ∧
      (State.demandStep s d r add shed).time.clk = s.time.clk := by
  unfold State.demandStep
  dsimp only
  (repeat' split) <;> simp_all
@[simp] theorem State.demandDie_keeps (s : State) (d : Cd) (r : Rail) :
    (State.demandDie s d r).pending = s.pending ∧ (State.demandDie s d r).nvm.otp = s.nvm.otp ∧ (State.demandDie s d r).time.clk = s.time.clk := by simp [State.demandDie]
@[simp] theorem State.demandFrame_keeps (s : State) (r : Rail) :
    (State.demandFrame s r).pending = s.pending ∧ (State.demandFrame s r).nvm.otp = s.nvm.otp ∧ (State.demandFrame s r).time.clk = s.time.clk := by unfold State.demandFrame; dsimp only; (repeat' split) <;> simp_all
@[simp] theorem State.lightFrame_keeps (s : State) (r : Rail) :
    (State.lightFrame s r).pending = s.pending ∧ (State.lightFrame s r).nvm.otp = s.nvm.otp ∧ (State.lightFrame s r).time.clk = s.time.clk := by simp [State.lightFrame]
@[simp] theorem State.lendStart_keeps (s : State) (p : Ph) (src dst : Rail) :
    (State.lendStart s p src dst).pending = s.pending ∧ (State.lendStart s p src dst).nvm.otp = s.nvm.otp ∧ (State.lendStart s p src dst).time.clk = s.time.clk := by simp [State.lendStart]
@[simp] theorem State.lendOneSided_keeps (s : State) (d : Cd) (m : Ph × Rail × Rail) :
    (State.lendOneSided s d m).pending = s.pending ∧ (State.lendOneSided s d m).nvm.otp = s.nvm.otp ∧ (State.lendOneSided s d m).time.clk = s.time.clk := by simp [State.lendOneSided]
@[simp] theorem State.lendRegion_keeps (s : State) (gi : Fin 6) :
    (s.lendRegion gi).pending = s.pending ∧ (s.lendRegion gi).nvm.otp = s.nvm.otp ∧ (s.lendRegion gi).time.clk = s.time.clk := by
  unfold State.lendRegion
  refine ⟨?_, ?_, ?_⟩
  · dsimp only; split
    · rfl
    · rw [foldl_pend, foldl_pend, foldl_pend, foldl_pend]
      all_goals first | (intro u x; simp; done) | (intro u x; split <;> (try split) <;> simp)
  · dsimp only; split
    · rfl
    · rw [foldl_otp, foldl_otp, foldl_otp, foldl_otp]
      all_goals first | (intro u x; simp; done) | (intro u x; split <;> (try split) <;> simp)
  · dsimp only; split
    · rfl
    · rw [foldl_clk, foldl_clk, foldl_clk, foldl_clk]
      all_goals first | (intro u x; simp; done) | (intro u x; split <;> (try split) <;> simp)
@[simp] theorem State.lendFrame_keeps (s : State) :
    (State.lendFrame s).pending = s.pending ∧ (State.lendFrame s).nvm.otp = s.nvm.otp ∧ (State.lendFrame s).time.clk = s.time.clk := by simp [State.lendFrame]
@[simp] theorem State.regionBudget_keeps (s : State) (g : Fin 6) :
    (State.regionBudget s g).pending = s.pending ∧ (State.regionBudget s g).nvm.otp = s.nvm.otp ∧ (State.regionBudget s g).time.clk = s.time.clk := by simp [State.regionBudget]
@[simp] theorem State.gangDetach_keeps (s : State) (r : Rail) :
    (State.gangDetach s r).pending = s.pending ∧ (State.gangDetach s r).nvm.otp = s.nvm.otp ∧ (State.gangDetach s r).time.clk = s.time.clk := by simp [State.gangDetach]
@[simp] theorem State.gangFollow_keeps (s : State) (r : Rail) (code : Nat) :
    (State.gangFollow s r code).pending = s.pending ∧ (State.gangFollow s r code).nvm.otp = s.nvm.otp ∧ (State.gangFollow s r code).time.clk = s.time.clk := by unfold State.gangFollow; (repeat' split) <;> simp
@[simp] theorem State.gangTarget_keeps (s : State) (r : Rail) (tgt : Nat) :
    (State.gangTarget s r tgt).pending = s.pending ∧ (State.gangTarget s r tgt).nvm.otp = s.nvm.otp ∧ (State.gangTarget s r tgt).time.clk = s.time.clk := by
  unfold State.gangTarget
  refine ⟨?_, ?_, ?_⟩ <;> (repeat' (first | intro _ _ | split | rw [foldl_pend] | rw [foldl_otp] | rw [foldl_clk] | simp))
@[simp] theorem State.gangApply_keeps (s : State) (r : Rail) (bytes : List Nat) :
    (State.gangApply s r bytes).pending = s.pending ∧ (State.gangApply s r bytes).nvm.otp = s.nvm.otp ∧ (State.gangApply s r bytes).time.clk = s.time.clk := by simp [State.gangApply]
@[simp] theorem State.gangCaps_keeps (s : State) (r : Rail) :
    (State.gangCaps s r).pending = s.pending ∧ (State.gangCaps s r).nvm.otp = s.nvm.otp ∧ (State.gangCaps s r).time.clk = s.time.clk := by simp [State.gangCaps]
@[simp] theorem State.gangTrim_keeps (s : State) (r : Rail) :
    (State.gangTrim s r).pending = s.pending ∧ (State.gangTrim s r).nvm.otp = s.nvm.otp ∧ (State.gangTrim s r).time.clk = s.time.clk := by simp [State.gangTrim]
@[simp] theorem State.gangReport_keeps (s : State) (r : Rail) :
    (State.gangReport s r).pending = s.pending ∧ (State.gangReport s r).nvm.otp = s.nvm.otp ∧ (State.gangReport s r).time.clk = s.time.clk := by simp [State.gangReport]
@[simp] theorem State.gangGap_keeps (s : State) (r : Rail) :
    (State.gangGap s r).pending = s.pending ∧ (State.gangGap s r).nvm.otp = s.nvm.otp ∧ (State.gangGap s r).time.clk = s.time.clk := by simp [State.gangGap]
@[simp] theorem State.gangPart_keeps (s : State) (r : Rail) (pkt : Nat) :
    (State.gangPart s r pkt).pending = s.pending ∧ (State.gangPart s r pkt).nvm.otp = s.nvm.otp ∧ (State.gangPart s r pkt).time.clk = s.time.clk := by simp [State.gangPart]
@[simp] theorem State.gangTake_keeps (s : State) (r : Rail) :
    (State.gangTake s r).pending = s.pending ∧ (State.gangTake s r).nvm.otp = s.nvm.otp ∧ (State.gangTake s r).time.clk = s.time.clk := by unfold State.gangTake; dsimp only; (repeat' split) <;> simp_all
@[simp] theorem State.gangBeat_keeps (s : State) (r : Rail) :
    (State.gangBeat s r).pending = s.pending ∧ (State.gangBeat s r).nvm.otp = s.nvm.otp ∧ (State.gangBeat s r).time.clk = s.time.clk := by unfold State.gangBeat; dsimp only; (repeat' split) <;> simp_all
@[simp] theorem State.gangSend_keeps (s : State) (r : Rail) (u : Int) :
    (State.gangSend s r u).pending = s.pending ∧ (State.gangSend s r u).nvm.otp = s.nvm.otp ∧ (State.gangSend s r u).time.clk = s.time.clk := by unfold State.gangSend; (repeat' split) <;> simp
@[simp] theorem State.gangPass_keeps (s : State) (e : Nat) (x : GangRx) :
    (State.gangPass s e x).pending = s.pending ∧ (State.gangPass s e x).nvm.otp = s.nvm.otp ∧ (State.gangPass s e x).time.clk = s.time.clk := by simp [State.gangPass]
@[simp] theorem State.gangRoles_keeps (s : State) :
    (State.gangRoles s).pending = s.pending ∧ (State.gangRoles s).nvm.otp = s.nvm.otp ∧ (State.gangRoles s).time.clk = s.time.clk := by simp [State.gangRoles]

@[simp] theorem State.convStart_keeps (s : State) (c : Conv) :
    (State.convStart s c).pending = s.pending ∧ (State.convStart s c).nvm.otp = s.nvm.otp ∧ (State.convStart s c).time.clk = s.time.clk := by
  unfold State.convStart
  refine ⟨?_, ?_, ?_⟩ <;> (repeat' (first | intro _ _ | split | rw [foldl_pend] | rw [foldl_otp] | rw [foldl_clk] | simp))
@[simp] theorem State.convStarts_keeps (s : State) :
    (State.convStarts s).pending = s.pending ∧ (State.convStarts s).nvm.otp = s.nvm.otp ∧ (State.convStarts s).time.clk = s.time.clk := by simp [State.convStarts]
@[simp] theorem State.countDropQ_keeps (s : State) (c : Conv) :
    (State.countDropQ s c).pending = s.pending ∧ (State.countDropQ s c).nvm.otp = s.nvm.otp ∧ (State.countDropQ s c).time.clk = s.time.clk := by simp [State.countDropQ]
@[simp] theorem State.toQueue_keeps (s : State) (c : Conv) (p : Pass) :
    (State.toQueue s c p).pending = s.pending ∧ (State.toQueue s c p).nvm.otp = s.nvm.otp ∧ (State.toQueue s c p).time.clk = s.time.clk := by simp [State.toQueue]
@[simp] theorem State.enqueue_keeps (s : State) (c : Conv) (p : Pass) :
    (State.enqueue s c p).pending = s.pending ∧ (State.enqueue s c p).nvm.otp = s.nvm.otp ∧ (State.enqueue s c p).time.clk = s.time.clk := by unfold State.enqueue; (repeat' split) <;> simp
@[simp] theorem State.losePass_keeps (s : State) (k : Fin 32) (p : Pass) :
    (State.losePass s k p).pending = s.pending ∧ (State.losePass s k p).nvm.otp = s.nvm.otp ∧ (State.losePass s k p).time.clk = s.time.clk := by simp [State.losePass]
@[simp] theorem State.dropQueued_keeps (s : State) (k : Fin 32) (p : Pass) :
    (State.dropQueued s k p).pending = s.pending ∧ (State.dropQueued s k p).nvm.otp = s.nvm.otp ∧ (State.dropQueued s k p).time.clk = s.time.clk := by simp [State.dropQueued]
@[simp] theorem State.toConv_keeps (s : State) (p : Pass) (c : Conv) :
    (State.toConv s p c).pending = s.pending ∧ (State.toConv s p c).nvm.otp = s.nvm.otp ∧ (State.toConv s p c).time.clk = s.time.clk := by simp [State.toConv]
@[simp] theorem State.trigger_keeps (s : State) (k : Fin 32) (c : Conv) :
    (State.trigger s k c).pending = s.pending ∧ (State.trigger s k c).nvm.otp = s.nvm.otp ∧ (State.trigger s k c).time.clk = s.time.clk := by simp [State.trigger]
@[simp] theorem State.triggerAll_keeps (s : State) (k : Fin 32) :
    (State.triggerAll s k).pending = s.pending ∧ (State.triggerAll s k).nvm.otp = s.nvm.otp ∧ (State.triggerAll s k).time.clk = s.time.clk := by simp [State.triggerAll]
@[simp] theorem State.dropUrgent_keeps (s : State) (c : Conv) :
    (State.dropUrgent s c).pending = s.pending ∧ (State.dropUrgent s c).nvm.otp = s.nvm.otp ∧ (State.dropUrgent s c).time.clk = s.time.clk := by simp [State.dropUrgent]
@[simp] theorem State.settleUrgent_keeps (s : State) (t : Nat) (k : Fin 32) :
    (State.settleUrgent s t k).pending = s.pending ∧ (State.settleUrgent s t k).nvm.otp = s.nvm.otp ∧ (State.settleUrgent s t k).time.clk = s.time.clk := by unfold State.settleUrgent; dsimp only; (repeat' split) <;> simp_all
@[simp] theorem State.settleAll_keeps (s : State) :
    (State.settleAll s).pending = s.pending ∧ (State.settleAll s).nvm.otp = s.nvm.otp ∧ (State.settleAll s).time.clk = s.time.clk := by simp [State.settleAll]
@[simp] theorem State.pairUp_keeps (s : State) (k : Fin 32) (i : Fin 16) :
    (State.pairUp s k i).pending = s.pending ∧ (State.pairUp s k i).nvm.otp = s.nvm.otp ∧ (State.pairUp s k i).time.clk = s.time.clk := by unfold State.pairUp; dsimp only; (repeat' split) <;> simp_all
@[simp] theorem State.addCode_keeps (s : State) (k : Fin 32) (cfg : Nat) (c : Conv) (e : Nat) (code code2 : Int) (nonsim : Bool) :
    (State.addCode s k cfg c e code code2 nonsim).pending = s.pending ∧ (State.addCode s k cfg c e code code2 nonsim).nvm.otp = s.nvm.otp ∧ (State.addCode s k cfg c e code code2 nonsim).time.clk = s.time.clk := by unfold State.addCode; (repeat' split) <;> simp
@[simp] theorem State.cvpSingle_keeps (s : State) (p : Pass) (code : Int) :
    (State.cvpSingle s p code).pending = s.pending ∧ (State.cvpSingle s p code).nvm.otp = s.nvm.otp ∧ (State.cvpSingle s p code).time.clk = s.time.clk := by unfold State.cvpSingle; dsimp only; (repeat' split) <;> simp_all
@[simp] theorem State.entryDone_keeps (s : State) (c : Conv) (p : Pass) (code code2 : Int) (lost : Bool) :
    (State.entryDone s c p code code2 lost).pending = s.pending ∧ (State.entryDone s c p code code2 lost).nvm.otp = s.nvm.otp ∧ (State.entryDone s c p code code2 lost).time.clk = s.time.clk := by unfold State.entryDone; (repeat' split) <;> simp
@[simp] theorem State.moveStalled_keeps (s : State) (c : Conv) :
    (State.moveStalled s c).pending = s.pending ∧ (State.moveStalled s c).nvm.otp = s.nvm.otp ∧ (State.moveStalled s c).time.clk = s.time.clk := by unfold State.moveStalled; (repeat' split) <;> simp
@[simp] theorem State.meterBeat_keeps (s : State) :
    (State.meterBeat s).pending = s.pending ∧ (State.meterBeat s).nvm.otp = s.nvm.otp ∧ (State.meterBeat s).time.clk = s.time.clk := by
  unfold State.meterBeat
  refine ⟨?_, ?_, ?_⟩ <;> (repeat' (first | intro _ _ | split | rw [foldl_pend] | rw [foldl_otp] | rw [foldl_clk] | simp))
@[simp] theorem State.overwrite_keeps (s : State) (c : Conv) :
    (State.overwrite s c).pending = s.pending ∧ (State.overwrite s c).nvm.otp = s.nvm.otp ∧ (State.overwrite s c).time.clk = s.time.clk := by simp [State.overwrite]
@[simp] theorem State.convWrite_keeps (s : State) (c : Conv) (ch : Nat) (code : Int) :
    (State.convWrite s c ch code).pending = s.pending ∧ (State.convWrite s c ch code).nvm.otp = s.nvm.otp ∧ (State.convWrite s c ch code).time.clk = s.time.clk := by simp [State.convWrite]
@[simp] theorem State.markNonsim_keeps (s : State) (k : Fin 32) (e : Nat) :
    (State.markNonsim s k e).pending = s.pending ∧ (State.markNonsim s k e).nvm.otp = s.nvm.otp ∧ (State.markNonsim s k e).time.clk = s.time.clk := by unfold State.markNonsim; (repeat' split) <;> simp
@[simp] theorem State.voteAbort_keeps (s : State) :
    (State.voteAbort s).pending = s.pending ∧ (State.voteAbort s).nvm.otp = s.nvm.otp ∧ (State.voteAbort s).time.clk = s.time.clk := by unfold State.voteAbort; dsimp only; (repeat' split) <;> simp_all
@[simp] theorem State.plausible_keeps (s : State) (k : Fin 32) (x : Nat × Int × Int) :
    (State.plausible s k x).pending = s.pending ∧ (State.plausible s k x).nvm.otp = s.nvm.otp ∧ (State.plausible s k x).time.clk = s.time.clk := by unfold State.plausible; (repeat' split) <;> simp
@[simp] theorem State.dropReport_keeps (s : State) (k : Fin 32) :
    (State.dropReport s k).pending = s.pending ∧ (State.dropReport s k).nvm.otp = s.nvm.otp ∧ (State.dropReport s k).time.clk = s.time.clk := by simp [State.dropReport]
@[simp] theorem State.meterStep_keeps (s : State) (k : Fin 32) :
    (State.meterStep s k).pending = s.pending ∧ (State.meterStep s k).nvm.otp = s.nvm.otp ∧ (State.meterStep s k).time.clk = s.time.clk := by simp [State.meterStep]
@[simp] theorem State.meterDiscard_keeps (s : State) :
    (State.meterDiscard s).pending = s.pending ∧ (State.meterDiscard s).nvm.otp = s.nvm.otp ∧ (State.meterDiscard s).time.clk = s.time.clk := by simp [State.meterDiscard]
@[simp] theorem State.meterFrame_keeps (s : State) (overran : Bool) :
    (State.meterFrame s overran).pending = s.pending ∧ (State.meterFrame s overran).nvm.otp = s.nvm.otp ∧ (State.meterFrame s overran).time.clk = s.time.clk := by simp [State.meterFrame]
@[simp] theorem State.vinFrame_keeps (s : State) (r : Rail) :
    (State.vinFrame s r).pending = s.pending ∧ (State.vinFrame s r).nvm.otp = s.nvm.otp ∧ (State.vinFrame s r).time.clk = s.time.clk := by unfold State.vinFrame; dsimp only; (repeat' split) <;> simp_all
@[simp] theorem State.cvRound_keeps (s : State) (c : Conv) :
    (State.cvRound s c).pending = s.pending ∧ (State.cvRound s c).nvm.otp = s.nvm.otp ∧ (State.cvRound s c).time.clk = s.time.clk := by simp [State.cvRound]
@[simp] theorem State.slotFrame_keeps (s : State) (c : Conv) :
    (State.slotFrame s c).pending = s.pending ∧ (State.slotFrame s c).nvm.otp = s.nvm.otp ∧ (State.slotFrame s c).time.clk = s.time.clk := by simp [State.slotFrame]
@[simp] theorem State.slotRound_keeps (s : State) (c : Conv) :
    (State.slotRound s c).pending = s.pending ∧ (State.slotRound s c).nvm.otp = s.nvm.otp ∧ (State.slotRound s c).time.clk = s.time.clk := by simp [State.slotRound]
@[simp] theorem State.dueRound_keeps (s : State) (c : Conv) :
    (State.dueRound s c).pending = s.pending ∧ (State.dueRound s c).nvm.otp = s.nvm.otp ∧ (State.dueRound s c).time.clk = s.time.clk := by simp [State.dueRound]
@[simp] theorem State.meterRound_keeps (s : State) :
    (State.meterRound s).pending = s.pending ∧ (State.meterRound s).nvm.otp = s.nvm.otp ∧ (State.meterRound s).time.clk = s.time.clk := by simp [State.meterRound]
@[simp] theorem State.meterLoad_keeps (s : State) :
    (State.meterLoad s).pending = s.pending ∧ (State.meterLoad s).nvm.otp = s.nvm.otp ∧ (State.meterLoad s).time.clk = s.time.clk := by simp [State.meterLoad]
@[simp] theorem State.unqueue_keeps (s : State) (k : Fin 32) :
    (State.unqueue s k).pending = s.pending ∧ (State.unqueue s k).nvm.otp = s.nvm.otp ∧ (State.unqueue s k).time.clk = s.time.clk := by simp [State.unqueue]
@[simp] theorem State.convBench_keeps (s : State) (c : Conv) :
    (State.convBench s c).pending = s.pending ∧ (State.convBench s c).nvm.otp = s.nvm.otp ∧ (State.convBench s c).time.clk = s.time.clk := by simp [State.convBench]
@[simp] theorem State.meterStop_keeps (s : State) (k : Fin 32) :
    (State.meterStop s k).pending = s.pending ∧ (State.meterStop s k).nvm.otp = s.nvm.otp ∧ (State.meterStop s k).time.clk = s.time.clk := by simp [State.meterStop]
@[simp] theorem State.meterStart_keeps (s : State) (k : Fin 32) :
    (State.meterStart s k).pending = s.pending ∧ (State.meterStart s k).nvm.otp = s.nvm.otp ∧ (State.meterStart s k).time.clk = s.time.clk := by simp [State.meterStart]
@[simp] theorem State.meterClear_keeps (s : State) (mask : Nat) :
    (State.meterClear s mask).pending = s.pending ∧ (State.meterClear s mask).nvm.otp = s.nvm.otp ∧ (State.meterClear s mask).time.clk = s.time.clk := by simp [State.meterClear]

@[simp] theorem State.setDie_keeps (s : State) (d : Cd) (st : DieState) :
    (State.setDie s d st).pending = s.pending ∧ (State.setDie s d st).nvm.otp = s.nvm.otp ∧ (State.setDie s d st).time.clk = s.time.clk := by simp [State.setDie]
@[simp] theorem State.setBias_keeps (s : State) (d : Cd) (on : Bool) :
    (State.setBias s d on).pending = s.pending ∧ (State.setBias s d on).nvm.otp = s.nvm.otp ∧ (State.setBias s d on).time.clk = s.time.clk := by simp [State.setBias]
@[simp] theorem State.snsUnmarkAll_keeps (s : State) (d : Cd) :
    (State.snsUnmarkAll s d).pending = s.pending ∧ (State.snsUnmarkAll s d).nvm.otp = s.nvm.otp ∧ (State.snsUnmarkAll s d).time.clk = s.time.clk := by simp [State.snsUnmarkAll]
@[simp] theorem State.benchDie_keeps (s : State) (d : Cd) (cause : Nat) :
    (State.benchDie s d cause).pending = s.pending ∧ (State.benchDie s d cause).nvm.otp = s.nvm.otp ∧ (State.benchDie s d cause).time.clk = s.time.clk := by simp [State.benchDie]
@[simp] theorem State.twinLost_keeps (s : State) :
    (State.twinLost s).pending = s.pending ∧ (State.twinLost s).nvm.otp = s.nvm.otp ∧ (State.twinLost s).time.clk = s.time.clk := by simp [State.twinLost]
@[simp] theorem State.faultDie_keeps (s : State) (d : Cd) (cause : Nat) :
    (State.faultDie s d cause).pending = s.pending ∧ (State.faultDie s d cause).nvm.otp = s.nvm.otp ∧ (State.faultDie s d cause).time.clk = s.time.clk := by unfold State.faultDie; dsimp only; (repeat' split) <;> simp_all
@[simp] theorem State.raiseVote_keeps (s : State) (v : VoteReq) :
    (State.raiseVote s v).pending = s.pending ∧ (State.raiseVote s v).nvm.otp = s.nvm.otp ∧ (State.raiseVote s v).time.clk = s.time.clk := by simp [State.raiseVote]
@[simp] theorem State.arbBeat_keeps (s : State) :
    (State.arbBeat s).pending = s.pending ∧ (State.arbBeat s).nvm.otp = s.nvm.otp ∧ (State.arbBeat s).time.clk = s.time.clk := by unfold State.arbBeat; dsimp only; (repeat' split) <;> simp_all
@[simp] theorem State.fastDetect_keeps (s : State) (noTokA noTokB : Bool) :
    (State.fastDetect s noTokA noTokB).pending = s.pending ∧ (State.fastDetect s noTokA noTokB).nvm.otp = s.nvm.otp ∧ (State.fastDetect s noTokA noTokB).time.clk = s.time.clk := by unfold State.fastDetect; dsimp only; (repeat' split) <;> simp_all
@[simp] theorem State.halfClose_keeps (s : State) :
    (State.halfClose s).pending = s.pending ∧ (State.halfClose s).nvm.otp = s.nvm.otp ∧ (State.halfClose s).time.clk = s.time.clk := by simp [State.halfClose]
@[simp] theorem State.halfClear_keeps (s : State) :
    (State.halfClear s).pending = s.pending ∧ (State.halfClear s).nvm.otp = s.nvm.otp ∧ (State.halfClear s).time.clk = s.time.clk := by simp [State.halfClear]
@[simp] theorem State.railCompare_keeps (s : State) (r : Rail) :
    (State.railCompare s r).pending = s.pending ∧ (State.railCompare s r).nvm.otp = s.nvm.otp ∧ (State.railCompare s r).time.clk = s.time.clk := by simp [State.railCompare]
@[simp] theorem State.phCompare_keeps (s : State) (p : Ph) :
    (State.phCompare s p).pending = s.pending ∧ (State.phCompare s p).nvm.otp = s.nvm.otp ∧ (State.phCompare s p).time.clk = s.time.clk := by simp [State.phCompare]
@[simp] theorem State.shadowTrims_keeps (s : State) :
    (State.shadowTrims s).pending = s.pending ∧ (State.shadowTrims s).nvm.otp = s.nvm.otp ∧ (State.shadowTrims s).time.clk = s.time.clk := by unfold State.shadowTrims; (repeat' split) <;> simp
@[simp] theorem State.intentCorrupt_keeps (s : State) (x : Cd × Rail) :
    (State.intentCorrupt s x).pending = s.pending ∧ (State.intentCorrupt s x).nvm.otp = s.nvm.otp ∧ (State.intentCorrupt s x).time.clk = s.time.clk := by simp [State.intentCorrupt]
@[simp] theorem State.observeDie_keeps (s : State) :
    (State.observeDie s).pending = s.pending ∧ (State.observeDie s).nvm.otp = s.nvm.otp ∧ (State.observeDie s).time.clk = s.time.clk := by unfold State.observeDie; dsimp only; (repeat' split) <;> simp_all
@[simp] theorem State.twinFrame_keeps (s : State) (noRecords overA overB : Bool) :
    (State.twinFrame s noRecords overA overB).pending = s.pending ∧ (State.twinFrame s noRecords overA overB).nvm.otp = s.nvm.otp ∧ (State.twinFrame s noRecords overA overB).time.clk = s.time.clk := by unfold State.twinFrame; dsimp only; (repeat' split) <;> simp_all
@[simp] theorem State.stallFrame_keeps (s : State) (overA overB : Bool) :
    (State.stallFrame s overA overB).pending = s.pending ∧ (State.stallFrame s overA overB).nvm.otp = s.nvm.otp ∧ (State.stallFrame s overA overB).time.clk = s.time.clk := by simp [State.stallFrame]
@[simp] theorem State.shadow_keeps (s : State) (r : Rail) :
    (State.shadow s r).pending = s.pending ∧ (State.shadow s r).nvm.otp = s.nvm.otp ∧ (State.shadow s r).time.clk = s.time.clk := by unfold State.shadow; (repeat' split) <;> simp
@[simp] theorem State.laneBeat_keeps (s : State) (r : Rail) :
    (State.laneBeat s r).pending = s.pending ∧ (State.laneBeat s r).nvm.otp = s.nvm.otp ∧ (State.laneBeat s r).time.clk = s.time.clk := by simp [State.laneBeat]
@[simp] theorem State.voteOpen_keeps (s : State) (v : VoteReq) (failed : Bool) :
    (State.voteOpen s v failed).pending = s.pending ∧ (State.voteOpen s v failed).nvm.otp = s.nvm.otp ∧ (State.voteOpen s v failed).time.clk = s.time.clk := by unfold State.voteOpen; dsimp only; (repeat' split) <;> simp_all
@[simp] theorem State.voteDecide_keeps (s : State) (v : VoteReq) (o : Cd) (intent ba bo : Bool) :
    (State.voteDecide s v o intent ba bo).pending = s.pending ∧ (State.voteDecide s v o intent ba bo).nvm.otp = s.nvm.otp ∧ (State.voteDecide s v o intent ba bo).time.clk = s.time.clk := by unfold State.voteDecide; (repeat' split) <;> simp
@[simp] theorem State.voteRound_keeps (s : State) :
    (State.voteRound s).pending = s.pending ∧ (State.voteRound s).nvm.otp = s.nvm.otp ∧ (State.voteRound s).time.clk = s.time.clk := by simp [State.voteRound]
@[simp] theorem State.railFollow_keeps (s : State) (d : Cd) (r : Rail) :
    (State.railFollow s d r).pending = s.pending ∧ (State.railFollow s d r).nvm.otp = s.nvm.otp ∧ (State.railFollow s d r).time.clk = s.time.clk := by simp [State.railFollow]
@[simp] theorem State.phFollow_keeps (s : State) (d : Cd) (p : Ph) :
    (State.phFollow s d p).pending = s.pending ∧ (State.phFollow s d p).nvm.otp = s.nvm.otp ∧ (State.phFollow s d p).time.clk = s.time.clk := by unfold State.phFollow; (repeat' split) <;> simp
@[simp] theorem State.engineRound_keeps (s : State) :
    (State.engineRound s).pending = s.pending ∧ (State.engineRound s).nvm.otp = s.nvm.otp ∧ (State.engineRound s).time.clk = s.time.clk := by simp [State.engineRound]
@[simp] theorem State.dieEnd_keeps (s : State) (d : Cd) (ref : TkRef) (pass : Bool) :
    (State.dieEnd s d ref pass).pending = s.pending ∧ (State.dieEnd s d ref pass).nvm.otp = s.nvm.otp ∧ (State.dieEnd s d ref pass).time.clk = s.time.clk := by simp [State.dieEnd]
@[simp] theorem State.dieTestFrame_keeps (s : State) :
    (State.dieTestFrame s).pending = s.pending ∧ (State.dieTestFrame s).nvm.otp = s.nvm.otp ∧ (State.dieTestFrame s).time.clk = s.time.clk := by unfold State.dieTestFrame; (repeat' split) <;> simp
@[simp] theorem State.readmitDieStart_keeps (s : State) (d : Cd) (ref : TkRef) :
    (State.readmitDieStart s d ref).pending = s.pending ∧ (State.readmitDieStart s d ref).nvm.otp = s.nvm.otp ∧ (State.readmitDieStart s d ref).time.clk = s.time.clk := by simp [State.readmitDieStart]
@[simp] theorem State.resyncRails_keeps (s : State) (d : Cd) :
    (State.resyncRails s d).pending = s.pending ∧ (State.resyncRails s d).nvm.otp = s.nvm.otp ∧ (State.resyncRails s d).time.clk = s.time.clk := by simp [State.resyncRails]
@[simp] theorem State.resyncTrims_keeps (s : State) (d : Cd) :
    (State.resyncTrims s d).pending = s.pending ∧ (State.resyncTrims s d).nvm.otp = s.nvm.otp ∧ (State.resyncTrims s d).time.clk = s.time.clk := by simp [State.resyncTrims]
@[simp] theorem State.resyncCopy_keeps (s : State) (d : Cd) :
    (State.resyncCopy s d).pending = s.pending ∧ (State.resyncCopy s d).nvm.otp = s.nvm.otp ∧ (State.resyncCopy s d).time.clk = s.time.clk := by simp [State.resyncCopy]
@[simp] theorem State.swapAct_keeps (s : State) :
    (State.swapAct s).pending = s.pending ∧ (State.swapAct s).nvm.otp = s.nvm.otp ∧ (State.swapAct s).time.clk = s.time.clk := by simp [State.swapAct]

@[simp] theorem State.windowEval_keeps (s : State) (r : Rail) (left was : Nat) (k : Nat) :
    (State.windowEval s r left was k).pending = s.pending ∧ (State.windowEval s r left was k).nvm.otp = s.nvm.otp ∧ (State.windowEval s r left was k).time.clk = s.time.clk := by unfold State.windowEval; (repeat' split) <;> simp
@[simp] theorem State.supEval_keeps (s : State) (r : Rail) :
    (State.supEval s r).pending = s.pending ∧ (State.supEval s r).nvm.otp = s.nvm.otp ∧ (State.supEval s r).time.clk = s.time.clk := by simp [State.supEval]
@[simp] theorem State.supFrame_keeps (s : State) (held : Bool) (r : Rail) :
    (State.supFrame s held r).pending = s.pending ∧ (State.supFrame s held r).nvm.otp = s.nvm.otp ∧ (State.supFrame s held r).time.clk = s.time.clk := by unfold State.supFrame; dsimp only; (repeat' split) <;> simp_all
@[simp] theorem State.clearLatch_keeps (s : State) (r : Rail) (mask : Nat) (ref : Option TkRef) (watch : Bool) :
    (State.clearLatch s r mask ref watch).pending = s.pending ∧ (State.clearLatch s r mask ref watch).nvm.otp = s.nvm.otp ∧ (State.clearLatch s r mask ref watch).time.clk = s.time.clk := by unfold State.clearLatch; (repeat' split) <;> simp
@[simp] theorem State.dischargeOrder_keeps (s : State) (r : Rail) (frames thr : Nat) (wait : Bool) :
    (State.dischargeOrder s r frames thr wait).pending = s.pending ∧ (State.dischargeOrder s r frames thr wait).nvm.otp = s.nvm.otp ∧ (State.dischargeOrder s r frames thr wait).time.clk = s.time.clk := by unfold State.dischargeOrder; dsimp only; (repeat' split) <;> simp_all
@[simp] theorem State.dischargeLow_keeps (s : State) (r : Rail) :
    (State.dischargeLow s r).pending = s.pending ∧ (State.dischargeLow s r).nvm.otp = s.nvm.otp ∧ (State.dischargeLow s r).time.clk = s.time.clk := by simp [State.dischargeLow]
@[simp] theorem State.dischargeBeat_keeps (s : State) (r : Rail) :
    (State.dischargeBeat s r).pending = s.pending ∧ (State.dischargeBeat s r).nvm.otp = s.nvm.otp ∧ (State.dischargeBeat s r).time.clk = s.time.clk := by unfold State.dischargeBeat; (repeat' split) <;> simp
@[simp] theorem State.readmitRail_keeps (s : State) (r : Rail) (ref : TkRef) :
    (s.readmitRail r ref).pending = s.pending ∧ (s.readmitRail r ref).nvm.otp = s.nvm.otp ∧ (s.readmitRail r ref).time.clk = s.time.clk := by
  unfold State.readmitRail
  dsimp only
  split
  · simp
  · refine ⟨(State.modRail_keeps _ _ _).1.trans ?_, (State.modRail_keeps _ _ _).2.1.trans ?_, (State.modRail_keeps _ _ _).2.2.trans ?_⟩ <;> simp

@[simp] theorem State.postOrder_keeps (s : State) (code idx unit : Nat) (a1 a2 : Nat) :
    (State.postOrder s code idx unit a1 a2).pending = s.pending ∧ (State.postOrder s code idx unit a1 a2).nvm.otp = s.nvm.otp ∧ (State.postOrder s code idx unit a1 a2).time.clk = s.time.clk := by simp [State.postOrder]
@[simp] theorem State.railOnAct_keeps (s : State) (r : Rail) :
    (State.railOnAct s r).pending = s.pending ∧ (State.railOnAct s r).nvm.otp = s.nvm.otp ∧ (State.railOnAct s r).time.clk = s.time.clk := by unfold State.railOnAct; (repeat' split) <;> simp
@[simp] theorem State.railOffAct_keeps (s : State) (r : Rail) :
    (State.railOffAct s r).pending = s.pending ∧ (State.railOffAct s r).nvm.otp = s.nvm.otp ∧ (State.railOffAct s r).time.clk = s.time.clk := by simp [State.railOffAct]
@[simp] theorem State.pgAct_keeps (s : State) (k : Nat) (on : Bool) :
    (State.pgAct s k on).pending = s.pending ∧ (State.pgAct s k on).nvm.otp = s.nvm.otp ∧ (State.pgAct s k on).time.clk = s.time.clk := by simp [State.pgAct]
@[simp] theorem State.riseFailed_keeps (s : State) (n : Prog) (r : Rail) :
    (State.riseFailed s n r).pending = s.pending ∧ (State.riseFailed s n r).nvm.otp = s.nvm.otp ∧ (State.riseFailed s n r).time.clk = s.time.clk := by simp [State.riseFailed]
@[simp] theorem State.seqEnd_keeps (s : State) (n : Prog) :
    (State.seqEnd s n).pending = s.pending ∧ (State.seqEnd s n).nvm.otp = s.nvm.otp ∧ (State.seqEnd s n).time.clk = s.time.clk := by unfold State.seqEnd; dsimp only; (repeat' split) <;> simp_all
@[simp] theorem State.seqStart_keeps (s : State) (n : Prog) :
    (State.seqStart s n).pending = s.pending ∧ (State.seqStart s n).nvm.otp = s.nvm.otp ∧ (State.seqStart s n).time.clk = s.time.clk := by unfold State.seqStart; dsimp only; (repeat' split) <;> simp_all
@[simp] theorem State.seqLeave_keeps (s : State) (n : Prog) :
    (State.seqLeave s n).pending = s.pending ∧ (State.seqLeave s n).nvm.otp = s.nvm.otp ∧ (State.seqLeave s n).time.clk = s.time.clk := by simp [State.seqLeave]
@[simp] theorem State.seqCheck_keeps (s : State) (n : Prog) :
    (State.seqCheck s n).pending = s.pending ∧ (State.seqCheck s n).nvm.otp = s.nvm.otp ∧ (State.seqCheck s n).time.clk = s.time.clk := by unfold State.seqCheck; dsimp only; (repeat' split) <;> simp_all
@[simp] theorem State.seqHeld_keeps (s : State) (n : Prog) :
    (State.seqHeld s n).pending = s.pending ∧ (State.seqHeld s n).nvm.otp = s.nvm.otp ∧ (State.seqHeld s n).time.clk = s.time.clk := by simp [State.seqHeld]
@[simp] theorem State.seqAborted_keeps (s : State) (n : Prog) :
    (State.seqAborted s n).pending = s.pending ∧ (State.seqAborted s n).nvm.otp = s.nvm.otp ∧ (State.seqAborted s n).time.clk = s.time.clk := by unfold State.seqAborted; dsimp only; (repeat' split) <;> simp_all
@[simp] theorem State.seqAdvance_keeps (s : State) (n : Prog) :
    (State.seqAdvance s n).pending = s.pending ∧ (State.seqAdvance s n).nvm.otp = s.nvm.otp ∧ (State.seqAdvance s n).time.clk = s.time.clk := by unfold State.seqAdvance; dsimp only; (repeat' split) <;> simp_all
@[simp] theorem State.seqFrame_keeps (s : State) (n : Prog) :
    (State.seqFrame s n).pending = s.pending ∧ (State.seqFrame s n).nvm.otp = s.nvm.otp ∧ (State.seqFrame s n).time.clk = s.time.clk := by simp [State.seqFrame]
@[simp] theorem State.seqSet_keeps (s : State) (n : Prog) (ref : Option TkRef) (parts : List Nat) :
    (State.seqSet s n ref parts).pending = s.pending ∧ (State.seqSet s n ref parts).nvm.otp = s.nvm.otp ∧ (State.seqSet s n ref parts).time.clk = s.time.clk := by simp [State.seqSet]
@[simp] theorem State.seqRunAct_keeps (s : State) (n : Prog) (ref : Option TkRef) (ord : Option (Nat × Nat)) :
    (State.seqRunAct s n ref ord).pending = s.pending ∧ (State.seqRunAct s n ref ord).nvm.otp = s.nvm.otp ∧ (State.seqRunAct s n ref ord).time.clk = s.time.clk := by unfold State.seqRunAct; (repeat' split) <;> simp
@[simp] theorem State.seqStarters_keeps (s : State) :
    ((State.seqStarters s).2).pending = s.pending ∧ ((State.seqStarters s).2).nvm.otp = s.nvm.otp ∧ ((State.seqStarters s).2).time.clk = s.time.clk := by simp [State.seqStarters]
@[simp] theorem State.seqRunChainAct_keeps (s : State) (n : Prog) (ref : Option TkRef) :
    (State.seqRunChainAct s n ref).pending = s.pending ∧ (State.seqRunChainAct s n ref).nvm.otp = s.nvm.otp ∧ (State.seqRunChainAct s n ref).time.clk = s.time.clk := by unfold State.seqRunChainAct; (repeat' split) <;> simp
@[simp] theorem State.benchRailOut_keeps (s : State) (r : Rail) (code : Nat) :
    (State.benchRailOut s r code).pending = s.pending ∧ (State.benchRailOut s r code).nvm.otp = s.nvm.otp ∧ (State.benchRailOut s r code).time.clk = s.time.clk := by simp [State.benchRailOut]

end Sys2Proof.Machine
end

