-- ==== Sys2Proof/Laws/FramePack.lean ====
section
/-! SUPPORT. Frame lemmas of feeds, the pack, the ticket checks, the thermal part: an operation leaves the queue of waiting commands, the fuses and the
beat count as they were, except where the lemma leaves one of the three out. -/

namespace Sys2Proof.Machine

set_option linter.unusedSimpArgs false
set_option linter.unusedVariables false

@[simp] theorem State.setFeed_keeps (s : State) (f : Feed) (g : FeedSt → FeedSt) :
    (State.setFeed s f g).pending = s.pending ∧ (State.setFeed s f g).nvm.otp = s.nvm.otp ∧ (State.setFeed s f g).time.clk = s.time.clk := by simp [State.setFeed]
@[simp] theorem State.bothLostCheck_keeps (s : State) :
    (State.bothLostCheck s).pending = s.pending ∧ (State.bothLostCheck s).nvm.otp = s.nvm.otp ∧ (State.bothLostCheck s).time.clk = s.time.clk := by simp [State.bothLostCheck]
@[simp] theorem State.feedDeclare_keeps (s : State) (f : Feed) (cause : Nat) (g : FeedSt → FeedSt) :
    (State.feedDeclare s f cause g).pending = s.pending ∧ (State.feedDeclare s f cause g).nvm.otp = s.nvm.otp ∧ (State.feedDeclare s f cause g).time.clk = s.time.clk := by simp [State.feedDeclare]
@[simp] theorem State.feedBeat_keeps (s : State) :
    (State.feedBeat s).pending = s.pending ∧ (State.feedBeat s).nvm.otp = s.nvm.otp ∧ (State.feedBeat s).time.clk = s.time.clk := by unfold State.feedBeat; dsimp only; (repeat' split) <;> simp_all
@[simp] theorem State.feedFrame_keeps (s : State) (f : Feed) :
    (State.feedFrame s f).pending = s.pending ∧ (State.feedFrame s f).nvm.otp = s.nvm.otp ∧ (State.feedFrame s f).time.clk = s.time.clk := by simp [State.feedFrame]
@[simp] theorem State.shareFrame_keeps (s : State) :
    (State.shareFrame s).pending = s.pending ∧ (State.shareFrame s).nvm.otp = s.nvm.otp ∧ (State.shareFrame s).time.clk = s.time.clk := by
  unfold State.shareFrame
  refine ⟨?_, ?_, ?_⟩ <;> (repeat' (first | intro _ _ | split | rw [foldl_pend] | rw [foldl_otp] | rw [foldl_clk] | simp))
@[simp] theorem State.pinFrame_keeps (s : State) :
    (State.pinFrame s).pending = s.pending ∧ (State.pinFrame s).nvm.otp = s.nvm.otp ∧ (State.pinFrame s).time.clk = s.time.clk := by unfold State.pinFrame; dsimp only; (repeat' split) <;> simp_all
@[simp] theorem State.shuntRound_keeps (s : State) (f : Feed) (mean : Q) :
    (State.shuntRound s f mean).pending = s.pending ∧ (State.shuntRound s f mean).nvm.otp = s.nvm.otp ∧ (State.shuntRound s f mean).time.clk = s.time.clk := by simp [State.shuntRound]
@[simp] theorem State.chainTake_keeps (s : State) (dev ga : Nat) (ia : Int) (gb : Nat) (ib : Int) :
    (State.chainTake s dev ga ia gb ib).pending = s.pending ∧ (State.chainTake s dev ga ia gb ib).nvm.otp = s.nvm.otp ∧ (State.chainTake s dev ga ia gb ib).time.clk = s.time.clk := by simp [State.chainTake]
@[simp] theorem State.chainGroup_keeps (s : State) (g : Fin 15) :
    (State.chainGroup s g).pending = s.pending ∧ (State.chainGroup s g).nvm.otp = s.nvm.otp ∧ (State.chainGroup s g).time.clk = s.time.clk := by simp [State.chainGroup]
@[simp] theorem State.feedRound_keeps (s : State) :
    (State.feedRound s).pending = s.pending ∧ (State.feedRound s).nvm.otp = s.nvm.otp ∧ (State.feedRound s).time.clk = s.time.clk := by simp [State.feedRound]
@[simp] theorem State.hkStart_keeps (s : State) (k : Hk) :
    (State.hkStart s k).pending = s.pending ∧ (State.hkStart s k).nvm.otp = s.nvm.otp ∧ (State.hkStart s k).time.clk = s.time.clk := by simp [State.hkStart]
@[simp] theorem State.hkStop_keeps (s : State) (k : Hk) :
    (State.hkStop s k).pending = s.pending ∧ (State.hkStop s k).nvm.otp = s.nvm.otp ∧ (State.hkStop s k).time.clk = s.time.clk := by simp [State.hkStop]
@[simp] theorem State.hkAllOff_keeps (s : State) :
    (State.hkAllOff s).pending = s.pending ∧ (State.hkAllOff s).nvm.otp = s.nvm.otp ∧ (State.hkAllOff s).time.clk = s.time.clk := by simp [State.hkAllOff]
@[simp] theorem State.autoStart_keeps (s : State) :
    (State.autoStart s).pending = s.pending ∧ (State.autoStart s).nvm.otp = s.nvm.otp ∧ (State.autoStart s).time.clk = s.time.clk := by simp [State.autoStart]
@[simp] theorem State.slotStart_keeps (s : State) :
    (State.slotStart s).pending = s.pending ∧ (State.slotStart s).nvm.otp = s.nvm.otp ∧ (State.slotStart s).time.clk = s.time.clk := by unfold State.slotStart; (repeat' split) <;> simp
@[simp] theorem State.hkRound_keeps (s : State) :
    (State.hkRound s).pending = s.pending ∧ (State.hkRound s).nvm.otp = s.nvm.otp ∧ (State.hkRound s).time.clk = s.time.clk := by simp [State.hkRound]
@[simp] theorem State.hkSwitchAct_keeps (s : State) (k : Hk) (on : Bool) :
    (State.hkSwitchAct s k on).pending = s.pending ∧ (State.hkSwitchAct s k on).nvm.otp = s.nvm.otp ∧ (State.hkSwitchAct s k on).time.clk = s.time.clk := by simp [State.hkSwitchAct]
@[simp] theorem State.hkOverlay_keeps (s : State) (was : Cfg) :
    (State.hkOverlay s was).pending = s.pending ∧ (State.hkOverlay s was).nvm.otp = s.nvm.otp ∧ (State.hkOverlay s was).time.clk = s.time.clk := by simp [State.hkOverlay]

@[simp] theorem State.modPack_keeps (s : State) (f : PackSt → PackSt) :
    (State.modPack s f).pending = s.pending ∧ (State.modPack s f).nvm.otp = s.nvm.otp ∧ (State.modPack s f).time.clk = s.time.clk := by simp [State.modPack]
@[simp] theorem State.pswOpen_keeps (s : State) (cause : Nat) :
    (State.pswOpen s cause).pending = s.pending ∧ (State.pswOpen s cause).nvm.otp = s.nvm.otp ∧ (State.pswOpen s cause).time.clk = s.time.clk := by simp [State.pswOpen]
@[simp] theorem State.pswClose_keeps (s : State) :
    (State.pswClose s).pending = s.pending ∧ (State.pswClose s).nvm.otp = s.nvm.otp ∧ (State.pswClose s).time.clk = s.time.clk := by simp [State.pswClose]
@[simp] theorem State.pswRelease_keeps (s : State) (mask : Nat) :
    (State.pswRelease s mask).pending = s.pending ∧ (State.pswRelease s mask).nvm.otp = s.nvm.otp ∧ (State.pswRelease s mask).time.clk = s.time.clk := by simp [State.pswRelease]
@[simp] theorem State.packOpenOrder_keeps (s : State) (rounds : Nat) :
    (State.packOpenOrder s rounds).pending = s.pending ∧ (State.packOpenOrder s rounds).nvm.otp = s.nvm.otp ∧ (State.packOpenOrder s rounds).time.clk = s.time.clk := by simp [State.packOpenOrder]
@[simp] theorem State.chgTo_keeps (s : State) (c : ChgState) :
    (State.chgTo s c).pending = s.pending ∧ (State.chgTo s c).nvm.otp = s.nvm.otp ∧ (State.chgTo s c).time.clk = s.time.clk := by simp [State.chgTo]
@[simp] theorem State.chgEnter_keeps (s : State) (c : ChgState) :
    (State.chgEnter s c).pending = s.pending ∧ (State.chgEnter s c).nvm.otp = s.nvm.otp ∧ (State.chgEnter s c).time.clk = s.time.clk := by simp [State.chgEnter]
@[simp] theorem State.chgRound_keeps (s : State) (ov : Option Q) (i : Q) :
    (State.chgRound s ov i).pending = s.pending ∧ (State.chgRound s ov i).nvm.otp = s.nvm.otp ∧ (State.chgRound s ov i).time.clk = s.time.clk := by unfold State.chgRound; dsimp only; (repeat' split) <;> simp_all
@[simp] theorem State.chgTemp_keeps (s : State) :
    (State.chgTemp s).pending = s.pending ∧ (State.chgTemp s).nvm.otp = s.nvm.otp ∧ (State.chgTemp s).time.clk = s.time.clk := by simp [State.chgTemp]
@[simp] theorem State.readmitChargerAct_keeps (s : State) (ref : TkRef) :
    (State.readmitChargerAct s ref).pending = s.pending ∧ (State.readmitChargerAct s ref).nvm.otp = s.nvm.otp ∧ (State.readmitChargerAct s ref).time.clk = s.time.clk := by simp [State.readmitChargerAct]
@[simp] theorem State.chgCheck_keeps (s : State) (v : Option Q) :
    (State.chgCheck s v).pending = s.pending ∧ (State.chgCheck s v).nvm.otp = s.nvm.otp ∧ (State.chgCheck s v).time.clk = s.time.clk := by simp [State.chgCheck]
@[simp] theorem State.missRound_keeps (s : State) (v : Option Q) :
    (State.missRound s v).pending = s.pending ∧ (State.missRound s v).nvm.otp = s.nvm.otp ∧ (State.missRound s v).time.clk = s.time.clk := by simp [State.missRound]
@[simp] theorem State.gaugeCommit_keeps (s : State) :
    (State.gaugeCommit s).pending = s.pending ∧ (State.gaugeCommit s).nvm.otp = s.nvm.otp ∧ (State.gaugeCommit s).time.clk = s.time.clk := by simp [State.gaugeCommit]
@[simp] theorem State.impUpdate_keeps (s : State) (i v : Q) :
    (State.impUpdate s i v).pending = s.pending ∧ (State.impUpdate s i v).nvm.otp = s.nvm.otp ∧ (State.impUpdate s i v).time.clk = s.time.clk := by unfold State.impUpdate; (repeat' split) <;> simp
@[simp] theorem State.packFrame_keeps (s : State) :
    (State.packFrame s).pending = s.pending ∧ (State.packFrame s).nvm.otp = s.nvm.otp ∧ (State.packFrame s).time.clk = s.time.clk := by unfold State.packFrame; (repeat' split) <;> simp
@[simp] theorem State.reserve_keeps (s : State) :
    (State.reserve s).pending = s.pending ∧ (State.reserve s).nvm.otp = s.nvm.otp ∧ (State.reserve s).time.clk = s.time.clk := by simp [State.reserve]
@[simp] theorem State.gaugeEnds_keeps (s : State) (i v : Q) :
    (State.gaugeEnds s i v).pending = s.pending ∧ (State.gaugeEnds s i v).nvm.otp = s.nvm.otp ∧ (State.gaugeEnds s i v).time.clk = s.time.clk := by simp [State.gaugeEnds]
@[simp] theorem State.gaugeRound_keeps (s : State) (i : Q) :
    (State.gaugeRound s i).pending = s.pending ∧ (State.gaugeRound s i).nvm.otp = s.nvm.otp ∧ (State.gaugeRound s i).time.clk = s.time.clk := by simp [State.gaugeRound]
@[simp] theorem State.packRound_keeps (s : State) :
    (State.packRound s).pending = s.pending ∧ (State.packRound s).nvm.otp = s.nvm.otp ∧ (State.packRound s).time.clk = s.time.clk := by simp [State.packRound]
@[simp] theorem State.ocvSoc_keeps (s : State) (cell : Q) :
    ((State.ocvSoc s cell).2.2).pending = s.pending ∧ ((State.ocvSoc s cell).2.2).nvm.otp = s.nvm.otp ∧ ((State.ocvSoc s cell).2.2).time.clk = s.time.clk := by unfold State.ocvSoc; dsimp only; (repeat' split) <;> simp_all
@[simp] theorem State.fccLearn_keeps (s : State) (soc : Nat) :
    (State.fccLearn s soc).pending = s.pending ∧ (State.fccLearn s soc).nvm.otp = s.nvm.otp ∧ (State.fccLearn s soc).time.clk = s.time.clk := by unfold State.fccLearn; dsimp only; (repeat' split) <;> simp_all
@[simp] theorem State.gaugeResume_keeps (s : State) :
    (State.gaugeResume s).pending = s.pending ∧ (State.gaugeResume s).nvm.otp = s.nvm.otp ∧ (State.gaugeResume s).time.clk = s.time.clk := by unfold State.gaugeResume; (repeat' split) <;> simp
@[simp] theorem State.packOff_keeps (s : State) :
    (State.packOff s).pending = s.pending ∧ (State.packOff s).nvm.otp = s.nvm.otp ∧ (State.packOff s).time.clk = s.time.clk := by simp [State.packOff]
@[simp] theorem State.shipArmAct_keeps (s : State) (keep : Bool) :
    (State.shipArmAct s keep).pending = s.pending ∧ (State.shipArmAct s keep).nvm.otp = s.nvm.otp ∧ (State.shipArmAct s keep).time.clk = s.time.clk := by simp [State.shipArmAct]
@[simp] theorem State.shipCancelAct_keeps (s : State) :
    (State.shipCancelAct s).pending = s.pending ∧ (State.shipCancelAct s).nvm.otp = s.nvm.otp ∧ (State.shipCancelAct s).time.clk = s.time.clk := by simp [State.shipCancelAct]


@[simp] theorem State.modTherm_keeps (s : State) (f : ThermSt → ThermSt) :
    (State.modTherm s f).pending = s.pending ∧ (State.modTherm s f).nvm.otp = s.nvm.otp ∧ (State.modTherm s f).time.clk = s.time.clk := by simp [State.modTherm]
@[simp] theorem State.thermEvent_keeps (s : State) (k : Src) (code : Nat) (close : Bool) (a1 : Nat) :
    (State.thermEvent s k code close a1).pending = s.pending ∧ (State.thermEvent s k code close a1).nvm.otp = s.nvm.otp ∧ (State.thermEvent s k code close a1).time.clk = s.time.clk := by simp [State.thermEvent]
@[simp] theorem State.warnChange_keeps (s : State) (k : Src) :
    (State.warnChange s k).pending = s.pending ∧ (State.warnChange s k).nvm.otp = s.nvm.otp ∧ (State.warnChange s k).time.clk = s.time.clk := by simp [State.warnChange]
@[simp] theorem State.qualifySrc_keeps (s : State) (k : Src) (q : Int) :
    (State.qualifySrc s k q).pending = s.pending ∧ (State.qualifySrc s k q).nvm.otp = s.nvm.otp ∧ (State.qualifySrc s k q).time.clk = s.time.clk := by simp [State.qualifySrc]
@[simp] theorem State.blindCheck_keeps (s : State) (d : Fin 3) :
    (State.blindCheck s d).pending = s.pending ∧ (State.blindCheck s d).nvm.otp = s.nvm.otp ∧ (State.blindCheck s d).time.clk = s.time.clk := by simp [State.blindCheck]
@[simp] theorem State.crossCheck_keeps (s : State) (k : Src) (q : Int) :
    (State.crossCheck s k q).pending = s.pending ∧ (State.crossCheck s k q).nvm.otp = s.nvm.otp ∧ (State.crossCheck s k q).time.clk = s.time.clk := by unfold State.crossCheck; (repeat' split) <;> simp
@[simp] theorem State.tfltCheck_keeps (s : State) (p : Ph) (q : Int) :
    (State.tfltCheck s p q).pending = s.pending ∧ (State.tfltCheck s p q).nvm.otp = s.nvm.otp ∧ (State.tfltCheck s p q).time.clk = s.time.clk := by simp [State.tfltCheck]
@[simp] theorem State.ntcCheck_keeps (s : State) (n : Fin 4) (q : Int) :
    (State.ntcCheck s n q).pending = s.pending ∧ (State.ntcCheck s n q).nvm.otp = s.nvm.otp ∧ (State.ntcCheck s n q).time.clk = s.time.clk := by simp [State.ntcCheck]
@[simp] theorem State.thermPlan_keeps (s : State) (c : Conv) :
    (State.thermPlan s c).pending = s.pending ∧ (State.thermPlan s c).nvm.otp = s.nvm.otp ∧ (State.thermPlan s c).time.clk = s.time.clk := by simp [State.thermPlan]
@[simp] theorem State.thermSlots_keeps (s : State) :
    (State.thermSlots s).pending = s.pending ∧ (State.thermSlots s).nvm.otp = s.nvm.otp ∧ (State.thermSlots s).time.clk = s.time.clk := by simp [State.thermSlots]
@[simp] theorem State.slotTaken_keeps (s : State) (k : Src) :
    (State.slotTaken s k).pending = s.pending ∧ (State.slotTaken s k).nvm.otp = s.nvm.otp ∧ (State.slotTaken s k).time.clk = s.time.clk := by simp [State.slotTaken]
@[simp] theorem State.thermClear_keeps (s : State) (n : Nat) :
    (State.thermClear s n).pending = s.pending ∧ (State.thermClear s n).nvm.otp = s.nvm.otp ∧ (State.thermClear s n).time.clk = s.time.clk := by simp [State.thermClear]
@[simp] theorem State.pkgFrame_keeps (s : State) :
    (State.pkgFrame s).pending = s.pending ∧ (State.pkgFrame s).nvm.otp = s.nvm.otp ∧ (State.pkgFrame s).time.clk = s.time.clk := by unfold State.pkgFrame; dsimp only; (repeat' split) <;> simp_all
@[simp] theorem State.compRound_keeps (s : State) :
    (State.compRound s).pending = s.pending ∧ (State.compRound s).nvm.otp = s.nvm.otp ∧ (State.compRound s).time.clk = s.time.clk := by simp [State.compRound]
@[simp] theorem State.refRound_keeps (s : State) :
    (State.refRound s).pending = s.pending ∧ (State.refRound s).nvm.otp = s.nvm.otp ∧ (State.refRound s).time.clk = s.time.clk := by simp [State.refRound]
@[simp] theorem State.ageBeat_keeps (s : State) (p : Ph) :
    (State.ageBeat s p).pending = s.pending ∧ (State.ageBeat s p).nvm.otp = s.nvm.otp ∧ (State.ageBeat s p).time.clk = s.time.clk := by simp [State.ageBeat]
@[simp] theorem State.reCfg_keeps (s : State) :
    (State.reCfg s).pending = s.pending ∧ (State.reCfg s).nvm.otp = s.nvm.otp ∧ (State.reCfg s).time.clk = s.time.clk := by simp [State.reCfg]
@[simp] theorem State.mpEvent_keeps (s : State) (code : Nat) (x : Proposal) (a1 a2 : Nat) :
    (State.mpEvent s code x a1 a2).pending = s.pending ∧ (State.mpEvent s code x a1 a2).nvm.otp = s.nvm.otp ∧ (State.mpEvent s code x a1 a2).time.clk = s.time.clk := by simp [State.mpEvent]
@[simp] theorem State.propose_keeps (s : State) (kind target : Nat) (v1 v2 : Int) (inside : Bool) :
    (State.propose s kind target v1 v2 inside).pending = s.pending ∧ (State.propose s kind target v1 v2 inside).nvm.otp = s.nvm.otp ∧ (State.propose s kind target v1 v2 inside).time.clk = s.time.clk := by simp [State.propose]
@[simp] theorem State.mpApply_keeps (s : State) (x : Proposal) :
    (State.mpApply s x).pending = s.pending ∧ (State.mpApply s x).nvm.otp = s.nvm.otp ∧ (State.mpApply s x).time.clk = s.time.clk := by simp [State.mpApply]
@[simp] theorem State.autoApply_keeps (s : State) :
    (State.autoApply s).pending = s.pending ∧ (State.autoApply s).nvm.otp = s.nvm.otp ∧ (State.autoApply s).time.clk = s.time.clk := by unfold State.autoApply; (repeat' split) <;> simp
@[simp] theorem State.autoLate_keeps (s : State) :
    (State.autoLate s).pending = s.pending ∧ (State.autoLate s).nvm.otp = s.nvm.otp ∧ (State.autoLate s).time.clk = s.time.clk := by simp [State.autoLate]
@[simp] theorem State.mpAcceptAct_keeps (s : State) (n : Nat) :
    (State.mpAcceptAct s n).pending = s.pending ∧ (State.mpAcceptAct s n).nvm.otp = s.nvm.otp ∧ (State.mpAcceptAct s n).time.clk = s.time.clk := by unfold State.mpAcceptAct; (repeat' split) <;> simp
@[simp] theorem State.mpResetAct_keeps (s : State) (target : Option Rail) (baseline : Bool) :
    (State.mpResetAct s target baseline).pending = s.pending ∧ (State.mpResetAct s target baseline).nvm.otp = s.nvm.otp ∧ (State.mpResetAct s target baseline).time.clk = s.time.clk := by simp [State.mpResetAct]
@[simp] theorem State.revCheck_keeps (s : State) :
    (State.revCheck s).pending = s.pending ∧ (State.revCheck s).nvm.otp = s.nvm.otp ∧ (State.revCheck s).time.clk = s.time.clk := by simp [State.revCheck]
@[simp] theorem State.derateProposal_keeps (s : State) (p : Ph) (s0 sl : Q) :
    (State.derateProposal s p s0 sl).pending = s.pending ∧ (State.derateProposal s p s0 sl).nvm.otp = s.nvm.otp ∧ (State.derateProposal s p s0 sl).time.clk = s.time.clk := by unfold State.derateProposal; (repeat' split) <;> simp
@[simp] theorem State.lossPoint_keeps (s : State) (p : Ph) (i2 rise : Int) :
    (State.lossPoint s p i2 rise).pending = s.pending ∧ (State.lossPoint s p i2 rise).nvm.otp = s.nvm.otp ∧ (State.lossPoint s p i2 rise).time.clk = s.time.clk := by unfold State.lossPoint; dsimp only; (repeat' split) <;> simp_all
@[simp] theorem State.lossRound_keeps (s : State) (p : Ph) :
    (State.lossRound s p).pending = s.pending ∧ (State.lossRound s p).nvm.otp = s.nvm.otp ∧ (State.lossRound s p).time.clk = s.time.clk := by unfold State.lossRound; dsimp only; (repeat' split) <;> simp_all
@[simp] theorem State.ageFeed_keeps (s : State) (f : Feed) :
    (State.ageFeed s f).pending = s.pending ∧ (State.ageFeed s f).nvm.otp = s.nvm.otp ∧ (State.ageFeed s f).time.clk = s.time.clk := by unfold State.ageFeed; dsimp only; (repeat' split) <;> simp_all
@[simp] theorem State.lowFrame_keeps (s : State) (r : Rail) :
    (State.lowFrame s r).pending = s.pending ∧ (State.lowFrame s r).nvm.otp = s.nvm.otp ∧ (State.lowFrame s r).time.clk = s.time.clk := by simp [State.lowFrame]
@[simp] theorem State.thermFrame_keeps (s : State) :
    (State.thermFrame s).pending = s.pending ∧ (State.thermFrame s).nvm.otp = s.nvm.otp ∧ (State.thermFrame s).time.clk = s.time.clk := by simp [State.thermFrame]
@[simp] theorem State.thermRound_keeps (s : State) :
    (State.thermRound s).pending = s.pending ∧ (State.thermRound s).nvm.otp = s.nvm.otp ∧ (State.thermRound s).time.clk = s.time.clk := by simp [State.thermRound]
@[simp] theorem State.chirpEnd_keeps (s : State) (r : Rail) (cause : Nat) :
    (State.chirpEnd s r cause).pending = s.pending ∧ (State.chirpEnd s r cause).nvm.otp = s.nvm.otp ∧ (State.chirpEnd s r cause).time.clk = s.time.clk := by simp [State.chirpEnd]
@[simp] theorem State.chirpBeat_keeps (s : State) (r : Rail) :
    (State.chirpBeat s r).pending = s.pending ∧ (State.chirpBeat s r).nvm.otp = s.nvm.otp ∧ (State.chirpBeat s r).time.clk = s.time.clk := by unfold State.chirpBeat; (repeat' split) <;> simp
@[simp] theorem State.chirpOverlay_keeps (s : State) :
    (State.chirpOverlay s).pending = s.pending ∧ (State.chirpOverlay s).nvm.otp = s.nvm.otp ∧ (State.chirpOverlay s).time.clk = s.time.clk := by simp [State.chirpOverlay]
@[simp] theorem State.chirpDone_keeps (s : State) (r : Rail) (c esr : Nat) :
    (State.chirpDone s r c esr).pending = s.pending ∧ (State.chirpDone s r c esr).nvm.otp = s.nvm.otp ∧ (State.chirpDone s r c esr).time.clk = s.time.clk := by simp [State.chirpDone]

end Sys2Proof.Machine
end

