-- ==== Sys2Proof/Laws/FrameRing.lean ====
section
/-! SUPPORT. Frame lemmas of the ring, ownership, the watchdogs, the playbook, logs and the host link: an operation leaves the queue of waiting commands, the fuses and the
beat count as they were, except where the lemma leaves one of the three out. -/

namespace Sys2Proof.Machine

set_option linter.unusedSimpArgs false
set_option linter.unusedVariables false

@[simp] theorem State.txLoop_keeps (p : Side) (n room : Nat) (s : State) :
    (State.txLoop p n room s).pending = s.pending ∧ (State.txLoop p n room s).nvm.otp = s.nvm.otp ∧ (State.txLoop p n room s).time.clk = s.time.clk := by
  induction n generalizing s room with
  | zero => simp [State.txLoop]
  | succ n ih => unfold State.txLoop; (repeat' split) <;> simp [ih]
@[simp] theorem State.txOpen_keeps (s : State) (p : Side) :
    (State.txOpen s p).pending = s.pending ∧ (State.txOpen s p).nvm.otp = s.nvm.otp ∧ (State.txOpen s p).time.clk = s.time.clk := by simp [State.txOpen]
@[simp] theorem State.txBeat_keeps (s : State) (p : Side) :
    (State.txBeat s p).pending = s.pending ∧ (State.txBeat s p).nvm.otp = s.nvm.otp ∧ (State.txBeat s p).time.clk = s.time.clk := by simp [State.txBeat]
@[simp] theorem State.wrap_keeps (s : State) (p : Side) :
    (State.wrap s p).pending = s.pending ∧ (State.wrap s p).nvm.otp = s.nvm.otp ∧ (State.wrap s p).time.clk = s.time.clk := by simp [State.wrap]
@[simp] theorem State.traceSend_keeps (s : State) (h : Nat) :
    (State.traceSend s h).pending = s.pending ∧ (State.traceSend s h).nvm.otp = s.nvm.otp ∧ (State.traceSend s h).time.clk = s.time.clk := by unfold State.traceSend; (repeat' split) <;> simp
@[simp] theorem State.traceFeed_keeps (s : State) :
    (State.traceFeed s).pending = s.pending ∧ (State.traceFeed s).nvm.otp = s.nvm.otp ∧ (State.traceFeed s).time.clk = s.time.clk := by unfold State.traceFeed; (repeat' split) <;> simp
@[simp] theorem State.ringBeat_keeps (s : State) :
    (State.ringBeat s).pending = s.pending ∧ (State.ringBeat s).nvm.otp = s.nvm.otp ∧ (State.ringBeat s).time.clk = s.time.clk := by simp [State.ringBeat]
@[simp] theorem State.mend_keeps (s : State) (d : Nat) (p : Side) :
    (State.mend s d p).pending = s.pending ∧ (State.mend s d p).nvm.otp = s.nvm.otp ∧ (State.mend s d p).time.clk = s.time.clk := by simp [State.mend]
@[simp] theorem State.shiftParts_keeps (s : State) (f : Nat → Nat) :
    (State.shiftParts s f).pending = s.pending ∧ (State.shiftParts s f).nvm.otp = s.nvm.otp ∧ (State.shiftParts s f).time.clk = s.time.clk := by simp [State.shiftParts]
@[simp] theorem State.rebase_keeps (s : State) (new : Nat) :
    (s.rebase new).pending = s.pending ∧ (s.rebase new).nvm.otp = s.nvm.otp := by
  simp [State.rebase]
@[simp] theorem State.joinChain_keeps (s : State) (ndev : Nat) :
    (State.joinChain s ndev).pending = s.pending ∧ (State.joinChain s ndev).nvm.otp = s.nvm.otp ∧ (State.joinChain s ndev).time.clk = s.time.clk := by simp [State.joinChain]
@[simp] theorem State.frameOverrun_keeps (s : State) (la lb : Bool) :
    (State.frameOverrun s la lb).pending = s.pending ∧ (State.frameOverrun s la lb).nvm.otp = s.nvm.otp ∧ (State.frameOverrun s la lb).time.clk = s.time.clk := by simp [State.frameOverrun]
@[simp] theorem State.reAnchorPh_keeps (s : State) (r : Rail) (k : Int) (moved : Bool) (p : Ph) :
    (State.reAnchorPh s r k moved p).pending = s.pending ∧ (State.reAnchorPh s r k moved p).nvm.otp = s.nvm.otp ∧ (State.reAnchorPh s r k moved p).time.clk = s.time.clk := by simp [State.reAnchorPh]
@[simp] theorem State.reAnchor_keeps (s : State) (k : Int) (moved : Bool) :
    (State.reAnchor s k moved).pending = s.pending ∧ (State.reAnchor s k moved).nvm.otp = s.nvm.otp ∧ (State.reAnchor s k moved).time.clk = s.time.clk := by
  unfold State.reAnchor
  refine ⟨?_, ?_, ?_⟩ <;> (repeat' (first | intro _ _ | split | rw [foldl_pend] | rw [foldl_otp] | rw [foldl_clk] | simp))
@[simp] theorem State.arrive_keeps (s : State) (src raw : Nat) :
    (State.arrive s src raw).pending = s.pending ∧ (State.arrive s src raw).nvm.otp = s.nvm.otp ∧ (State.arrive s src raw).time.clk = s.time.clk := by simp [State.arrive]
@[simp] theorem State.drain_keeps (src n : Nat) (s : State) :
    (State.drain src n s).pending = s.pending ∧ (State.drain src n s).nvm.otp = s.nvm.otp ∧ (State.drain src n s).time.clk = s.time.clk := by
  induction n generalizing s with
  | zero => simp [State.drain]
  | succ n ih => unfold State.drain; dsimp only; split <;> simp [ih]
@[simp] theorem State.chainSelected_keeps (s : State) (ref : TkRef) (all : Bool) :
    (State.chainSelected s ref all).pending = s.pending ∧ (State.chainSelected s ref all).nvm.otp = s.nvm.otp ∧ (State.chainSelected s ref all).time.clk = s.time.clk := by unfold State.chainSelected; (repeat' split) <;> simp
@[simp] theorem State.chainAnswer_keeps (s : State) (ref : TkRef) (dev : Nat) (x : Stub) (data : List Nat) :
    (State.chainAnswer s ref dev x data).pending = s.pending ∧ (State.chainAnswer s ref dev x data).nvm.otp = s.nvm.otp ∧ (State.chainAnswer s ref dev x data).time.clk = s.time.clk := by unfold State.chainAnswer; (repeat' split) <;> simp
@[simp] theorem State.answered_keeps (s : State) (dev : Nat) (ref : TkRef) (queued : Bool) :
    (State.answered s dev ref queued).pending = s.pending ∧ (State.answered s dev ref queued).nvm.otp = s.nvm.otp ∧ (State.answered s dev ref queued).time.clk = s.time.clk := by simp [State.answered]
@[simp] theorem State.claimDone_keeps (s : State) (ref : TkRef) :
    (State.claimDone s ref).pending = s.pending ∧ (State.claimDone s ref).nvm.otp = s.nvm.otp ∧ (State.claimDone s ref).time.clk = s.time.clk := by simp [State.claimDone]
@[simp] theorem State.headStub_keeps (s : State) (e : FwdEnt) (x : Stub) (data : List Nat) :
    (State.headStub s e x data).pending = s.pending ∧ (State.headStub s e x data).nvm.otp = s.nvm.otp ∧ (State.headStub s e x data).time.clk = s.time.clk := by simp [State.headStub]
@[simp] theorem State.takeReport_keeps (s : State) (dev kind count : Nat) :
    (State.takeReport s dev kind count).pending = s.pending ∧ (State.takeReport s dev kind count).nvm.otp = s.nvm.otp ∧ (State.takeReport s dev kind count).time.clk = s.time.clk := by simp [State.takeReport]
@[simp] theorem State.report_keeps (s : State) (h : Nat) (k : Fin 64) :
    (State.report s h k).pending = s.pending ∧ (State.report s h k).nvm.otp = s.nvm.otp ∧ (State.report s h k).time.clk = s.time.clk := by simp [State.report]
@[simp] theorem State.ringFrame_keeps (s : State) :
    (State.ringFrame s).pending = s.pending ∧ (State.ringFrame s).nvm.otp = s.nvm.otp ∧ (State.ringFrame s).time.clk = s.time.clk := by simp [State.ringFrame]
@[simp] theorem State.presenceRound_keeps (s : State) :
    (State.presenceRound s).pending = s.pending ∧ (State.presenceRound s).nvm.otp = s.nvm.otp ∧ (State.presenceRound s).time.clk = s.time.clk := by simp [State.presenceRound]
@[simp] theorem State.gridBack_keeps (s : State) :
    (State.gridBack s).pending = s.pending ∧ (State.gridBack s).nvm.otp = s.nvm.otp ∧ (State.gridBack s).time.clk = s.time.clk := by simp [State.gridBack]
@[simp] theorem State.announce_keeps (s : State) :
    (State.announce s).pending = s.pending ∧ (State.announce s).nvm.otp = s.nvm.otp ∧ (State.announce s).time.clk = s.time.clk := by simp [State.announce]
@[simp] theorem State.ringRound_keeps (s : State) :
    (State.ringRound s).pending = s.pending ∧ (State.ringRound s).nvm.otp = s.nvm.otp ∧ (State.ringRound s).time.clk = s.time.clk := by simp [State.ringRound]

@[simp] theorem State.commitPorts_keeps (s : State) :
    (State.commitPorts s).pending = s.pending ∧ (State.commitPorts s).nvm.otp = s.nvm.otp ∧ (State.commitPorts s).time.clk = s.time.clk := by simp [State.commitPorts]
@[simp] theorem State.commitEpoch_keeps (s : State) (e : Nat) :
    (State.commitEpoch s e).pending = s.pending ∧ (State.commitEpoch s e).nvm.otp = s.nvm.otp ∧ (State.commitEpoch s e).time.clk = s.time.clk := by simp [State.commitEpoch]
@[simp] theorem State.sendRecord_keeps (s : State) :
    (State.sendRecord s).pending = s.pending ∧ (State.sendRecord s).nvm.otp = s.nvm.otp ∧ (State.sendRecord s).time.clk = s.time.clk := by simp [State.sendRecord]
@[simp] theorem State.discardFor_keeps (s : State) (client : Nat) (ownerOnly : Bool) :
    (State.discardFor s client ownerOnly).pending = s.pending ∧ (State.discardFor s client ownerOnly).nvm.otp = s.nvm.otp ∧ (State.discardFor s client ownerOnly).time.clk = s.time.clk := by simp [State.discardFor]
@[simp] theorem State.depose_keeps (s : State) :
    (State.depose s).pending = s.pending ∧ (State.depose s).nvm.otp = s.nvm.otp ∧ (State.depose s).time.clk = s.time.clk := by unfold State.depose; dsimp only; (repeat' split) <;> simp_all
@[simp] theorem State.newOwner_keeps (s : State) (port client gen epoch dev : Nat) (hand : Bool) :
    (State.newOwner s port client gen epoch dev hand).pending = s.pending ∧ (State.newOwner s port client gen epoch dev hand).nvm.otp = s.nvm.otp ∧ (State.newOwner s port client gen epoch dev hand).time.clk = s.time.clk := by unfold State.newOwner; (repeat' split) <;> simp
@[simp] theorem State.detachAll_keeps (s : State) :
    (State.detachAll s).pending = s.pending ∧ (State.detachAll s).nvm.otp = s.nvm.otp ∧ (State.detachAll s).time.clk = s.time.clk := by simp [State.detachAll]
@[simp] theorem State.takeRecord_keeps (s : State) (rec : OwnRec) :
    (State.takeRecord s rec).pending = s.pending ∧ (State.takeRecord s rec).nvm.otp = s.nvm.otp ∧ (State.takeRecord s rec).time.clk = s.time.clk := by simp [State.takeRecord]
@[simp] theorem State.claimStub_keeps (s : State) (ref : TkRef) (dev status extra value : Nat) :
    (State.claimStub s ref dev status extra value).pending = s.pending ∧ (State.claimStub s ref dev status extra value).nvm.otp = s.nvm.otp ∧ (State.claimStub s ref dev status extra value).time.clk = s.time.clk := by simp [State.claimStub]
@[simp] theorem State.sendClaim_keeps (s : State) (c : Claim) :
    (State.sendClaim s c).pending = s.pending ∧ (State.sendClaim s c).nvm.otp = s.nvm.otp ∧ (State.sendClaim s c).time.clk = s.time.clk := by simp [State.sendClaim]
@[simp] theorem State.holdPart_keeps (s : State) (t : Tkt) (unlock : Bool) :
    (State.holdPart s t unlock).pending = s.pending ∧ (State.holdPart s t unlock).nvm.otp = s.nvm.otp ∧ (State.holdPart s t unlock).time.clk = s.time.clk := by simp [State.holdPart]
@[simp] theorem State.dropParts_keeps (s : State) (c : Nat) :
    (State.dropParts s c).pending = s.pending ∧ (State.dropParts s c).nvm.otp = s.nvm.otp ∧ (State.dropParts s c).time.clk = s.time.clk := by simp [State.dropParts]
@[simp] theorem State.startEffect_keeps (s : State) (port client gen epoch dev key : Nat) (ref : Option TkRef) :
    (State.startEffect s port client gen epoch dev key ref).pending = s.pending ∧ (State.startEffect s port client gen epoch dev key ref).nvm.otp = s.nvm.otp ∧ (State.startEffect s port client gen epoch dev key ref).time.clk = s.time.clk := by simp [State.startEffect]
@[simp] theorem State.handGo_keeps (s : State) :
    (State.handGo s).pending = s.pending ∧ (State.handGo s).nvm.otp = s.nvm.otp ∧ (State.handGo s).time.clk = s.time.clk := by unfold State.handGo; dsimp only; (repeat' split) <;> simp_all
@[simp] theorem State.failClaim_keeps (s : State) (k : OPort) (key check : Nat) :
    (State.failClaim s k key check).pending = s.pending ∧ (State.failClaim s k key check).nvm.otp = s.nvm.otp ∧ (State.failClaim s k key check).time.clk = s.time.clk := by simp [State.failClaim]
@[simp] theorem State.exhausted_keeps (s : State) (k : Fin 2) :
    (State.exhausted s k).pending = s.pending ∧ (State.exhausted s k).nvm.otp = s.nvm.otp ∧ (State.exhausted s k).time.clk = s.time.clk := by simp [State.exhausted]
@[simp] theorem State.decideClaim_keeps (s : State) (c : Claim) :
    (State.decideClaim s c).pending = s.pending ∧ (State.decideClaim s c).nvm.otp = s.nvm.otp ∧ (State.decideClaim s c).time.clk = s.time.clk := by unfold State.decideClaim; dsimp only; (repeat' split) <;> simp_all
@[simp] theorem State.revokeWon_keeps (s : State) :
    (s.revokeWon).pending = s.pending ∧ (s.revokeWon).time.clk = s.time.clk := by
  unfold State.revokeWon
  refine ⟨?_, ?_⟩
  · dsimp only; rw [foldl_pend]; simp
  · dsimp only; rw [foldl_clk]; simp
@[simp] theorem State.countBeat_keeps (s : State) (r : Nat) :
    (State.countBeat s r).pending = s.pending ∧ (State.countBeat s r).nvm.otp = s.nvm.otp ∧ (State.countBeat s r).time.clk = s.time.clk := by simp [State.countBeat]
@[simp] theorem State.readmitPortAct_keeps (s : State) (k : OPort) (ref : TkRef) :
    (State.readmitPortAct s k ref).pending = s.pending ∧ (State.readmitPortAct s k ref).nvm.otp = s.nvm.otp ∧ (State.readmitPortAct s k ref).time.clk = s.time.clk := by simp [State.readmitPortAct]
@[simp] theorem State.benchDevAct_keeps (s : State) (n : Nat) :
    (State.benchDevAct s n).pending = s.pending ∧ (State.benchDevAct s n).nvm.otp = s.nvm.otp ∧ (State.benchDevAct s n).time.clk = s.time.clk := by simp [State.benchDevAct]
@[simp] theorem State.readmitDevAct_keeps (s : State) (n : Nat) (ref : TkRef) :
    (State.readmitDevAct s n ref).pending = s.pending ∧ (State.readmitDevAct s n ref).nvm.otp = s.nvm.otp ∧ (State.readmitDevAct s n ref).time.clk = s.time.clk := by simp [State.readmitDevAct]
@[simp] theorem State.renumber_keeps (s : State) :
    (State.renumber s).pending = s.pending ∧ (State.renumber s).nvm.otp = s.nvm.otp ∧ (State.renumber s).time.clk = s.time.clk := by simp [State.renumber]
@[simp] theorem State.silenceRound_keeps (s : State) :
    (State.silenceRound s).pending = s.pending ∧ (State.silenceRound s).nvm.otp = s.nvm.otp ∧ (State.silenceRound s).time.clk = s.time.clk := by simp [State.silenceRound]
@[simp] theorem State.keyRound_keeps (s : State) :
    (State.keyRound s).pending = s.pending ∧ (State.keyRound s).nvm.otp = s.nvm.otp ∧ (State.keyRound s).time.clk = s.time.clk := by simp [State.keyRound]
@[simp] theorem State.epochRound_keeps (s : State) :
    (s.epochRound).pending = s.pending ∧ (s.epochRound).time.clk = s.time.clk := by
  unfold State.epochRound; dsimp only; (repeat' split) <;> simp
@[simp] theorem State.portsRound_keeps (s : State) :
    (State.portsRound s).pending = s.pending ∧ (State.portsRound s).nvm.otp = s.nvm.otp ∧ (State.portsRound s).time.clk = s.time.clk := by simp [State.portsRound]
@[simp] theorem State.resumePend_keeps (s : State) :
    (State.resumePend s).pending = s.pending ∧ (State.resumePend s).nvm.otp = s.nvm.otp ∧ (State.resumePend s).time.clk = s.time.clk := by unfold State.resumePend; (repeat' split) <;> simp
@[simp] theorem State.ownRound_keeps (s : State) :
    (s.ownRound).pending = s.pending ∧ (s.ownRound).time.clk = s.time.clk := by
  unfold State.ownRound; dsimp only; (repeat' split) <;> simp

@[simp] theorem State.modWd_keeps (s : State) (f : WdSt → WdSt) :
    (State.modWd s f).pending = s.pending ∧ (State.modWd s f).nvm.otp = s.nvm.otp ∧ (State.modWd s f).time.clk = s.time.clk := by simp [State.modWd]
@[simp] theorem State.endPeriod_keeps (s : State) (k : Slot) (now : Nat) :
    (State.endPeriod s k now).pending = s.pending ∧ (State.endPeriod s k now).nvm.otp = s.nvm.otp ∧ (State.endPeriod s k now).time.clk = s.time.clk := by simp [State.endPeriod]
@[simp] theorem State.wdArmAct_keeps (s : State) (k : Slot) (period client : Nat) :
    (State.wdArmAct s k period client).pending = s.pending ∧ (State.wdArmAct s k period client).nvm.otp = s.nvm.otp ∧ (State.wdArmAct s k period client).time.clk = s.time.clk := by simp [State.wdArmAct]
@[simp] theorem State.wdDisarmAct_keeps (s : State) (k : Slot) :
    (State.wdDisarmAct s k).pending = s.pending ∧ (State.wdDisarmAct s k).nvm.otp = s.nvm.otp ∧ (State.wdDisarmAct s k).time.clk = s.time.clk := by simp [State.wdDisarmAct]
@[simp] theorem State.verdictRound_keeps (s : State) :
    (State.verdictRound s).pending = s.pending ∧ (State.verdictRound s).nvm.otp = s.nvm.otp ∧ (State.verdictRound s).time.clk = s.time.clk := by simp [State.verdictRound]
@[simp] theorem State.prescale_keeps (s : State) (n : Nat) :
    (State.prescale s n).pending = s.pending ∧ (State.prescale s n).nvm.otp = s.nvm.otp ∧ (State.prescale s n).time.clk = s.time.clk := by simp [State.prescale]
@[simp] theorem State.rtcFault_keeps (s : State) :
    (State.rtcFault s).pending = s.pending ∧ (State.rtcFault s).nvm.otp = s.nvm.otp ∧ (State.rtcFault s).time.clk = s.time.clk := by simp [State.rtcFault]
@[simp] theorem State.rtcRestart_keeps (s : State) :
    (State.rtcRestart s).pending = s.pending ∧ (State.rtcRestart s).nvm.otp = s.nvm.otp ∧ (State.rtcRestart s).time.clk = s.time.clk := by simp [State.rtcRestart]
@[simp] theorem State.loseVrtc_keeps (s : State) :
    (State.loseVrtc s).pending = s.pending ∧ (State.loseVrtc s).nvm.otp = s.nvm.otp ∧ (State.loseVrtc s).time.clk = s.time.clk := by simp [State.loseVrtc]
@[simp] theorem State.vbakUp_keeps (s : State) :
    ((State.vbakUp s).2).pending = s.pending ∧ ((State.vbakUp s).2).nvm.otp = s.nvm.otp ∧ ((State.vbakUp s).2).time.clk = s.time.clk := by unfold State.vbakUp; (repeat' split) <;> simp
@[simp] theorem State.rtcSetAct_keeps (s : State) (c : Cal) :
    (State.rtcSetAct s c).pending = s.pending ∧ (State.rtcSetAct s c).nvm.otp = s.nvm.otp ∧ (State.rtcSetAct s c).time.clk = s.time.clk := by simp [State.rtcSetAct]
@[simp] theorem State.rtcShiftAct_keeps (s : State) (n : Int) :
    (State.rtcShiftAct s n).pending = s.pending ∧ (State.rtcShiftAct s n).nvm.otp = s.nvm.otp ∧ (State.rtcShiftAct s n).time.clk = s.time.clk := by simp [State.rtcShiftAct]
@[simp] theorem State.rtcWakeAct_keeps (s : State) (n : Nat) :
    (State.rtcWakeAct s n).pending = s.pending ∧ (State.rtcWakeAct s n).nvm.otp = s.nvm.otp ∧ (State.rtcWakeAct s n).time.clk = s.time.clk := by simp [State.rtcWakeAct]

@[simp] theorem State.putRun_keeps (s : State) (x : OrderRun) :
    (State.putRun s x).pending = s.pending ∧ (State.putRun s x).nvm.otp = s.nvm.otp ∧ (State.putRun s x).time.clk = s.time.clk := by simp [State.putRun]
@[simp] theorem State.giveWay_keeps (s : State) (f : Order × Nat) :
    (State.giveWay s f).pending = s.pending ∧ (State.giveWay s f).nvm.otp = s.nvm.otp ∧ (State.giveWay s f).time.clk = s.time.clk := by simp [State.giveWay]
@[simp] theorem State.thermRecord_keeps (s : State) (o : Order) (unit : Nat) :
    (State.thermRecord s o unit).pending = s.pending ∧ (State.thermRecord s o unit).nvm.otp = s.nvm.otp ∧ (State.thermRecord s o unit).time.clk = s.time.clk := by simp [State.thermRecord]
@[simp] theorem State.fire_keeps (s : State) (l : List (Order × Nat)) (o : Order) (unit : Nat) :
    (State.fire s l o unit).pending = s.pending ∧ (State.fire s l o unit).nvm.otp = s.nvm.otp ∧ (State.fire s l o unit).time.clk = s.time.clk := by simp [State.fire]
theorem foldl_fst {α β : Type} {g : State × β → α → State × β}
    (h : ∀ a x, (g a x).1.pending = a.1.pending ∧ (g a x).1.nvm.otp = a.1.nvm.otp ∧ (g a x).1.time.clk = a.1.time.clk) (l : List α) (a : State × β) :
    (l.foldl g a).1.pending = a.1.pending ∧ (l.foldl g a).1.nvm.otp = a.1.nvm.otp ∧ (l.foldl g a).1.time.clk = a.1.time.clk := by
  induction l generalizing a with
  | nil => exact ⟨rfl, rfl, rfl⟩
  | cons x l ih => obtain ⟨p, q, r⟩ := ih (g a x); obtain ⟨p', q', r'⟩ := h a x; exact ⟨p.trans p', q.trans q', r.trans r'⟩
@[simp] theorem State.playbookEval_keeps (s : State) (round : Bool) :
    (s.playbookEval round).pending = s.pending ∧ (s.playbookEval round).nvm.otp = s.nvm.otp ∧ (s.playbookEval round).time.clk = s.time.clk := by
  unfold State.playbookEval
  dsimp only
  generalize hr : List.foldl _ ((s, []) : State × List (Order × Nat)) _ = r
  have h : r.1.pending = s.pending ∧ r.1.nvm.otp = s.nvm.otp ∧ r.1.time.clk = s.time.clk := by
    rw [← hr]
    refine foldl_fst (fun a o => foldl_fst (fun a u => ?_) _ a) _ _
    dsimp only
    split <;> simp
  clear hr
  simp [h]
@[simp] theorem State.playbookFrame_keeps (s : State) :
    (State.playbookFrame s).pending = s.pending ∧ (State.playbookFrame s).nvm.otp = s.nvm.otp ∧ (State.playbookFrame s).time.clk = s.time.clk := by
  unfold State.playbookFrame
  refine ⟨?_, ?_, ?_⟩ <;> (repeat' (first | intro _ _ | split | rw [foldl_pend] | rw [foldl_otp] | rw [foldl_clk] | simp))
@[simp] theorem State.playbookRound_keeps (s : State) :
    (State.playbookRound s).pending = s.pending ∧ (State.playbookRound s).nvm.otp = s.nvm.otp ∧ (State.playbookRound s).time.clk = s.time.clk := by simp [State.playbookRound]
@[simp] theorem State.doHiccup_keeps (s : State) (o : Order) (unit : Nat) (r : Rail) :
    (State.doHiccup s o unit r).pending = s.pending ∧ (State.doHiccup s o unit r).nvm.otp = s.nvm.otp ∧ (State.doHiccup s o unit r).time.clk = s.time.clk := by simp [State.doHiccup]
@[simp] theorem State.doBenchDevice_keeps (s : State) (o : Order) :
    (State.doBenchDevice s o).pending = s.pending ∧ (State.doBenchDevice s o).nvm.otp = s.nvm.otp ∧ (State.doBenchDevice s o).time.clk = s.time.clk := by simp [State.doBenchDevice]
@[simp] theorem State.doHostRst_keeps (s : State) (o : Order) :
    (State.doHostRst s o).pending = s.pending ∧ (State.doHostRst s o).nvm.otp = s.nvm.otp ∧ (State.doHostRst s o).time.clk = s.time.clk := by simp [State.doHostRst]
@[simp] theorem State.orderAct_keeps (s : State) (idx unit thr : Nat) (wait : Bool) :
    (State.orderAct s idx unit thr wait).pending = s.pending ∧ (State.orderAct s idx unit thr wait).nvm.otp = s.nvm.otp ∧ (State.orderAct s idx unit thr wait).time.clk = s.time.clk := by unfold State.orderAct; dsimp only; (repeat' split) <;> simp_all
@[simp] theorem State.verdictOrders_keeps (s : State) (slot : Nat) (miss : Bool) :
    (s.verdictOrders slot miss).pending = s.pending ∧ (s.verdictOrders slot miss).nvm.otp = s.nvm.otp ∧ (s.verdictOrders slot miss).time.clk = s.time.clk := by
  unfold State.verdictOrders
  dsimp only
  generalize hr : List.foldl _ ((s, []) : State × List (Order × Nat)) _ = r
  have h : r.1.pending = s.pending ∧ r.1.nvm.otp = s.nvm.otp ∧ r.1.time.clk = s.time.clk := by
    rw [← hr]
    refine foldl_fst (fun a o => ?_) _ _
    simp
  clear hr
  simp [h]

@[simp] theorem State.ringSums_keeps (n : Nat) (s : State) :
    (State.ringSums n s).pending = s.pending ∧ (State.ringSums n s).nvm.otp = s.nvm.otp ∧ (State.ringSums n s).time.clk = s.time.clk := by
  induction n generalizing s with
  | zero => simp [State.ringSums]
  | succ n ih => unfold State.ringSums; (repeat' split) <;> simp [ih]
@[simp] theorem State.jrnSums_keeps (n : Nat) (s : State) :
    (State.jrnSums n s).pending = s.pending ∧ (State.jrnSums n s).nvm.otp = s.nvm.otp ∧ (State.jrnSums n s).time.clk = s.time.clk := by
  induction n generalizing s with
  | zero => simp [State.jrnSums]
  | succ n ih => unfold State.jrnSums; (repeat' split) <;> simp [ih]
@[simp] theorem State.ringDrop_keeps (s : State) (e : Event) :
    (State.ringDrop s e).pending = s.pending ∧ (State.ringDrop s e).nvm.otp = s.nvm.otp ∧ (State.ringDrop s e).time.clk = s.time.clk := by simp [State.ringDrop]
@[simp] theorem State.eventTake_keeps (s : State) (w : Nat) :
    (State.eventTake s w).pending = s.pending ∧ (State.eventTake s w).nvm.otp = s.nvm.otp ∧ (State.eventTake s w).time.clk = s.time.clk := by unfold State.eventTake; dsimp only; (repeat' split) <;> simp
@[simp] theorem State.ringPut_keeps (s : State) (e : Event) :
    ((State.ringPut s e).2).pending = s.pending ∧ ((State.ringPut s e).2).nvm.otp = s.nvm.otp ∧ ((State.ringPut s e).2).time.clk = s.time.clk := by unfold State.ringPut; (repeat' split) <;> simp
@[simp] theorem State.jrnDrop_keeps (s : State) (e : Event) :
    (State.jrnDrop s e).pending = s.pending ∧ (State.jrnDrop s e).nvm.otp = s.nvm.otp ∧ (State.jrnDrop s e).time.clk = s.time.clk := by simp [State.jrnDrop]
@[simp] theorem State.jrnPut_keeps (s : State) (e : Event) :
    (State.jrnPut s e).pending = s.pending ∧ (State.jrnPut s e).nvm.otp = s.nvm.otp ∧ (State.jrnPut s e).time.clk = s.time.clk := by unfold State.jrnPut; (repeat' split) <;> simp
@[simp] theorem State.stageFrame_keeps (s : State) :
    (State.stageFrame s).pending = s.pending ∧ (State.stageFrame s).nvm.otp = s.nvm.otp ∧ (State.stageFrame s).time.clk = s.time.clk := by simp [State.stageFrame]
@[simp] theorem State.journalRo_keeps (s : State) :
    (State.journalRo s).pending = s.pending ∧ (State.journalRo s).nvm.otp = s.nvm.otp ∧ (State.journalRo s).time.clk = s.time.clk := by simp [State.journalRo]
@[simp] theorem State.retire_keeps (s : State) (k : Nat) :
    (State.retire s k).pending = s.pending ∧ (State.retire s k).nvm.otp = s.nvm.otp ∧ (State.retire s k).time.clk = s.time.clk := by simp [State.retire]
@[simp] theorem State.eraseSector_keeps (s : State) (k : Nat) :
    (State.eraseSector s k).pending = s.pending ∧ (State.eraseSector s k).nvm.otp = s.nvm.otp ∧ (State.eraseSector s k).time.clk = s.time.clk := by simp [State.eraseSector]
@[simp] theorem State.jrnWrite_keeps (s : State) (w : Nat) :
    (State.jrnWrite s w).pending = s.pending ∧ (State.jrnWrite s w).nvm.otp = s.nvm.otp ∧ (State.jrnWrite s w).time.clk = s.time.clk := by simp [State.jrnWrite]
@[simp] theorem State.commitRound_keeps (s : State) :
    (State.commitRound s).pending = s.pending ∧ (State.commitRound s).nvm.otp = s.nvm.otp ∧ (State.commitRound s).time.clk = s.time.clk := by simp [State.commitRound]
@[simp] theorem State.uncommit_keeps (s : State) :
    (State.uncommit s).pending = s.pending ∧ (State.uncommit s).nvm.otp = s.nvm.otp ∧ (State.uncommit s).time.clk = s.time.clk := by unfold State.uncommit; (repeat' split) <;> simp
@[simp] theorem State.alarmClearAct_keeps (s : State) (mask : Nat) :
    (State.alarmClearAct s mask).pending = s.pending ∧ (State.alarmClearAct s mask).nvm.otp = s.nvm.otp ∧ (State.alarmClearAct s mask).time.clk = s.time.clk := by simp [State.alarmClearAct]
@[simp] theorem State.traceRound_keeps (s : State) :
    (State.traceRound s).pending = s.pending ∧ (State.traceRound s).nvm.otp = s.nvm.otp ∧ (State.traceRound s).time.clk = s.time.clk := by simp [State.traceRound]
@[simp] theorem State.setStream_keeps (s : State) (x : Option (TkRef × Nat × Nat × List (Nat × Nat))) :
    (State.setStream s x).pending = s.pending ∧ (State.setStream s x).nvm.otp = s.nvm.otp ∧ (State.setStream s x).time.clk = s.time.clk := by simp [State.setStream]
@[simp] theorem State.cntCtlAct_keeps (s : State) (blk ctr sel : Nat) (chain samp : Bool) :
    (State.cntCtlAct s blk ctr sel chain samp).pending = s.pending ∧ (State.cntCtlAct s blk ctr sel chain samp).nvm.otp = s.nvm.otp ∧ (State.cntCtlAct s blk ctr sel chain samp).time.clk = s.time.clk := by unfold State.cntCtlAct; (repeat' split) <;> simp
@[simp] theorem State.snapNow_keeps (s : State) :
    (State.snapNow s).pending = s.pending ∧ (State.snapNow s).nvm.otp = s.nvm.otp ∧ (State.snapNow s).time.clk = s.time.clk := by simp [State.snapNow]
@[simp] theorem State.snapRound_keeps (s : State) (late : Bool) :
    (State.snapRound s late).pending = s.pending ∧ (State.snapRound s late).nvm.otp = s.nvm.otp ∧ (State.snapRound s late).time.clk = s.time.clk := by simp [State.snapRound]
@[simp] theorem State.snapFrame_keeps (s : State) :
    (State.snapFrame s).pending = s.pending ∧ (State.snapFrame s).nvm.otp = s.nvm.otp ∧ (State.snapFrame s).time.clk = s.time.clk := by simp [State.snapFrame]

@[simp] theorem State.modWin_keeps (s : State) (c : Nat) (f : SpiWin → SpiWin) :
    (State.modWin s c f).pending = s.pending ∧ (State.modWin s c f).nvm.otp = s.nvm.otp ∧ (State.modWin s c f).time.clk = s.time.clk := by simp [State.modWin]
@[simp] theorem State.portErr_keeps (s : State) (k : OPort) :
    (State.portErr s k).pending = s.pending ∧ (State.portErr s k).nvm.otp = s.nvm.otp ∧ (State.portErr s k).time.clk = s.time.clk := by simp [State.portErr]
@[simp] theorem State.headPortErr_keeps (s : State) :
    (State.headPortErr s).pending = s.pending ∧ (State.headPortErr s).nvm.otp = s.nvm.otp ∧ (State.headPortErr s).time.clk = s.time.clk := by unfold State.headPortErr; (repeat' split) <;> simp
@[simp] theorem State.touch_keeps (s : State) (c : Nat) :
    (State.touch s c).pending = s.pending ∧ (State.touch s c).nvm.otp = s.nvm.otp ∧ (State.touch s c).time.clk = s.time.clk := by simp [State.touch]
@[simp] theorem State.dropFloors_keeps (s : State) (c : Nat) :
    (State.dropFloors s c).pending = s.pending ∧ (State.dropFloors s c).nvm.otp = s.nvm.otp ∧ (State.dropFloors s c).time.clk = s.time.clk := by simp [State.dropFloors]
@[simp] theorem State.readEntry_keeps (s : State) (c entry : Nat) :
    (State.readEntry s c entry).pending = s.pending ∧ (State.readEntry s c entry).nvm.otp = s.nvm.otp ∧ (State.readEntry s c entry).time.clk = s.time.clk := by unfold State.readEntry; dsimp only; (repeat' split) <;> simp_all
@[simp] theorem State.meetEntry_keeps (s : State) (c entry : Nat) (gen : Option Nat) :
    (State.meetEntry s c entry gen).pending = s.pending ∧ (State.meetEntry s c entry gen).nvm.otp = s.nvm.otp ∧ (State.meetEntry s c entry gen).time.clk = s.time.clk := by simp [State.meetEntry]
@[simp] theorem State.badTs_keeps (s : State) (c kind : Nat) :
    (State.badTs s c kind).pending = s.pending ∧ (State.badTs s c kind).nvm.otp = s.nvm.otp ∧ (State.badTs s c kind).time.clk = s.time.clk := by simp [State.badTs]
@[simp] theorem State.turnstile_keeps (s : State) (c w entry : Nat) (body : State → State)
    (h : ∀ u : State, (body u).pending = u.pending ∧ (body u).nvm.otp = u.nvm.otp ∧ (body u).time.clk = u.time.clk) :
    (s.turnstile c w entry body).pending = s.pending ∧ (s.turnstile c w entry body).nvm.otp = s.nvm.otp ∧ (s.turnstile c w entry body).time.clk = s.time.clk := by
  unfold State.turnstile; (repeat' split) <;> simp [h]
@[simp] theorem State.ticketTail_keeps (s : State) (c w : Nat) :
    (State.ticketTail s c w).pending = s.pending ∧ (State.ticketTail s c w).nvm.otp = s.nvm.otp ∧ (State.ticketTail s c w).time.clk = s.time.clk := by simp [State.ticketTail]
@[simp] theorem State.stubHeadWrite_keeps (s : State) (c w : Nat) :
    (State.stubHeadWrite s c w).pending = s.pending ∧ (State.stubHeadWrite s c w).nvm.otp = s.nvm.otp ∧ (State.stubHeadWrite s c w).time.clk = s.time.clk := by simp [State.stubHeadWrite]
@[simp] theorem State.eventHead_keeps (s : State) (c w : Nat) :
    (State.eventHead s c w).pending = s.pending ∧ (State.eventHead s c w).nvm.otp = s.nvm.otp ∧ (State.eventHead s c w).time.clk = s.time.clk := by simp [State.eventHead]
@[simp] theorem State.take1_keeps (s : State) (c raw ts : Nat) :
    (State.take1 s c raw ts).pending = s.pending ∧ (State.take1 s c raw ts).nvm.otp = s.nvm.otp ∧ (State.take1 s c raw ts).time.clk = s.time.clk := by simp [State.take1]
@[simp] theorem State.stubWrite_keeps (s : State) (c : Nat) :
    (State.stubWrite s c).pending = s.pending ∧ (State.stubWrite s c).nvm.otp = s.nvm.otp ∧ (State.stubWrite s c).time.clk = s.time.clk := by unfold State.stubWrite; dsimp only; (repeat' split) <;> simp_all
@[simp] theorem State.engineMoved_keeps (s : State) :
    (State.engineMoved s).pending = s.pending ∧ (State.engineMoved s).nvm.otp = s.nvm.otp ∧ (State.engineMoved s).time.clk = s.time.clk := by simp [State.engineMoved]
@[simp] theorem State.eventOut_keeps (n : Nat) (s : State) :
    (State.eventOut n s).pending = s.pending ∧ (State.eventOut n s).nvm.otp = s.nvm.otp ∧ (State.eventOut n s).time.clk = s.time.clk := by
  induction n generalizing s with
  | zero => simp [State.eventOut]
  | succ n ih => unfold State.eventOut; (repeat' split) <;> simp [ih]
@[simp] theorem State.eventSend_keeps (s : State) :
    (State.eventSend s).pending = s.pending ∧ (State.eventSend s).nvm.otp = s.nvm.otp ∧ (State.eventSend s).time.clk = s.time.clk := by unfold State.eventSend; (repeat' split) <;> simp
@[simp] theorem State.msixFrame_keeps (s : State) :
    (State.msixFrame s).pending = s.pending ∧ (State.msixFrame s).nvm.otp = s.nvm.otp ∧ (State.msixFrame s).time.clk = s.time.clk := by simp [State.msixFrame]
@[simp] theorem State.hostRound_keeps (s : State) :
    (State.hostRound s).pending = s.pending ∧ (State.hostRound s).nvm.otp = s.nvm.otp ∧ (State.hostRound s).time.clk = s.time.clk := by simp [State.hostRound]
@[simp] theorem State.pcieDown_keeps (s : State) :
    (State.pcieDown s).pending = s.pending ∧ (State.pcieDown s).nvm.otp = s.nvm.otp ∧ (State.pcieDown s).time.clk = s.time.clk := by unfold State.pcieDown; dsimp only; (repeat' split) <;> simp_all

end Sys2Proof.Machine
end

