-- ==== Sys2Proof/Laws/FrameImage.lean ====
section
/-! SUPPORT. Frame lemmas of NVM, resets, registers, images, start-up, reads and ticks: an operation leaves the queue of waiting commands, the fuses and the
beat count as they were, except where the lemma leaves one of the three out. -/

namespace Sys2Proof.Machine

set_option linter.unusedSimpArgs false
set_option linter.unusedVariables false

@[simp] theorem State.modOtp_keeps (s : State) (d : Fin 3) (f : OtpDie → OtpDie) :
    (s.modOtp d f).pending = s.pending ∧ (s.modOtp d f).time.clk = s.time.clk := by
  simp [State.modOtp]
@[simp] theorem State.programRow_keeps (s : State) (d : Fin 3) (r data : Nat) (ok : Bool) :
    ((s.programRow d r data ok).2).pending = s.pending ∧ ((s.programRow d r data ok).2).time.clk = s.time.clk := by
  unfold State.programRow; dsimp only; (repeat' split) <;> simp
@[simp] theorem State.programAll_keeps (s : State) (l : List (Fin 3)) (r data : Nat) (ok : Bool) :
    ((s.programAll l r data ok).2).pending = s.pending ∧ ((s.programAll l r data ok).2).time.clk = s.time.clk := by
  unfold State.programAll
  generalize hz : (none : Option Nat) = z
  clear hz
  induction l generalizing s z with
  | nil => simp
  | cons d l ih =>
    simp only [List.foldl_cons]
    split
    · exact ih s z
    · split
      · exact ih s z
      · obtain ⟨h, k⟩ := ih (s.programRow d r data ok).2 (s.programRow d r data ok).1
        simp only [State.programRow_keeps] at h k
        exact ⟨h, k⟩
@[simp] theorem State.tearEntry_keeps (s : State) (d : Fin 3) (r data : Nat) :
    (s.tearEntry d r data).pending = s.pending ∧ (s.tearEntry d r data).time.clk = s.time.clk := by
  unfold State.tearEntry; dsimp only; (repeat' split) <;> simp
@[simp] theorem State.tearFuse_keeps (s : State) :
    (s.tearFuse).pending = s.pending ∧ (s.tearFuse).time.clk = s.time.clk := by
  unfold State.tearFuse; dsimp only; (repeat' split) <;> simp
@[simp] theorem State.voidSecrets_keeps (s : State) :
    (s.voidSecrets).pending = s.pending ∧ (s.voidSecrets).time.clk = s.time.clk := by
  simp [State.voidSecrets]
@[simp] theorem State.voided_keeps (s : State) :
    (State.voided s).pending = s.pending ∧ (State.voided s).nvm.otp = s.nvm.otp ∧ (State.voided s).time.clk = s.time.clk := by simp [State.voided]
@[simp] theorem State.nvmRound_keeps (s : State) :
    (State.nvmRound s).pending = s.pending ∧ (State.nvmRound s).nvm.otp = s.nvm.otp ∧ (State.nvmRound s).time.clk = s.time.clk := by unfold State.nvmRound; dsimp only; (repeat' split) <;> simp_all

@[simp] theorem State.resetTo_keeps (s : State) (cause step : Nat) :
    (s.resetTo cause step).pending = s.pending := by
  unfold State.resetTo; dsimp only; simp
@[simp] theorem State.startCtl_keeps (s : State) (v : Nat) :
    (s.startCtl v).pending = s.pending := by
  unfold State.startCtl; split <;> simp

@[simp] theorem State.captureClk_keeps (s : State) (path : Path) :
    (State.captureClk s path).pending = s.pending ∧ (State.captureClk s path).nvm.otp = s.nvm.otp ∧ (State.captureClk s path).time.clk = s.time.clk := by simp [State.captureClk]
@[simp] theorem State.setBus_keeps (s : State) (v : Nat) :
    (State.setBus s v).pending = s.pending ∧ (State.setBus s v).nvm.otp = s.nvm.otp ∧ (State.setBus s v).time.clk = s.time.clk := by simp [State.setBus]
@[simp] theorem State.unsupported_keeps (s : State) :
    (State.unsupported s).pending = s.pending ∧ (State.unsupported s).nvm.otp = s.nvm.otp ∧ (State.unsupported s).time.clk = s.time.clk := by simp [State.unsupported]
@[simp] theorem State.clearRc_keeps (s : State) (off size : Nat) :
    (State.clearRc s off size).pending = s.pending ∧ (State.clearRc s off size).nvm.otp = s.nvm.otp ∧ (State.clearRc s off size).time.clk = s.time.clk := by simp [State.clearRc]
@[simp] theorem State.readShadow_keeps (s : State) (path : Path) (off : Nat) :
    (s.readShadow path off).pending = s.pending ∧ (s.readShadow path off).nvm.otp = s.nvm.otp ∧ (s.readShadow path off).time.clk = s.time.clk := by
  unfold State.readShadow execRtcTime0Read execRtcTime1Read; dsimp only; (repeat' split) <;> simp
@[simp] theorem State.w1c_keeps (s : State) (off size v : Nat) :
    (State.w1c s off size v).pending = s.pending ∧ (State.w1c s off size v).nvm.otp = s.nvm.otp ∧ (State.w1c s off size v).time.clk = s.time.clk := by unfold State.w1c; (repeat' split) <;> simp
@[simp] theorem State.hostReg_keeps (s : State) (off size v : Nat) :
    (State.hostReg s off size v).pending = s.pending ∧ (State.hostReg s off size v).nvm.otp = s.nvm.otp ∧ (State.hostReg s off size v).time.clk = s.time.clk := by unfold State.hostReg; (repeat' split) <;> simp
@[simp] theorem State.regWrite_keeps (s : State) (path : Path) (off size v : Nat) :
    (State.regWrite s path off size v).pending = s.pending ∧ (State.regWrite s path off size v).nvm.otp = s.nvm.otp ∧ (State.regWrite s path off size v).time.clk = s.time.clk := by unfold State.regWrite; (repeat' split) <;> simp
@[simp] theorem State.spiApply_keeps (s : State) (p : Port) (addr : Nat) (data : List Nat) :
    (s.spiApply p addr data).pending = s.pending := by
  unfold State.spiApply; dsimp only; rw [foldl_pend]
  intro u x; (repeat' split) <;> simp
@[simp] theorem State.spiBad_keeps (s : State) (p : Port) :
    (State.spiBad s p).pending = s.pending ∧ (State.spiBad s p).nvm.otp = s.nvm.otp ∧ (State.spiBad s p).time.clk = s.time.clk := by unfold State.spiBad; (repeat' split) <;> simp
@[simp] theorem State.spiWord_keeps (s : State) (p : Port) (first w : Nat) :
    ((s.spiWord p first w).2).pending = s.pending ∧ ((s.spiWord p first w).2).nvm.otp = s.nvm.otp ∧ ((s.spiWord p first w).2).time.clk = s.time.clk := by
  unfold State.spiWord execRtcTime0Read execRtcTime1Read; dsimp only; (repeat' split) <;> simp

@[simp] theorem State.setSlot_keeps (s : State) (b : Bool) (m : Mem) (ext : Nat) (l : List (Nat × Nat × Mem)) :
    (State.setSlot s b m ext l).pending = s.pending ∧ (State.setSlot s b m ext l).nvm.otp = s.nvm.otp ∧ (State.setSlot s b m ext l).time.clk = s.time.clk := by simp [State.setSlot]
@[simp] theorem State.asIf_keeps (s : State) (base : Cfg) (orders : List Nat) (omax : Nat) (o : Option Ovl) :
    (State.asIf s base orders omax o).pending = s.pending ∧ (State.asIf s base orders omax o).nvm.otp = s.nvm.otp ∧ (State.asIf s base orders omax o).time.clk = s.time.clk := by simp [State.asIf]
@[simp] theorem State.enterBarker_keeps (s : State) :
    (State.enterBarker s).pending = s.pending ∧ (State.enterBarker s).nvm.otp = s.nvm.otp ∧ (State.enterBarker s).time.clk = s.time.clk := by simp [State.enterBarker]
@[simp] theorem State.railNewCfg_keeps (s : State) (r : Rail) :
    (State.railNewCfg s r).pending = s.pending ∧ (State.railNewCfg s r).nvm.otp = s.nvm.otp ∧ (State.railNewCfg s r).time.clk = s.time.clk := by simp [State.railNewCfg]
@[simp] theorem State.putOverlay_keeps (s : State) (o : Option Ovl) (n : Nat) :
    (State.putOverlay s o n).pending = s.pending ∧ (State.putOverlay s o n).nvm.otp = s.nvm.otp ∧ (State.putOverlay s o n).time.clk = s.time.clk := by simp [State.putOverlay]
@[simp] theorem State.switchTo_keeps (s : State) (o : Ovl) :
    (State.switchTo s o).pending = s.pending ∧ (State.switchTo s o).nvm.otp = s.nvm.otp ∧ (State.switchTo s o).time.clk = s.time.clk := by simp [State.switchTo]
@[simp] theorem State.ovlSwitch_keeps (s : State) (sel : List OvlSel) :
    (State.ovlSwitch s sel).pending = s.pending ∧ (State.ovlSwitch s sel).nvm.otp = s.nvm.otp ∧ (State.ovlSwitch s sel).time.clk = s.time.clk := by
  unfold State.ovlSwitch
  refine ⟨?_, ?_, ?_⟩ <;> (repeat' (first | intro _ _ | split | rw [foldl_pend] | rw [foldl_otp] | rw [foldl_clk] | simp))
@[simp] theorem State.budgetDiff_keeps (s : State) (b : Bool) (x : Img) :
    (State.budgetDiff s b x).pending = s.pending ∧ (State.budgetDiff s b x).nvm.otp = s.nvm.otp ∧ (State.budgetDiff s b x).time.clk = s.time.clk := by simp [State.budgetDiff]
@[simp] theorem State.phLoad_keeps (s : State) (p : Ph) :
    (State.phLoad s p).pending = s.pending ∧ (State.phLoad s p).nvm.otp = s.nvm.otp ∧ (State.phLoad s p).time.clk = s.time.clk := by simp [State.phLoad]
@[simp] theorem State.loadImage_keeps (s : State) (b : Bool) (x : Img) :
    (State.loadImage s b x).pending = s.pending ∧ (State.loadImage s b x).nvm.otp = s.nvm.otp ∧ (State.loadImage s b x).time.clk = s.time.clk := by simp [State.loadImage]
@[simp] theorem State.raiseFloor_keeps (s : State) :
    (State.raiseFloor s).pending = s.pending ∧ (State.raiseFloor s).nvm.otp = s.nvm.otp ∧ (State.raiseFloor s).time.clk = s.time.clk := by simp [State.raiseFloor]
@[simp] theorem State.oneDie_keeps (s : State) :
    (State.oneDie s).pending = s.pending ∧ (State.oneDie s).nvm.otp = s.nvm.otp ∧ (State.oneDie s).time.clk = s.time.clk := by simp [State.oneDie]
theorem State.advance_keeps (s t : State) (h : s.advance = some t) :
    t.pending = s.pending ∧ t.nvm.otp = s.nvm.otp ∧ t.time.clk = s.time.clk := by
  unfold State.advance at h
  (repeat' split at h) <;> simp_all <;> (subst h; simp)
@[simp] theorem State.imageCommitAct_keeps (s : State) (ref : TkRef) :
    (s.imageCommitAct ref).pending = s.pending ∧ (s.imageCommitAct ref).nvm.otp = s.nvm.otp ∧ (s.imageCommitAct ref).time.clk = s.time.clk := by
  unfold State.imageCommitAct
  dsimp only
  (repeat' split) <;> first
    | (simp; done)
    | (rename_i t h _; obtain ⟨a, b, c⟩ := State.advance_keeps _ t h; simp [a, b, c]; done)
    | (rename_i t h; obtain ⟨a, b, c⟩ := State.advance_keeps _ t h; simp [a, b, c]; done)
    | (rename_i t h _ _; obtain ⟨a, b, c⟩ := State.advance_keeps _ t h; simp [a, b, c])
@[simp] theorem State.overlayCommitAct_keeps (s : State) (ref : TkRef) (n len : Nat) :
    (s.overlayCommitAct ref n len).pending = s.pending ∧ (s.overlayCommitAct ref n len).nvm.otp = s.nvm.otp ∧ (s.overlayCommitAct ref n len).time.clk = s.time.clk := by
  unfold State.overlayCommitAct
  dsimp only
  (repeat' split) <;> first
    | (simp; done)
    | (rename_i t h _; obtain ⟨a, b, c⟩ := State.advance_keeps _ t h; simp [a, b, c]; done)
    | (rename_i t h; obtain ⟨a, b, c⟩ := State.advance_keeps _ t h; simp [a, b, c]; done)
    | (rename_i t h _ _; obtain ⟨a, b, c⟩ := State.advance_keeps _ t h; simp [a, b, c])
@[simp] theorem State.imagePut_keeps (s : State) (off : Nat) (bs : List Nat) :
    (State.imagePut s off bs).pending = s.pending ∧ (State.imagePut s off bs).nvm.otp = s.nvm.otp ∧ (State.imagePut s off bs).time.clk = s.time.clk := by simp [State.imagePut]
@[simp] theorem State.bundlePut_keeps (s : State) (off : Nat) (bs : List Nat) :
    (State.bundlePut s off bs).pending = s.pending ∧ (State.bundlePut s off bs).nvm.otp = s.nvm.otp ∧ (State.bundlePut s off bs).time.clk = s.time.clk := by unfold State.bundlePut; dsimp only; (repeat' split) <;> simp_all
@[simp] theorem State.withOvl_keeps (s : State) (n : Nat) :
    (State.withOvl s n).pending = s.pending ∧ (State.withOvl s n).nvm.otp = s.nvm.otp ∧ (State.withOvl s n).time.clk = s.time.clk := by unfold State.withOvl; (repeat' split) <;> simp
@[simp] theorem State.chargeAct_keeps (s : State) (a : Act) :
    (State.chargeAct s a).pending = s.pending ∧ (State.chargeAct s a).nvm.otp = s.nvm.otp ∧ (State.chargeAct s a).time.clk = s.time.clk := by unfold State.chargeAct; (repeat' split) <;> simp

@[simp] theorem State.modStart_keeps (s : State) (f : StartSt → StartSt) :
    (State.modStart s f).pending = s.pending ∧ (State.modStart s f).nvm.otp = s.nvm.otp ∧ (State.modStart s f).time.clk = s.time.clk := by simp [State.modStart]
@[simp] theorem State.retainedLost_keeps (s : State) :
    (State.retainedLost s).pending = s.pending ∧ (State.retainedLost s).nvm.otp = s.nvm.otp ∧ (State.retainedLost s).time.clk = s.time.clk := by simp [State.retainedLost]
@[simp] theorem State.postFails_keeps (s : State) (die mask : Nat) :
    (State.postFails s die mask).pending = s.pending ∧ (State.postFails s die mask).nvm.otp = s.nvm.otp ∧ (State.postFails s die mask).time.clk = s.time.clk := by simp [State.postFails]
@[simp] theorem State.trySlots_keeps (s : State) (l : List Bool) :
    (s.trySlots l).pending = s.pending ∧ (s.trySlots l).nvm.otp = s.nvm.otp ∧ (s.trySlots l).time.clk = s.time.clk := by
  induction l generalizing s with
  | nil => simp [State.trySlots]
  | cons b l ih => unfold State.trySlots; (repeat' split) <;> simp [ih]
@[simp] theorem State.chainStart_keeps (s : State) :
    (State.chainStart s).pending = s.pending ∧ (State.chainStart s).nvm.otp = s.nvm.otp ∧ (State.chainStart s).time.clk = s.time.clk := by simp [State.chainStart]
@[simp] theorem State.islandDown_keeps (s : State) :
    (State.islandDown s).pending = s.pending ∧ (State.islandDown s).nvm.otp = s.nvm.otp ∧ (State.islandDown s).time.clk = s.time.clk := by simp [State.islandDown]


@[simp] theorem State.readmitGangAct_keeps (s : State) (r : Rail) (ref : TkRef) :
    (State.readmitGangAct s r ref).pending = s.pending ∧ (State.readmitGangAct s r ref).nvm.otp = s.nvm.otp ∧ (State.readmitGangAct s r ref).time.clk = s.time.clk := by simp [State.readmitGangAct]
@[simp] theorem State.benchDieDue_keeps (s : State) (d : Cd) (cause : Nat) :
    (s.benchDieDue d cause).pending = s.pending ∧ (s.benchDieDue d cause).nvm.otp = s.nvm.otp ∧ (s.benchDieDue d cause).time.clk = s.time.clk := by
  unfold State.benchDieDue State.benchDieAct; (repeat' split) <;> simp_all
@[simp] theorem State.runAct_keeps (s : State) (a : Act) :
    (s.runAct a).pending = s.pending ∧ (s.runAct a).nvm.otp = s.nvm.otp ∧ (s.runAct a).time.clk = s.time.clk := by
  cases a <;> simp only [State.runAct] <;> (try split) <;> simp
@[simp] theorem State.actFails_keeps (s : State) (a : Act) (r : Reply) :
    (State.actFails s a r).pending = s.pending ∧ (State.actFails s a r).nvm.otp = s.nvm.otp ∧ (State.actFails s a r).time.clk = s.time.clk := by unfold State.actFails; (repeat' split) <;> simp
@[simp] theorem State.actNow_keeps (s : State) (a : Act) :
    (State.actNow s a).pending = s.pending ∧ (State.actNow s a).nvm.otp = s.nvm.otp ∧ (State.actNow s a).time.clk = s.time.clk := by unfold State.actNow; (repeat' split) <;> simp
@[simp] theorem State.runDue_keeps (s : State) (per : Period) :
    (State.runDue s per).pending = s.pending ∧ (State.runDue s per).nvm.otp = s.nvm.otp ∧ (State.runDue s per).time.clk = s.time.clk := by simp [State.runDue]
@[simp] theorem State.nextBeat_keeps (s : State) :
    (s.nextBeat).pending = s.pending ∧ (s.nextBeat).nvm.otp = s.nvm.otp := by
  unfold State.nextBeat; split <;> simp
@[simp] theorem State.beatOverrun_keeps (s : State) (la lb : List Rail) :
    (State.beatOverrun s la lb).pending = s.pending ∧ (State.beatOverrun s la lb).nvm.otp = s.nvm.otp ∧ (State.beatOverrun s la lb).time.clk = s.time.clk := by simp [State.beatOverrun]
@[simp] theorem State.railStart_keeps (s : State) (r : Rail) :
    (State.railStart s r).pending = s.pending ∧ (State.railStart s r).nvm.otp = s.nvm.otp ∧ (State.railStart s r).time.clk = s.time.clk := by simp [State.railStart]
@[simp] theorem State.captureAll_keeps (s : State) :
    (State.captureAll s).pending = s.pending ∧ (State.captureAll s).nvm.otp = s.nvm.otp ∧ (State.captureAll s).time.clk = s.time.clk := by simp [State.captureAll]
@[simp] theorem State.railCurrent_keeps (s : State) (r : Rail) :
    (State.railCurrent s r).pending = s.pending ∧ (State.railCurrent s r).nvm.otp = s.nvm.otp ∧ (State.railCurrent s r).time.clk = s.time.clk := by simp [State.railCurrent]
@[simp] theorem State.railLoop_keeps (s : State) (la lb : List Rail) (r : Rail) :
    (State.railLoop s la lb r).pending = s.pending ∧ (State.railLoop s la lb r).nvm.otp = s.nvm.otp ∧ (State.railLoop s la lb r).time.clk = s.time.clk := by simp [State.railLoop]
@[simp] theorem State.railRecord_keeps (s : State) (r : Rail) :
    (State.railRecord s r).pending = s.pending ∧ (State.railRecord s r).nvm.otp = s.nvm.otp ∧ (State.railRecord s r).time.clk = s.time.clk := by simp [State.railRecord]
@[simp] theorem State.phRecord_keeps (s : State) (p : Ph) :
    (State.phRecord s p).pending = s.pending ∧ (State.phRecord s p).nvm.otp = s.nvm.otp ∧ (State.phRecord s p).time.clk = s.time.clk := by simp [State.phRecord]
@[simp] theorem State.chatBeat_keeps (s : State) :
    (State.chatBeat s).pending = s.pending ∧ (State.chatBeat s).nvm.otp = s.nvm.otp ∧ (State.chatBeat s).time.clk = s.time.clk := by simp [State.chatBeat]
@[simp] theorem State.dieCount_keeps (s : State) (blk : Nat) :
    (State.dieCount s blk).pending = s.pending ∧ (State.dieCount s blk).nvm.otp = s.nvm.otp ∧ (State.dieCount s blk).time.clk = s.time.clk := by simp [State.dieCount]
@[simp] theorem State.beatPipeline_keeps (s : State) (i : BeatIn) :
    (State.beatPipeline s i).pending = s.pending ∧ (State.beatPipeline s i).nvm.otp = s.nvm.otp ∧ (State.beatPipeline s i).time.clk = s.time.clk := by simp [State.beatPipeline]
@[simp] theorem State.frameDiscard_keeps (s : State) :
    (State.frameDiscard s).pending = s.pending ∧ (State.frameDiscard s).nvm.otp = s.nvm.otp ∧ (State.frameDiscard s).time.clk = s.time.clk := by simp [State.frameDiscard]
@[simp] theorem State.frameDecide_keeps (s : State) :
    (State.frameDecide s).pending = s.pending ∧ (State.frameDecide s).nvm.otp = s.nvm.otp ∧ (State.frameDecide s).time.clk = s.time.clk := by simp [State.frameDecide]
@[simp] theorem State.frameCount_keeps (s : State) :
    (State.frameCount s).pending = s.pending ∧ (State.frameCount s).nvm.otp = s.nvm.otp ∧ (State.frameCount s).time.clk = s.time.clk := by simp [State.frameCount]
@[simp] theorem State.frameReadings_keeps (s : State) (held : Bool) :
    (State.frameReadings s held).pending = s.pending ∧ (State.frameReadings s held).nvm.otp = s.nvm.otp ∧ (State.frameReadings s held).time.clk = s.time.clk := by simp [State.frameReadings]
@[simp] theorem State.frameWork_keeps (s : State) (i : FrameIn) :
    (State.frameWork s i).pending = s.pending ∧ (State.frameWork s i).nvm.otp = s.nvm.otp ∧ (State.frameWork s i).time.clk = s.time.clk := by simp [State.frameWork]
@[simp] theorem State.dieRound_keeps (s : State) :
    (State.dieRound s).pending = s.pending ∧ (State.dieRound s).nvm.otp = s.nvm.otp ∧ (State.dieRound s).time.clk = s.time.clk := by simp [State.dieRound]
@[simp] theorem State.alignRail_keeps (s : State) (r : Rail) :
    (State.alignRail s r).pending = s.pending ∧ (State.alignRail s r).nvm.otp = s.nvm.otp ∧ (State.alignRail s r).time.clk = s.time.clk := by simp [State.alignRail]
@[simp] theorem State.alignRound_keeps (s : State) :
    (State.alignRound s).pending = s.pending ∧ (State.alignRound s).nvm.otp = s.nvm.otp ∧ (State.alignRound s).time.clk = s.time.clk := by simp [State.alignRound]
@[simp] theorem State.roundOverrun_keeps (s : State) :
    (State.roundOverrun s).pending = s.pending ∧ (State.roundOverrun s).nvm.otp = s.nvm.otp ∧ (State.roundOverrun s).time.clk = s.time.clk := by simp [State.roundOverrun]
@[simp] theorem State.roundCommands_keeps (s : State) :
    (State.roundCommands s).pending = s.pending ∧ (State.roundCommands s).nvm.otp = s.nvm.otp ∧ (State.roundCommands s).time.clk = s.time.clk := by simp [State.roundCommands]
@[simp] theorem State.fcRound_keeps (s : State) :
    (State.fcRound s).pending = s.pending ∧ (State.fcRound s).nvm.otp = s.nvm.otp ∧ (State.fcRound s).time.clk = s.time.clk := by simp [State.fcRound]
@[simp] theorem State.readyRound_keeps (s : State) :
    (State.readyRound s).pending = s.pending ∧ (State.readyRound s).nvm.otp = s.nvm.otp ∧ (State.readyRound s).time.clk = s.time.clk := by simp [State.readyRound]
@[simp] theorem State.pageWork_keeps (s : State) (i : RoundIn) :
    (State.pageWork s i).pending = s.pending ∧ (State.pageWork s i).nvm.otp = s.nvm.otp ∧ (State.pageWork s i).time.clk = s.time.clk := by
  unfold State.pageWork
  refine ⟨?_, ?_, ?_⟩ <;> (repeat' split) <;> simp
@[simp] theorem State.roundWork_keeps (s : State) (late : Bool) :
    (s.roundWork late).pending = s.pending ∧ (s.roundWork late).time.clk = s.time.clk := by
  unfold State.roundWork; split <;> simp

end Sys2Proof.Machine
end

