-- ==== Sys2Proof/Laws/Kept.lean ====
section
/-! SUPPORT. What a command leaves alone: the relation `Kept`, how it passes through the shared operations, and the ticket
engine's share of it. -/

namespace Sys2Proof.Machine

set_option linter.all false

/-- `t` has the queue, the fuses and the beat count of `s`. -/
def Kept (s t : State) : Prop := t.pending = s.pending ∧ t.nvm.otp = s.nvm.otp ∧ t.time.clk = s.time.clk

theorem Kept.refl {s : State} : Kept s s := ⟨Eq.refl _, Eq.refl _, Eq.refl _⟩
theorem Kept.trans {a b c : State} (h : Kept a b) (g : Kept b c) : Kept a c :=
  ⟨g.1.trans h.1, g.2.1.trans h.2.1, g.2.2.trans h.2.2⟩
theorem Kept.fold {α : Type} {g : State → α → State} (h : ∀ s x, Kept s (g s x)) (l : List α) (s : State) : Kept s (l.foldl g s) :=
  foldl_keeps h l s
theorem Kept.rx (s : State) (rx : RxIn) (cls : Nat) {f : State → State} (h : ∀ u : State, Kept u (f u)) : Kept s (s.rxPkt rx cls f) :=
  State.rxPkt_keeps s rx cls f h
theorem Kept.bnd (s : State) {f : State → State} (h : ∀ u : State, Kept u (f u)) : Kept s (s.atBoundary f) :=
  State.atBoundary_keeps s f fun u => ⟨(h u).1, (h u).2.1⟩

theorem runTicket_kept {t : Tkt} {key : Nat} {s u : State} {c : TCheck} {body : State → State}
    (h : runTicket t key s c body = .next u)
    (hb : ∀ v : State, (v.pending = s.pending ∧ v.nvm.otp = s.nvm.otp ∧ v.time.clk = s.time.clk) →
      ((body v).pending = s.pending ∧ (body v).nvm.otp = s.nvm.otp ∧ (body v).time.clk = s.time.clk)) :
    Kept s u := by
  unfold Kept
  unfold runTicket at h
  dsimp only at h
  repeat' split at h
  all_goals cases h
  all_goals first | simp | (apply hb; simp)
theorem signedPart_kept {t : Tkt} {key : Nat} {s u : State} {b : Bool} {c : TCheck} {body : State → State}
    (h : signedPart t key b c s body = .next u)
    (hb : ∀ v : State, (v.pending = s.pending ∧ v.nvm.otp = s.nvm.otp ∧ v.time.clk = s.time.clk) →
      ((body v).pending = s.pending ∧ (body v).nvm.otp = s.nvm.otp ∧ (body v).time.clk = s.time.clk)) :
    Kept s u := by
  unfold Kept
  unfold signedPart at h
  dsimp only at h
  split at h
  · simpa [Kept] using runTicket_kept h fun v hv => by simp at hv; simpa using hb v (by simp [hv])
  · exact runTicket_kept h hb

end Sys2Proof.Machine
end

