-- ==== Sys2Proof/Laws/Otp.lean ====
section
/-! SUPPORT. The fuse arrays only ever gain fuses: blowing, programming, tearing, voiding, revoking and resets. -/

namespace Sys2Proof.Machine

theorem bit_eq_testBit (x i : Nat) : bit x i = x.testBit i := by
  rw [bit, Nat.testBit_eq_decide_div_mod_eq]
  by_cases h : x / 2 ^ i % 2 = 1 <;> simp [h]

theorem OtpDie.le_refl (a : OtpDie) : a.le a := ⟨fun _ _ h => h, fun _ h => h⟩
theorem OtpDie.le_trans {a b c : OtpDie} (h : a.le b) (g : b.le c) : a.le c :=
  ⟨fun r i x => g.1 r i (h.1 r i x), fun e x => g.2 e (h.2 e x)⟩

theorem OtpDie.phys_blow (o : OtpDie) (row f r : Nat) :
    (o.blow row f).phys r = if r = row then o.phys row ||| f else o.phys r := by
  unfold OtpDie.blow
  by_cases hv : o.phys row ||| f = 0
  · simp only [hv, if_true]
    by_cases hr : r = row
    · subst hr
      have : o.phys r = 0 := by
        exact (Nat.or_eq_zero_iff.mp hv).1
      simpa using this
    · simp [hr, OtpDie.phys]
  · simp only [hv, if_false]
    by_cases hr : r = row
    · subst hr
      have : ((o.rows.filter fun x => x.1 != r).find? fun x => x.1 == r) = none := by
        simp [List.find?_eq_none]
      simp [OtpDie.phys, List.find?_append, this]
    · have hne : (row == r) = false := by simp; omega
      have : ((o.rows.filter fun x => x.1 != row).find? fun x => x.1 == r) = o.rows.find? fun x => x.1 == r := by
        rw [List.find?_filter]
        congr 1
        funext x
        by_cases hx : x.1 = r <;> simp [hx, hr]
      simp [OtpDie.phys, List.find?_append, this, hr, hne]

theorem OtpDie.le_blow (o : OtpDie) (row f : Nat) : o.le (o.blow row f) := by
  refine ⟨fun r i h => ?_, fun e h => h⟩
  rw [OtpDie.phys_blow]
  split
  · subst_vars
    simp only [bit_eq_testBit] at *
    simp [h]
  · exact h

theorem State.otpDie_modOtp (s : State) (d e : Fin 3) (f : OtpDie → OtpDie) :
    (s.modOtp d f).otpDie e = if e = d then f (s.otpDie d) else s.otpDie e := by
  unfold State.modOtp State.otpDie upd
  by_cases h : e = d
  · subst h; simp
  · have : d.val ≠ e.val := fun x => h (Fin.ext x.symm)
    simp [h, this]
theorem State.fusesKept_refl (s : State) : s.fusesKept s := fun _ => OtpDie.le_refl _
theorem State.fusesKept_trans {a b c : State} (h : a.fusesKept b) (g : b.fusesKept c) : a.fusesKept c :=
  fun d => OtpDie.le_trans (h d) (g d)
theorem State.fusesKept_of_otp {s t : State} (h : t.nvm.otp = s.nvm.otp) : s.fusesKept t := by
  intro d; simp only [State.otpDie, h]; exact OtpDie.le_refl _
theorem State.fusesKept_modOtp (s : State) (d : Fin 3) (f : OtpDie → OtpDie) (h : (s.otpDie d).le (f (s.otpDie d))) :
    s.fusesKept (s.modOtp d f) := by
  intro e
  rw [State.otpDie_modOtp]
  split
  · subst_vars; exact h
  · exact OtpDie.le_refl _
theorem State.fusesKept_fold {α : Type} {g : State → α → State} (h : ∀ (s : State) (x : α), s.fusesKept (g s x)) (l : List α) (s : State) :
    s.fusesKept (l.foldl g s) := by
  induction l generalizing s with
  | nil => exact s.fusesKept_refl
  | cons a l ih => exact State.fusesKept_trans (h s a) (ih (g s a))

theorem State.draw_otpDie (s : State) (m : Nat) (d : Fin 3) : (s.draw m).2.otpDie d = s.otpDie d := rfl

theorem State.programRow_fusesKept (s : State) (d : Fin 3) (r data : Nat) (ok : Bool) :
    s.fusesKept (s.programRow d r data ok).2 := by
  unfold State.programRow
  dsimp only
  split
  · split
    · exact s.fusesKept_modOtp d _ (OtpDie.le_blow _ _ _)
    · exact State.fusesKept_trans (State.fusesKept_of_otp rfl) (State.fusesKept_modOtp _ d _ (OtpDie.le_blow _ _ _))
  · split
    · split
      · rename_i k e hk he _
        refine s.fusesKept_modOtp d _ ⟨(OtpDie.le_blow _ _ _).1, fun x hx => ?_⟩
        have hfree := List.find?_some he
        simp only [Bool.not_eq_true', List.any_eq_false] at hfree
        have hne := hfree x hx
        simp only [beq_iff_eq] at hne
        simp only [List.mem_append, List.mem_filter, decide_eq_true_eq, List.mem_singleton]
        rcases Nat.lt_or_gt_of_ne hne with h | h
        · exact Or.inl (Or.inl ⟨hx, h⟩)
        · exact Or.inr ⟨hx, h⟩
      · exact State.fusesKept_trans (State.fusesKept_of_otp rfl) (State.fusesKept_modOtp _ d _ (OtpDie.le_blow _ _ _))
    · exact s.fusesKept_refl
  · exact s.fusesKept_refl

theorem State.programAll_fusesKept (s : State) (l : List (Fin 3)) (r data : Nat) (ok : Bool) :
    s.fusesKept (s.programAll l r data ok).2 := by
  unfold State.programAll
  suffices h : ∀ (l : List (Fin 3)) (a : Option Nat × State), s.fusesKept a.2 →
      s.fusesKept (l.foldl (fun (a : Option Nat × State) d =>
        if a.1.isSome then a else if a.2.rowHas d r data then a else a.2.programRow d r data ok) a).2 from
    h l (none, s) s.fusesKept_refl
  intro l
  induction l with
  | nil => intro a h; exact h
  | cons d l ih =>
    intro a h
    apply ih
    dsimp only
    split
    · exact h
    · split
      · exact h
      · exact State.fusesKept_trans h (State.programRow_fusesKept _ _ _ _ _)

/-- A new entry at a place that no used or torn entry has keeps every entry. -/
theorem mem_insert_free {e : Nat} {w : Nat × Nat} {l : List (Nat × Nat × Nat)} {n : Nat}
    (he : ((List.range n).find? fun i => !l.any fun x => x.1 == i) = some e) {x : Nat × Nat × Nat} (hx : x ∈ l) :
    x ∈ (l.filter fun y => decide (y.1 < e)) ++ [(e, w)] ++ l.filter fun y => decide (e < y.1) := by
  have hfree := List.find?_some he
  simp only [Bool.not_eq_true', List.any_eq_false] at hfree
  have hne := hfree x hx
  simp only [beq_iff_eq] at hne
  simp only [List.mem_append, List.mem_filter, decide_eq_true_eq, List.mem_singleton]
  rcases Nat.lt_or_gt_of_ne hne with h | h
  · exact Or.inl (Or.inl ⟨hx, h⟩)
  · exact Or.inr ⟨hx, h⟩

theorem State.tearEntry_fusesKept (s : State) (d : Fin 3) (r data : Nat) : s.fusesKept (s.tearEntry d r data) := by
  unfold State.tearEntry
  dsimp only
  split
  · rename_i k e hk _ he
    refine State.fusesKept_trans (State.fusesKept_of_otp (t := (s.draw (2 ^ 16)).2) rfl) (State.fusesKept_modOtp _ d _ ⟨(OtpDie.le_blow _ _ _).1, fun x hx => ?_⟩)
    dsimp only
    split
    · exact hx
    · exact mem_insert_free he hx
  · exact s.fusesKept_refl

theorem State.tearFuse_fusesKept (s : State) : s.fusesKept s.tearFuse := by
  unfold State.tearFuse
  split
  · exact s.fusesKept_refl
  · rename_i w _
    extract_lets l n e t u
    have ht : s.fusesKept t := State.fusesKept_trans (b := e.2) (State.fusesKept_of_otp rfl) (State.programAll_fusesKept _ _ _ _ true)
    refine State.fusesKept_trans (State.fusesKept_trans ht (c := u) ?_) (State.fusesKept_of_otp rfl)
    unfold u
    split
    · exact State.fusesKept_refl _
    · split
      · exact State.tearEntry_fusesKept _ _ _ _
      · exact State.programAll_fusesKept _ _ _ _ _

theorem OtpDie.le_blows {α : Type} (f : OtpDie → α → Nat × Nat) (l : List α) (o : OtpDie) :
    o.le (l.foldl (fun (o : OtpDie) k => o.blow (f o k).1 (f o k).2) o) := by
  induction l generalizing o with
  | nil => exact o.le_refl
  | cons a l ih => exact OtpDie.le_trans (o.le_blow _ _) (ih _)

theorem State.voidSecrets_fusesKept (s : State) : s.fusesKept s.voidSecrets := by
  unfold State.voidSecrets
  dsimp only
  refine State.fusesKept_trans (s.fusesKept_modOtp 2 (fun o => ((List.range 8).foldl (fun (o : OtpDie) k => o.blow (o.where_ (0x38 + k)) (2 ^ 80 - 1)) o)) (OtpDie.le_blows (fun (o : OtpDie) k => (o.where_ (0x38 + k), 2 ^ 80 - 1)) _ _)) ?_
  apply State.fusesKept_of_otp
  simp

theorem State.revokeWon_fusesKept (s : State) : s.fusesKept s.revokeWon := by
  unfold State.revokeWon
  dsimp only
  refine State.fusesKept_trans (State.fusesKept_fold (fun u k => ?_) _ _) (State.fusesKept_of_otp rfl)
  refine State.fusesKept_trans (b := (u.draw (2 ^ 64 - 1)).2) (State.fusesKept_of_otp rfl) ?_
  refine State.fusesKept_trans (State.fusesKept_modOtp _ 0 (fun o => o.blow (0x60 + k) (fusesOf ((u.draw (2 ^ 64 - 1)).1 + 1))) (OtpDie.le_blow _ _ _)) ?_
  exact State.fusesKept_modOtp _ 1 (fun o => o.blow (0x60 + k) (fusesOf ((u.draw (2 ^ 64 - 1)).1 + 1))) (OtpDie.le_blow _ _ _)

theorem State.resetTo_fusesKept (s : State) (cause step : Nat) : s.fusesKept (s.resetTo cause step) := by
  refine State.fusesKept_trans s.tearFuse_fusesKept (State.fusesKept_of_otp ?_)
  unfold State.resetTo NvmSt.kept
  dsimp only
  split <;> simp


/-- `t` has the queue of `s` and every fuse blown in it. -/
def FuseKept (s t : State) : Prop := t.pending = s.pending ∧ s.fusesKept t
theorem FuseKept.refl {s : State} : FuseKept s s := ⟨Eq.refl _, State.fusesKept_refl _⟩
theorem FuseKept.trans {a b c : State} (h : FuseKept a b) (g : FuseKept b c) : FuseKept a c := ⟨g.1.trans h.1, State.fusesKept_trans h.2 g.2⟩
theorem FuseKept.of {s t : State} (h : t.pending = s.pending ∧ t.nvm.otp = s.nvm.otp) : FuseKept s t := ⟨h.1, State.fusesKept_of_otp h.2⟩
theorem FuseKept.of3 {s t : State} (h : t.pending = s.pending ∧ t.nvm.otp = s.nvm.otp ∧ t.time.clk = s.time.clk) : FuseKept s t := .of ⟨h.1, h.2.1⟩
theorem FuseKept.fold {α : Type} {g : State → α → State} (h : ∀ (s : State) (x : α), FuseKept s (g s x)) (l : List α) (s : State) : FuseKept s (l.foldl g s) :=
  ⟨foldl_pend (fun s x => (h s x).1) l s, State.fusesKept_fold (fun s x => (h s x).2) l s⟩
theorem FuseKept.rx (s : State) (rx : RxIn) (cls : Nat) {f : State → State} (h : ∀ u : State, FuseKept u (f u)) : FuseKept s (s.rxPkt rx cls f) := by
  unfold State.rxPkt
  dsimp only
  repeat' split
  all_goals first | exact .refl | exact .of3 (by simp) | exact (FuseKept.of3 (by simp)).trans (h _) 
theorem FuseKept.bnd (s : State) {f : State → State} (h : ∀ u : State, FuseKept u (f u)) : FuseKept s (s.atBoundary f) := by
  unfold State.atBoundary
  extract_lets c o t o2
  have h1 : FuseKept s t := (FuseKept.of ⟨rfl, rfl⟩).trans (h _)
  clear_value t
  exact h1.trans (.of ⟨rfl, rfl⟩)
theorem FuseKept.resetTo (s : State) (c k : Nat) : FuseKept s (s.resetTo c k) := ⟨by simp, s.resetTo_fusesKept _ _⟩
theorem FuseKept.startCtl (s : State) (v : Nat) : FuseKept s (s.startCtl v) := by
  unfold State.startCtl; split
  · exact .resetTo _ _ _
  · exact .refl
theorem FuseKept.tearFuse (s : State) : FuseKept s s.tearFuse := ⟨by simp, s.tearFuse_fusesKept⟩
theorem FuseKept.void (s : State) : FuseKept s s.voidSecrets := ⟨by simp, s.voidSecrets_fusesKept⟩
theorem FuseKept.revoke (s : State) : FuseKept s s.revokeWon := ⟨by simp, s.revokeWon_fusesKept⟩
theorem FuseKept.epochRound (s : State) : FuseKept s s.epochRound := by
  unfold State.epochRound
  split
  · exact .refl
  · extract_lets a1 s1 n a2 s2
    have h1 : FuseKept s s1 := by unfold s1; split <;> exact .of3 (by simp)
    split
    · refine h1.trans ((FuseKept.of3 (t := s2) (by simp [s2])).trans ((FuseKept.revoke _).trans (.of3 (by simp))))
    · exact h1
theorem FuseKept.ownRound (s : State) : FuseKept s s.ownRound := by
  unfold State.ownRound
  extract_lets was k s1 o s2 n o2 s3 s4
  have h1 : FuseKept s s1 := .of3 (by simp [s1])
  have h2 : FuseKept s1 s2 := .of3 (by simp [s2])
  split
  · have h3 : FuseKept s2 s3 := .of3 (by simp [s3])
    split
    · exact h1.trans (h2.trans h3)
    · exact h1.trans (h2.trans (h3.trans (FuseKept.fold (fun s c => .of3 (by simp)) _ _)))
  · change FuseKept s (((s4.silenceRound).keyRound).epochRound).sendRecord
    have h4 : FuseKept s2 s4 := .of3 (by unfold s4; split <;> simp)
    refine h1.trans (h2.trans (h4.trans (FuseKept.trans (b := (s4.silenceRound).keyRound) (.of3 (by simp)) ?_)))
    exact (FuseKept.epochRound _).trans (.of3 (by simp))
theorem FuseKept.roundWork (s : State) (late : Bool) : FuseKept s (s.roundWork late) := by
  unfold State.roundWork
  extract_lets s1 s2 s3 s4 s5 s6 s7 s8 s9
  have h1 : FuseKept s s1 := .of3 (by simp [s1])
  have h2 : FuseKept s1 s2 := .of3 (by unfold s2; split <;> simp)
  have h3 : FuseKept s2 s3 := .of3 (by simp [s3])
  have h4 : FuseKept s3 s4 := .of3 (by simp [s4])
  have h5 : FuseKept s4 s5 := .of3 (by simp [s5])
  have h6 : FuseKept s5 s6 := .of3 (by simp [s6])
  have h7 : FuseKept s6 s7 :=
    (FuseKept.of3 (t := s6.presenceRound) (by simp)).trans ((FuseKept.ownRound _).trans (.of3 (by simp [s7])))
  have h8 : FuseKept s7 s8 := .of3 (by simp [s8])
  have h9 : FuseKept s8 s9 := .of3 (by simp [s9])
  exact h1.trans (h2.trans (h3.trans (h4.trans (h5.trans (h6.trans (h7.trans (h8.trans (h9.trans (.of3 (by simp))))))))))

theorem runTicket_fuseKept {t : Tkt} {key : Nat} {s u : State} {c : TCheck} {body : State → State}
    (h : runTicket t key s c body = .next u) (hb : ∀ v : State, FuseKept v (body v)) : FuseKept s u := by
  unfold runTicket at h
  dsimp only at h
  repeat' split at h
  all_goals cases h
  all_goals first | exact .of3 (by simp) | (refine (FuseKept.of3 ?_).trans (hb _); simp)
theorem signedPart_fuseKept {t : Tkt} {key : Nat} {s u : State} {b : Bool} {c : TCheck} {body : State → State}
    (h : signedPart t key b c s body = .next u) (hb : ∀ v : State, FuseKept v (body v)) : FuseKept s u := by
  unfold signedPart at h
  dsimp only at h
  split at h
  · exact (FuseKept.of3 (by simp)).trans (runTicket_fuseKept h hb)
  · exact runTicket_fuseKept h hb

end Sys2Proof.Machine
end

