-- ==== Sys2Proof/Laws/ExecMeter.lean ====
section
/-! SUPPORT. What each command leaves alone, one lemma a command (`Kept`; `FuseKept` for a command that resets the device, blows
fuses or moves the beat count). -/

namespace Sys2Proof.Machine

set_option linter.all false

theorem execMeterTimerTick_kept (n : Tmr) (s sN : State) (h : execMeterTimerTick n s = .next sN) : Kept s sN := by
  unfold execMeterTimerTick at h
  dsimp only at h
  split at h <;> obtain rfl := Host.Outcome.next.inj h
  · exact .refl
  · refine (Kept.fold (fun s k => ?_) mseqs s).trans (State.convStarts_keeps _)
    split
    · exact State.triggerAll_keeps _ _
    · exact .refl

theorem execMeterPwmTrigger_kept (c : Conv) (p : Ph) (falling : Bool) (s sN : State) (h : execMeterPwmTrigger c p falling s = .next sN) : Kept s sN := by
  unfold execMeterPwmTrigger at h
  dsimp only at h
  split at h <;> obtain rfl := Host.Outcome.next.inj h
  · exact .refl
  · refine (Kept.fold (fun s k => ?_) mseqs s).trans (State.convStarts_keeps _)
    (repeat' split) <;> simp [Kept]

theorem execConversionComplete_kept (c : Conv) (ch : Nat) (code code2 : Int) (stalled : Bool) (s sN : State) (h : execConversionComplete c ch code code2 stalled s = .next sN) : Kept s sN := by
  unfold execConversionComplete at h
  extract_lets code0 s1 s2 stall at h
  have h1 : Kept s s1 := by simp [s1, Kept]
  split at h
  · split at h
    · extract_lets ch2 c2 s3 s4 at h
      have h2 : Kept s1 s2 := by simp [s2, Kept]
      have h3 : Kept s2 s3 := by unfold s3; split <;> simp [Kept]
      have h4 : Kept s3 s4 := by unfold s4; split <;> simp [Kept]
      obtain rfl := Host.Outcome.next.inj h
      exact h1.trans (h2.trans (h3.trans (h4.trans (by simp [Kept]))))
    · obtain rfl := Host.Outcome.next.inj h; exact h1
  · obtain rfl := Host.Outcome.next.inj h; exact h1.trans (by simp [Kept])

theorem execMeterStart_kept (t : Tkt) (s sN : State) (h : execMeterStart t s = .next sN) :
    Kept s sN := by
  unfold Kept
  unfold execMeterStart at h; (try dsimp only at h); exact runTicket_kept h fun v hv => by (try dsimp only); (repeat' split) <;> simp [hv]

theorem execMeterStop_kept (t : Tkt) (s sN : State) (h : execMeterStop t s = .next sN) :
    Kept s sN := by
  unfold Kept
  unfold execMeterStop at h; (try dsimp only at h); exact runTicket_kept h fun v hv => by (try dsimp only); (repeat' split) <;> simp [hv]

theorem execMeterRead_kept (t : Tkt) (s sN : State) (h : execMeterRead t s = .next sN) :
    Kept s sN := by
  unfold Kept
  unfold execMeterRead at h; (try dsimp only at h); exact runTicket_kept h fun v hv => by (try dsimp only); (repeat' split) <;> simp [hv]

theorem execMeterClear_kept (t : Tkt) (s sN : State) (h : execMeterClear t s = .next sN) :
    Kept s sN := by
  unfold Kept
  unfold execMeterClear at h; (try dsimp only at h); exact runTicket_kept h fun v hv => by (try dsimp only); (repeat' split) <;> simp [hv]

theorem execThermalSample_kept (k : Src) (q : Int) (s sN : State) (h : execThermalSample k q s = .next sN) :
    Kept s sN := by
  unfold Kept
  unfold execThermalSample at h; (try dsimp only at h); (repeat' split at h) <;> cases h <;> simp

theorem execThermClear_kept (t : Tkt) (s sN : State) (h : execThermClear t s = .next sN) :
    Kept s sN := by
  unfold Kept
  unfold execThermClear at h; (try dsimp only at h); exact runTicket_kept h fun v hv => by (try dsimp only); (repeat' split) <;> simp [hv]

theorem execAgeRoMeasure_kept (d : Cd) (drift : List Int) (s sN : State) (h : execAgeRoMeasure d drift s = .next sN) :
    Kept s sN := by
  unfold Kept
  unfold execAgeRoMeasure at h; (try dsimp only at h); (repeat' split at h) <;> cases h <;> simp

theorem execWarnProposal_kept (r : Rail) (s sN : State) (h : execWarnProposal r s = .next sN) :
    Kept s sN := by
  unfold Kept
  unfold execWarnProposal at h; (try dsimp only at h); (repeat' split at h) <;> cases h <;> simp

theorem execMpAutoApply_kept (s sN : State) (h : execMpAutoApply s = .next sN) :
    Kept s sN := by
  unfold Kept
  unfold execMpAutoApply at h; (try dsimp only at h); (repeat' split at h) <;> cases h <;> simp

theorem execMpAccept_kept (t : Tkt) (s sN : State) (h : execMpAccept t s = .next sN) :
    Kept s sN := by
  unfold Kept
  unfold execMpAccept at h; (try dsimp only at h); exact runTicket_kept h fun v hv => by (try dsimp only); (repeat' split) <;> simp [hv]

theorem execMpReject_kept (t : Tkt) (s sN : State) (h : execMpReject t s = .next sN) :
    Kept s sN := by
  unfold Kept
  unfold execMpReject at h; (try dsimp only at h); exact runTicket_kept h fun v hv => by (try dsimp only); (repeat' split) <;> simp [hv]

theorem execMpReset_kept (t : Tkt) (s sN : State) (h : execMpReset t s = .next sN) :
    Kept s sN := by
  unfold Kept
  unfold execMpReset at h; (try dsimp only at h); exact runTicket_kept h fun v hv => by (try dsimp only); (repeat' split) <;> simp [hv]

theorem execChirpStart_kept (r : Rail) (s sN : State) (h : execChirpStart r s = .next sN) :
    Kept s sN := by
  unfold Kept
  unfold execChirpStart at h; (try dsimp only at h); (repeat' split at h) <;> cases h <;> simp

theorem execChirpToneStep_kept (r : Rail) (c esr : Nat) (s sN : State) (h : execChirpToneStep r c esr s = .next sN) :
    Kept s sN := by
  unfold Kept
  unfold execChirpToneStep at h; (try dsimp only at h); (repeat' split at h) <;> cases h <;> simp

theorem execTokenRefill_kept (s sN : State) (h : execTokenRefill s = .next sN) :
    Kept s sN := by
  unfold Kept
  unfold execTokenRefill at h; (try dsimp only at h); (repeat' split at h) <;> cases h <;> simp

theorem execAlarmClear_kept (t : Tkt) (s sN : State) (h : execAlarmClear t s = .next sN) :
    Kept s sN := by
  unfold Kept
  unfold execAlarmClear at h; (try dsimp only at h); exact runTicket_kept h fun v hv => by (try dsimp only); (repeat' split) <;> simp [hv]

theorem execTraceOvw_kept (s sN : State) (h : execTraceOvw s = .next sN) :
    Kept s sN := by
  unfold Kept
  unfold execTraceOvw at h; (try dsimp only at h); (repeat' split at h) <;> cases h <;> simp

theorem execTraceStreamStart_kept (t : Tkt) (s sN : State) (h : execTraceStreamStart t s = .next sN) :
    Kept s sN := by
  unfold Kept
  unfold execTraceStreamStart at h; (try dsimp only at h); exact runTicket_kept h fun v hv => by (try dsimp only); (repeat' split) <;> simp [hv]

theorem execTraceStreamStop_kept (t : Tkt) (s sN : State) (h : execTraceStreamStop t s = .next sN) :
    Kept s sN := by
  unfold Kept
  unfold execTraceStreamStop at h; (try dsimp only at h); exact runTicket_kept h fun v hv => by (try dsimp only); (repeat' split) <;> simp [hv]

theorem execCntRead_kept (t : Tkt) (s sN : State) (h : execCntRead t s = .next sN) :
    Kept s sN := by
  unfold Kept
  unfold execCntRead at h; (try dsimp only at h); exact runTicket_kept h fun v hv => by (try dsimp only); (repeat' split) <;> simp [hv]

theorem execCntCtl_kept (t : Tkt) (s sN : State) (h : execCntCtl t s = .next sN) :
    Kept s sN := by
  unfold Kept
  unfold execCntCtl at h; (try dsimp only at h); exact runTicket_kept h fun v hv => by (try dsimp only); (repeat' split) <;> simp [hv]

theorem execWdVerdict_kept (k : Slot) (s sN : State) (h : execWdVerdict k s = .next sN) :
    Kept s sN := by
  unfold Kept
  unfold execWdVerdict at h; (try dsimp only at h); (repeat' split at h) <;> cases h <;> simp

theorem execWdPeriodEnd_kept (k : Slot) (s sN : State) (h : execWdPeriodEnd k s = .next sN) :
    Kept s sN := by
  unfold Kept
  unfold execWdPeriodEnd at h; cases h; simp

theorem execWdArm_kept (t : Tkt) (s sN : State) (h : execWdArm t s = .next sN) :
    Kept s sN := by
  unfold Kept
  unfold execWdArm at h; (try dsimp only at h); exact runTicket_kept h fun v hv => by (try dsimp only); (repeat' split) <;> simp [hv]

theorem execWdDisarm_kept (t : Tkt) (s sN : State) (h : execWdDisarm t s = .next sN) :
    Kept s sN := by
  unfold Kept
  unfold execWdDisarm at h; (try dsimp only at h); exact runTicket_kept h fun v hv => by (try dsimp only); (repeat' split) <;> simp [hv]

theorem execWdCheckin_kept (t : Tkt) (s sN : State) (h : execWdCheckin t s = .next sN) :
    Kept s sN := by
  unfold Kept
  unfold execWdCheckin at h; (try dsimp only at h); exact runTicket_kept h fun v hv => by (try dsimp only); (repeat' split) <;> simp [hv]

theorem execHostRstRelease_kept (s sN : State) (h : execHostRstRelease s = .next sN) :
    Kept s sN := by
  unfold Kept
  unfold execHostRstRelease at h; (try dsimp only at h); (repeat' split at h) <;> cases h <;> simp

theorem execCoreWdExpiry_kept (d : Cd) (s sN : State) (h : execCoreWdExpiry d s = .next sN) :
    Kept s sN := by
  unfold Kept
  unfold execCoreWdExpiry at h; (try dsimp only at h); (repeat' split at h) <;> cases h <;> simp

theorem execBelzapolRestart_kept (d : Cd) (s sN : State) (h : execBelzapolRestart d s = .next sN) :
    Kept s sN := by
  unfold Kept
  unfold execBelzapolRestart at h; cases h; simp

theorem execDebugHalt_kept (d : Cd) (s sN : State) (h : execDebugHalt d s = .next sN) :
    Kept s sN := by
  unfold Kept
  unfold execDebugHalt at h; (try dsimp only at h); (repeat' split at h) <;> cases h <;> simp

theorem execDebugRelease_kept (d : Cd) (s sN : State) (h : execDebugRelease d s = .next sN) :
    Kept s sN := by
  unfold Kept
  unfold execDebugRelease at h; (try dsimp only at h); (repeat' split at h) <;> cases h <;> simp

theorem execRtcEdge_kept (s sN : State) (h : execRtcEdge s = .next sN) :
    Kept s sN := by
  unfold Kept
  unfold execRtcEdge at h; (try dsimp only at h); (repeat' split at h) <;> cases h <;> simp

theorem execRtcShiftEnd_kept (s sN : State) (h : execRtcShiftEnd s = .next sN) :
    Kept s sN := by
  unfold Kept
  unfold execRtcShiftEnd at h; (try dsimp only at h); (repeat' split at h) <;> cases h <;> simp

theorem execRtcCompensationWindow_kept (s sN : State) (h : execRtcCompensationWindow s = .next sN) :
    Kept s sN := by
  unfold Kept
  unfold execRtcCompensationWindow at h; cases h; simp

theorem execRtcCalendarEnd_kept (s sN : State) (h : execRtcCalendarEnd s = .next sN) :
    Kept s sN := by
  unfold Kept
  unfold execRtcCalendarEnd at h; (try dsimp only at h); (repeat' split at h) <;> cases h <;> simp

theorem execRtcCrystalStop_kept (s sN : State) (h : execRtcCrystalStop s = .next sN) :
    Kept s sN := by
  unfold Kept
  unfold execRtcCrystalStop at h; (repeat' split at h) <;> cases h <;> simp

theorem execRtcWakeExpiry_kept (s sN : State) (h : execRtcWakeExpiry s = .next sN) :
    Kept s sN := by
  unfold Kept
  unfold execRtcWakeExpiry at h; (try dsimp only at h); (repeat' split at h) <;> cases h <;> simp

theorem execVrtcSwitch_kept (toVbak : Bool) (s sN : State) (h : execVrtcSwitch toVbak s = .next sN) :
    Kept s sN := by
  unfold Kept
  unfold execVrtcSwitch at h; (try dsimp only at h); (repeat' split at h) <;> cases h <;> simp

theorem execRtcSet_kept (t : Tkt) (s sN : State) (h : execRtcSet t s = .next sN) :
    Kept s sN := by
  unfold Kept
  unfold execRtcSet at h; (try dsimp only at h); exact runTicket_kept h fun v hv => by (try dsimp only); (repeat' split) <;> simp [hv]

theorem execRtcShift_kept (t : Tkt) (s sN : State) (h : execRtcShift t s = .next sN) :
    Kept s sN := by
  unfold Kept
  unfold execRtcShift at h; (try dsimp only at h); exact runTicket_kept h fun v hv => by (try dsimp only); (repeat' split) <;> simp [hv]

theorem execRtcWake_kept (t : Tkt) (s sN : State) (h : execRtcWake t s = .next sN) :
    Kept s sN := by
  unfold Kept
  unfold execRtcWake at h; (try dsimp only at h); exact runTicket_kept h fun v hv => by (try dsimp only); (repeat' split) <;> simp [hv]

theorem execRtcRead_kept (t : Tkt) (s sN : State) (h : execRtcRead t s = .next sN) :
    Kept s sN := by
  unfold Kept
  unfold execRtcRead at h; (try dsimp only at h); exact runTicket_kept h fun v hv => by (try dsimp only); (repeat' split) <;> simp [hv]

theorem execRtcTime0Read_kept (path : Path) (s sN : State) (h : execRtcTime0Read path s = .next sN) :
    Kept s sN := by
  unfold Kept
  unfold execRtcTime0Read at h; cases h; simp

theorem execRtcTime1Read_kept (path : Path) (s sN : State) (h : execRtcTime1Read path s = .next sN) :
    Kept s sN := by
  unfold Kept
  unfold execRtcTime1Read at h; cases h; simp

theorem execRtcShadowRelease_kept (path : Path) (s sN : State) (h : execRtcShadowRelease path s = .next sN) :
    Kept s sN := by
  unfold Kept
  unfold execRtcShadowRelease at h; (try dsimp only at h); (repeat' split at h) <;> cases h <;> simp

theorem execBeatTick_fuseKept (i : BeatIn) (s sN : State) (h : execBeatTick i s = .next sN) : FuseKept s sN := by
  unfold execBeatTick at h; obtain rfl := Host.Outcome.next.inj h
  refine (FuseKept.of (t := s.nextBeat) (by simp)).trans (.of3 (by simp))

theorem execFrameTick_kept (i : FrameIn) (s sN : State) (h : execFrameTick i s = .next sN) :
    Kept s sN := by
  unfold Kept
  unfold execFrameTick at h; (try dsimp only at h); (repeat' split at h) <;> cases h <;> simp

theorem execRoundTick_fuseKept (i : RoundIn) (s sN : State) (h : execRoundTick i s = .next sN) : FuseKept s sN := by
  unfold execRoundTick at h
  split at h <;> obtain rfl := Host.Outcome.next.inj h
  · exact .bnd _ fun u => (FuseKept.of3 (by simp)).trans (.roundWork _ _)
  · exact .refl

theorem execTelemRead_kept (t : Tkt) (s sN : State) (h : execTelemRead t s = .next sN) :
    Kept s sN := by
  unfold Kept
  unfold execTelemRead at h; (try dsimp only at h); exact runTicket_kept h fun v hv => by (try dsimp only); (repeat' split) <;> simp [hv]

theorem execBulkRead_kept (t : Tkt) (s sN : State) (h : execBulkRead t s = .next sN) :
    Kept s sN := by
  unfold Kept
  unfold execBulkRead at h; (try dsimp only at h); exact runTicket_kept h fun v hv => by (try dsimp only); (repeat' split) <;> simp [hv]

theorem execMpRead_kept (t : Tkt) (s sN : State) (h : execMpRead t s = .next sN) :
    Kept s sN := by
  unfold Kept
  unfold execMpRead at h; (try dsimp only at h); exact runTicket_kept h fun v hv => by (try dsimp only); (repeat' split) <;> simp [hv]

theorem execUnknownOpcode_kept (t : Tkt) (s sN : State) (h : execUnknownOpcode t s = .next sN) :
    Kept s sN := by
  unfold Kept
  unfold execUnknownOpcode at h; (try dsimp only at h); (repeat' split at h) <;> cases h <;> simp

theorem execChainClkLoRead_kept (path : Path) (s sN : State) (h : execChainClkLoRead path s = .next sN) :
    Kept s sN := by
  unfold Kept
  unfold execChainClkLoRead at h; (try dsimp only at h); (repeat' split at h) <;> cases h <;> simp

theorem execRcFieldRead_kept (path : Path) (off size : Nat) (s sN : State) (h : execRcFieldRead path off size s = .next sN) :
    Kept s sN := by
  unfold Kept
  unfold execRcFieldRead at h; (try dsimp only at h); (repeat' split at h) <;> cases h <;> simp

theorem execBar0UnsupportedAccess_kept (off size : Nat) (s sN : State) (h : execBar0UnsupportedAccess off size s = .next sN) :
    Kept s sN := by
  unfold Kept
  unfold execBar0UnsupportedAccess at h; (try dsimp only at h); (repeat' split at h) <;> cases h <;> simp

theorem execRegisterWrite_kept (path : Path) (off size v : Nat) (s sN : State) (h : execRegisterWrite path off size v s = .next sN) :
    Kept s sN := by
  unfold Kept
  unfold execRegisterWrite at h; (try dsimp only at h); (repeat' split at h) <;> cases h <;> simp

theorem execStartCtlRestart_fuseKept (path : Path) (v : Nat) (s sN : State) (h : execStartCtlRestart path v s = .next sN) : FuseKept s sN := by
  unfold execStartCtlRestart at h
  split at h <;> obtain rfl := Host.Outcome.next.inj h
  · exact .startCtl _ _
  · exact .refl

theorem execSpiWrite_fuseKept (p : Port) (addr : Nat) (data : List Nat) (crc : Nat) (s sN : State) (h : execSpiWrite p addr data crc s = .next sN) : FuseKept s sN := by
  unfold execSpiWrite at h
  (repeat' split at h) <;> obtain rfl := Host.Outcome.next.inj h
  · exact .refl
  · exact .of3 (by simp)
  · unfold State.spiApply
    refine .fold (fun u x => ?_) _ _
    extract_lets r v
    repeat' split
    · exact .startCtl _ _
    all_goals first | exact .refl | exact .of3 (by simp) | skip
    all_goals refine .of3 (State.turnstile_keeps _ _ _ _ _ fun w => ?_)
    all_goals (repeat' split) <;> simp

theorem execSpiRead_fuseKept (p : Port) (addr len : Nat) (s sN : State) (h : execSpiRead p addr len s = .next sN) : FuseKept s sN := by
  unfold execSpiRead at h
  split at h <;> obtain rfl := Host.Outcome.next.inj h
  · exact .refl
  · refine FuseKept.trans ?_ (.of3 (State.modWin_keeps _ _ _))
    suffices hh : ∀ (l : List Nat) (a0 : List Nat × State), FuseKept a0.2 (l.foldl (fun (a1 : List Nat × State) w =>
      let q := runPart (addr % 65536) len w
      let v := a1.2.spiWord p q.1 w
      (a1.1 ++ leBytes q.2 (v.1 / 2 ^ (8 * (q.1 - w))), v.2)) a0).2 from hh _ ([], s)
    intro l
    induction l with
    | nil => intro a0; exact .refl
    | cons x l ih => intro a0; exact (FuseKept.of3 (State.spiWord_keeps _ _ _ _)).trans (ih _)

end Sys2Proof.Machine
end

