-- ==== Sys2Proof/Laws/Clock.lean ====
section
/-! SUPPORT. The beat count of the ticks: BEAT_TICK takes it to the boundary at hand, the work of a boundary leaves it. -/

namespace Sys2Proof.Machine

theorem State.nextBeat_clk (s : State) : s.nextBeat.time.clk = s.bnd := by
  unfold State.nextBeat State.bnd
  split <;> rfl

theorem State.atBoundary_clk (s : State) (f : State → State) : (s.atBoundary f).time.clk = s.time.clk := rfl

theorem execBeatTick_clk (i : BeatIn) (s t : State) (h : execBeatTick i s = .next t) : t.time.clk = s.bnd := by
  unfold execBeatTick at h
  obtain rfl := Host.Outcome.next.inj h
  rw [← State.nextBeat_clk]
  simp

theorem execRoundTick_clk (i : RoundIn) (s t : State) (h : execRoundTick i s = .next t) : t.time.clk = s.time.clk := by
  unfold execRoundTick at h
  split at h <;> obtain rfl := Host.Outcome.next.inj h
  · exact State.atBoundary_clk _ _
  · rfl

end Sys2Proof.Machine
end

