-- ==== Sys2Proof/Laws/ExecRails.lean ====
section
/-! SUPPORT. What each command leaves alone, one lemma a command (`Kept`; `FuseKept` for a command that resets the device, blows
fuses or moves the beat count). -/

namespace Sys2Proof.Machine

set_option linter.all false

theorem execWindowSample_kept (d : Cd) (r : Rail) (half : Bool) (uv : Int) (low high : List Ph) (s sN : State) (h : execWindowSample d r half uv low high s = .next sN) :
    Kept s sN := by
  unfold execWindowSample at h
  split at h
  · obtain rfl := Host.Outcome.next.inj h; exact .refl
  · extract_lets w0 s1 x y vc trk sat dv cfg cr off s2 s3 at h
    have h1 : Kept s s1 := by simp [s1, Kept]
    have h2 : Kept s1 s2 := by simp [s2, Kept]
    have h3 : Kept s2 s3 := by unfold s3; split <;> simp [Kept]
    obtain rfl := Host.Outcome.next.inj h
    exact h1.trans (h2.trans (h3.trans (by simp [Kept])))

theorem execTrackingSample_kept (d : Cd) (r : Rail) (remote : Bool) (uv : Nat) (s sN : State) (h : execTrackingSample d r remote uv s = .next sN) :
    Kept s sN := by
  unfold execTrackingSample at h
  split at h
  · obtain rfl := Host.Outcome.next.inj h; exact .refl
  · extract_lets code s0 s1 s2 at h
    have h1 : Kept s s1 := by unfold s1 s0; (repeat' split) <;> simp [Kept]
    have h2 : Kept s1 s2 := by simp [s2, Kept]
    split at h <;> obtain rfl := Host.Outcome.next.inj h
    · exact h1
    · exact h1.trans (h2.trans (by split <;> simp [Kept]))

theorem execCatchEnd_kept (d : Cd) (r : Rail) (s sN : State) (h : execCatchEnd d r s = .next sN) :
    Kept s sN := by
  unfold Kept
  unfold execCatchEnd at h; (try dsimp only at h); (repeat' split at h) <;> cases h <;> simp

theorem execCatchRearm_kept (d : Cd) (r : Rail) (s sN : State) (h : execCatchRearm d r s = .next sN) :
    Kept s sN := by
  unfold Kept
  unfold execCatchRearm at h; (try dsimp only at h); (repeat' split at h) <;> cases h <;> simp

theorem execSenseWatchEnd_kept (r : Rail) (s sN : State) (h : execSenseWatchEnd r s = .next sN) :
    Kept s sN := by
  unfold Kept
  unfold execSenseWatchEnd at h; (try dsimp only at h); (repeat' split at h) <;> cases h <;> simp

theorem execAvsTargetVoltageWrite_kept (port : Avs) (sel v : Nat) (s sN : State) (h : execAvsTargetVoltageWrite port sel v s = .next sN) :
    Kept s sN := by
  unfold Kept
  unfold execAvsTargetVoltageWrite at h; (try dsimp only at h); (repeat' split at h) <;> cases h <;> simp

theorem execAvsTargetVoltageRead_kept (port : Avs) (sel : Nat) (s sN : State) (h : execAvsTargetVoltageRead port sel s = .next sN) :
    Kept s sN := by
  unfold Kept
  unfold execAvsTargetVoltageRead at h; cases h; simp

theorem execAvsTransitionRateWrite_kept (port : Avs) (sel v : Nat) (s sN : State) (h : execAvsTransitionRateWrite port sel v s = .next sN) :
    Kept s sN := by
  unfold Kept
  unfold execAvsTransitionRateWrite at h; cases h; simp

theorem execAvsTransitionRateRead_kept (port : Avs) (sel : Nat) (s sN : State) (h : execAvsTransitionRateRead port sel s = .next sN) :
    Kept s sN := by
  unfold Kept
  unfold execAvsTransitionRateRead at h; cases h; simp

theorem execAvsReadRailCurrent_kept (port : Avs) (sel : Nat) (s sN : State) (h : execAvsReadRailCurrent port sel s = .next sN) :
    Kept s sN := by
  unfold Kept
  unfold execAvsReadRailCurrent at h; cases h; simp

theorem execAvsReadTemperature_kept (port : Avs) (sel : Nat) (s sN : State) (h : execAvsReadTemperature port sel s = .next sN) : Kept s sN := by
  unfold execAvsReadTemperature at h; obtain rfl := Host.Outcome.next.inj h
  refine State.avsRead_keeps _ _ _ _ ?_
  intro u r
  split <;> simp

theorem execAvsResetVoltage_kept (port : Avs) (sel : Nat) (s sN : State) (h : execAvsResetVoltage port sel s = .next sN) :
    Kept s sN := by
  unfold Kept
  unfold execAvsResetVoltage at h; cases h; simp

theorem execAvsStatusRead_kept (port : Avs) (sel : Nat) (s sN : State) (h : execAvsStatusRead port sel s = .next sN) :
    Kept s sN := by
  unfold Kept
  unfold execAvsStatusRead at h; cases h; simp

theorem execAvsStatusWrite_kept (port : Avs) (sel v : Nat) (s sN : State) (h : execAvsStatusWrite port sel v s = .next sN) :
    Kept s sN := by
  unfold Kept
  unfold execAvsStatusWrite at h; cases h; simp

theorem execAvsVersionRead_kept (port : Avs) (sel : Nat) (s sN : State) (h : execAvsVersionRead port sel s = .next sN) :
    Kept s sN := by
  unfold Kept
  unfold execAvsVersionRead at h; cases h; simp

theorem execAvsUnsupported_kept (_port : Avs) (s sN : State) (h : execAvsUnsupported _port s = .next sN) :
    Kept s sN := by
  unfold Kept
  unfold execAvsUnsupported at h; cases h; simp

theorem execAvsCrcError_kept (_port : Avs) (s sN : State) (h : execAvsCrcError _port s = .next sN) :
    Kept s sN := by
  unfold Kept
  unfold execAvsCrcError at h; cases h; simp

theorem execAvsPortFault_kept (port : Avs) (s sN : State) (h : execAvsPortFault port s = .next sN) :
    Kept s sN := by
  unfold Kept
  unfold execAvsPortFault at h; cases h; simp

theorem execVoteFloor_kept (t : Tkt) (s sN : State) (h : execVoteFloor t s = .next sN) :
    Kept s sN := by
  unfold Kept
  unfold execVoteFloor at h; (try dsimp only at h); exact runTicket_kept h fun v hv => by (try dsimp only); (repeat' split) <;> simp [hv]

theorem execSetTarget_kept (t : Tkt) (s sN : State) (h : execSetTarget t s = .next sN) :
    Kept s sN := by
  unfold Kept
  unfold execSetTarget at h; (try dsimp only at h); exact runTicket_kept h fun v hv => by (try dsimp only); (repeat' split) <;> simp [hv]

theorem execSetEnvelope_kept (t : Tkt) (s sN : State) (h : execSetEnvelope t s = .next sN) :
    Kept s sN := by
  unfold Kept
  unfold execSetEnvelope at h; (try dsimp only at h); exact runTicket_kept h fun v hv => by (try dsimp only); (repeat' split) <;> simp [hv]

theorem execCurrentSample_kept (d : Cd) (p : Ph) (mv uv : Nat) (s sN : State) (h : execCurrentSample d p mv uv s = .next sN) :
    Kept s sN := by
  unfold Kept
  unfold execCurrentSample at h; (try dsimp only at h); (repeat' split at h) <;> cases h <;> simp

theorem execStageFault_kept (d : Cd) (p : Ph) (s sN : State) (h : execStageFault d p s = .next sN) :
    Kept s sN := by
  unfold Kept
  unfold execStageFault at h; (try dsimp only at h); (repeat' split at h) <;> cases h <;> simp

theorem execPhLimitCrossing_kept (d : Cd) (p : Ph) (low : Bool) (s sN : State) (h : execPhLimitCrossing d p low s = .next sN) :
    Kept s sN := by
  unfold Kept
  unfold execPhLimitCrossing at h; (try dsimp only at h); (repeat' split at h) <;> cases h <;> simp

theorem execNegativeLimit_kept (d : Cd) (p : Ph) (s sN : State) (h : execNegativeLimit d p s = .next sN) :
    Kept s sN := by
  unfold Kept
  unfold execNegativeLimit at h; (try dsimp only at h); (repeat' split at h) <;> cases h <;> simp

theorem execZeroCurrentTrip_kept (d : Cd) (p : Ph) (s sN : State) (h : execZeroCurrentTrip d p s = .next sN) :
    Kept s sN := by
  unfold Kept
  unfold execZeroCurrentTrip at h; (try dsimp only at h); (repeat' split at h) <;> cases h <;> simp

theorem execPhaseStaticCheckEnd_kept (p : Ph) (s sN : State) (h : execPhaseStaticCheckEnd p s = .next sN) : Kept s sN := by
  unfold execPhaseStaticCheckEnd at h
  split at h
  · obtain rfl := Host.Outcome.next.inj h; exact .refl
  · split at h <;> obtain rfl := Host.Outcome.next.inj h
    · exact .refl
    · refine Kept.bnd _ fun u => ?_
      clear h
      split
      · dsimp only; (repeat' split) <;> simp [Kept]
      · split
        · dsimp only; (repeat' split) <;> simp [Kept]
        · simp [Kept]

theorem execPhaseLiveCheckEnd_kept (p : Ph) (s sN : State) (h : execPhaseLiveCheckEnd p s = .next sN) :
    Kept s sN := by
  unfold Kept
  unfold execPhaseLiveCheckEnd at h; (try dsimp only at h); (repeat' split at h) <;> cases h <;> simp

theorem execPhWearCommit_kept (s sN : State) (h : execPhWearCommit s = .next sN) :
    Kept s sN := by
  unfold Kept
  unfold execPhWearCommit at h; (try dsimp only at h); (repeat' split at h) <;> cases h <;> simp

theorem execRotationPeriod_kept (s sN : State) (h : execRotationPeriod s = .next sN) :
    Kept s sN := by
  unfold Kept
  unfold execRotationPeriod at h; (try dsimp only at h); (repeat' split at h) <;> cases h <;> simp

theorem execBenchPhase_kept (t : Tkt) (s sN : State) (h : execBenchPhase t s = .next sN) :
    Kept s sN := by
  unfold Kept
  unfold execBenchPhase at h; (try dsimp only at h); exact runTicket_kept h fun v hv => by (try dsimp only); (repeat' split) <;> simp [hv]

theorem execReadmitPhase_kept (t : Tkt) (s sN : State) (h : execReadmitPhase t s = .next sN) :
    Kept s sN := by
  unfold Kept
  unfold execReadmitPhase at h; (try dsimp only at h); exact runTicket_kept h fun v hv => by (try dsimp only); (repeat' split) <;> simp [hv]

theorem execForecast_kept (t : Tkt) (s sN : State) (h : execForecast t s = .next sN) :
    Kept s sN := by
  unfold Kept
  unfold execForecast at h; (try dsimp only at h); (repeat' split at h) <;> (first | cases h; done | exact runTicket_kept h fun v hv => by (try dsimp only); (repeat' split) <;> simp [hv])

theorem execForecastCancel_kept (t : Tkt) (s sN : State) (h : execForecastCancel t s = .next sN) :
    Kept s sN := by
  unfold Kept
  unfold execForecastCancel at h; (try dsimp only at h); exact runTicket_kept h fun v hv => by (try dsimp only); (repeat' split) <;> simp [hv]

theorem execForecastTrustRead_kept (t : Tkt) (s sN : State) (h : execForecastTrustRead t s = .next sN) :
    Kept s sN := by
  unfold Kept
  unfold execForecastTrustRead at h; (try dsimp only at h); exact runTicket_kept h fun v hv => by (try dsimp only); (repeat' split) <;> simp [hv]

theorem execForecastTrustSet_kept (t : Tkt) (s sN : State) (h : execForecastTrustSet t s = .next sN) :
    Kept s sN := by
  unfold Kept
  unfold execForecastTrustSet at h; (try dsimp only at h); exact runTicket_kept h fun v hv => by (try dsimp only); (repeat' split) <;> simp [hv]

theorem execForecastHeadroomRamp_kept (c seq : Nat) (s sN : State) (h : execForecastHeadroomRamp c seq s = .next sN) :
    Kept s sN := by
  unfold Kept
  unfold execForecastHeadroomRamp at h; cases h; simp

theorem execForecastWindowOpen_kept (c seq : Nat) (s sN : State) (h : execForecastWindowOpen c seq s = .next sN) :
    Kept s sN := by
  unfold Kept
  unfold execForecastWindowOpen at h; cases h; simp

theorem execForecastWindowClose_kept (c seq : Nat) (s sN : State) (h : execForecastWindowClose c seq s = .next sN) :
    Kept s sN := by
  unfold Kept
  unfold execForecastWindowClose at h; cases h; simp

theorem execForecastScore_kept (c seq : Nat) (s sN : State) (h : execForecastScore c seq s = .next sN) :
    Kept s sN := by
  unfold execForecastScore at h; cases h
  apply State.atBoundary_keeps
  intro u; split <;> (try split) <;> simp

theorem execLendSteerOn_kept (p : Ph) (s sN : State) (h : execLendSteerOn p s = .next sN) :
    Kept s sN := by
  unfold Kept
  unfold execLendSteerOn at h; (try dsimp only at h); (repeat' split at h) <;> cases h <;> simp

theorem execLendArrive_kept (p : Ph) (s sN : State) (h : execLendArrive p s = .next sN) :
    Kept s sN := by
  unfold Kept
  unfold execLendArrive at h; (try dsimp only at h); (repeat' split at h) <;> cases h <;> simp

theorem execGangCommandReceive_kept (r : Rail) (m : GMem) (x : GangRx) (s sN : State) (h : execGangCommandReceive r m x s = .next sN) : Kept s sN := by
  unfold execGangCommandReceive at h
  extract_lets e pkt s1 g good u s2 s3 s4 was s5 uv at h
  have h1 : Kept s s1 := by simp [s1, Kept]
  split at h
  · obtain rfl := Host.Outcome.next.inj h; exact h1
  · have h2 : Kept s1 s2 := State.modGang_keeps _ _ _
    have h3 : Kept s2 s3 := State.count_keeps _ _ _ _
    have h4 : Kept s3 s4 := by unfold s4; split <;> simp [Kept]
    have h5 : Kept s4 s5 := by simp [s5, Kept]
    obtain rfl := Host.Outcome.next.inj h
    refine h1.trans (h2.trans (h3.trans (h4.trans (h5.trans (Kept.fold (fun s p => ?_) _ _)))))
    (repeat' split) <;> simp [Kept]

theorem execGangReturnReceive_kept (r : Rail) (m : GMem) (x : GangRx) (s sN : State) (h : execGangReturnReceive r m x s = .next sN) :
    Kept s sN := by
  unfold Kept
  unfold execGangReturnReceive at h; (try dsimp only at h); (repeat' split at h) <;> cases h <;> simp

theorem execGangCommandMiss_kept (r : Rail) (s sN : State) (h : execGangCommandMiss r s = .next sN) :
    Kept s sN := by
  unfold Kept
  unfold execGangCommandMiss at h; (try dsimp only at h); (repeat' split at h) <;> cases h <;> simp

theorem execGangHoldExpiry_kept (r : Rail) (s sN : State) (h : execGangHoldExpiry r s = .next sN) :
    Kept s sN := by
  unfold Kept
  unfold execGangHoldExpiry at h; (try dsimp only at h); (repeat' split at h) <;> cases h <;> simp

theorem execReadmitGangMember_kept (t : Tkt) (s sN : State) (h : execReadmitGangMember t s = .next sN) :
    Kept s sN := by
  unfold Kept
  unfold execReadmitGangMember at h; (try dsimp only at h); exact runTicket_kept h fun v hv => by (try dsimp only); (repeat' split) <;> simp [hv]

theorem execGangMemberSelftestEnd_kept (r : Rail) (pass : Bool) (s sN : State) (h : execGangMemberSelftestEnd r pass s = .next sN) :
    Kept s sN := by
  unfold Kept
  unfold execGangMemberSelftestEnd at h; (try dsimp only at h); (repeat' split at h) <;> cases h <;> simp

theorem execDieSelfReport_kept (d : Cd) (s sN : State) (h : execDieSelfReport d s = .next sN) :
    Kept s sN := by
  unfold Kept
  unfold execDieSelfReport at h; cases h; simp

theorem execLaneMismatch_kept (p : Ph) (t : LaneTimes) (s sN : State) (h : execLaneMismatch p t s = .next sN) :
    Kept s sN := by
  unfold Kept
  unfold execLaneMismatch at h; (try dsimp only at h); (repeat' split at h) <;> cases h <;> simp

theorem execVote_kept (c1 c2 : Nat) (s sN : State) (h : execVote c1 c2 s = .next sN) : Kept s sN := by
  unfold execVote at h
  split at h
  · extract_lets a s1 s2 bad s3 mv at h
    have h1 : Kept s s1 := by simp [s1, Kept]
    have h2 : Kept s1 s2 := by simp [s2, Kept]
    have h3 : Kept s2 s3 := by simp [s3, Kept]
    split at h <;> obtain rfl := Host.Outcome.next.inj h
    · exact h1.trans (h2.trans (by simp [Kept]))
    · exact h1.trans (h2.trans (h3.trans (by simp [Kept])))
  · obtain rfl := Host.Outcome.next.inj h; exact .refl

theorem execTrapeze_kept (s sN : State) (h : execTrapeze s = .next sN) : Kept s sN := by
  unfold execTrapeze at h
  split at h
  · extract_lets s1 s2 a s3 s4 s5 s6 at h
    have h1 : Kept s s1 := by simp [s1, Kept]
    have h2 : Kept s1 s2 := by simp [s2, Kept]
    have h3 : Kept s2 s3 := by simp [s3, Kept]
    have h4 : Kept s3 s4 := by unfold s4; split <;> simp [Kept]
    have h5 : Kept s4 s5 := by simp [s5, Kept]
    have h6 : Kept s5 s6 := by simp [s6, Kept]
    obtain rfl := Host.Outcome.next.inj h
    exact h1.trans (h2.trans (h3.trans (h4.trans (h5.trans (h6.trans (by simp [Kept]))))))
  · extract_lets a s1 at h
    have h1 : Kept s s1 := by simp [s1, Kept]
    obtain rfl := Host.Outcome.next.inj h
    exact h1.trans (by split <;> simp [Kept])
  · obtain rfl := Host.Outcome.next.inj h; exact .refl

theorem execGateMonitorFault_kept (lane : Nat) (s sN : State) (h : execGateMonitorFault lane s = .next sN) :
    Kept s sN := by
  unfold Kept
  unfold execGateMonitorFault at h; (try dsimp only at h); (repeat' split at h) <;> cases h <;> simp

theorem execRefoscLost_kept (d : Cd) (s sN : State) (h : execRefoscLost d s = .next sN) :
    Kept s sN := by
  unfold Kept
  unfold execRefoscLost at h; (try dsimp only at h); (repeat' split at h) <;> cases h <;> simp

theorem execBeatStrobeLost_kept (s sN : State) (h : execBeatStrobeLost s = .next sN) :
    Kept s sN := by
  unfold Kept
  unfold execBeatStrobeLost at h; cases h; simp

theorem execDieSelftestEnd_kept (pass : Bool) (s sN : State) (h : execDieSelftestEnd pass s = .next sN) :
    Kept s sN := by
  unfold Kept
  unfold execDieSelftestEnd at h; (try dsimp only at h); (repeat' split at h) <;> cases h <;> simp

theorem execDieResyncEnd_kept (ok : Bool) (s sN : State) (h : execDieResyncEnd ok s = .next sN) :
    Kept s sN := by
  unfold Kept
  unfold execDieResyncEnd at h; (try dsimp only at h); (repeat' split at h) <;> cases h <;> simp

theorem execDieObservationEnd_kept (s sN : State) (h : execDieObservationEnd s = .next sN) :
    Kept s sN := by
  unfold Kept
  unfold execDieObservationEnd at h; (try dsimp only at h); (repeat' split at h) <;> cases h <;> simp

theorem execBenchControlDie_kept (t : Tkt) (s sN : State) (h : execBenchControlDie t s = .next sN) :
    Kept s sN := by
  unfold Kept
  unfold execBenchControlDie at h; (try dsimp only at h); exact runTicket_kept h fun v hv => by (try dsimp only); (repeat' split) <;> simp [hv]

theorem execReadmitControlDie_kept (t : Tkt) (s sN : State) (h : execReadmitControlDie t s = .next sN) :
    Kept s sN := by
  unfold Kept
  unfold execReadmitControlDie at h; (try dsimp only at h); exact runTicket_kept h fun v hv => by (try dsimp only); (repeat' split) <;> simp [hv]

theorem execSwap_kept (t : Tkt) (s sN : State) (h : execSwap t s = .next sN) :
    Kept s sN := by
  unfold Kept
  unfold execSwap at h; (try dsimp only at h); exact runTicket_kept h fun v hv => by (try dsimp only); (repeat' split) <;> simp [hv]

theorem execClearLatch_kept (t : Tkt) (s sN : State) (h : execClearLatch t s = .next sN) :
    Kept s sN := by
  unfold Kept
  unfold execClearLatch at h; (try dsimp only at h); exact runTicket_kept h fun v hv => by (try dsimp only); (repeat' split) <;> simp [hv]

theorem execHiccupOffEnd_kept (r : Rail) (s sN : State) (h : execHiccupOffEnd r s = .next sN) :
    Kept s sN := by
  unfold Kept
  unfold execHiccupOffEnd at h; (try dsimp only at h); (repeat' split at h) <;> cases h <;> simp

theorem execHiccupGoodTime_kept (r : Rail) (s sN : State) (h : execHiccupGoodTime r s = .next sN) :
    Kept s sN := by
  unfold Kept
  unfold execHiccupGoodTime at h; (try dsimp only at h); (repeat' split at h) <;> cases h <;> simp

theorem execDischargeEnd_kept (r : Rail) (s sN : State) (h : execDischargeEnd r s = .next sN) :
    Kept s sN := by
  unfold Kept
  unfold execDischargeEnd at h; (try dsimp only at h); (repeat' split at h) <;> cases h <;> simp

theorem execBenchRail_kept (t : Tkt) (s sN : State) (h : execBenchRail t s = .next sN) :
    Kept s sN := by
  unfold Kept
  unfold execBenchRail at h; (try dsimp only at h); exact runTicket_kept h fun v hv => by (try dsimp only); (repeat' split) <;> simp [hv]

theorem execRailReadmitRampEnd_kept (r : Rail) (s sN : State) (h : execRailReadmitRampEnd r s = .next sN) :
    Kept s sN := by
  unfold Kept
  unfold execRailReadmitRampEnd at h; (try dsimp only at h); (repeat' split at h) <;> cases h <;> simp

theorem execReadmitRail_kept (t : Tkt) (s sN : State) (h : execReadmitRail t s = .next sN) :
    Kept s sN := by
  unfold Kept
  unfold execReadmitRail at h; (try dsimp only at h); exact runTicket_kept h fun v hv => by (try dsimp only); (repeat' split) <;> simp [hv]

theorem execSeqRun_kept (t : Tkt) (s sN : State) (h : execSeqRun t s = .next sN) :
    Kept s sN := by
  unfold Kept
  unfold execSeqRun at h; (try dsimp only at h); exact runTicket_kept h fun v hv => by (try dsimp only); (repeat' split) <;> simp [hv]

theorem execSeqSkip_kept (t : Tkt) (s sN : State) (h : execSeqSkip t s = .next sN) :
    Kept s sN := by
  unfold Kept
  unfold execSeqSkip at h; (try dsimp only at h); exact runTicket_kept h fun v hv => by (try dsimp only); (repeat' split) <;> simp [hv]

theorem execSeqAbort_kept (t : Tkt) (s sN : State) (h : execSeqAbort t s = .next sN) :
    Kept s sN := by
  unfold Kept
  unfold execSeqAbort at h; (try dsimp only at h); exact runTicket_kept h fun v hv => by (try dsimp only); (repeat' split) <;> simp [hv]

theorem execRiseFail_kept (n : Prog) (s sN : State) (h : execRiseFail n s = .next sN) :
    Kept s sN := by
  unfold Kept
  unfold execRiseFail at h; (try dsimp only at h); (repeat' split at h) <;> cases h <;> simp

theorem execSeqWaitEnd_kept (n : Prog) (s sN : State) (h : execSeqWaitEnd n s = .next sN) :
    Kept s sN := by
  unfold Kept
  unfold execSeqWaitEnd at h; (try dsimp only at h); (repeat' split at h) <;> cases h <;> simp

theorem execSeqStall_kept (n : Prog) (s sN : State) (h : execSeqStall n s = .next sN) :
    Kept s sN := by
  unfold Kept
  unfold execSeqStall at h; (try dsimp only at h); (repeat' split at h) <;> cases h <;> simp

theorem execBarrierArrival_kept (rx : RxIn) (dev : Nat) (n : Prog) (a : Arrival) (s sN : State) (h : execBarrierArrival rx dev n a s = .next sN) :
    Kept s sN := by
  unfold Kept
  unfold execBarrierArrival at h; (try dsimp only at h); (repeat' split at h) <;> cases h <;> simp

theorem execBarrierTimeout_kept (n : Prog) (s sN : State) (h : execBarrierTimeout n s = .next sN) :
    Kept s sN := by
  unfold Kept
  unfold execBarrierTimeout at h; (try dsimp only at h); (repeat' split at h) <;> cases h <;> simp

theorem execFeedLost_kept (f : Feed) (cause : FeedCause) (s sN : State) (h : execFeedLost f cause s = .next sN) :
    Kept s sN := by
  unfold Kept
  unfold execFeedLost at h; (try dsimp only at h); (repeat' split at h) <;> cases h <;> simp

theorem execFeedPresent_kept (f : Feed) (s sN : State) (h : execFeedPresent f s = .next sN) :
    Kept s sN := by
  unfold Kept
  unfold execFeedPresent at h; (try dsimp only at h); (repeat' split at h) <;> cases h <;> simp

theorem execFeedReturn_kept (s sN : State) (h : execFeedReturn s = .next sN) :
    Kept s sN := by
  unfold Kept
  unfold execFeedReturn at h; (try dsimp only at h); (repeat' split at h) <;> cases h <;> simp

theorem execFeedRev_kept (f : Feed) (s sN : State) (h : execFeedRev f s = .next sN) :
    Kept s sN := by
  unfold Kept
  unfold execFeedRev at h; (try dsimp only at h); (repeat' split at h) <;> cases h <;> simp

theorem execFeedOv_kept (f : Feed) (s sN : State) (h : execFeedOv f s = .next sN) :
    Kept s sN := by
  unfold Kept
  unfold execFeedOv at h; (try dsimp only at h); (repeat' split at h) <;> cases h <;> simp

theorem execHkPowerGood_kept (k : Hk) (good : Bool) (s sN : State) (h : execHkPowerGood k good s = .next sN) :
    Kept s sN := by
  unfold Kept
  unfold execHkPowerGood at h; (try dsimp only at h); (repeat' split at h) <;> cases h <;> simp

theorem execHkExcursion_kept (k : Hk) (_above : Bool) (s sN : State) (h : execHkExcursion k _above s = .next sN) :
    Kept s sN := by
  unfold Kept
  unfold execHkExcursion at h; (try dsimp only at h); (repeat' split at h) <;> cases h <;> simp

theorem execHkSwitch_kept (t : Tkt) (s sN : State) (h : execHkSwitch t s = .next sN) :
    Kept s sN := by
  unfold Kept
  unfold execHkSwitch at h; (try dsimp only at h); exact runTicket_kept h fun v hv => by (try dsimp only); (repeat' split) <;> simp [hv]

theorem execPackOn_kept (s sN : State) (h : execPackOn s = .next sN) :
    Kept s sN := by
  unfold Kept
  unfold execPackOn at h; cases h; simp

theorem execPackOpenTimeEnd_kept (s sN : State) (h : execPackOpenTimeEnd s = .next sN) :
    Kept s sN := by
  unfold Kept
  unfold execPackOpenTimeEnd at h; (try dsimp only at h); (repeat' split at h) <;> cases h <;> simp

theorem execPackSwitchOpen_kept (t : Tkt) (s sN : State) (h : execPackSwitchOpen t s = .next sN) :
    Kept s sN := by
  unfold Kept
  unfold execPackSwitchOpen at h; (try dsimp only at h); exact runTicket_kept h fun v hv => by (try dsimp only); (repeat' split) <;> simp [hv]

theorem execPackSwitchRelease_kept (t : Tkt) (s sN : State) (h : execPackSwitchRelease t s = .next sN) :
    Kept s sN := by
  unfold Kept
  unfold execPackSwitchRelease at h; (try dsimp only at h); exact runTicket_kept h fun v hv => by (try dsimp only); (repeat' split) <;> simp [hv]

theorem execChgTimeout_kept (s sN : State) (h : execChgTimeout s = .next sN) :
    Kept s sN := by
  unfold Kept
  unfold execChgTimeout at h; (try dsimp only at h); (repeat' split at h) <;> cases h <;> simp

theorem execPackRemoved_kept (s sN : State) (h : execPackRemoved s = .next sN) :
    Kept s sN := by
  unfold Kept
  unfold execPackRemoved at h; (try dsimp only at h); (repeat' split at h) <;> cases h <;> simp

theorem execReadmitCharger_kept (t : Tkt) (s sN : State) (h : execReadmitCharger t s = .next sN) :
    Kept s sN := by
  unfold Kept
  unfold execReadmitCharger at h; (try dsimp only at h); exact runTicket_kept h fun v hv => by (try dsimp only); (repeat' split) <;> simp [hv]

theorem execChargerCheckEnd_kept (s sN : State) (h : execChargerCheckEnd s = .next sN) :
    Kept s sN := by
  unfold Kept
  unfold execChargerCheckEnd at h; (try dsimp only at h); (repeat' split at h) <;> cases h <;> simp

theorem execChgSet_kept (t : Tkt) (s sN : State) (h : execChgSet t s = .next sN) :
    Kept s sN := by
  unfold Kept
  unfold execChgSet at h; (try dsimp only at h); exact runTicket_kept h fun v hv => by (try dsimp only); (repeat' split) <;> simp [hv]

theorem execGaugeRestPoint_kept (s sN : State) (h : execGaugeRestPoint s = .next sN) :
    Kept s sN := by
  unfold Kept
  unfold execGaugeRestPoint at h; (try dsimp only at h); (repeat' split at h) <;> cases h <;> simp

theorem execGaugeCommit_kept (s sN : State) (h : execGaugeCommit s = .next sN) :
    Kept s sN := by
  unfold Kept
  unfold execGaugeCommit at h; (try dsimp only at h); (repeat' split at h) <;> cases h <;> simp

theorem execGaugeRead_kept (t : Tkt) (s sN : State) (h : execGaugeRead t s = .next sN) :
    Kept s sN := by
  unfold Kept
  unfold execGaugeRead at h; (try dsimp only at h); exact runTicket_kept h fun v hv => by (try dsimp only); (repeat' split) <;> simp [hv]

theorem execGaugeSetSoc_kept (t : Tkt) (s sN : State) (h : execGaugeSetSoc t s = .next sN) :
    Kept s sN := by
  unfold Kept
  unfold execGaugeSetSoc at h; (try dsimp only at h); exact runTicket_kept h fun v hv => by (try dsimp only); (repeat' split) <;> simp [hv]

theorem execGaugeReset_kept (t : Tkt) (s sN : State) (h : execGaugeReset t s = .next sN) :
    Kept s sN := by
  unfold Kept
  unfold execGaugeReset at h; (try dsimp only at h); exact runTicket_kept h fun v hv => by (try dsimp only); (repeat' split) <;> simp [hv]

theorem execSvcBtnPress_kept (s sN : State) (h : execSvcBtnPress s = .next sN) :
    Kept s sN := by
  unfold Kept
  unfold execSvcBtnPress at h; cases h; simp

theorem execSvcBtnHold_kept (s sN : State) (h : execSvcBtnHold s = .next sN) : Kept s sN := by
  unfold execSvcBtnHold at h
  extract_lets s1 s2 s3 s4 s5 s6 at h
  obtain rfl := Host.Outcome.next.inj h
  have h1 : Kept s s1 := by simp [s1, Kept]
  have h2 : Kept s1 s2 := Kept.fold (fun s f => by simp [Kept]) _ _
  have h3 : Kept s2 s3 := by simp [s3, Kept]
  have h4 : Kept s3 s4 := by unfold s4; split <;> simp [Kept]
  have h5 : Kept s4 s5 := by simp [s5, Kept]
  have := h1.trans (h2.trans (h3.trans (h4.trans h5)))
  clear_value s5
  exact this

theorem execShipArm_kept (t : Tkt) (s sN : State) (h : execShipArm t s = .next sN) :
    Kept s sN := by
  unfold Kept
  unfold execShipArm at h; (try dsimp only at h); exact runTicket_kept h fun v hv => by (try dsimp only); (repeat' split) <;> simp [hv]

theorem execShipCancel_kept (t : Tkt) (s sN : State) (h : execShipCancel t s = .next sN) :
    Kept s sN := by
  unfold Kept
  unfold execShipCancel at h; (try dsimp only at h); exact runTicket_kept h fun v hv => by (try dsimp only); (repeat' split) <;> simp [hv]

theorem execShipEffect_kept (s sN : State) (h : execShipEffect s = .next sN) :
    Kept s sN := by
  unfold Kept
  unfold execShipEffect at h; (try dsimp only at h); (repeat' split at h) <;> cases h <;> simp

end Sys2Proof.Machine
end

