-- ==== Sys2Proof/Laws/ExecRing.lean ====
section
/-! SUPPORT. What each command leaves alone, one lemma a command (`Kept`; `FuseKept` for a command that resets the device, blows
fuses or moves the beat count). -/

namespace Sys2Proof.Machine

set_option linter.all false

theorem execLinkTrained_kept (p : Side) (t : LinkTrain) (num hop : Nat) (s sN : State) (h : execLinkTrained p t num hop s = .next sN) :
    Kept s sN := by
  unfold Kept
  unfold execLinkTrained at h; (try dsimp only at h); (repeat' split at h) <;> cases h <;> simp

theorem execLaneDown_kept (p : Side) (s sN : State) (h : execLaneDown p s = .next sN) :
    Kept s sN := by
  unfold Kept
  unfold execLaneDown at h; cases h; simp

theorem execK281Received_kept (p : Side) (s sN : State) (h : execK281Received p s = .next sN) :
    Kept s sN := by
  unfold Kept
  unfold execK281Received at h; cases h; simp

theorem execLinkHeal_kept (p : Side) (s sN : State) (h : execLinkHeal p s = .next sN) :
    Kept s sN := by
  unfold Kept
  unfold execLinkHeal at h; (try dsimp only at h); (repeat' split at h) <;> cases h <;> simp

theorem execCutPacket_kept (rx : RxIn) (dev : Nat) (p : Side) (s sN : State) (h : execCutPacket rx dev p s = .next sN) :
    Kept s sN := by
  unfold Kept
  unfold execCutPacket at h; cases h; simp

theorem execLinkHealPacket_kept (rx : RxIn) (dev : Nat) (p : Side) (s sN : State) (h : execLinkHealPacket rx dev p s = .next sN) :
    Kept s sN := by
  unfold Kept
  unfold execLinkHealPacket at h; cases h; simp

theorem execRingSplit_kept (s sN : State) (h : execRingSplit s = .next sN) :
    Kept s sN := by
  unfold Kept
  unfold execRingSplit at h; (try dsimp only at h); (repeat' split at h) <;> cases h <;> simp

theorem execTrainingComplete_kept (ndev : Nat) (s sN : State) (h : execTrainingComplete ndev s = .next sN) :
    Kept s sN := by
  unfold Kept
  unfold execTrainingComplete at h; (try dsimp only at h); (repeat' split at h) <;> cases h <;> simp

theorem execRingTrainingTimeout_kept (s sN : State) (h : execRingTrainingTimeout s = .next sN) :
    Kept s sN := by
  unfold Kept
  unfold execRingTrainingTimeout at h; (try dsimp only at h); (repeat' split at h) <;> cases h <;> simp

theorem execTimePacket_fuseKept (rx : RxIn) (dev count late : Nat) (s sN : State) (h : execTimePacket rx dev count late s = .next sN) : FuseKept s sN := by
  unfold execTimePacket at h; obtain rfl := Host.Outcome.next.inj h
  refine .rx _ _ _ fun u => ?_
  dsimp only
  (repeat' split) <;> exact .of (by simp)

theorem execClockAdopt_fuseKept (s sN : State) (h : execClockAdopt s = .next sN) : FuseKept s sN := by
  unfold execClockAdopt at h
  split at h
  · dsimp only at h
    obtain rfl := Host.Outcome.next.inj h
    refine FuseKept.trans (.of ?_) (.bnd _ fun u => .of3 (by simp))
    simp
  · obtain rfl := Host.Outcome.next.inj h; exact .refl

theorem execReferenceChange_kept (s sN : State) (h : execReferenceChange s = .next sN) :
    Kept s sN := by
  unfold Kept
  unfold execReferenceChange at h; (try dsimp only at h); (repeat' split at h) <;> cases h <;> simp

theorem execRingAck_kept (rx : RxIn) (alarms tickets : Nat) (s sN : State) (h : execRingAck rx alarms tickets s = .next sN) :
    Kept s sN := by
  unfold Kept
  unfold execRingAck at h; cases h; simp

theorem execRingResend_kept (p : Side) (ticket : Bool) (s sN : State) (h : execRingResend p ticket s = .next sN) :
    Kept s sN := by
  unfold Kept
  unfold execRingResend at h; (try dsimp only at h); (repeat' split at h) <;> cases h <;> simp

theorem execRingTicketPacket_kept (rx : RxIn) (src raw : Nat) (s sN : State) (h : execRingTicketPacket rx src raw s = .next sN) : Kept s sN := by
  unfold execRingTicketPacket at h; obtain rfl := Host.Outcome.next.inj h
  refine Kept.rx _ _ _ fun u => ?_
  dsimp only
  (repeat' split) <;> simp [Kept]

theorem execForwardGap_kept (head : Nat) (s sN : State) (h : execForwardGap head s = .next sN) :
    Kept s sN := by
  unfold Kept
  unfold execForwardGap at h; (try dsimp only at h); (repeat' split at h) <;> cases h <;> simp

theorem execRingStubPacket_kept (rx : RxIn) (src : Nat) (i : StubIn) (s sN : State) (h : execRingStubPacket rx src i s = .next sN) : Kept s sN := by
  unfold execRingStubPacket at h; obtain rfl := Host.Outcome.next.inj h
  refine Kept.rx _ _ _ fun u => ?_
  dsimp only
  (repeat' split) <;> simp [Kept]

theorem execForwardStubTimeout_kept (dev : Nat) (s sN : State) (h : execForwardStubTimeout dev s = .next sN) :
    Kept s sN := by
  unfold Kept
  unfold execForwardStubTimeout at h; (try dsimp only at h); (repeat' split at h) <;> cases h <;> simp

theorem execPresencePacket_kept (rx : RxIn) (dev : Nat) (pr : Presence) (s sN : State) (h : execPresencePacket rx dev pr s = .next sN) :
    Kept s sN := by
  unfold Kept
  unfold execPresencePacket at h; cases h; simp

theorem execHeadAnnounce_kept (rx : RxIn) (dev first count : Nat) (s sN : State) (h : execHeadAnnounce rx dev first count s = .next sN) :
    Kept s sN := by
  unfold Kept
  unfold execHeadAnnounce at h; cases h; simp

theorem execAlarmReportReceive_kept (rx : RxIn) (dev kind : Nat) (a : AlarmRep) (s sN : State) (h : execAlarmReportReceive rx dev kind a s = .next sN) :
    Kept s sN := by
  unfold Kept
  unfold execAlarmReportReceive at h; cases h; simp

theorem execRingTelemetryPacket_kept (rx : RxIn) (x : TelemIn) (ga : Nat) (ia : Int) (gb : Nat) (ib : Int) (s sN : State) (h : execRingTelemetryPacket rx x ga ia gb ib s = .next sN) :
    Kept s sN := by
  unfold Kept
  unfold execRingTelemetryPacket at h; split at h <;> (cases h; simp)

theorem execTracePacket_kept (rx : RxIn) (dev : Nat) (e : TraceEnt) (s sN : State) (h : execTracePacket rx dev e s = .next sN) : Kept s sN := by
  unfold execTracePacket at h; obtain rfl := Host.Outcome.next.inj h
  refine Kept.rx _ _ _ fun u => ?_
  dsimp only
  (repeat' split) <;> simp [Kept]

theorem execChainDeviceCheckEnd_kept (dev : Nat) (s sN : State) (h : execChainDeviceCheckEnd dev s = .next sN) :
    Kept s sN := by
  unfold Kept
  unfold execChainDeviceCheckEnd at h; (try dsimp only at h); (repeat' split at h) <;> cases h <;> simp

theorem execOwnershipRecord_kept (rx : RxIn) (rec : OwnRec) (s sN : State) (h : execOwnershipRecord rx rec s = .next sN) :
    Kept s sN := by
  unfold Kept
  unfold execOwnershipRecord at h; cases h; simp

theorem execClaimPart_kept (t : Tkt) (s sN : State) (h : execClaimPart t s = .next sN) :
    Kept s sN := by
  unfold Kept
  unfold execClaimPart at h; (try dsimp only at h); exact signedPart_kept h fun v hv => by (try dsimp only); (repeat' split) <;> simp [hv]

theorem execClaim_kept (t : Tkt) (s sN : State) (h : execClaim t s = .next sN) :
    Kept s sN := by
  unfold Kept
  unfold execClaim at h; (try dsimp only at h); exact signedPart_kept h fun v hv => by (try dsimp only); (repeat' split) <;> simp [hv]

theorem execClaimVerifyDone_kept (c : Nat) (s sN : State) (h : execClaimVerifyDone c s = .next sN) :
    Kept s sN := by
  unfold Kept
  unfold execClaimVerifyDone at h; (try dsimp only at h); (repeat' split at h) <;> cases h <;> simp

theorem execClaimResult_kept (rx : RxIn) (cl : ClaimMsg) (s sN : State) (h : execClaimResult rx cl s = .next sN) : Kept s sN := by
  unfold execClaimResult at h; obtain rfl := Host.Outcome.next.inj h
  refine Kept.rx _ _ _ fun u => ?_
  (repeat' split) <;> simp [Kept]

theorem execClaimDecision_kept (s sN : State) (h : execClaimDecision s = .next sN) :
    Kept s sN := by
  unfold Kept
  unfold execClaimDecision at h; (try dsimp only at h); (repeat' split at h) <;> cases h <;> simp

theorem execEpochCommit_fuseKept (rx : RxIn) (dev epoch key : Nat) (s sN : State) (h : execEpochCommit rx dev epoch key s = .next sN) : FuseKept s sN := by
  unfold execEpochCommit at h; obtain rfl := Host.Outcome.next.inj h
  refine .rx _ _ _ fun u => ?_
  extract_lets s1 again s2 a1 a2 s3
  have h1 : FuseKept u s1 := .of3 (by simp [s1])
  split
  · exact h1
  · have h2 : FuseKept s1 s2 := .of3 (by simp [s2])
    refine h1.trans (h2.trans ?_)
    refine FuseKept.trans (b := s3) ?_ (.of3 (by simp))
    unfold s3
    split
    · exact .refl
    · split
      · exact (FuseKept.of ⟨rfl, rfl⟩).trans (.revoke _)
      · split <;> exact .of ⟨rfl, rfl⟩

theorem execEpochAck_kept (rx : RxIn) (dev : Nat) (s sN : State) (h : execEpochAck rx dev s = .next sN) :
    Kept s sN := by
  unfold Kept
  unfold execEpochAck at h; cases h; simp

theorem execOwnerRecordEffect_kept (s sN : State) (h : execOwnerRecordEffect s = .next sN) : Kept s sN := by
  unfold execOwnerRecordEffect at h
  split at h
  · obtain rfl := Host.Outcome.next.inj h; exact .refl
  · split at h <;> obtain rfl := Host.Outcome.next.inj h
    · exact .refl
    · refine Kept.bnd _ fun u => ?_
      dsimp only
      (repeat' split) <;> simp [Kept]

theorem execOwnerDead_kept (s sN : State) (h : execOwnerDead s = .next sN) :
    Kept s sN := by
  unfold Kept
  unfold execOwnerDead at h; (try dsimp only at h); (repeat' split at h) <;> cases h <;> simp

theorem execHeartbeat_kept (t : Tkt) (s sN : State) (h : execHeartbeat t s = .next sN) :
    Kept s sN := by
  unfold Kept
  unfold execHeartbeat at h; (try dsimp only at h); exact runTicket_kept h fun v hv => by (try dsimp only); (repeat' split) <;> simp [hv]

theorem execHeartbeatForward_kept (rx : RxIn) (dev round : Nat) (ended : Bool) (s sN : State) (h : execHeartbeatForward rx dev round ended s = .next sN) :
    Kept s sN := by
  unfold Kept
  unfold execHeartbeatForward at h; cases h; simp

theorem execHandover_kept (t : Tkt) (s sN : State) (h : execHandover t s = .next sN) :
    Kept s sN := by
  unfold Kept
  unfold execHandover at h; (try dsimp only at h); exact runTicket_kept h fun v hv => by (try dsimp only); (repeat' split) <;> simp [hv]

theorem execOwnerRead_kept (t : Tkt) (s sN : State) (h : execOwnerRead t s = .next sN) :
    Kept s sN := by
  unfold Kept
  unfold execOwnerRead at h; (try dsimp only at h); exact runTicket_kept h fun v hv => by (try dsimp only); (repeat' split) <;> simp [hv]

theorem execLockoutEnd_kept (port : OPort) (s sN : State) (h : execLockoutEnd port s = .next sN) :
    Kept s sN := by
  unfold Kept
  unfold execLockoutEnd at h; (try dsimp only at h); (repeat' split at h) <;> cases h <;> simp

theorem execReadmitHostPort_kept (t : Tkt) (s sN : State) (h : execReadmitHostPort t s = .next sN) :
    Kept s sN := by
  unfold Kept
  unfold execReadmitHostPort at h; (try dsimp only at h); exact runTicket_kept h fun v hv => by (try dsimp only); (repeat' split) <;> simp [hv]

theorem execPortCheckEnd_kept (port : OPort) (s sN : State) (h : execPortCheckEnd port s = .next sN) :
    Kept s sN := by
  unfold Kept
  unfold execPortCheckEnd at h; (try dsimp only at h); (repeat' split at h) <;> cases h <;> simp

theorem execBenchChainDevice_kept (t : Tkt) (s sN : State) (h : execBenchChainDevice t s = .next sN) :
    Kept s sN := by
  unfold Kept
  unfold execBenchChainDevice at h; (try dsimp only at h); exact runTicket_kept h fun v hv => by (try dsimp only); (repeat' split) <;> simp [hv]

theorem execReadmitChainDevice_kept (t : Tkt) (s sN : State) (h : execReadmitChainDevice t s = .next sN) :
    Kept s sN := by
  unfold Kept
  unfold execReadmitChainDevice at h; (try dsimp only at h); exact runTicket_kept h fun v hv => by (try dsimp only); (repeat' split) <;> simp [hv]

theorem execTurnstileTicketTail_kept (c w entry : Nat) (s sN : State) (h : execTurnstileTicketTail c w entry s = .next sN) :
    Kept s sN := by
  unfold Kept
  unfold execTurnstileTicketTail at h; (try dsimp only at h); (repeat' split at h) <;> cases h <;> simp

theorem execTurnstileStubHead_kept (c w entry : Nat) (s sN : State) (h : execTurnstileStubHead c w entry s = .next sN) :
    Kept s sN := by
  unfold Kept
  unfold execTurnstileStubHead at h; (try dsimp only at h); (repeat' split at h) <;> cases h <;> simp

theorem execTurnstileEventHead_kept (c : Nat) (x : TsWrite) (s sN : State) (h : execTurnstileEventHead c x s = .next sN) :
    Kept s sN := by
  unfold Kept
  unfold execTurnstileEventHead at h; (try dsimp only at h); (repeat' split at h) <;> cases h <;> simp

theorem execGenerationAdopt_kept (c gen : Nat) (s sN : State) (h : execGenerationAdopt c gen s = .next sN) :
    Kept s sN := by
  unfold Kept
  unfold execGenerationAdopt at h; (try dsimp only at h); (repeat' split at h) <;> cases h <;> simp

theorem execStaleCompletion_kept (c gen n : Nat) (s sN : State) (h : execStaleCompletion c gen n s = .next sN) :
    Kept s sN := by
  unfold Kept
  unfold execStaleCompletion at h; (try dsimp only at h); (repeat' split at h) <;> cases h <;> simp

theorem execTicketFetch_kept (c entry : Nat) (data : List Nat) (s sN : State) (h : execTicketFetch c entry data s = .next sN) :
    Kept s sN := by
  unfold Kept
  unfold execTicketFetch at h; (try dsimp only at h); (repeat' split at h) <;> cases h <;> simp

theorem execDmaErr_kept (c op seq gen : Nat) (err : DmaFault) (s sN : State) (h : execDmaErr c op seq gen err s = .next sN) :
    Kept s sN := by
  unfold Kept
  unfold execDmaErr at h; (try dsimp only at h); (repeat' split at h) <;> cases h <;> simp

theorem execStubWrite_kept (c : Nat) (s sN : State) (h : execStubWrite c s = .next sN) :
    Kept s sN := by
  unfold Kept
  unfold execStubWrite at h; (try dsimp only at h); (repeat' split at h) <;> cases h <;> simp

theorem execStubStall_kept (c : Nat) (s sN : State) (h : execStubStall c s = .next sN) :
    Kept s sN := by
  unfold Kept
  unfold execStubStall at h; (try dsimp only at h); (repeat' split at h) <;> cases h <;> simp

theorem execEventWrite_kept (s sN : State) (h : execEventWrite s = .next sN) :
    Kept s sN := by
  unfold Kept
  unfold execEventWrite at h; (try dsimp only at h); (repeat' split at h) <;> cases h <;> simp

theorem execHostCtlEnSet_kept (v : Nat) (s sN : State) (h : execHostCtlEnSet v s = .next sN) :
    Kept s sN := by
  unfold Kept
  unfold execHostCtlEnSet at h; (try dsimp only at h); (repeat' split at h) <;> cases h <;> simp

theorem execHostCtlEnClear_kept (v : Nat) (s sN : State) (h : execHostCtlEnClear v s = .next sN) :
    Kept s sN := by
  unfold Kept
  unfold execHostCtlEnClear at h; (try dsimp only at h); (repeat' split at h) <;> cases h <;> simp

theorem execPcieLinkDown_kept (s sN : State) (h : execPcieLinkDown s = .next sN) :
    Kept s sN := by
  unfold Kept
  unfold execPcieLinkDown at h; (try dsimp only at h); (repeat' split at h) <;> cases h <;> simp

theorem execPcieLinkUp_kept (x : PcieUp) (s sN : State) (h : execPcieLinkUp x s = .next sN) :
    Kept s sN := by
  unfold Kept
  unfold execPcieLinkUp at h; (try dsimp only at h); (repeat' split at h) <;> cases h <;> simp

theorem execPcieHotReset_kept (s sN : State) (h : execPcieHotReset s = .next sN) :
    Kept s sN := by
  unfold Kept
  unfold execPcieHotReset at h; cases h; simp

theorem execImageWrite_kept (t : Tkt) (s sN : State) (h : execImageWrite t s = .next sN) :
    Kept s sN := by
  unfold Kept
  unfold execImageWrite at h; (try dsimp only at h); exact runTicket_kept h fun v hv => by (try dsimp only); (repeat' split) <;> simp [hv]

theorem execImageCommit_kept (t : Tkt) (s sN : State) (h : execImageCommit t s = .next sN) :
    Kept s sN := by
  unfold Kept
  unfold execImageCommit at h; (try dsimp only at h); exact runTicket_kept h fun v hv => by (try dsimp only); (repeat' split) <;> simp [hv]

theorem execOverlayWrite_kept (t : Tkt) (s sN : State) (h : execOverlayWrite t s = .next sN) :
    Kept s sN := by
  unfold Kept
  unfold execOverlayWrite at h; (try dsimp only at h); exact runTicket_kept h fun v hv => by (try dsimp only); (repeat' split) <;> simp [hv]

theorem execOverlayCommit_kept (t : Tkt) (s sN : State) (h : execOverlayCommit t s = .next sN) :
    Kept s sN := by
  unfold Kept
  unfold execOverlayCommit at h; (try dsimp only at h); exact runTicket_kept h fun v hv => by (try dsimp only); (repeat' split) <;> simp [hv]

theorem execOverlaySelect_kept (t : Tkt) (s sN : State) (h : execOverlaySelect t s = .next sN) :
    Kept s sN := by
  unfold Kept
  unfold execOverlaySelect at h; (try dsimp only at h); exact runTicket_kept h fun v hv => by (try dsimp only); (repeat' split) <;> simp [hv]

theorem execFuseWrite_kept (t : Tkt) (s sN : State) (h : execFuseWrite t s = .next sN) :
    Kept s sN := by
  unfold Kept
  unfold execFuseWrite at h; (try dsimp only at h); exact runTicket_kept h fun v hv => by (try dsimp only); (repeat' split) <;> simp [hv]

theorem execFuseWriteDone_fuseKept (ok : Bool) (s sN : State) (h : execFuseWriteDone ok s = .next sN) : FuseKept s sN := by
  unfold execFuseWriteDone at h
  split at h <;> obtain rfl := Host.Outcome.next.inj h
  · exact .refl
  · rename_i w _
    exact FuseKept.trans (b := (s.programAll (fuseDies w.die w.row) w.row w.data ok).2) ⟨by simp, s.programAll_fusesKept _ _ _ _⟩ (.of ⟨rfl, rfl⟩)

theorem execVoidingDone_fuseKept (verified : Bool) (s sN : State) (h : execVoidingDone verified s = .next sN) : FuseKept s sN := by
  unfold execVoidingDone at h
  split at h
  · obtain rfl := Host.Outcome.next.inj h; exact .refl
  · dsimp only at h
    split at h <;> obtain rfl := Host.Outcome.next.inj h
    · exact .void _
    · refine (FuseKept.void s).trans (.of3 ?_)
      split <;> simp

theorem execDebugUnlockPart_kept (t : Tkt) (s sN : State) (h : execDebugUnlockPart t s = .next sN) :
    Kept s sN := by
  unfold Kept
  unfold execDebugUnlockPart at h; (try dsimp only at h); exact signedPart_kept h fun v hv => by (try dsimp only); (repeat' split) <;> simp [hv]

theorem execDebugUnlock_fuseKept (t : Tkt) (held : Bool) (s sN : State) (h : execDebugUnlock t held s = .next sN) : FuseKept s sN := by
  unfold execDebugUnlock at h
  dsimp only at h
  refine signedPart_fuseKept h fun u => ?_
  split
  · exact .of3 (by simp)
  · refine (FuseKept.of3 (t := (u.dropParts t.client).queued t) (by simp)).trans ?_
    refine FuseKept.trans (b := ((u.dropParts t.client).queued t |>.draw (2 ^ 64)).2) (.of3 (by simp)) ?_
    refine FuseKept.trans ⟨?_, State.fusesKept_modOtp _ 2 _ ?_⟩ (.of ⟨rfl, rfl⟩)
    · simp
    · split
      · exact OtpDie.le_blow _ _ _
      · exact OtpDie.le_refl _

theorem execAttest_kept (t : Tkt) (s sN : State) (h : execAttest t s = .next sN) :
    Kept s sN := by
  unfold Kept
  unfold execAttest at h; (try dsimp only at h); exact runTicket_kept h fun v hv => by (try dsimp only); (repeat' split) <;> simp [hv]

theorem execPowerFail_fuseKept (s sN : State) (h : execPowerFail s = .next sN) : FuseKept s sN := by
  unfold execPowerFail at h; obtain rfl := Host.Outcome.next.inj h
  dsimp only
  refine (FuseKept.tearFuse s).trans (.of3 ?_)
  (repeat' split) <;> simp

theorem execSvcBtnResetEnd_fuseKept (s sN : State) (h : execSvcBtnResetEnd s = .next sN) : FuseKept s sN := by
  unfold execSvcBtnResetEnd at h
  split at h
  · obtain rfl := Host.Outcome.next.inj h; exact .refl
  · dsimp only at h
    (repeat' split at h) <;> obtain rfl := Host.Outcome.next.inj h
    · exact .refl
    · exact (FuseKept.resetTo s 2 3).trans (.of ⟨rfl, rfl⟩)
    · exact (FuseKept.resetTo s 2 0).trans (.of ⟨rfl, rfl⟩)

theorem execShipEnd_fuseKept (s sN : State) (h : execShipEnd s = .next sN) : FuseKept s sN := by
  unfold execShipEnd at h
  split at h <;> obtain rfl := Host.Outcome.next.inj h
  · exact .resetTo _ _ _
  · exact .refl

theorem execSupplyReset_fuseKept (s sN : State) (h : execSupplyReset s = .next sN) : FuseKept s sN := by
  unfold execSupplyReset at h
  split at h <;> obtain rfl := Host.Outcome.next.inj h
  · exact .resetTo _ _ _
  · exact .refl

theorem execVaonRise_fuseKept (v : VaonIn) (s sN : State) (h : execVaonRise v s = .next sN) : FuseKept s sN := by
  unfold execVaonRise at h
  split at h
  · obtain rfl := Host.Outcome.next.inj h; exact .refl
  · extract_lets ship s1 s2 at h
    obtain rfl := Host.Outcome.next.inj h
    have h1 : FuseKept s s1 := by
      unfold s1; split
      · exact .of3 (by simp)
      · split <;> exact .resetTo _ _ _
    have h2 : FuseKept s1 s2 := by unfold s2; split <;> exact .of3 (by simp)
    exact h1.trans (h2.trans (.of ⟨rfl, rfl⟩))

theorem execStartupAonDone_kept (memOk xtalOk : Bool) (s sN : State) (h : execStartupAonDone memOk xtalOk s = .next sN) :
    Kept s sN := by
  unfold Kept
  unfold execStartupAonDone at h; (try dsimp only at h); (repeat' split at h) <;> cases h <;> simp

theorem execOtpCheck_fuseKept (s sN : State) (h : execOtpCheck s = .next sN) : FuseKept s sN := by
  unfold execOtpCheck at h
  split at h
  · obtain rfl := Host.Outcome.next.inj h; exact .refl
  · extract_lets ecc a0 s0 s1 s2 bad a3 s3 s3n a4 net a5 s4 s5 at h
    have h1 : FuseKept s s1 := (FuseKept.of3 (t := s0) (by simp [s0])).trans (.fold (fun u e => .of3 (by simp)) _ _)
    have h2 : FuseKept s1 s2 := by
      unfold s2; split
      · exact (FuseKept.void _).trans (.of3 (by simp))
      · exact .refl
    have h3 : FuseKept s2 s3 := .of ⟨rfl, rfl⟩
    have h4 : FuseKept s3 s4 := .of ⟨rfl, rfl⟩
    have h5 : FuseKept s4 s5 := by unfold s5; split <;> exact .of3 (by simp)
    have h05 := h1.trans (h2.trans (h3.trans (h4.trans h5)))
    clear_value s5 s3
    split at h <;> obtain rfl := Host.Outcome.next.inj h
    · exact h1.trans (h2.trans (h3.trans (.of ⟨rfl, rfl⟩)))
    · exact h05.trans (.of3 (by simp))

theorem execSelfTestDone_kept (a b p : Nat) (s sN : State) (h : execSelfTestDone a b p s = .next sN) :
    Kept s sN := by
  unfold execSelfTestDone at h
  split at h
  · obtain rfl := Host.Outcome.next.inj h; exact .refl
  · extract_lets a1 b1 p1 s1 s2 a2 s3 fa fb u1 u2 b3 v1 v2 b4 w1 w2 b5 u at h
    have h3 : Kept s s3 := by simp [s3, s2, s1, Kept]
    obtain rfl := Host.Outcome.next.inj h
    have hu : Kept s3 u := by unfold u; (repeat' split) <;> simp [u2, u1, v2, v1, w2, w1, Kept]
    clear_value u
    exact h3.trans (hu.trans (by simp [Kept]))

theorem execImageLoad_kept (s sN : State) (h : execImageLoad s = .next sN) :
    Kept s sN := by
  unfold Kept
  unfold execImageLoad at h; (try dsimp only at h); (repeat' split at h) <;> cases h <;> simp

theorem execOwnerWaitEnd_kept (s sN : State) (h : execOwnerWaitEnd s = .next sN) :
    Kept s sN := by
  unfold Kept
  unfold execOwnerWaitEnd at h; (try dsimp only at h); (repeat' split at h) <;> cases h <;> simp

theorem execSequenceStep_kept (s sN : State) (h : execSequenceStep s = .next sN) :
    Kept s sN := by
  unfold Kept
  unfold execSequenceStep at h; (try dsimp only at h); (repeat' split at h) <;> cases h <;> simp

theorem execSupplyMonitorTrip_kept (k : Supply) (s sN : State) (h : execSupplyMonitorTrip k s = .next sN) :
    Kept s sN := by
  unfold Kept
  unfold execSupplyMonitorTrip at h; (try dsimp only at h); (repeat' split at h) <;> cases h <;> simp

end Sys2Proof.Machine
end

