-- ==== Sys2Proof/Laws/Mem.lean ====
section
/-! SUPPORT. Every operation on an addressed buffer keeps its canonical form, and the buffers of the reset state have it. -/

namespace Sys2Proof.Machine

/-- Every address of a buffer is above `a`. -/
def Mem.above (a : Nat) (m : Mem) : Prop := ∀ c ∈ m, a < c.1

theorem Mem.wf_cons (c : Host.Cell) (m : Mem) : Mem.wf (c :: m) = true ↔ c.2 ≠ memDefault ∧ Mem.above c.1 m ∧ Mem.wf m = true := by
  induction m generalizing c with
  | nil => simp [Mem.wf, Mem.above]
  | cons d r ih =>
    have h := ih d
    simp only [Mem.wf, Bool.and_eq_true, bne_iff_ne, ne_eq, decide_eq_true_eq]
    constructor
    · rintro ⟨⟨h1, h2⟩, h3⟩
      refine ⟨h1, ?_, h3⟩
      intro x hx
      rcases List.mem_cons.mp hx with rfl | hx
      · exact h2
      · exact lt_trans h2 ((h.mp h3).2.1 x hx)
    · rintro ⟨h1, h2, h3⟩
      exact ⟨⟨h1, h2 d (List.mem_cons_self ..)⟩, h3⟩

theorem Mem.write_above {m : Mem} {a x : Nat} {b : Byte} (h : Mem.above x m) (hx : x < a) : Mem.above x (Mem.write m a b) := by
  induction m with
  | nil =>
    unfold Mem.write
    split
    · exact h
    · intro c hc
      rw [List.mem_singleton] at hc
      rw [hc]
      exact hx
  | cons d r ih =>
    have hr : Mem.above x r := fun c hc => h c (List.mem_cons_of_mem _ hc)
    have hd : x < d.1 := h d (List.mem_cons_self ..)
    obtain ⟨y, v⟩ := d
    unfold Mem.write
    split
    · split
      · exact h
      · intro c hc
        rcases List.mem_cons.mp hc with rfl | hc
        · exact hx
        · exact h c hc
    · split
      · split
        · exact hr
        · intro c hc
          rcases List.mem_cons.mp hc with rfl | hc
          · exact hx
          · exact hr c hc
      · intro c hc
        rcases List.mem_cons.mp hc with rfl | hc
        · exact hd
        · exact ih hr c hc

/-- Writing a byte keeps the canonical form. -/
theorem Mem.write_wf {m : Mem} (a : Nat) (b : Byte) (h : m.wf = true) : (Mem.write m a b).wf = true := by
  induction m with
  | nil =>
    unfold Mem.write
    split
    · rfl
    · rename_i hb
      rw [Mem.wf_cons]
      exact ⟨hb, fun _ hc => absurd hc (List.not_mem_nil), rfl⟩
  | cons d r ih =>
    obtain ⟨h1, h2, h3⟩ := (Mem.wf_cons d r).mp h
    obtain ⟨y, v⟩ := d
    unfold Mem.write
    split
    · rename_i ha
      split
      · exact h
      · rename_i hb
        rw [Mem.wf_cons]
        refine ⟨hb, ?_, h⟩
        intro c hc
        rcases List.mem_cons.mp hc with rfl | hc
        · exact ha
        · exact lt_trans ha (h2 c hc)
    · split
      · rename_i ha
        subst ha
        split
        · exact h3
        · rename_i hb
          rw [Mem.wf_cons]
          exact ⟨hb, h2, h3⟩
      · rw [Mem.wf_cons]
        exact ⟨h1, Mem.write_above h2 (by show y < a; omega), ih h3⟩

/-- Writing bytes keeps the canonical form. -/
theorem Mem.writeList_wf {m : Mem} (a : Nat) (l : List Nat) (h : m.wf = true) : (Mem.writeList m a l).wf = true := by
  induction l generalizing m a with
  | nil => exact h
  | cons b l ih => exact ih (a + 1) (Mem.write_wf a _ h)

/-- Writing to host memory keeps its canonical form. -/
theorem State.hostWrite_wf {s : State} (a : Nat) (l : List Nat) (h : s.host.hostMem.wf = true) : (s.hostWrite a l).host.hostMem.wf = true :=
  Mem.writeList_wf a l h

/-- The buffers of the reset state are in canonical form. -/
theorem reset_buffers_wf : State.reset.host.hostMem.wf = true ∧ State.reset.host.msix.wf = true ∧ State.reset.nvm.bundle.wf = true
    ∧ State.reset.nvm.staging.wf = true ∧ (∀ k : Fin 2, (State.reset.host.win[k.val]).tkt.wf = true ∧ (State.reset.host.win[k.val]).stub.wf = true
      ∧ (State.reset.host.win[k.val]).evt.wf = true ∧ (State.reset.host.win[k.val]).entry.wf = true) := by decide

end Sys2Proof.Machine
end

