-- ==== Sys2Proof/Laws/State.lean ====
section
/-! SUPPORT. What the plain updates of State change: one lemma per field per update, true by definition, and what a unit reads
after an update of it or of another. -/

namespace Sys2Proof.Machine

/-- What an updated entry of a vector reads. -/
@[simp] theorem upd_self {α : Type} {n : Nat} (v : Vector α n) (i : Fin n) (f : α → α) : (upd v i f)[i.val] = f v[i.val] := by simp [upd]
/-- The other entries of a vector stand. -/
theorem upd_other {α : Type} {n : Nat} (v : Vector α n) (i : Fin n) (f : α → α) (j : Nat) (h : j < n) (hj : j ≠ i.val) : (upd v i f)[j] = v[j] := by
  simp [upd, Ne.symm hj]
/-- Every entry of an updated vector. -/
theorem upd_get {α : Type} {n : Nat} (v : Vector α n) (i : Fin n) (f : α → α) (j : Nat) (h : j < n) : (upd v i f)[j] = if i.val = j then f v[j] else v[j] := by
  by_cases e : i.val = j
  · subst e; simp [upd]
  · rw [if_neg e, upd_other v i f j h (Ne.symm e)]

/-! ### modRail -/

@[simp] theorem State.modRail_time (s : State) (r : Rail) (f : RailSt → RailSt) : (s.modRail r f).time = s.time := rfl
@[simp] theorem State.modRail_ovr (s : State) (r : Rail) (f : RailSt → RailSt) : (s.modRail r f).ovr = s.ovr := rfl
@[simp] theorem State.modRail_arb (s : State) (r : Rail) (f : RailSt → RailSt) : (s.modRail r f).arb = s.arb := rfl
@[simp] theorem State.modRail_ph (s : State) (r : Rail) (f : RailSt → RailSt) : (s.modRail r f).ph = s.ph := rfl
@[simp] theorem State.modRail_phd (s : State) (r : Rail) (f : RailSt → RailSt) : (s.modRail r f).phd = s.phd := rfl
@[simp] theorem State.modRail_rail (s : State) (r : Rail) (f : RailSt → RailSt) : (s.modRail r f).rail = upd s.rail r f := rfl
@[simp] theorem State.modRail_raild (s : State) (r : Rail) (f : RailSt → RailSt) : (s.modRail r f).raild = s.raild := rfl
@[simp] theorem State.modRail_region (s : State) (r : Rail) (f : RailSt → RailSt) : (s.modRail r f).region = s.region := rfl
@[simp] theorem State.modRail_lend (s : State) (r : Rail) (f : RailSt → RailSt) : (s.modRail r f).lend = s.lend := rfl
@[simp] theorem State.modRail_gang (s : State) (r : Rail) (f : RailSt → RailSt) : (s.modRail r f).gang = s.gang := rfl
@[simp] theorem State.modRail_fc (s : State) (r : Rail) (f : RailSt → RailSt) : (s.modRail r f).fc = s.fc := rfl
@[simp] theorem State.modRail_orders (s : State) (r : Rail) (f : RailSt → RailSt) : (s.modRail r f).orders = s.orders := rfl
@[simp] theorem State.modRail_seq (s : State) (r : Rail) (f : RailSt → RailSt) : (s.modRail r f).seq = s.seq := rfl
@[simp] theorem State.modRail_feed (s : State) (r : Rail) (f : RailSt → RailSt) : (s.modRail r f).feed = s.feed := rfl
@[simp] theorem State.modRail_hk (s : State) (r : Rail) (f : RailSt → RailSt) : (s.modRail r f).hk = s.hk := rfl
@[simp] theorem State.modRail_pwr (s : State) (r : Rail) (f : RailSt → RailSt) : (s.modRail r f).pwr = s.pwr := rfl
@[simp] theorem State.modRail_pack (s : State) (r : Rail) (f : RailSt → RailSt) : (s.modRail r f).pack = s.pack := rfl
@[simp] theorem State.modRail_therm (s : State) (r : Rail) (f : RailSt → RailSt) : (s.modRail r f).therm = s.therm := rfl
@[simp] theorem State.modRail_mseq (s : State) (r : Rail) (f : RailSt → RailSt) : (s.modRail r f).mseq = s.mseq := rfl
@[simp] theorem State.modRail_conv (s : State) (r : Rail) (f : RailSt → RailSt) : (s.modRail r f).conv = s.conv := rfl
@[simp] theorem State.modRail_host (s : State) (r : Rail) (f : RailSt → RailSt) : (s.modRail r f).host = s.host := rfl
@[simp] theorem State.modRail_own (s : State) (r : Rail) (f : RailSt → RailSt) : (s.modRail r f).own = s.own := rfl
@[simp] theorem State.modRail_ring (s : State) (r : Rail) (f : RailSt → RailSt) : (s.modRail r f).ring = s.ring := rfl
@[simp] theorem State.modRail_log (s : State) (r : Rail) (f : RailSt → RailSt) : (s.modRail r f).log = s.log := rfl
@[simp] theorem State.modRail_wd (s : State) (r : Rail) (f : RailSt → RailSt) : (s.modRail r f).wd = s.wd := rfl
@[simp] theorem State.modRail_nvm (s : State) (r : Rail) (f : RailSt → RailSt) : (s.modRail r f).nvm = s.nvm := rfl
@[simp] theorem State.modRail_start (s : State) (r : Rail) (f : RailSt → RailSt) : (s.modRail r f).start = s.start := rfl
@[simp] theorem State.modRail_cfg (s : State) (r : Rail) (f : RailSt → RailSt) : (s.modRail r f).cfg = s.cfg := rfl
@[simp] theorem State.modRail_sched (s : State) (r : Rail) (f : RailSt → RailSt) : (s.modRail r f).sched = s.sched := rfl
@[simp] theorem State.modRail_fresh (s : State) (r : Rail) (f : RailSt → RailSt) : (s.modRail r f).fresh = s.fresh := rfl
@[simp] theorem State.modRail_pending (s : State) (r : Rail) (f : RailSt → RailSt) : (s.modRail r f).pending = s.pending := rfl

/-! ### modRailDie -/

@[simp] theorem State.modRailDie_time (s : State) (d : Cd) (r : Rail) (f : RailDie → RailDie) : (s.modRailDie d r f).time = s.time := rfl
@[simp] theorem State.modRailDie_ovr (s : State) (d : Cd) (r : Rail) (f : RailDie → RailDie) : (s.modRailDie d r f).ovr = s.ovr := rfl
@[simp] theorem State.modRailDie_arb (s : State) (d : Cd) (r : Rail) (f : RailDie → RailDie) : (s.modRailDie d r f).arb = s.arb := rfl
@[simp] theorem State.modRailDie_ph (s : State) (d : Cd) (r : Rail) (f : RailDie → RailDie) : (s.modRailDie d r f).ph = s.ph := rfl
@[simp] theorem State.modRailDie_phd (s : State) (d : Cd) (r : Rail) (f : RailDie → RailDie) : (s.modRailDie d r f).phd = s.phd := rfl
@[simp] theorem State.modRailDie_rail (s : State) (d : Cd) (r : Rail) (f : RailDie → RailDie) : (s.modRailDie d r f).rail = s.rail := rfl
@[simp] theorem State.modRailDie_raild (s : State) (d : Cd) (r : Rail) (f : RailDie → RailDie) : (s.modRailDie d r f).raild = upd s.raild d.ix fun v => upd v r f := rfl
@[simp] theorem State.modRailDie_region (s : State) (d : Cd) (r : Rail) (f : RailDie → RailDie) : (s.modRailDie d r f).region = s.region := rfl
@[simp] theorem State.modRailDie_lend (s : State) (d : Cd) (r : Rail) (f : RailDie → RailDie) : (s.modRailDie d r f).lend = s.lend := rfl
@[simp] theorem State.modRailDie_gang (s : State) (d : Cd) (r : Rail) (f : RailDie → RailDie) : (s.modRailDie d r f).gang = s.gang := rfl
@[simp] theorem State.modRailDie_fc (s : State) (d : Cd) (r : Rail) (f : RailDie → RailDie) : (s.modRailDie d r f).fc = s.fc := rfl
@[simp] theorem State.modRailDie_orders (s : State) (d : Cd) (r : Rail) (f : RailDie → RailDie) : (s.modRailDie d r f).orders = s.orders := rfl
@[simp] theorem State.modRailDie_seq (s : State) (d : Cd) (r : Rail) (f : RailDie → RailDie) : (s.modRailDie d r f).seq = s.seq := rfl
@[simp] theorem State.modRailDie_feed (s : State) (d : Cd) (r : Rail) (f : RailDie → RailDie) : (s.modRailDie d r f).feed = s.feed := rfl
@[simp] theorem State.modRailDie_hk (s : State) (d : Cd) (r : Rail) (f : RailDie → RailDie) : (s.modRailDie d r f).hk = s.hk := rfl
@[simp] theorem State.modRailDie_pwr (s : State) (d : Cd) (r : Rail) (f : RailDie → RailDie) : (s.modRailDie d r f).pwr = s.pwr := rfl
@[simp] theorem State.modRailDie_pack (s : State) (d : Cd) (r : Rail) (f : RailDie → RailDie) : (s.modRailDie d r f).pack = s.pack := rfl
@[simp] theorem State.modRailDie_therm (s : State) (d : Cd) (r : Rail) (f : RailDie → RailDie) : (s.modRailDie d r f).therm = s.therm := rfl
@[simp] theorem State.modRailDie_mseq (s : State) (d : Cd) (r : Rail) (f : RailDie → RailDie) : (s.modRailDie d r f).mseq = s.mseq := rfl
@[simp] theorem State.modRailDie_conv (s : State) (d : Cd) (r : Rail) (f : RailDie → RailDie) : (s.modRailDie d r f).conv = s.conv := rfl
@[simp] theorem State.modRailDie_host (s : State) (d : Cd) (r : Rail) (f : RailDie → RailDie) : (s.modRailDie d r f).host = s.host := rfl
@[simp] theorem State.modRailDie_own (s : State) (d : Cd) (r : Rail) (f : RailDie → RailDie) : (s.modRailDie d r f).own = s.own := rfl
@[simp] theorem State.modRailDie_ring (s : State) (d : Cd) (r : Rail) (f : RailDie → RailDie) : (s.modRailDie d r f).ring = s.ring := rfl
@[simp] theorem State.modRailDie_log (s : State) (d : Cd) (r : Rail) (f : RailDie → RailDie) : (s.modRailDie d r f).log = s.log := rfl
@[simp] theorem State.modRailDie_wd (s : State) (d : Cd) (r : Rail) (f : RailDie → RailDie) : (s.modRailDie d r f).wd = s.wd := rfl
@[simp] theorem State.modRailDie_nvm (s : State) (d : Cd) (r : Rail) (f : RailDie → RailDie) : (s.modRailDie d r f).nvm = s.nvm := rfl
@[simp] theorem State.modRailDie_start (s : State) (d : Cd) (r : Rail) (f : RailDie → RailDie) : (s.modRailDie d r f).start = s.start := rfl
@[simp] theorem State.modRailDie_cfg (s : State) (d : Cd) (r : Rail) (f : RailDie → RailDie) : (s.modRailDie d r f).cfg = s.cfg := rfl
@[simp] theorem State.modRailDie_sched (s : State) (d : Cd) (r : Rail) (f : RailDie → RailDie) : (s.modRailDie d r f).sched = s.sched := rfl
@[simp] theorem State.modRailDie_fresh (s : State) (d : Cd) (r : Rail) (f : RailDie → RailDie) : (s.modRailDie d r f).fresh = s.fresh := rfl
@[simp] theorem State.modRailDie_pending (s : State) (d : Cd) (r : Rail) (f : RailDie → RailDie) : (s.modRailDie d r f).pending = s.pending := rfl

/-! ### modPh -/

@[simp] theorem State.modPh_time (s : State) (p : Ph) (f : PhaseSt → PhaseSt) : (s.modPh p f).time = s.time := rfl
@[simp] theorem State.modPh_ovr (s : State) (p : Ph) (f : PhaseSt → PhaseSt) : (s.modPh p f).ovr = s.ovr := rfl
@[simp] theorem State.modPh_arb (s : State) (p : Ph) (f : PhaseSt → PhaseSt) : (s.modPh p f).arb = s.arb := rfl
@[simp] theorem State.modPh_ph (s : State) (p : Ph) (f : PhaseSt → PhaseSt) : (s.modPh p f).ph = upd s.ph p f := rfl
@[simp] theorem State.modPh_phd (s : State) (p : Ph) (f : PhaseSt → PhaseSt) : (s.modPh p f).phd = s.phd := rfl
@[simp] theorem State.modPh_rail (s : State) (p : Ph) (f : PhaseSt → PhaseSt) : (s.modPh p f).rail = s.rail := rfl
@[simp] theorem State.modPh_raild (s : State) (p : Ph) (f : PhaseSt → PhaseSt) : (s.modPh p f).raild = s.raild := rfl
@[simp] theorem State.modPh_region (s : State) (p : Ph) (f : PhaseSt → PhaseSt) : (s.modPh p f).region = s.region := rfl
@[simp] theorem State.modPh_lend (s : State) (p : Ph) (f : PhaseSt → PhaseSt) : (s.modPh p f).lend = s.lend := rfl
@[simp] theorem State.modPh_gang (s : State) (p : Ph) (f : PhaseSt → PhaseSt) : (s.modPh p f).gang = s.gang := rfl
@[simp] theorem State.modPh_fc (s : State) (p : Ph) (f : PhaseSt → PhaseSt) : (s.modPh p f).fc = s.fc := rfl
@[simp] theorem State.modPh_orders (s : State) (p : Ph) (f : PhaseSt → PhaseSt) : (s.modPh p f).orders = s.orders := rfl
@[simp] theorem State.modPh_seq (s : State) (p : Ph) (f : PhaseSt → PhaseSt) : (s.modPh p f).seq = s.seq := rfl
@[simp] theorem State.modPh_feed (s : State) (p : Ph) (f : PhaseSt → PhaseSt) : (s.modPh p f).feed = s.feed := rfl
@[simp] theorem State.modPh_hk (s : State) (p : Ph) (f : PhaseSt → PhaseSt) : (s.modPh p f).hk = s.hk := rfl
@[simp] theorem State.modPh_pwr (s : State) (p : Ph) (f : PhaseSt → PhaseSt) : (s.modPh p f).pwr = s.pwr := rfl
@[simp] theorem State.modPh_pack (s : State) (p : Ph) (f : PhaseSt → PhaseSt) : (s.modPh p f).pack = s.pack := rfl
@[simp] theorem State.modPh_therm (s : State) (p : Ph) (f : PhaseSt → PhaseSt) : (s.modPh p f).therm = s.therm := rfl
@[simp] theorem State.modPh_mseq (s : State) (p : Ph) (f : PhaseSt → PhaseSt) : (s.modPh p f).mseq = s.mseq := rfl
@[simp] theorem State.modPh_conv (s : State) (p : Ph) (f : PhaseSt → PhaseSt) : (s.modPh p f).conv = s.conv := rfl
@[simp] theorem State.modPh_host (s : State) (p : Ph) (f : PhaseSt → PhaseSt) : (s.modPh p f).host = s.host := rfl
@[simp] theorem State.modPh_own (s : State) (p : Ph) (f : PhaseSt → PhaseSt) : (s.modPh p f).own = s.own := rfl
@[simp] theorem State.modPh_ring (s : State) (p : Ph) (f : PhaseSt → PhaseSt) : (s.modPh p f).ring = s.ring := rfl
@[simp] theorem State.modPh_log (s : State) (p : Ph) (f : PhaseSt → PhaseSt) : (s.modPh p f).log = s.log := rfl
@[simp] theorem State.modPh_wd (s : State) (p : Ph) (f : PhaseSt → PhaseSt) : (s.modPh p f).wd = s.wd := rfl
@[simp] theorem State.modPh_nvm (s : State) (p : Ph) (f : PhaseSt → PhaseSt) : (s.modPh p f).nvm = s.nvm := rfl
@[simp] theorem State.modPh_start (s : State) (p : Ph) (f : PhaseSt → PhaseSt) : (s.modPh p f).start = s.start := rfl
@[simp] theorem State.modPh_cfg (s : State) (p : Ph) (f : PhaseSt → PhaseSt) : (s.modPh p f).cfg = s.cfg := rfl
@[simp] theorem State.modPh_sched (s : State) (p : Ph) (f : PhaseSt → PhaseSt) : (s.modPh p f).sched = s.sched := rfl
@[simp] theorem State.modPh_fresh (s : State) (p : Ph) (f : PhaseSt → PhaseSt) : (s.modPh p f).fresh = s.fresh := rfl
@[simp] theorem State.modPh_pending (s : State) (p : Ph) (f : PhaseSt → PhaseSt) : (s.modPh p f).pending = s.pending := rfl

/-! ### modPhDie -/

@[simp] theorem State.modPhDie_time (s : State) (d : Cd) (p : Ph) (f : PhDie → PhDie) : (s.modPhDie d p f).time = s.time := rfl
@[simp] theorem State.modPhDie_ovr (s : State) (d : Cd) (p : Ph) (f : PhDie → PhDie) : (s.modPhDie d p f).ovr = s.ovr := rfl
@[simp] theorem State.modPhDie_arb (s : State) (d : Cd) (p : Ph) (f : PhDie → PhDie) : (s.modPhDie d p f).arb = s.arb := rfl
@[simp] theorem State.modPhDie_ph (s : State) (d : Cd) (p : Ph) (f : PhDie → PhDie) : (s.modPhDie d p f).ph = s.ph := rfl
@[simp] theorem State.modPhDie_phd (s : State) (d : Cd) (p : Ph) (f : PhDie → PhDie) : (s.modPhDie d p f).phd = upd s.phd d.ix fun v => upd v p f := rfl
@[simp] theorem State.modPhDie_rail (s : State) (d : Cd) (p : Ph) (f : PhDie → PhDie) : (s.modPhDie d p f).rail = s.rail := rfl
@[simp] theorem State.modPhDie_raild (s : State) (d : Cd) (p : Ph) (f : PhDie → PhDie) : (s.modPhDie d p f).raild = s.raild := rfl
@[simp] theorem State.modPhDie_region (s : State) (d : Cd) (p : Ph) (f : PhDie → PhDie) : (s.modPhDie d p f).region = s.region := rfl
@[simp] theorem State.modPhDie_lend (s : State) (d : Cd) (p : Ph) (f : PhDie → PhDie) : (s.modPhDie d p f).lend = s.lend := rfl
@[simp] theorem State.modPhDie_gang (s : State) (d : Cd) (p : Ph) (f : PhDie → PhDie) : (s.modPhDie d p f).gang = s.gang := rfl
@[simp] theorem State.modPhDie_fc (s : State) (d : Cd) (p : Ph) (f : PhDie → PhDie) : (s.modPhDie d p f).fc = s.fc := rfl
@[simp] theorem State.modPhDie_orders (s : State) (d : Cd) (p : Ph) (f : PhDie → PhDie) : (s.modPhDie d p f).orders = s.orders := rfl
@[simp] theorem State.modPhDie_seq (s : State) (d : Cd) (p : Ph) (f : PhDie → PhDie) : (s.modPhDie d p f).seq = s.seq := rfl
@[simp] theorem State.modPhDie_feed (s : State) (d : Cd) (p : Ph) (f : PhDie → PhDie) : (s.modPhDie d p f).feed = s.feed := rfl
@[simp] theorem State.modPhDie_hk (s : State) (d : Cd) (p : Ph) (f : PhDie → PhDie) : (s.modPhDie d p f).hk = s.hk := rfl
@[simp] theorem State.modPhDie_pwr (s : State) (d : Cd) (p : Ph) (f : PhDie → PhDie) : (s.modPhDie d p f).pwr = s.pwr := rfl
@[simp] theorem State.modPhDie_pack (s : State) (d : Cd) (p : Ph) (f : PhDie → PhDie) : (s.modPhDie d p f).pack = s.pack := rfl
@[simp] theorem State.modPhDie_therm (s : State) (d : Cd) (p : Ph) (f : PhDie → PhDie) : (s.modPhDie d p f).therm = s.therm := rfl
@[simp] theorem State.modPhDie_mseq (s : State) (d : Cd) (p : Ph) (f : PhDie → PhDie) : (s.modPhDie d p f).mseq = s.mseq := rfl
@[simp] theorem State.modPhDie_conv (s : State) (d : Cd) (p : Ph) (f : PhDie → PhDie) : (s.modPhDie d p f).conv = s.conv := rfl
@[simp] theorem State.modPhDie_host (s : State) (d : Cd) (p : Ph) (f : PhDie → PhDie) : (s.modPhDie d p f).host = s.host := rfl
@[simp] theorem State.modPhDie_own (s : State) (d : Cd) (p : Ph) (f : PhDie → PhDie) : (s.modPhDie d p f).own = s.own := rfl
@[simp] theorem State.modPhDie_ring (s : State) (d : Cd) (p : Ph) (f : PhDie → PhDie) : (s.modPhDie d p f).ring = s.ring := rfl
@[simp] theorem State.modPhDie_log (s : State) (d : Cd) (p : Ph) (f : PhDie → PhDie) : (s.modPhDie d p f).log = s.log := rfl
@[simp] theorem State.modPhDie_wd (s : State) (d : Cd) (p : Ph) (f : PhDie → PhDie) : (s.modPhDie d p f).wd = s.wd := rfl
@[simp] theorem State.modPhDie_nvm (s : State) (d : Cd) (p : Ph) (f : PhDie → PhDie) : (s.modPhDie d p f).nvm = s.nvm := rfl
@[simp] theorem State.modPhDie_start (s : State) (d : Cd) (p : Ph) (f : PhDie → PhDie) : (s.modPhDie d p f).start = s.start := rfl
@[simp] theorem State.modPhDie_cfg (s : State) (d : Cd) (p : Ph) (f : PhDie → PhDie) : (s.modPhDie d p f).cfg = s.cfg := rfl
@[simp] theorem State.modPhDie_sched (s : State) (d : Cd) (p : Ph) (f : PhDie → PhDie) : (s.modPhDie d p f).sched = s.sched := rfl
@[simp] theorem State.modPhDie_fresh (s : State) (d : Cd) (p : Ph) (f : PhDie → PhDie) : (s.modPhDie d p f).fresh = s.fresh := rfl
@[simp] theorem State.modPhDie_pending (s : State) (d : Cd) (p : Ph) (f : PhDie → PhDie) : (s.modPhDie d p f).pending = s.pending := rfl

/-! ### modGang -/

@[simp] theorem State.modGang_time (s : State) (r : Rail) (f : GangSt → GangSt) : (s.modGang r f).time = s.time := rfl
@[simp] theorem State.modGang_ovr (s : State) (r : Rail) (f : GangSt → GangSt) : (s.modGang r f).ovr = s.ovr := rfl
@[simp] theorem State.modGang_arb (s : State) (r : Rail) (f : GangSt → GangSt) : (s.modGang r f).arb = s.arb := rfl
@[simp] theorem State.modGang_ph (s : State) (r : Rail) (f : GangSt → GangSt) : (s.modGang r f).ph = s.ph := rfl
@[simp] theorem State.modGang_phd (s : State) (r : Rail) (f : GangSt → GangSt) : (s.modGang r f).phd = s.phd := rfl
@[simp] theorem State.modGang_rail (s : State) (r : Rail) (f : GangSt → GangSt) : (s.modGang r f).rail = s.rail := rfl
@[simp] theorem State.modGang_raild (s : State) (r : Rail) (f : GangSt → GangSt) : (s.modGang r f).raild = s.raild := rfl
@[simp] theorem State.modGang_region (s : State) (r : Rail) (f : GangSt → GangSt) : (s.modGang r f).region = s.region := rfl
@[simp] theorem State.modGang_lend (s : State) (r : Rail) (f : GangSt → GangSt) : (s.modGang r f).lend = s.lend := rfl
@[simp] theorem State.modGang_gang (s : State) (r : Rail) (f : GangSt → GangSt) : (s.modGang r f).gang = upd s.gang r f := rfl
@[simp] theorem State.modGang_fc (s : State) (r : Rail) (f : GangSt → GangSt) : (s.modGang r f).fc = s.fc := rfl
@[simp] theorem State.modGang_orders (s : State) (r : Rail) (f : GangSt → GangSt) : (s.modGang r f).orders = s.orders := rfl
@[simp] theorem State.modGang_seq (s : State) (r : Rail) (f : GangSt → GangSt) : (s.modGang r f).seq = s.seq := rfl
@[simp] theorem State.modGang_feed (s : State) (r : Rail) (f : GangSt → GangSt) : (s.modGang r f).feed = s.feed := rfl
@[simp] theorem State.modGang_hk (s : State) (r : Rail) (f : GangSt → GangSt) : (s.modGang r f).hk = s.hk := rfl
@[simp] theorem State.modGang_pwr (s : State) (r : Rail) (f : GangSt → GangSt) : (s.modGang r f).pwr = s.pwr := rfl
@[simp] theorem State.modGang_pack (s : State) (r : Rail) (f : GangSt → GangSt) : (s.modGang r f).pack = s.pack := rfl
@[simp] theorem State.modGang_therm (s : State) (r : Rail) (f : GangSt → GangSt) : (s.modGang r f).therm = s.therm := rfl
@[simp] theorem State.modGang_mseq (s : State) (r : Rail) (f : GangSt → GangSt) : (s.modGang r f).mseq = s.mseq := rfl
@[simp] theorem State.modGang_conv (s : State) (r : Rail) (f : GangSt → GangSt) : (s.modGang r f).conv = s.conv := rfl
@[simp] theorem State.modGang_host (s : State) (r : Rail) (f : GangSt → GangSt) : (s.modGang r f).host = s.host := rfl
@[simp] theorem State.modGang_own (s : State) (r : Rail) (f : GangSt → GangSt) : (s.modGang r f).own = s.own := rfl
@[simp] theorem State.modGang_ring (s : State) (r : Rail) (f : GangSt → GangSt) : (s.modGang r f).ring = s.ring := rfl
@[simp] theorem State.modGang_log (s : State) (r : Rail) (f : GangSt → GangSt) : (s.modGang r f).log = s.log := rfl
@[simp] theorem State.modGang_wd (s : State) (r : Rail) (f : GangSt → GangSt) : (s.modGang r f).wd = s.wd := rfl
@[simp] theorem State.modGang_nvm (s : State) (r : Rail) (f : GangSt → GangSt) : (s.modGang r f).nvm = s.nvm := rfl
@[simp] theorem State.modGang_start (s : State) (r : Rail) (f : GangSt → GangSt) : (s.modGang r f).start = s.start := rfl
@[simp] theorem State.modGang_cfg (s : State) (r : Rail) (f : GangSt → GangSt) : (s.modGang r f).cfg = s.cfg := rfl
@[simp] theorem State.modGang_sched (s : State) (r : Rail) (f : GangSt → GangSt) : (s.modGang r f).sched = s.sched := rfl
@[simp] theorem State.modGang_fresh (s : State) (r : Rail) (f : GangSt → GangSt) : (s.modGang r f).fresh = s.fresh := rfl
@[simp] theorem State.modGang_pending (s : State) (r : Rail) (f : GangSt → GangSt) : (s.modGang r f).pending = s.pending := rfl

/-! ### modSeq -/

@[simp] theorem State.modSeq_time (s : State) (n : Prog) (f : SeqSt → SeqSt) : (s.modSeq n f).time = s.time := rfl
@[simp] theorem State.modSeq_ovr (s : State) (n : Prog) (f : SeqSt → SeqSt) : (s.modSeq n f).ovr = s.ovr := rfl
@[simp] theorem State.modSeq_arb (s : State) (n : Prog) (f : SeqSt → SeqSt) : (s.modSeq n f).arb = s.arb := rfl
@[simp] theorem State.modSeq_ph (s : State) (n : Prog) (f : SeqSt → SeqSt) : (s.modSeq n f).ph = s.ph := rfl
@[simp] theorem State.modSeq_phd (s : State) (n : Prog) (f : SeqSt → SeqSt) : (s.modSeq n f).phd = s.phd := rfl
@[simp] theorem State.modSeq_rail (s : State) (n : Prog) (f : SeqSt → SeqSt) : (s.modSeq n f).rail = s.rail := rfl
@[simp] theorem State.modSeq_raild (s : State) (n : Prog) (f : SeqSt → SeqSt) : (s.modSeq n f).raild = s.raild := rfl
@[simp] theorem State.modSeq_region (s : State) (n : Prog) (f : SeqSt → SeqSt) : (s.modSeq n f).region = s.region := rfl
@[simp] theorem State.modSeq_lend (s : State) (n : Prog) (f : SeqSt → SeqSt) : (s.modSeq n f).lend = s.lend := rfl
@[simp] theorem State.modSeq_gang (s : State) (n : Prog) (f : SeqSt → SeqSt) : (s.modSeq n f).gang = s.gang := rfl
@[simp] theorem State.modSeq_fc (s : State) (n : Prog) (f : SeqSt → SeqSt) : (s.modSeq n f).fc = s.fc := rfl
@[simp] theorem State.modSeq_orders (s : State) (n : Prog) (f : SeqSt → SeqSt) : (s.modSeq n f).orders = s.orders := rfl
@[simp] theorem State.modSeq_seq (s : State) (n : Prog) (f : SeqSt → SeqSt) : (s.modSeq n f).seq = upd s.seq n f := rfl
@[simp] theorem State.modSeq_feed (s : State) (n : Prog) (f : SeqSt → SeqSt) : (s.modSeq n f).feed = s.feed := rfl
@[simp] theorem State.modSeq_hk (s : State) (n : Prog) (f : SeqSt → SeqSt) : (s.modSeq n f).hk = s.hk := rfl
@[simp] theorem State.modSeq_pwr (s : State) (n : Prog) (f : SeqSt → SeqSt) : (s.modSeq n f).pwr = s.pwr := rfl
@[simp] theorem State.modSeq_pack (s : State) (n : Prog) (f : SeqSt → SeqSt) : (s.modSeq n f).pack = s.pack := rfl
@[simp] theorem State.modSeq_therm (s : State) (n : Prog) (f : SeqSt → SeqSt) : (s.modSeq n f).therm = s.therm := rfl
@[simp] theorem State.modSeq_mseq (s : State) (n : Prog) (f : SeqSt → SeqSt) : (s.modSeq n f).mseq = s.mseq := rfl
@[simp] theorem State.modSeq_conv (s : State) (n : Prog) (f : SeqSt → SeqSt) : (s.modSeq n f).conv = s.conv := rfl
@[simp] theorem State.modSeq_host (s : State) (n : Prog) (f : SeqSt → SeqSt) : (s.modSeq n f).host = s.host := rfl
@[simp] theorem State.modSeq_own (s : State) (n : Prog) (f : SeqSt → SeqSt) : (s.modSeq n f).own = s.own := rfl
@[simp] theorem State.modSeq_ring (s : State) (n : Prog) (f : SeqSt → SeqSt) : (s.modSeq n f).ring = s.ring := rfl
@[simp] theorem State.modSeq_log (s : State) (n : Prog) (f : SeqSt → SeqSt) : (s.modSeq n f).log = s.log := rfl
@[simp] theorem State.modSeq_wd (s : State) (n : Prog) (f : SeqSt → SeqSt) : (s.modSeq n f).wd = s.wd := rfl
@[simp] theorem State.modSeq_nvm (s : State) (n : Prog) (f : SeqSt → SeqSt) : (s.modSeq n f).nvm = s.nvm := rfl
@[simp] theorem State.modSeq_start (s : State) (n : Prog) (f : SeqSt → SeqSt) : (s.modSeq n f).start = s.start := rfl
@[simp] theorem State.modSeq_cfg (s : State) (n : Prog) (f : SeqSt → SeqSt) : (s.modSeq n f).cfg = s.cfg := rfl
@[simp] theorem State.modSeq_sched (s : State) (n : Prog) (f : SeqSt → SeqSt) : (s.modSeq n f).sched = s.sched := rfl
@[simp] theorem State.modSeq_fresh (s : State) (n : Prog) (f : SeqSt → SeqSt) : (s.modSeq n f).fresh = s.fresh := rfl
@[simp] theorem State.modSeq_pending (s : State) (n : Prog) (f : SeqSt → SeqSt) : (s.modSeq n f).pending = s.pending := rfl

/-! ### modFeed -/

@[simp] theorem State.modFeed_time (s : State) (x : Feed) (f : FeedSt → FeedSt) : (s.modFeed x f).time = s.time := rfl
@[simp] theorem State.modFeed_ovr (s : State) (x : Feed) (f : FeedSt → FeedSt) : (s.modFeed x f).ovr = s.ovr := rfl
@[simp] theorem State.modFeed_arb (s : State) (x : Feed) (f : FeedSt → FeedSt) : (s.modFeed x f).arb = s.arb := rfl
@[simp] theorem State.modFeed_ph (s : State) (x : Feed) (f : FeedSt → FeedSt) : (s.modFeed x f).ph = s.ph := rfl
@[simp] theorem State.modFeed_phd (s : State) (x : Feed) (f : FeedSt → FeedSt) : (s.modFeed x f).phd = s.phd := rfl
@[simp] theorem State.modFeed_rail (s : State) (x : Feed) (f : FeedSt → FeedSt) : (s.modFeed x f).rail = s.rail := rfl
@[simp] theorem State.modFeed_raild (s : State) (x : Feed) (f : FeedSt → FeedSt) : (s.modFeed x f).raild = s.raild := rfl
@[simp] theorem State.modFeed_region (s : State) (x : Feed) (f : FeedSt → FeedSt) : (s.modFeed x f).region = s.region := rfl
@[simp] theorem State.modFeed_lend (s : State) (x : Feed) (f : FeedSt → FeedSt) : (s.modFeed x f).lend = s.lend := rfl
@[simp] theorem State.modFeed_gang (s : State) (x : Feed) (f : FeedSt → FeedSt) : (s.modFeed x f).gang = s.gang := rfl
@[simp] theorem State.modFeed_fc (s : State) (x : Feed) (f : FeedSt → FeedSt) : (s.modFeed x f).fc = s.fc := rfl
@[simp] theorem State.modFeed_orders (s : State) (x : Feed) (f : FeedSt → FeedSt) : (s.modFeed x f).orders = s.orders := rfl
@[simp] theorem State.modFeed_seq (s : State) (x : Feed) (f : FeedSt → FeedSt) : (s.modFeed x f).seq = s.seq := rfl
@[simp] theorem State.modFeed_feed (s : State) (x : Feed) (f : FeedSt → FeedSt) : (s.modFeed x f).feed = upd s.feed x.ix f := rfl
@[simp] theorem State.modFeed_hk (s : State) (x : Feed) (f : FeedSt → FeedSt) : (s.modFeed x f).hk = s.hk := rfl
@[simp] theorem State.modFeed_pwr (s : State) (x : Feed) (f : FeedSt → FeedSt) : (s.modFeed x f).pwr = s.pwr := rfl
@[simp] theorem State.modFeed_pack (s : State) (x : Feed) (f : FeedSt → FeedSt) : (s.modFeed x f).pack = s.pack := rfl
@[simp] theorem State.modFeed_therm (s : State) (x : Feed) (f : FeedSt → FeedSt) : (s.modFeed x f).therm = s.therm := rfl
@[simp] theorem State.modFeed_mseq (s : State) (x : Feed) (f : FeedSt → FeedSt) : (s.modFeed x f).mseq = s.mseq := rfl
@[simp] theorem State.modFeed_conv (s : State) (x : Feed) (f : FeedSt → FeedSt) : (s.modFeed x f).conv = s.conv := rfl
@[simp] theorem State.modFeed_host (s : State) (x : Feed) (f : FeedSt → FeedSt) : (s.modFeed x f).host = s.host := rfl
@[simp] theorem State.modFeed_own (s : State) (x : Feed) (f : FeedSt → FeedSt) : (s.modFeed x f).own = s.own := rfl
@[simp] theorem State.modFeed_ring (s : State) (x : Feed) (f : FeedSt → FeedSt) : (s.modFeed x f).ring = s.ring := rfl
@[simp] theorem State.modFeed_log (s : State) (x : Feed) (f : FeedSt → FeedSt) : (s.modFeed x f).log = s.log := rfl
@[simp] theorem State.modFeed_wd (s : State) (x : Feed) (f : FeedSt → FeedSt) : (s.modFeed x f).wd = s.wd := rfl
@[simp] theorem State.modFeed_nvm (s : State) (x : Feed) (f : FeedSt → FeedSt) : (s.modFeed x f).nvm = s.nvm := rfl
@[simp] theorem State.modFeed_start (s : State) (x : Feed) (f : FeedSt → FeedSt) : (s.modFeed x f).start = s.start := rfl
@[simp] theorem State.modFeed_cfg (s : State) (x : Feed) (f : FeedSt → FeedSt) : (s.modFeed x f).cfg = s.cfg := rfl
@[simp] theorem State.modFeed_sched (s : State) (x : Feed) (f : FeedSt → FeedSt) : (s.modFeed x f).sched = s.sched := rfl
@[simp] theorem State.modFeed_fresh (s : State) (x : Feed) (f : FeedSt → FeedSt) : (s.modFeed x f).fresh = s.fresh := rfl
@[simp] theorem State.modFeed_pending (s : State) (x : Feed) (f : FeedSt → FeedSt) : (s.modFeed x f).pending = s.pending := rfl

/-! ### setFeed -/

@[simp] theorem State.setFeed_time (s : State) (x : Feed) (f : FeedSt → FeedSt) : (s.setFeed x f).time = s.time := rfl
@[simp] theorem State.setFeed_ovr (s : State) (x : Feed) (f : FeedSt → FeedSt) : (s.setFeed x f).ovr = s.ovr := rfl
@[simp] theorem State.setFeed_arb (s : State) (x : Feed) (f : FeedSt → FeedSt) : (s.setFeed x f).arb = s.arb := rfl
@[simp] theorem State.setFeed_ph (s : State) (x : Feed) (f : FeedSt → FeedSt) : (s.setFeed x f).ph = s.ph := rfl
@[simp] theorem State.setFeed_phd (s : State) (x : Feed) (f : FeedSt → FeedSt) : (s.setFeed x f).phd = s.phd := rfl
@[simp] theorem State.setFeed_rail (s : State) (x : Feed) (f : FeedSt → FeedSt) : (s.setFeed x f).rail = s.rail := rfl
@[simp] theorem State.setFeed_raild (s : State) (x : Feed) (f : FeedSt → FeedSt) : (s.setFeed x f).raild = s.raild := rfl
@[simp] theorem State.setFeed_region (s : State) (x : Feed) (f : FeedSt → FeedSt) : (s.setFeed x f).region = s.region := rfl
@[simp] theorem State.setFeed_lend (s : State) (x : Feed) (f : FeedSt → FeedSt) : (s.setFeed x f).lend = s.lend := rfl
@[simp] theorem State.setFeed_gang (s : State) (x : Feed) (f : FeedSt → FeedSt) : (s.setFeed x f).gang = s.gang := rfl
@[simp] theorem State.setFeed_fc (s : State) (x : Feed) (f : FeedSt → FeedSt) : (s.setFeed x f).fc = s.fc := rfl
@[simp] theorem State.setFeed_orders (s : State) (x : Feed) (f : FeedSt → FeedSt) : (s.setFeed x f).orders = s.orders := rfl
@[simp] theorem State.setFeed_seq (s : State) (x : Feed) (f : FeedSt → FeedSt) : (s.setFeed x f).seq = s.seq := rfl
@[simp] theorem State.setFeed_feed (s : State) (x : Feed) (f : FeedSt → FeedSt) : (s.setFeed x f).feed = upd s.feed x.ix fun y => (f y).settle := rfl
@[simp] theorem State.setFeed_hk (s : State) (x : Feed) (f : FeedSt → FeedSt) : (s.setFeed x f).hk = s.hk := rfl
@[simp] theorem State.setFeed_pwr (s : State) (x : Feed) (f : FeedSt → FeedSt) : (s.setFeed x f).pwr = s.pwr := rfl
@[simp] theorem State.setFeed_pack (s : State) (x : Feed) (f : FeedSt → FeedSt) : (s.setFeed x f).pack = s.pack := rfl
@[simp] theorem State.setFeed_therm (s : State) (x : Feed) (f : FeedSt → FeedSt) : (s.setFeed x f).therm = s.therm := rfl
@[simp] theorem State.setFeed_mseq (s : State) (x : Feed) (f : FeedSt → FeedSt) : (s.setFeed x f).mseq = s.mseq := rfl
@[simp] theorem State.setFeed_conv (s : State) (x : Feed) (f : FeedSt → FeedSt) : (s.setFeed x f).conv = s.conv := rfl
@[simp] theorem State.setFeed_host (s : State) (x : Feed) (f : FeedSt → FeedSt) : (s.setFeed x f).host = s.host := rfl
@[simp] theorem State.setFeed_own (s : State) (x : Feed) (f : FeedSt → FeedSt) : (s.setFeed x f).own = s.own := rfl
@[simp] theorem State.setFeed_ring (s : State) (x : Feed) (f : FeedSt → FeedSt) : (s.setFeed x f).ring = s.ring := rfl
@[simp] theorem State.setFeed_log (s : State) (x : Feed) (f : FeedSt → FeedSt) : (s.setFeed x f).log = s.log := rfl
@[simp] theorem State.setFeed_wd (s : State) (x : Feed) (f : FeedSt → FeedSt) : (s.setFeed x f).wd = s.wd := rfl
@[simp] theorem State.setFeed_nvm (s : State) (x : Feed) (f : FeedSt → FeedSt) : (s.setFeed x f).nvm = s.nvm := rfl
@[simp] theorem State.setFeed_start (s : State) (x : Feed) (f : FeedSt → FeedSt) : (s.setFeed x f).start = s.start := rfl
@[simp] theorem State.setFeed_cfg (s : State) (x : Feed) (f : FeedSt → FeedSt) : (s.setFeed x f).cfg = s.cfg := rfl
@[simp] theorem State.setFeed_sched (s : State) (x : Feed) (f : FeedSt → FeedSt) : (s.setFeed x f).sched = s.sched := rfl
@[simp] theorem State.setFeed_fresh (s : State) (x : Feed) (f : FeedSt → FeedSt) : (s.setFeed x f).fresh = s.fresh := rfl
@[simp] theorem State.setFeed_pending (s : State) (x : Feed) (f : FeedSt → FeedSt) : (s.setFeed x f).pending = s.pending := rfl

/-! ### modHk -/

@[simp] theorem State.modHk_time (s : State) (k : Hk) (f : HkSt → HkSt) : (s.modHk k f).time = s.time := rfl
@[simp] theorem State.modHk_ovr (s : State) (k : Hk) (f : HkSt → HkSt) : (s.modHk k f).ovr = s.ovr := rfl
@[simp] theorem State.modHk_arb (s : State) (k : Hk) (f : HkSt → HkSt) : (s.modHk k f).arb = s.arb := rfl
@[simp] theorem State.modHk_ph (s : State) (k : Hk) (f : HkSt → HkSt) : (s.modHk k f).ph = s.ph := rfl
@[simp] theorem State.modHk_phd (s : State) (k : Hk) (f : HkSt → HkSt) : (s.modHk k f).phd = s.phd := rfl
@[simp] theorem State.modHk_rail (s : State) (k : Hk) (f : HkSt → HkSt) : (s.modHk k f).rail = s.rail := rfl
@[simp] theorem State.modHk_raild (s : State) (k : Hk) (f : HkSt → HkSt) : (s.modHk k f).raild = s.raild := rfl
@[simp] theorem State.modHk_region (s : State) (k : Hk) (f : HkSt → HkSt) : (s.modHk k f).region = s.region := rfl
@[simp] theorem State.modHk_lend (s : State) (k : Hk) (f : HkSt → HkSt) : (s.modHk k f).lend = s.lend := rfl
@[simp] theorem State.modHk_gang (s : State) (k : Hk) (f : HkSt → HkSt) : (s.modHk k f).gang = s.gang := rfl
@[simp] theorem State.modHk_fc (s : State) (k : Hk) (f : HkSt → HkSt) : (s.modHk k f).fc = s.fc := rfl
@[simp] theorem State.modHk_orders (s : State) (k : Hk) (f : HkSt → HkSt) : (s.modHk k f).orders = s.orders := rfl
@[simp] theorem State.modHk_seq (s : State) (k : Hk) (f : HkSt → HkSt) : (s.modHk k f).seq = s.seq := rfl
@[simp] theorem State.modHk_feed (s : State) (k : Hk) (f : HkSt → HkSt) : (s.modHk k f).feed = s.feed := rfl
@[simp] theorem State.modHk_hk (s : State) (k : Hk) (f : HkSt → HkSt) : (s.modHk k f).hk = upd s.hk k f := rfl
@[simp] theorem State.modHk_pwr (s : State) (k : Hk) (f : HkSt → HkSt) : (s.modHk k f).pwr = s.pwr := rfl
@[simp] theorem State.modHk_pack (s : State) (k : Hk) (f : HkSt → HkSt) : (s.modHk k f).pack = s.pack := rfl
@[simp] theorem State.modHk_therm (s : State) (k : Hk) (f : HkSt → HkSt) : (s.modHk k f).therm = s.therm := rfl
@[simp] theorem State.modHk_mseq (s : State) (k : Hk) (f : HkSt → HkSt) : (s.modHk k f).mseq = s.mseq := rfl
@[simp] theorem State.modHk_conv (s : State) (k : Hk) (f : HkSt → HkSt) : (s.modHk k f).conv = s.conv := rfl
@[simp] theorem State.modHk_host (s : State) (k : Hk) (f : HkSt → HkSt) : (s.modHk k f).host = s.host := rfl
@[simp] theorem State.modHk_own (s : State) (k : Hk) (f : HkSt → HkSt) : (s.modHk k f).own = s.own := rfl
@[simp] theorem State.modHk_ring (s : State) (k : Hk) (f : HkSt → HkSt) : (s.modHk k f).ring = s.ring := rfl
@[simp] theorem State.modHk_log (s : State) (k : Hk) (f : HkSt → HkSt) : (s.modHk k f).log = s.log := rfl
@[simp] theorem State.modHk_wd (s : State) (k : Hk) (f : HkSt → HkSt) : (s.modHk k f).wd = s.wd := rfl
@[simp] theorem State.modHk_nvm (s : State) (k : Hk) (f : HkSt → HkSt) : (s.modHk k f).nvm = s.nvm := rfl
@[simp] theorem State.modHk_start (s : State) (k : Hk) (f : HkSt → HkSt) : (s.modHk k f).start = s.start := rfl
@[simp] theorem State.modHk_cfg (s : State) (k : Hk) (f : HkSt → HkSt) : (s.modHk k f).cfg = s.cfg := rfl
@[simp] theorem State.modHk_sched (s : State) (k : Hk) (f : HkSt → HkSt) : (s.modHk k f).sched = s.sched := rfl
@[simp] theorem State.modHk_fresh (s : State) (k : Hk) (f : HkSt → HkSt) : (s.modHk k f).fresh = s.fresh := rfl
@[simp] theorem State.modHk_pending (s : State) (k : Hk) (f : HkSt → HkSt) : (s.modHk k f).pending = s.pending := rfl

/-! ### modConv -/

@[simp] theorem State.modConv_time (s : State) (c : Conv) (f : ConvSt → ConvSt) : (s.modConv c f).time = s.time := rfl
@[simp] theorem State.modConv_ovr (s : State) (c : Conv) (f : ConvSt → ConvSt) : (s.modConv c f).ovr = s.ovr := rfl
@[simp] theorem State.modConv_arb (s : State) (c : Conv) (f : ConvSt → ConvSt) : (s.modConv c f).arb = s.arb := rfl
@[simp] theorem State.modConv_ph (s : State) (c : Conv) (f : ConvSt → ConvSt) : (s.modConv c f).ph = s.ph := rfl
@[simp] theorem State.modConv_phd (s : State) (c : Conv) (f : ConvSt → ConvSt) : (s.modConv c f).phd = s.phd := rfl
@[simp] theorem State.modConv_rail (s : State) (c : Conv) (f : ConvSt → ConvSt) : (s.modConv c f).rail = s.rail := rfl
@[simp] theorem State.modConv_raild (s : State) (c : Conv) (f : ConvSt → ConvSt) : (s.modConv c f).raild = s.raild := rfl
@[simp] theorem State.modConv_region (s : State) (c : Conv) (f : ConvSt → ConvSt) : (s.modConv c f).region = s.region := rfl
@[simp] theorem State.modConv_lend (s : State) (c : Conv) (f : ConvSt → ConvSt) : (s.modConv c f).lend = s.lend := rfl
@[simp] theorem State.modConv_gang (s : State) (c : Conv) (f : ConvSt → ConvSt) : (s.modConv c f).gang = s.gang := rfl
@[simp] theorem State.modConv_fc (s : State) (c : Conv) (f : ConvSt → ConvSt) : (s.modConv c f).fc = s.fc := rfl
@[simp] theorem State.modConv_orders (s : State) (c : Conv) (f : ConvSt → ConvSt) : (s.modConv c f).orders = s.orders := rfl
@[simp] theorem State.modConv_seq (s : State) (c : Conv) (f : ConvSt → ConvSt) : (s.modConv c f).seq = s.seq := rfl
@[simp] theorem State.modConv_feed (s : State) (c : Conv) (f : ConvSt → ConvSt) : (s.modConv c f).feed = s.feed := rfl
@[simp] theorem State.modConv_hk (s : State) (c : Conv) (f : ConvSt → ConvSt) : (s.modConv c f).hk = s.hk := rfl
@[simp] theorem State.modConv_pwr (s : State) (c : Conv) (f : ConvSt → ConvSt) : (s.modConv c f).pwr = s.pwr := rfl
@[simp] theorem State.modConv_pack (s : State) (c : Conv) (f : ConvSt → ConvSt) : (s.modConv c f).pack = s.pack := rfl
@[simp] theorem State.modConv_therm (s : State) (c : Conv) (f : ConvSt → ConvSt) : (s.modConv c f).therm = s.therm := rfl
@[simp] theorem State.modConv_mseq (s : State) (c : Conv) (f : ConvSt → ConvSt) : (s.modConv c f).mseq = s.mseq := rfl
@[simp] theorem State.modConv_conv (s : State) (c : Conv) (f : ConvSt → ConvSt) : (s.modConv c f).conv = upd s.conv c.ix f := rfl
@[simp] theorem State.modConv_host (s : State) (c : Conv) (f : ConvSt → ConvSt) : (s.modConv c f).host = s.host := rfl
@[simp] theorem State.modConv_own (s : State) (c : Conv) (f : ConvSt → ConvSt) : (s.modConv c f).own = s.own := rfl
@[simp] theorem State.modConv_ring (s : State) (c : Conv) (f : ConvSt → ConvSt) : (s.modConv c f).ring = s.ring := rfl
@[simp] theorem State.modConv_log (s : State) (c : Conv) (f : ConvSt → ConvSt) : (s.modConv c f).log = s.log := rfl
@[simp] theorem State.modConv_wd (s : State) (c : Conv) (f : ConvSt → ConvSt) : (s.modConv c f).wd = s.wd := rfl
@[simp] theorem State.modConv_nvm (s : State) (c : Conv) (f : ConvSt → ConvSt) : (s.modConv c f).nvm = s.nvm := rfl
@[simp] theorem State.modConv_start (s : State) (c : Conv) (f : ConvSt → ConvSt) : (s.modConv c f).start = s.start := rfl
@[simp] theorem State.modConv_cfg (s : State) (c : Conv) (f : ConvSt → ConvSt) : (s.modConv c f).cfg = s.cfg := rfl
@[simp] theorem State.modConv_sched (s : State) (c : Conv) (f : ConvSt → ConvSt) : (s.modConv c f).sched = s.sched := rfl
@[simp] theorem State.modConv_fresh (s : State) (c : Conv) (f : ConvSt → ConvSt) : (s.modConv c f).fresh = s.fresh := rfl
@[simp] theorem State.modConv_pending (s : State) (c : Conv) (f : ConvSt → ConvSt) : (s.modConv c f).pending = s.pending := rfl

/-! ### modMseq -/

@[simp] theorem State.modMseq_time (s : State) (k : Fin 32) (f : MeterSeq → MeterSeq) : (s.modMseq k f).time = s.time := rfl
@[simp] theorem State.modMseq_ovr (s : State) (k : Fin 32) (f : MeterSeq → MeterSeq) : (s.modMseq k f).ovr = s.ovr := rfl
@[simp] theorem State.modMseq_arb (s : State) (k : Fin 32) (f : MeterSeq → MeterSeq) : (s.modMseq k f).arb = s.arb := rfl
@[simp] theorem State.modMseq_ph (s : State) (k : Fin 32) (f : MeterSeq → MeterSeq) : (s.modMseq k f).ph = s.ph := rfl
@[simp] theorem State.modMseq_phd (s : State) (k : Fin 32) (f : MeterSeq → MeterSeq) : (s.modMseq k f).phd = s.phd := rfl
@[simp] theorem State.modMseq_rail (s : State) (k : Fin 32) (f : MeterSeq → MeterSeq) : (s.modMseq k f).rail = s.rail := rfl
@[simp] theorem State.modMseq_raild (s : State) (k : Fin 32) (f : MeterSeq → MeterSeq) : (s.modMseq k f).raild = s.raild := rfl
@[simp] theorem State.modMseq_region (s : State) (k : Fin 32) (f : MeterSeq → MeterSeq) : (s.modMseq k f).region = s.region := rfl
@[simp] theorem State.modMseq_lend (s : State) (k : Fin 32) (f : MeterSeq → MeterSeq) : (s.modMseq k f).lend = s.lend := rfl
@[simp] theorem State.modMseq_gang (s : State) (k : Fin 32) (f : MeterSeq → MeterSeq) : (s.modMseq k f).gang = s.gang := rfl
@[simp] theorem State.modMseq_fc (s : State) (k : Fin 32) (f : MeterSeq → MeterSeq) : (s.modMseq k f).fc = s.fc := rfl
@[simp] theorem State.modMseq_orders (s : State) (k : Fin 32) (f : MeterSeq → MeterSeq) : (s.modMseq k f).orders = s.orders := rfl
@[simp] theorem State.modMseq_seq (s : State) (k : Fin 32) (f : MeterSeq → MeterSeq) : (s.modMseq k f).seq = s.seq := rfl
@[simp] theorem State.modMseq_feed (s : State) (k : Fin 32) (f : MeterSeq → MeterSeq) : (s.modMseq k f).feed = s.feed := rfl
@[simp] theorem State.modMseq_hk (s : State) (k : Fin 32) (f : MeterSeq → MeterSeq) : (s.modMseq k f).hk = s.hk := rfl
@[simp] theorem State.modMseq_pwr (s : State) (k : Fin 32) (f : MeterSeq → MeterSeq) : (s.modMseq k f).pwr = s.pwr := rfl
@[simp] theorem State.modMseq_pack (s : State) (k : Fin 32) (f : MeterSeq → MeterSeq) : (s.modMseq k f).pack = s.pack := rfl
@[simp] theorem State.modMseq_therm (s : State) (k : Fin 32) (f : MeterSeq → MeterSeq) : (s.modMseq k f).therm = s.therm := rfl
@[simp] theorem State.modMseq_mseq (s : State) (k : Fin 32) (f : MeterSeq → MeterSeq) : (s.modMseq k f).mseq = upd s.mseq k f := rfl
@[simp] theorem State.modMseq_conv (s : State) (k : Fin 32) (f : MeterSeq → MeterSeq) : (s.modMseq k f).conv = s.conv := rfl
@[simp] theorem State.modMseq_host (s : State) (k : Fin 32) (f : MeterSeq → MeterSeq) : (s.modMseq k f).host = s.host := rfl
@[simp] theorem State.modMseq_own (s : State) (k : Fin 32) (f : MeterSeq → MeterSeq) : (s.modMseq k f).own = s.own := rfl
@[simp] theorem State.modMseq_ring (s : State) (k : Fin 32) (f : MeterSeq → MeterSeq) : (s.modMseq k f).ring = s.ring := rfl
@[simp] theorem State.modMseq_log (s : State) (k : Fin 32) (f : MeterSeq → MeterSeq) : (s.modMseq k f).log = s.log := rfl
@[simp] theorem State.modMseq_wd (s : State) (k : Fin 32) (f : MeterSeq → MeterSeq) : (s.modMseq k f).wd = s.wd := rfl
@[simp] theorem State.modMseq_nvm (s : State) (k : Fin 32) (f : MeterSeq → MeterSeq) : (s.modMseq k f).nvm = s.nvm := rfl
@[simp] theorem State.modMseq_start (s : State) (k : Fin 32) (f : MeterSeq → MeterSeq) : (s.modMseq k f).start = s.start := rfl
@[simp] theorem State.modMseq_cfg (s : State) (k : Fin 32) (f : MeterSeq → MeterSeq) : (s.modMseq k f).cfg = s.cfg := rfl
@[simp] theorem State.modMseq_sched (s : State) (k : Fin 32) (f : MeterSeq → MeterSeq) : (s.modMseq k f).sched = s.sched := rfl
@[simp] theorem State.modMseq_fresh (s : State) (k : Fin 32) (f : MeterSeq → MeterSeq) : (s.modMseq k f).fresh = s.fresh := rfl
@[simp] theorem State.modMseq_pending (s : State) (k : Fin 32) (f : MeterSeq → MeterSeq) : (s.modMseq k f).pending = s.pending := rfl

/-! ### modSrc -/

@[simp] theorem State.modSrc_time (s : State) (k : Src) (f : SrcSt → SrcSt) : (s.modSrc k f).time = s.time := rfl
@[simp] theorem State.modSrc_ovr (s : State) (k : Src) (f : SrcSt → SrcSt) : (s.modSrc k f).ovr = s.ovr := rfl
@[simp] theorem State.modSrc_arb (s : State) (k : Src) (f : SrcSt → SrcSt) : (s.modSrc k f).arb = s.arb := rfl
@[simp] theorem State.modSrc_ph (s : State) (k : Src) (f : SrcSt → SrcSt) : (s.modSrc k f).ph = s.ph := rfl
@[simp] theorem State.modSrc_phd (s : State) (k : Src) (f : SrcSt → SrcSt) : (s.modSrc k f).phd = s.phd := rfl
@[simp] theorem State.modSrc_rail (s : State) (k : Src) (f : SrcSt → SrcSt) : (s.modSrc k f).rail = s.rail := rfl
@[simp] theorem State.modSrc_raild (s : State) (k : Src) (f : SrcSt → SrcSt) : (s.modSrc k f).raild = s.raild := rfl
@[simp] theorem State.modSrc_region (s : State) (k : Src) (f : SrcSt → SrcSt) : (s.modSrc k f).region = s.region := rfl
@[simp] theorem State.modSrc_lend (s : State) (k : Src) (f : SrcSt → SrcSt) : (s.modSrc k f).lend = s.lend := rfl
@[simp] theorem State.modSrc_gang (s : State) (k : Src) (f : SrcSt → SrcSt) : (s.modSrc k f).gang = s.gang := rfl
@[simp] theorem State.modSrc_fc (s : State) (k : Src) (f : SrcSt → SrcSt) : (s.modSrc k f).fc = s.fc := rfl
@[simp] theorem State.modSrc_orders (s : State) (k : Src) (f : SrcSt → SrcSt) : (s.modSrc k f).orders = s.orders := rfl
@[simp] theorem State.modSrc_seq (s : State) (k : Src) (f : SrcSt → SrcSt) : (s.modSrc k f).seq = s.seq := rfl
@[simp] theorem State.modSrc_feed (s : State) (k : Src) (f : SrcSt → SrcSt) : (s.modSrc k f).feed = s.feed := rfl
@[simp] theorem State.modSrc_hk (s : State) (k : Src) (f : SrcSt → SrcSt) : (s.modSrc k f).hk = s.hk := rfl
@[simp] theorem State.modSrc_pwr (s : State) (k : Src) (f : SrcSt → SrcSt) : (s.modSrc k f).pwr = s.pwr := rfl
@[simp] theorem State.modSrc_pack (s : State) (k : Src) (f : SrcSt → SrcSt) : (s.modSrc k f).pack = s.pack := rfl
@[simp] theorem State.modSrc_therm (s : State) (k : Src) (f : SrcSt → SrcSt) : (s.modSrc k f).therm = { s.therm with src := upd s.therm.src k f } := rfl
@[simp] theorem State.modSrc_mseq (s : State) (k : Src) (f : SrcSt → SrcSt) : (s.modSrc k f).mseq = s.mseq := rfl
@[simp] theorem State.modSrc_conv (s : State) (k : Src) (f : SrcSt → SrcSt) : (s.modSrc k f).conv = s.conv := rfl
@[simp] theorem State.modSrc_host (s : State) (k : Src) (f : SrcSt → SrcSt) : (s.modSrc k f).host = s.host := rfl
@[simp] theorem State.modSrc_own (s : State) (k : Src) (f : SrcSt → SrcSt) : (s.modSrc k f).own = s.own := rfl
@[simp] theorem State.modSrc_ring (s : State) (k : Src) (f : SrcSt → SrcSt) : (s.modSrc k f).ring = s.ring := rfl
@[simp] theorem State.modSrc_log (s : State) (k : Src) (f : SrcSt → SrcSt) : (s.modSrc k f).log = s.log := rfl
@[simp] theorem State.modSrc_wd (s : State) (k : Src) (f : SrcSt → SrcSt) : (s.modSrc k f).wd = s.wd := rfl
@[simp] theorem State.modSrc_nvm (s : State) (k : Src) (f : SrcSt → SrcSt) : (s.modSrc k f).nvm = s.nvm := rfl
@[simp] theorem State.modSrc_start (s : State) (k : Src) (f : SrcSt → SrcSt) : (s.modSrc k f).start = s.start := rfl
@[simp] theorem State.modSrc_cfg (s : State) (k : Src) (f : SrcSt → SrcSt) : (s.modSrc k f).cfg = s.cfg := rfl
@[simp] theorem State.modSrc_sched (s : State) (k : Src) (f : SrcSt → SrcSt) : (s.modSrc k f).sched = s.sched := rfl
@[simp] theorem State.modSrc_fresh (s : State) (k : Src) (f : SrcSt → SrcSt) : (s.modSrc k f).fresh = s.fresh := rfl
@[simp] theorem State.modSrc_pending (s : State) (k : Src) (f : SrcSt → SrcSt) : (s.modSrc k f).pending = s.pending := rfl

/-! ### modTherm -/

@[simp] theorem State.modTherm_time (s : State) (f : ThermSt → ThermSt) : (s.modTherm f).time = s.time := rfl
@[simp] theorem State.modTherm_ovr (s : State) (f : ThermSt → ThermSt) : (s.modTherm f).ovr = s.ovr := rfl
@[simp] theorem State.modTherm_arb (s : State) (f : ThermSt → ThermSt) : (s.modTherm f).arb = s.arb := rfl
@[simp] theorem State.modTherm_ph (s : State) (f : ThermSt → ThermSt) : (s.modTherm f).ph = s.ph := rfl
@[simp] theorem State.modTherm_phd (s : State) (f : ThermSt → ThermSt) : (s.modTherm f).phd = s.phd := rfl
@[simp] theorem State.modTherm_rail (s : State) (f : ThermSt → ThermSt) : (s.modTherm f).rail = s.rail := rfl
@[simp] theorem State.modTherm_raild (s : State) (f : ThermSt → ThermSt) : (s.modTherm f).raild = s.raild := rfl
@[simp] theorem State.modTherm_region (s : State) (f : ThermSt → ThermSt) : (s.modTherm f).region = s.region := rfl
@[simp] theorem State.modTherm_lend (s : State) (f : ThermSt → ThermSt) : (s.modTherm f).lend = s.lend := rfl
@[simp] theorem State.modTherm_gang (s : State) (f : ThermSt → ThermSt) : (s.modTherm f).gang = s.gang := rfl
@[simp] theorem State.modTherm_fc (s : State) (f : ThermSt → ThermSt) : (s.modTherm f).fc = s.fc := rfl
@[simp] theorem State.modTherm_orders (s : State) (f : ThermSt → ThermSt) : (s.modTherm f).orders = s.orders := rfl
@[simp] theorem State.modTherm_seq (s : State) (f : ThermSt → ThermSt) : (s.modTherm f).seq = s.seq := rfl
@[simp] theorem State.modTherm_feed (s : State) (f : ThermSt → ThermSt) : (s.modTherm f).feed = s.feed := rfl
@[simp] theorem State.modTherm_hk (s : State) (f : ThermSt → ThermSt) : (s.modTherm f).hk = s.hk := rfl
@[simp] theorem State.modTherm_pwr (s : State) (f : ThermSt → ThermSt) : (s.modTherm f).pwr = s.pwr := rfl
@[simp] theorem State.modTherm_pack (s : State) (f : ThermSt → ThermSt) : (s.modTherm f).pack = s.pack := rfl
@[simp] theorem State.modTherm_therm (s : State) (f : ThermSt → ThermSt) : (s.modTherm f).therm = f s.therm := rfl
@[simp] theorem State.modTherm_mseq (s : State) (f : ThermSt → ThermSt) : (s.modTherm f).mseq = s.mseq := rfl
@[simp] theorem State.modTherm_conv (s : State) (f : ThermSt → ThermSt) : (s.modTherm f).conv = s.conv := rfl
@[simp] theorem State.modTherm_host (s : State) (f : ThermSt → ThermSt) : (s.modTherm f).host = s.host := rfl
@[simp] theorem State.modTherm_own (s : State) (f : ThermSt → ThermSt) : (s.modTherm f).own = s.own := rfl
@[simp] theorem State.modTherm_ring (s : State) (f : ThermSt → ThermSt) : (s.modTherm f).ring = s.ring := rfl
@[simp] theorem State.modTherm_log (s : State) (f : ThermSt → ThermSt) : (s.modTherm f).log = s.log := rfl
@[simp] theorem State.modTherm_wd (s : State) (f : ThermSt → ThermSt) : (s.modTherm f).wd = s.wd := rfl
@[simp] theorem State.modTherm_nvm (s : State) (f : ThermSt → ThermSt) : (s.modTherm f).nvm = s.nvm := rfl
@[simp] theorem State.modTherm_start (s : State) (f : ThermSt → ThermSt) : (s.modTherm f).start = s.start := rfl
@[simp] theorem State.modTherm_cfg (s : State) (f : ThermSt → ThermSt) : (s.modTherm f).cfg = s.cfg := rfl
@[simp] theorem State.modTherm_sched (s : State) (f : ThermSt → ThermSt) : (s.modTherm f).sched = s.sched := rfl
@[simp] theorem State.modTherm_fresh (s : State) (f : ThermSt → ThermSt) : (s.modTherm f).fresh = s.fresh := rfl
@[simp] theorem State.modTherm_pending (s : State) (f : ThermSt → ThermSt) : (s.modTherm f).pending = s.pending := rfl

/-! ### modLink -/

@[simp] theorem State.modLink_time (s : State) (p : Side) (f : LinkSt → LinkSt) : (s.modLink p f).time = s.time := rfl
@[simp] theorem State.modLink_ovr (s : State) (p : Side) (f : LinkSt → LinkSt) : (s.modLink p f).ovr = s.ovr := rfl
@[simp] theorem State.modLink_arb (s : State) (p : Side) (f : LinkSt → LinkSt) : (s.modLink p f).arb = s.arb := rfl
@[simp] theorem State.modLink_ph (s : State) (p : Side) (f : LinkSt → LinkSt) : (s.modLink p f).ph = s.ph := rfl
@[simp] theorem State.modLink_phd (s : State) (p : Side) (f : LinkSt → LinkSt) : (s.modLink p f).phd = s.phd := rfl
@[simp] theorem State.modLink_rail (s : State) (p : Side) (f : LinkSt → LinkSt) : (s.modLink p f).rail = s.rail := rfl
@[simp] theorem State.modLink_raild (s : State) (p : Side) (f : LinkSt → LinkSt) : (s.modLink p f).raild = s.raild := rfl
@[simp] theorem State.modLink_region (s : State) (p : Side) (f : LinkSt → LinkSt) : (s.modLink p f).region = s.region := rfl
@[simp] theorem State.modLink_lend (s : State) (p : Side) (f : LinkSt → LinkSt) : (s.modLink p f).lend = s.lend := rfl
@[simp] theorem State.modLink_gang (s : State) (p : Side) (f : LinkSt → LinkSt) : (s.modLink p f).gang = s.gang := rfl
@[simp] theorem State.modLink_fc (s : State) (p : Side) (f : LinkSt → LinkSt) : (s.modLink p f).fc = s.fc := rfl
@[simp] theorem State.modLink_orders (s : State) (p : Side) (f : LinkSt → LinkSt) : (s.modLink p f).orders = s.orders := rfl
@[simp] theorem State.modLink_seq (s : State) (p : Side) (f : LinkSt → LinkSt) : (s.modLink p f).seq = s.seq := rfl
@[simp] theorem State.modLink_feed (s : State) (p : Side) (f : LinkSt → LinkSt) : (s.modLink p f).feed = s.feed := rfl
@[simp] theorem State.modLink_hk (s : State) (p : Side) (f : LinkSt → LinkSt) : (s.modLink p f).hk = s.hk := rfl
@[simp] theorem State.modLink_pwr (s : State) (p : Side) (f : LinkSt → LinkSt) : (s.modLink p f).pwr = s.pwr := rfl
@[simp] theorem State.modLink_pack (s : State) (p : Side) (f : LinkSt → LinkSt) : (s.modLink p f).pack = s.pack := rfl
@[simp] theorem State.modLink_therm (s : State) (p : Side) (f : LinkSt → LinkSt) : (s.modLink p f).therm = s.therm := rfl
@[simp] theorem State.modLink_mseq (s : State) (p : Side) (f : LinkSt → LinkSt) : (s.modLink p f).mseq = s.mseq := rfl
@[simp] theorem State.modLink_conv (s : State) (p : Side) (f : LinkSt → LinkSt) : (s.modLink p f).conv = s.conv := rfl
@[simp] theorem State.modLink_host (s : State) (p : Side) (f : LinkSt → LinkSt) : (s.modLink p f).host = s.host := rfl
@[simp] theorem State.modLink_own (s : State) (p : Side) (f : LinkSt → LinkSt) : (s.modLink p f).own = s.own := rfl
@[simp] theorem State.modLink_ring (s : State) (p : Side) (f : LinkSt → LinkSt) : (s.modLink p f).ring = { s.ring with links := upd s.ring.links p.ix f } := rfl
@[simp] theorem State.modLink_log (s : State) (p : Side) (f : LinkSt → LinkSt) : (s.modLink p f).log = s.log := rfl
@[simp] theorem State.modLink_wd (s : State) (p : Side) (f : LinkSt → LinkSt) : (s.modLink p f).wd = s.wd := rfl
@[simp] theorem State.modLink_nvm (s : State) (p : Side) (f : LinkSt → LinkSt) : (s.modLink p f).nvm = s.nvm := rfl
@[simp] theorem State.modLink_start (s : State) (p : Side) (f : LinkSt → LinkSt) : (s.modLink p f).start = s.start := rfl
@[simp] theorem State.modLink_cfg (s : State) (p : Side) (f : LinkSt → LinkSt) : (s.modLink p f).cfg = s.cfg := rfl
@[simp] theorem State.modLink_sched (s : State) (p : Side) (f : LinkSt → LinkSt) : (s.modLink p f).sched = s.sched := rfl
@[simp] theorem State.modLink_fresh (s : State) (p : Side) (f : LinkSt → LinkSt) : (s.modLink p f).fresh = s.fresh := rfl
@[simp] theorem State.modLink_pending (s : State) (p : Side) (f : LinkSt → LinkSt) : (s.modLink p f).pending = s.pending := rfl

/-! ### send -/

@[simp] theorem State.send_time (s : State) (p : RingPkt) : (s.send p).time = s.time := rfl
@[simp] theorem State.send_ovr (s : State) (p : RingPkt) : (s.send p).ovr = s.ovr := rfl
@[simp] theorem State.send_arb (s : State) (p : RingPkt) : (s.send p).arb = s.arb := rfl
@[simp] theorem State.send_ph (s : State) (p : RingPkt) : (s.send p).ph = s.ph := rfl
@[simp] theorem State.send_phd (s : State) (p : RingPkt) : (s.send p).phd = s.phd := rfl
@[simp] theorem State.send_rail (s : State) (p : RingPkt) : (s.send p).rail = s.rail := rfl
@[simp] theorem State.send_raild (s : State) (p : RingPkt) : (s.send p).raild = s.raild := rfl
@[simp] theorem State.send_region (s : State) (p : RingPkt) : (s.send p).region = s.region := rfl
@[simp] theorem State.send_lend (s : State) (p : RingPkt) : (s.send p).lend = s.lend := rfl
@[simp] theorem State.send_gang (s : State) (p : RingPkt) : (s.send p).gang = s.gang := rfl
@[simp] theorem State.send_fc (s : State) (p : RingPkt) : (s.send p).fc = s.fc := rfl
@[simp] theorem State.send_orders (s : State) (p : RingPkt) : (s.send p).orders = s.orders := rfl
@[simp] theorem State.send_seq (s : State) (p : RingPkt) : (s.send p).seq = s.seq := rfl
@[simp] theorem State.send_feed (s : State) (p : RingPkt) : (s.send p).feed = s.feed := rfl
@[simp] theorem State.send_hk (s : State) (p : RingPkt) : (s.send p).hk = s.hk := rfl
@[simp] theorem State.send_pwr (s : State) (p : RingPkt) : (s.send p).pwr = s.pwr := rfl
@[simp] theorem State.send_pack (s : State) (p : RingPkt) : (s.send p).pack = s.pack := rfl
@[simp] theorem State.send_therm (s : State) (p : RingPkt) : (s.send p).therm = s.therm := rfl
@[simp] theorem State.send_mseq (s : State) (p : RingPkt) : (s.send p).mseq = s.mseq := rfl
@[simp] theorem State.send_conv (s : State) (p : RingPkt) : (s.send p).conv = s.conv := rfl
@[simp] theorem State.send_host (s : State) (p : RingPkt) : (s.send p).host = s.host := rfl
@[simp] theorem State.send_own (s : State) (p : RingPkt) : (s.send p).own = s.own := rfl
@[simp] theorem State.send_ring (s : State) (p : RingPkt) : (s.send p).ring = { s.ring with tx := s.ring.tx ++ [p] } := rfl
@[simp] theorem State.send_log (s : State) (p : RingPkt) : (s.send p).log = s.log := rfl
@[simp] theorem State.send_wd (s : State) (p : RingPkt) : (s.send p).wd = s.wd := rfl
@[simp] theorem State.send_nvm (s : State) (p : RingPkt) : (s.send p).nvm = s.nvm := rfl
@[simp] theorem State.send_start (s : State) (p : RingPkt) : (s.send p).start = s.start := rfl
@[simp] theorem State.send_cfg (s : State) (p : RingPkt) : (s.send p).cfg = s.cfg := rfl
@[simp] theorem State.send_sched (s : State) (p : RingPkt) : (s.send p).sched = s.sched := rfl
@[simp] theorem State.send_fresh (s : State) (p : RingPkt) : (s.send p).fresh = s.fresh := rfl
@[simp] theorem State.send_pending (s : State) (p : RingPkt) : (s.send p).pending = s.pending := rfl

/-! ### ctrl -/

@[simp] theorem State.ctrl_time (s : State) (dst code body : Nat) : (s.ctrl dst code body).time = s.time := rfl
@[simp] theorem State.ctrl_ovr (s : State) (dst code body : Nat) : (s.ctrl dst code body).ovr = s.ovr := rfl
@[simp] theorem State.ctrl_arb (s : State) (dst code body : Nat) : (s.ctrl dst code body).arb = s.arb := rfl
@[simp] theorem State.ctrl_ph (s : State) (dst code body : Nat) : (s.ctrl dst code body).ph = s.ph := rfl
@[simp] theorem State.ctrl_phd (s : State) (dst code body : Nat) : (s.ctrl dst code body).phd = s.phd := rfl
@[simp] theorem State.ctrl_rail (s : State) (dst code body : Nat) : (s.ctrl dst code body).rail = s.rail := rfl
@[simp] theorem State.ctrl_raild (s : State) (dst code body : Nat) : (s.ctrl dst code body).raild = s.raild := rfl
@[simp] theorem State.ctrl_region (s : State) (dst code body : Nat) : (s.ctrl dst code body).region = s.region := rfl
@[simp] theorem State.ctrl_lend (s : State) (dst code body : Nat) : (s.ctrl dst code body).lend = s.lend := rfl
@[simp] theorem State.ctrl_gang (s : State) (dst code body : Nat) : (s.ctrl dst code body).gang = s.gang := rfl
@[simp] theorem State.ctrl_fc (s : State) (dst code body : Nat) : (s.ctrl dst code body).fc = s.fc := rfl
@[simp] theorem State.ctrl_orders (s : State) (dst code body : Nat) : (s.ctrl dst code body).orders = s.orders := rfl
@[simp] theorem State.ctrl_seq (s : State) (dst code body : Nat) : (s.ctrl dst code body).seq = s.seq := rfl
@[simp] theorem State.ctrl_feed (s : State) (dst code body : Nat) : (s.ctrl dst code body).feed = s.feed := rfl
@[simp] theorem State.ctrl_hk (s : State) (dst code body : Nat) : (s.ctrl dst code body).hk = s.hk := rfl
@[simp] theorem State.ctrl_pwr (s : State) (dst code body : Nat) : (s.ctrl dst code body).pwr = s.pwr := rfl
@[simp] theorem State.ctrl_pack (s : State) (dst code body : Nat) : (s.ctrl dst code body).pack = s.pack := rfl
@[simp] theorem State.ctrl_therm (s : State) (dst code body : Nat) : (s.ctrl dst code body).therm = s.therm := rfl
@[simp] theorem State.ctrl_mseq (s : State) (dst code body : Nat) : (s.ctrl dst code body).mseq = s.mseq := rfl
@[simp] theorem State.ctrl_conv (s : State) (dst code body : Nat) : (s.ctrl dst code body).conv = s.conv := rfl
@[simp] theorem State.ctrl_host (s : State) (dst code body : Nat) : (s.ctrl dst code body).host = s.host := rfl
@[simp] theorem State.ctrl_own (s : State) (dst code body : Nat) : (s.ctrl dst code body).own = s.own := rfl
@[simp] theorem State.ctrl_ring (s : State) (dst code body : Nat) : (s.ctrl dst code body).ring = { s.ring with tx := s.ring.tx ++ [{ kind := 2, src := s.ring.num, dst := dst, code := code, body := body }] } := rfl
@[simp] theorem State.ctrl_log (s : State) (dst code body : Nat) : (s.ctrl dst code body).log = s.log := rfl
@[simp] theorem State.ctrl_wd (s : State) (dst code body : Nat) : (s.ctrl dst code body).wd = s.wd := rfl
@[simp] theorem State.ctrl_nvm (s : State) (dst code body : Nat) : (s.ctrl dst code body).nvm = s.nvm := rfl
@[simp] theorem State.ctrl_start (s : State) (dst code body : Nat) : (s.ctrl dst code body).start = s.start := rfl
@[simp] theorem State.ctrl_cfg (s : State) (dst code body : Nat) : (s.ctrl dst code body).cfg = s.cfg := rfl
@[simp] theorem State.ctrl_sched (s : State) (dst code body : Nat) : (s.ctrl dst code body).sched = s.sched := rfl
@[simp] theorem State.ctrl_fresh (s : State) (dst code body : Nat) : (s.ctrl dst code body).fresh = s.fresh := rfl
@[simp] theorem State.ctrl_pending (s : State) (dst code body : Nat) : (s.ctrl dst code body).pending = s.pending := rfl

/-! ### modPort -/

@[simp] theorem State.modPort_time (s : State) (k : OPort) (f : PortSt → PortSt) : (s.modPort k f).time = s.time := rfl
@[simp] theorem State.modPort_ovr (s : State) (k : OPort) (f : PortSt → PortSt) : (s.modPort k f).ovr = s.ovr := rfl
@[simp] theorem State.modPort_arb (s : State) (k : OPort) (f : PortSt → PortSt) : (s.modPort k f).arb = s.arb := rfl
@[simp] theorem State.modPort_ph (s : State) (k : OPort) (f : PortSt → PortSt) : (s.modPort k f).ph = s.ph := rfl
@[simp] theorem State.modPort_phd (s : State) (k : OPort) (f : PortSt → PortSt) : (s.modPort k f).phd = s.phd := rfl
@[simp] theorem State.modPort_rail (s : State) (k : OPort) (f : PortSt → PortSt) : (s.modPort k f).rail = s.rail := rfl
@[simp] theorem State.modPort_raild (s : State) (k : OPort) (f : PortSt → PortSt) : (s.modPort k f).raild = s.raild := rfl
@[simp] theorem State.modPort_region (s : State) (k : OPort) (f : PortSt → PortSt) : (s.modPort k f).region = s.region := rfl
@[simp] theorem State.modPort_lend (s : State) (k : OPort) (f : PortSt → PortSt) : (s.modPort k f).lend = s.lend := rfl
@[simp] theorem State.modPort_gang (s : State) (k : OPort) (f : PortSt → PortSt) : (s.modPort k f).gang = s.gang := rfl
@[simp] theorem State.modPort_fc (s : State) (k : OPort) (f : PortSt → PortSt) : (s.modPort k f).fc = s.fc := rfl
@[simp] theorem State.modPort_orders (s : State) (k : OPort) (f : PortSt → PortSt) : (s.modPort k f).orders = s.orders := rfl
@[simp] theorem State.modPort_seq (s : State) (k : OPort) (f : PortSt → PortSt) : (s.modPort k f).seq = s.seq := rfl
@[simp] theorem State.modPort_feed (s : State) (k : OPort) (f : PortSt → PortSt) : (s.modPort k f).feed = s.feed := rfl
@[simp] theorem State.modPort_hk (s : State) (k : OPort) (f : PortSt → PortSt) : (s.modPort k f).hk = s.hk := rfl
@[simp] theorem State.modPort_pwr (s : State) (k : OPort) (f : PortSt → PortSt) : (s.modPort k f).pwr = s.pwr := rfl
@[simp] theorem State.modPort_pack (s : State) (k : OPort) (f : PortSt → PortSt) : (s.modPort k f).pack = s.pack := rfl
@[simp] theorem State.modPort_therm (s : State) (k : OPort) (f : PortSt → PortSt) : (s.modPort k f).therm = s.therm := rfl
@[simp] theorem State.modPort_mseq (s : State) (k : OPort) (f : PortSt → PortSt) : (s.modPort k f).mseq = s.mseq := rfl
@[simp] theorem State.modPort_conv (s : State) (k : OPort) (f : PortSt → PortSt) : (s.modPort k f).conv = s.conv := rfl
@[simp] theorem State.modPort_host (s : State) (k : OPort) (f : PortSt → PortSt) : (s.modPort k f).host = s.host := rfl
@[simp] theorem State.modPort_own (s : State) (k : OPort) (f : PortSt → PortSt) : (s.modPort k f).own = { s.own with ports := upd s.own.ports k f } := rfl
@[simp] theorem State.modPort_ring (s : State) (k : OPort) (f : PortSt → PortSt) : (s.modPort k f).ring = s.ring := rfl
@[simp] theorem State.modPort_log (s : State) (k : OPort) (f : PortSt → PortSt) : (s.modPort k f).log = s.log := rfl
@[simp] theorem State.modPort_wd (s : State) (k : OPort) (f : PortSt → PortSt) : (s.modPort k f).wd = s.wd := rfl
@[simp] theorem State.modPort_nvm (s : State) (k : OPort) (f : PortSt → PortSt) : (s.modPort k f).nvm = s.nvm := rfl
@[simp] theorem State.modPort_start (s : State) (k : OPort) (f : PortSt → PortSt) : (s.modPort k f).start = s.start := rfl
@[simp] theorem State.modPort_cfg (s : State) (k : OPort) (f : PortSt → PortSt) : (s.modPort k f).cfg = s.cfg := rfl
@[simp] theorem State.modPort_sched (s : State) (k : OPort) (f : PortSt → PortSt) : (s.modPort k f).sched = s.sched := rfl
@[simp] theorem State.modPort_fresh (s : State) (k : OPort) (f : PortSt → PortSt) : (s.modPort k f).fresh = s.fresh := rfl
@[simp] theorem State.modPort_pending (s : State) (k : OPort) (f : PortSt → PortSt) : (s.modPort k f).pending = s.pending := rfl

/-! ### modSlot -/

@[simp] theorem State.modSlot_time (s : State) (k : Slot) (f : SlotSt → SlotSt) : (s.modSlot k f).time = s.time := rfl
@[simp] theorem State.modSlot_ovr (s : State) (k : Slot) (f : SlotSt → SlotSt) : (s.modSlot k f).ovr = s.ovr := rfl
@[simp] theorem State.modSlot_arb (s : State) (k : Slot) (f : SlotSt → SlotSt) : (s.modSlot k f).arb = s.arb := rfl
@[simp] theorem State.modSlot_ph (s : State) (k : Slot) (f : SlotSt → SlotSt) : (s.modSlot k f).ph = s.ph := rfl
@[simp] theorem State.modSlot_phd (s : State) (k : Slot) (f : SlotSt → SlotSt) : (s.modSlot k f).phd = s.phd := rfl
@[simp] theorem State.modSlot_rail (s : State) (k : Slot) (f : SlotSt → SlotSt) : (s.modSlot k f).rail = s.rail := rfl
@[simp] theorem State.modSlot_raild (s : State) (k : Slot) (f : SlotSt → SlotSt) : (s.modSlot k f).raild = s.raild := rfl
@[simp] theorem State.modSlot_region (s : State) (k : Slot) (f : SlotSt → SlotSt) : (s.modSlot k f).region = s.region := rfl
@[simp] theorem State.modSlot_lend (s : State) (k : Slot) (f : SlotSt → SlotSt) : (s.modSlot k f).lend = s.lend := rfl
@[simp] theorem State.modSlot_gang (s : State) (k : Slot) (f : SlotSt → SlotSt) : (s.modSlot k f).gang = s.gang := rfl
@[simp] theorem State.modSlot_fc (s : State) (k : Slot) (f : SlotSt → SlotSt) : (s.modSlot k f).fc = s.fc := rfl
@[simp] theorem State.modSlot_orders (s : State) (k : Slot) (f : SlotSt → SlotSt) : (s.modSlot k f).orders = s.orders := rfl
@[simp] theorem State.modSlot_seq (s : State) (k : Slot) (f : SlotSt → SlotSt) : (s.modSlot k f).seq = s.seq := rfl
@[simp] theorem State.modSlot_feed (s : State) (k : Slot) (f : SlotSt → SlotSt) : (s.modSlot k f).feed = s.feed := rfl
@[simp] theorem State.modSlot_hk (s : State) (k : Slot) (f : SlotSt → SlotSt) : (s.modSlot k f).hk = s.hk := rfl
@[simp] theorem State.modSlot_pwr (s : State) (k : Slot) (f : SlotSt → SlotSt) : (s.modSlot k f).pwr = s.pwr := rfl
@[simp] theorem State.modSlot_pack (s : State) (k : Slot) (f : SlotSt → SlotSt) : (s.modSlot k f).pack = s.pack := rfl
@[simp] theorem State.modSlot_therm (s : State) (k : Slot) (f : SlotSt → SlotSt) : (s.modSlot k f).therm = s.therm := rfl
@[simp] theorem State.modSlot_mseq (s : State) (k : Slot) (f : SlotSt → SlotSt) : (s.modSlot k f).mseq = s.mseq := rfl
@[simp] theorem State.modSlot_conv (s : State) (k : Slot) (f : SlotSt → SlotSt) : (s.modSlot k f).conv = s.conv := rfl
@[simp] theorem State.modSlot_host (s : State) (k : Slot) (f : SlotSt → SlotSt) : (s.modSlot k f).host = s.host := rfl
@[simp] theorem State.modSlot_own (s : State) (k : Slot) (f : SlotSt → SlotSt) : (s.modSlot k f).own = s.own := rfl
@[simp] theorem State.modSlot_ring (s : State) (k : Slot) (f : SlotSt → SlotSt) : (s.modSlot k f).ring = s.ring := rfl
@[simp] theorem State.modSlot_log (s : State) (k : Slot) (f : SlotSt → SlotSt) : (s.modSlot k f).log = s.log := rfl
@[simp] theorem State.modSlot_wd (s : State) (k : Slot) (f : SlotSt → SlotSt) : (s.modSlot k f).wd = { s.wd with slots := upd s.wd.slots k f } := rfl
@[simp] theorem State.modSlot_nvm (s : State) (k : Slot) (f : SlotSt → SlotSt) : (s.modSlot k f).nvm = s.nvm := rfl
@[simp] theorem State.modSlot_start (s : State) (k : Slot) (f : SlotSt → SlotSt) : (s.modSlot k f).start = s.start := rfl
@[simp] theorem State.modSlot_cfg (s : State) (k : Slot) (f : SlotSt → SlotSt) : (s.modSlot k f).cfg = s.cfg := rfl
@[simp] theorem State.modSlot_sched (s : State) (k : Slot) (f : SlotSt → SlotSt) : (s.modSlot k f).sched = s.sched := rfl
@[simp] theorem State.modSlot_fresh (s : State) (k : Slot) (f : SlotSt → SlotSt) : (s.modSlot k f).fresh = s.fresh := rfl
@[simp] theorem State.modSlot_pending (s : State) (k : Slot) (f : SlotSt → SlotSt) : (s.modSlot k f).pending = s.pending := rfl

/-! ### modWd -/

@[simp] theorem State.modWd_time (s : State) (f : WdSt → WdSt) : (s.modWd f).time = s.time := rfl
@[simp] theorem State.modWd_ovr (s : State) (f : WdSt → WdSt) : (s.modWd f).ovr = s.ovr := rfl
@[simp] theorem State.modWd_arb (s : State) (f : WdSt → WdSt) : (s.modWd f).arb = s.arb := rfl
@[simp] theorem State.modWd_ph (s : State) (f : WdSt → WdSt) : (s.modWd f).ph = s.ph := rfl
@[simp] theorem State.modWd_phd (s : State) (f : WdSt → WdSt) : (s.modWd f).phd = s.phd := rfl
@[simp] theorem State.modWd_rail (s : State) (f : WdSt → WdSt) : (s.modWd f).rail = s.rail := rfl
@[simp] theorem State.modWd_raild (s : State) (f : WdSt → WdSt) : (s.modWd f).raild = s.raild := rfl
@[simp] theorem State.modWd_region (s : State) (f : WdSt → WdSt) : (s.modWd f).region = s.region := rfl
@[simp] theorem State.modWd_lend (s : State) (f : WdSt → WdSt) : (s.modWd f).lend = s.lend := rfl
@[simp] theorem State.modWd_gang (s : State) (f : WdSt → WdSt) : (s.modWd f).gang = s.gang := rfl
@[simp] theorem State.modWd_fc (s : State) (f : WdSt → WdSt) : (s.modWd f).fc = s.fc := rfl
@[simp] theorem State.modWd_orders (s : State) (f : WdSt → WdSt) : (s.modWd f).orders = s.orders := rfl
@[simp] theorem State.modWd_seq (s : State) (f : WdSt → WdSt) : (s.modWd f).seq = s.seq := rfl
@[simp] theorem State.modWd_feed (s : State) (f : WdSt → WdSt) : (s.modWd f).feed = s.feed := rfl
@[simp] theorem State.modWd_hk (s : State) (f : WdSt → WdSt) : (s.modWd f).hk = s.hk := rfl
@[simp] theorem State.modWd_pwr (s : State) (f : WdSt → WdSt) : (s.modWd f).pwr = s.pwr := rfl
@[simp] theorem State.modWd_pack (s : State) (f : WdSt → WdSt) : (s.modWd f).pack = s.pack := rfl
@[simp] theorem State.modWd_therm (s : State) (f : WdSt → WdSt) : (s.modWd f).therm = s.therm := rfl
@[simp] theorem State.modWd_mseq (s : State) (f : WdSt → WdSt) : (s.modWd f).mseq = s.mseq := rfl
@[simp] theorem State.modWd_conv (s : State) (f : WdSt → WdSt) : (s.modWd f).conv = s.conv := rfl
@[simp] theorem State.modWd_host (s : State) (f : WdSt → WdSt) : (s.modWd f).host = s.host := rfl
@[simp] theorem State.modWd_own (s : State) (f : WdSt → WdSt) : (s.modWd f).own = s.own := rfl
@[simp] theorem State.modWd_ring (s : State) (f : WdSt → WdSt) : (s.modWd f).ring = s.ring := rfl
@[simp] theorem State.modWd_log (s : State) (f : WdSt → WdSt) : (s.modWd f).log = s.log := rfl
@[simp] theorem State.modWd_wd (s : State) (f : WdSt → WdSt) : (s.modWd f).wd = f s.wd := rfl
@[simp] theorem State.modWd_nvm (s : State) (f : WdSt → WdSt) : (s.modWd f).nvm = s.nvm := rfl
@[simp] theorem State.modWd_start (s : State) (f : WdSt → WdSt) : (s.modWd f).start = s.start := rfl
@[simp] theorem State.modWd_cfg (s : State) (f : WdSt → WdSt) : (s.modWd f).cfg = s.cfg := rfl
@[simp] theorem State.modWd_sched (s : State) (f : WdSt → WdSt) : (s.modWd f).sched = s.sched := rfl
@[simp] theorem State.modWd_fresh (s : State) (f : WdSt → WdSt) : (s.modWd f).fresh = s.fresh := rfl
@[simp] theorem State.modWd_pending (s : State) (f : WdSt → WdSt) : (s.modWd f).pending = s.pending := rfl

/-! ### modPack -/

@[simp] theorem State.modPack_time (s : State) (f : PackSt → PackSt) : (s.modPack f).time = s.time := rfl
@[simp] theorem State.modPack_ovr (s : State) (f : PackSt → PackSt) : (s.modPack f).ovr = s.ovr := rfl
@[simp] theorem State.modPack_arb (s : State) (f : PackSt → PackSt) : (s.modPack f).arb = s.arb := rfl
@[simp] theorem State.modPack_ph (s : State) (f : PackSt → PackSt) : (s.modPack f).ph = s.ph := rfl
@[simp] theorem State.modPack_phd (s : State) (f : PackSt → PackSt) : (s.modPack f).phd = s.phd := rfl
@[simp] theorem State.modPack_rail (s : State) (f : PackSt → PackSt) : (s.modPack f).rail = s.rail := rfl
@[simp] theorem State.modPack_raild (s : State) (f : PackSt → PackSt) : (s.modPack f).raild = s.raild := rfl
@[simp] theorem State.modPack_region (s : State) (f : PackSt → PackSt) : (s.modPack f).region = s.region := rfl
@[simp] theorem State.modPack_lend (s : State) (f : PackSt → PackSt) : (s.modPack f).lend = s.lend := rfl
@[simp] theorem State.modPack_gang (s : State) (f : PackSt → PackSt) : (s.modPack f).gang = s.gang := rfl
@[simp] theorem State.modPack_fc (s : State) (f : PackSt → PackSt) : (s.modPack f).fc = s.fc := rfl
@[simp] theorem State.modPack_orders (s : State) (f : PackSt → PackSt) : (s.modPack f).orders = s.orders := rfl
@[simp] theorem State.modPack_seq (s : State) (f : PackSt → PackSt) : (s.modPack f).seq = s.seq := rfl
@[simp] theorem State.modPack_feed (s : State) (f : PackSt → PackSt) : (s.modPack f).feed = s.feed := rfl
@[simp] theorem State.modPack_hk (s : State) (f : PackSt → PackSt) : (s.modPack f).hk = s.hk := rfl
@[simp] theorem State.modPack_pwr (s : State) (f : PackSt → PackSt) : (s.modPack f).pwr = s.pwr := rfl
@[simp] theorem State.modPack_pack (s : State) (f : PackSt → PackSt) : (s.modPack f).pack = f s.pack := rfl
@[simp] theorem State.modPack_therm (s : State) (f : PackSt → PackSt) : (s.modPack f).therm = s.therm := rfl
@[simp] theorem State.modPack_mseq (s : State) (f : PackSt → PackSt) : (s.modPack f).mseq = s.mseq := rfl
@[simp] theorem State.modPack_conv (s : State) (f : PackSt → PackSt) : (s.modPack f).conv = s.conv := rfl
@[simp] theorem State.modPack_host (s : State) (f : PackSt → PackSt) : (s.modPack f).host = s.host := rfl
@[simp] theorem State.modPack_own (s : State) (f : PackSt → PackSt) : (s.modPack f).own = s.own := rfl
@[simp] theorem State.modPack_ring (s : State) (f : PackSt → PackSt) : (s.modPack f).ring = s.ring := rfl
@[simp] theorem State.modPack_log (s : State) (f : PackSt → PackSt) : (s.modPack f).log = s.log := rfl
@[simp] theorem State.modPack_wd (s : State) (f : PackSt → PackSt) : (s.modPack f).wd = s.wd := rfl
@[simp] theorem State.modPack_nvm (s : State) (f : PackSt → PackSt) : (s.modPack f).nvm = s.nvm := rfl
@[simp] theorem State.modPack_start (s : State) (f : PackSt → PackSt) : (s.modPack f).start = s.start := rfl
@[simp] theorem State.modPack_cfg (s : State) (f : PackSt → PackSt) : (s.modPack f).cfg = s.cfg := rfl
@[simp] theorem State.modPack_sched (s : State) (f : PackSt → PackSt) : (s.modPack f).sched = s.sched := rfl
@[simp] theorem State.modPack_fresh (s : State) (f : PackSt → PackSt) : (s.modPack f).fresh = s.fresh := rfl
@[simp] theorem State.modPack_pending (s : State) (f : PackSt → PackSt) : (s.modPack f).pending = s.pending := rfl

/-! ### modStart -/

@[simp] theorem State.modStart_time (s : State) (f : StartSt → StartSt) : (s.modStart f).time = s.time := rfl
@[simp] theorem State.modStart_ovr (s : State) (f : StartSt → StartSt) : (s.modStart f).ovr = s.ovr := rfl
@[simp] theorem State.modStart_arb (s : State) (f : StartSt → StartSt) : (s.modStart f).arb = s.arb := rfl
@[simp] theorem State.modStart_ph (s : State) (f : StartSt → StartSt) : (s.modStart f).ph = s.ph := rfl
@[simp] theorem State.modStart_phd (s : State) (f : StartSt → StartSt) : (s.modStart f).phd = s.phd := rfl
@[simp] theorem State.modStart_rail (s : State) (f : StartSt → StartSt) : (s.modStart f).rail = s.rail := rfl
@[simp] theorem State.modStart_raild (s : State) (f : StartSt → StartSt) : (s.modStart f).raild = s.raild := rfl
@[simp] theorem State.modStart_region (s : State) (f : StartSt → StartSt) : (s.modStart f).region = s.region := rfl
@[simp] theorem State.modStart_lend (s : State) (f : StartSt → StartSt) : (s.modStart f).lend = s.lend := rfl
@[simp] theorem State.modStart_gang (s : State) (f : StartSt → StartSt) : (s.modStart f).gang = s.gang := rfl
@[simp] theorem State.modStart_fc (s : State) (f : StartSt → StartSt) : (s.modStart f).fc = s.fc := rfl
@[simp] theorem State.modStart_orders (s : State) (f : StartSt → StartSt) : (s.modStart f).orders = s.orders := rfl
@[simp] theorem State.modStart_seq (s : State) (f : StartSt → StartSt) : (s.modStart f).seq = s.seq := rfl
@[simp] theorem State.modStart_feed (s : State) (f : StartSt → StartSt) : (s.modStart f).feed = s.feed := rfl
@[simp] theorem State.modStart_hk (s : State) (f : StartSt → StartSt) : (s.modStart f).hk = s.hk := rfl
@[simp] theorem State.modStart_pwr (s : State) (f : StartSt → StartSt) : (s.modStart f).pwr = s.pwr := rfl
@[simp] theorem State.modStart_pack (s : State) (f : StartSt → StartSt) : (s.modStart f).pack = s.pack := rfl
@[simp] theorem State.modStart_therm (s : State) (f : StartSt → StartSt) : (s.modStart f).therm = s.therm := rfl
@[simp] theorem State.modStart_mseq (s : State) (f : StartSt → StartSt) : (s.modStart f).mseq = s.mseq := rfl
@[simp] theorem State.modStart_conv (s : State) (f : StartSt → StartSt) : (s.modStart f).conv = s.conv := rfl
@[simp] theorem State.modStart_host (s : State) (f : StartSt → StartSt) : (s.modStart f).host = s.host := rfl
@[simp] theorem State.modStart_own (s : State) (f : StartSt → StartSt) : (s.modStart f).own = s.own := rfl
@[simp] theorem State.modStart_ring (s : State) (f : StartSt → StartSt) : (s.modStart f).ring = s.ring := rfl
@[simp] theorem State.modStart_log (s : State) (f : StartSt → StartSt) : (s.modStart f).log = s.log := rfl
@[simp] theorem State.modStart_wd (s : State) (f : StartSt → StartSt) : (s.modStart f).wd = s.wd := rfl
@[simp] theorem State.modStart_nvm (s : State) (f : StartSt → StartSt) : (s.modStart f).nvm = s.nvm := rfl
@[simp] theorem State.modStart_start (s : State) (f : StartSt → StartSt) : (s.modStart f).start = f s.start := rfl
@[simp] theorem State.modStart_cfg (s : State) (f : StartSt → StartSt) : (s.modStart f).cfg = s.cfg := rfl
@[simp] theorem State.modStart_sched (s : State) (f : StartSt → StartSt) : (s.modStart f).sched = s.sched := rfl
@[simp] theorem State.modStart_fresh (s : State) (f : StartSt → StartSt) : (s.modStart f).fresh = s.fresh := rfl
@[simp] theorem State.modStart_pending (s : State) (f : StartSt → StartSt) : (s.modStart f).pending = s.pending := rfl

/-! ### modOtp -/

@[simp] theorem State.modOtp_time (s : State) (d : Fin 3) (f : OtpDie → OtpDie) : (s.modOtp d f).time = s.time := rfl
@[simp] theorem State.modOtp_ovr (s : State) (d : Fin 3) (f : OtpDie → OtpDie) : (s.modOtp d f).ovr = s.ovr := rfl
@[simp] theorem State.modOtp_arb (s : State) (d : Fin 3) (f : OtpDie → OtpDie) : (s.modOtp d f).arb = s.arb := rfl
@[simp] theorem State.modOtp_ph (s : State) (d : Fin 3) (f : OtpDie → OtpDie) : (s.modOtp d f).ph = s.ph := rfl
@[simp] theorem State.modOtp_phd (s : State) (d : Fin 3) (f : OtpDie → OtpDie) : (s.modOtp d f).phd = s.phd := rfl
@[simp] theorem State.modOtp_rail (s : State) (d : Fin 3) (f : OtpDie → OtpDie) : (s.modOtp d f).rail = s.rail := rfl
@[simp] theorem State.modOtp_raild (s : State) (d : Fin 3) (f : OtpDie → OtpDie) : (s.modOtp d f).raild = s.raild := rfl
@[simp] theorem State.modOtp_region (s : State) (d : Fin 3) (f : OtpDie → OtpDie) : (s.modOtp d f).region = s.region := rfl
@[simp] theorem State.modOtp_lend (s : State) (d : Fin 3) (f : OtpDie → OtpDie) : (s.modOtp d f).lend = s.lend := rfl
@[simp] theorem State.modOtp_gang (s : State) (d : Fin 3) (f : OtpDie → OtpDie) : (s.modOtp d f).gang = s.gang := rfl
@[simp] theorem State.modOtp_fc (s : State) (d : Fin 3) (f : OtpDie → OtpDie) : (s.modOtp d f).fc = s.fc := rfl
@[simp] theorem State.modOtp_orders (s : State) (d : Fin 3) (f : OtpDie → OtpDie) : (s.modOtp d f).orders = s.orders := rfl
@[simp] theorem State.modOtp_seq (s : State) (d : Fin 3) (f : OtpDie → OtpDie) : (s.modOtp d f).seq = s.seq := rfl
@[simp] theorem State.modOtp_feed (s : State) (d : Fin 3) (f : OtpDie → OtpDie) : (s.modOtp d f).feed = s.feed := rfl
@[simp] theorem State.modOtp_hk (s : State) (d : Fin 3) (f : OtpDie → OtpDie) : (s.modOtp d f).hk = s.hk := rfl
@[simp] theorem State.modOtp_pwr (s : State) (d : Fin 3) (f : OtpDie → OtpDie) : (s.modOtp d f).pwr = s.pwr := rfl
@[simp] theorem State.modOtp_pack (s : State) (d : Fin 3) (f : OtpDie → OtpDie) : (s.modOtp d f).pack = s.pack := rfl
@[simp] theorem State.modOtp_therm (s : State) (d : Fin 3) (f : OtpDie → OtpDie) : (s.modOtp d f).therm = s.therm := rfl
@[simp] theorem State.modOtp_mseq (s : State) (d : Fin 3) (f : OtpDie → OtpDie) : (s.modOtp d f).mseq = s.mseq := rfl
@[simp] theorem State.modOtp_conv (s : State) (d : Fin 3) (f : OtpDie → OtpDie) : (s.modOtp d f).conv = s.conv := rfl
@[simp] theorem State.modOtp_host (s : State) (d : Fin 3) (f : OtpDie → OtpDie) : (s.modOtp d f).host = s.host := rfl
@[simp] theorem State.modOtp_own (s : State) (d : Fin 3) (f : OtpDie → OtpDie) : (s.modOtp d f).own = s.own := rfl
@[simp] theorem State.modOtp_ring (s : State) (d : Fin 3) (f : OtpDie → OtpDie) : (s.modOtp d f).ring = s.ring := rfl
@[simp] theorem State.modOtp_log (s : State) (d : Fin 3) (f : OtpDie → OtpDie) : (s.modOtp d f).log = s.log := rfl
@[simp] theorem State.modOtp_wd (s : State) (d : Fin 3) (f : OtpDie → OtpDie) : (s.modOtp d f).wd = s.wd := rfl
@[simp] theorem State.modOtp_nvm (s : State) (d : Fin 3) (f : OtpDie → OtpDie) : (s.modOtp d f).nvm = { s.nvm with otp := upd s.nvm.otp d f } := rfl
@[simp] theorem State.modOtp_start (s : State) (d : Fin 3) (f : OtpDie → OtpDie) : (s.modOtp d f).start = s.start := rfl
@[simp] theorem State.modOtp_cfg (s : State) (d : Fin 3) (f : OtpDie → OtpDie) : (s.modOtp d f).cfg = s.cfg := rfl
@[simp] theorem State.modOtp_sched (s : State) (d : Fin 3) (f : OtpDie → OtpDie) : (s.modOtp d f).sched = s.sched := rfl
@[simp] theorem State.modOtp_fresh (s : State) (d : Fin 3) (f : OtpDie → OtpDie) : (s.modOtp d f).fresh = s.fresh := rfl
@[simp] theorem State.modOtp_pending (s : State) (d : Fin 3) (f : OtpDie → OtpDie) : (s.modOtp d f).pending = s.pending := rfl

/-! ### setDie -/

@[simp] theorem State.setDie_time (s : State) (d : Cd) (st : DieState) : (s.setDie d st).time = s.time := rfl
@[simp] theorem State.setDie_ovr (s : State) (d : Cd) (st : DieState) : (s.setDie d st).ovr = s.ovr := rfl
@[simp] theorem State.setDie_arb (s : State) (d : Cd) (st : DieState) : (s.setDie d st).arb = { s.arb with st := s.arb.st.set d.ix st } := rfl
@[simp] theorem State.setDie_ph (s : State) (d : Cd) (st : DieState) : (s.setDie d st).ph = s.ph := rfl
@[simp] theorem State.setDie_phd (s : State) (d : Cd) (st : DieState) : (s.setDie d st).phd = s.phd := rfl
@[simp] theorem State.setDie_rail (s : State) (d : Cd) (st : DieState) : (s.setDie d st).rail = s.rail := rfl
@[simp] theorem State.setDie_raild (s : State) (d : Cd) (st : DieState) : (s.setDie d st).raild = s.raild := rfl
@[simp] theorem State.setDie_region (s : State) (d : Cd) (st : DieState) : (s.setDie d st).region = s.region := rfl
@[simp] theorem State.setDie_lend (s : State) (d : Cd) (st : DieState) : (s.setDie d st).lend = s.lend := rfl
@[simp] theorem State.setDie_gang (s : State) (d : Cd) (st : DieState) : (s.setDie d st).gang = s.gang := rfl
@[simp] theorem State.setDie_fc (s : State) (d : Cd) (st : DieState) : (s.setDie d st).fc = s.fc := rfl
@[simp] theorem State.setDie_orders (s : State) (d : Cd) (st : DieState) : (s.setDie d st).orders = s.orders := rfl
@[simp] theorem State.setDie_seq (s : State) (d : Cd) (st : DieState) : (s.setDie d st).seq = s.seq := rfl
@[simp] theorem State.setDie_feed (s : State) (d : Cd) (st : DieState) : (s.setDie d st).feed = s.feed := rfl
@[simp] theorem State.setDie_hk (s : State) (d : Cd) (st : DieState) : (s.setDie d st).hk = s.hk := rfl
@[simp] theorem State.setDie_pwr (s : State) (d : Cd) (st : DieState) : (s.setDie d st).pwr = s.pwr := rfl
@[simp] theorem State.setDie_pack (s : State) (d : Cd) (st : DieState) : (s.setDie d st).pack = s.pack := rfl
@[simp] theorem State.setDie_therm (s : State) (d : Cd) (st : DieState) : (s.setDie d st).therm = s.therm := rfl
@[simp] theorem State.setDie_mseq (s : State) (d : Cd) (st : DieState) : (s.setDie d st).mseq = s.mseq := rfl
@[simp] theorem State.setDie_conv (s : State) (d : Cd) (st : DieState) : (s.setDie d st).conv = s.conv := rfl
@[simp] theorem State.setDie_host (s : State) (d : Cd) (st : DieState) : (s.setDie d st).host = s.host := rfl
@[simp] theorem State.setDie_own (s : State) (d : Cd) (st : DieState) : (s.setDie d st).own = s.own := rfl
@[simp] theorem State.setDie_ring (s : State) (d : Cd) (st : DieState) : (s.setDie d st).ring = s.ring := rfl
@[simp] theorem State.setDie_log (s : State) (d : Cd) (st : DieState) : (s.setDie d st).log = s.log := rfl
@[simp] theorem State.setDie_wd (s : State) (d : Cd) (st : DieState) : (s.setDie d st).wd = s.wd := rfl
@[simp] theorem State.setDie_nvm (s : State) (d : Cd) (st : DieState) : (s.setDie d st).nvm = s.nvm := rfl
@[simp] theorem State.setDie_start (s : State) (d : Cd) (st : DieState) : (s.setDie d st).start = s.start := rfl
@[simp] theorem State.setDie_cfg (s : State) (d : Cd) (st : DieState) : (s.setDie d st).cfg = s.cfg := rfl
@[simp] theorem State.setDie_sched (s : State) (d : Cd) (st : DieState) : (s.setDie d st).sched = s.sched := rfl
@[simp] theorem State.setDie_fresh (s : State) (d : Cd) (st : DieState) : (s.setDie d st).fresh = s.fresh := rfl
@[simp] theorem State.setDie_pending (s : State) (d : Cd) (st : DieState) : (s.setDie d st).pending = s.pending := rfl

/-! ### setBias -/

@[simp] theorem State.setBias_time (s : State) (d : Cd) (on : Bool) : (s.setBias d on).time = s.time := rfl
@[simp] theorem State.setBias_ovr (s : State) (d : Cd) (on : Bool) : (s.setBias d on).ovr = s.ovr := rfl
@[simp] theorem State.setBias_arb (s : State) (d : Cd) (on : Bool) : (s.setBias d on).arb = { s.arb with bias := s.arb.bias.set d.ix on } := rfl
@[simp] theorem State.setBias_ph (s : State) (d : Cd) (on : Bool) : (s.setBias d on).ph = s.ph := rfl
@[simp] theorem State.setBias_phd (s : State) (d : Cd) (on : Bool) : (s.setBias d on).phd = s.phd := rfl
@[simp] theorem State.setBias_rail (s : State) (d : Cd) (on : Bool) : (s.setBias d on).rail = s.rail := rfl
@[simp] theorem State.setBias_raild (s : State) (d : Cd) (on : Bool) : (s.setBias d on).raild = s.raild := rfl
@[simp] theorem State.setBias_region (s : State) (d : Cd) (on : Bool) : (s.setBias d on).region = s.region := rfl
@[simp] theorem State.setBias_lend (s : State) (d : Cd) (on : Bool) : (s.setBias d on).lend = s.lend := rfl
@[simp] theorem State.setBias_gang (s : State) (d : Cd) (on : Bool) : (s.setBias d on).gang = s.gang := rfl
@[simp] theorem State.setBias_fc (s : State) (d : Cd) (on : Bool) : (s.setBias d on).fc = s.fc := rfl
@[simp] theorem State.setBias_orders (s : State) (d : Cd) (on : Bool) : (s.setBias d on).orders = s.orders := rfl
@[simp] theorem State.setBias_seq (s : State) (d : Cd) (on : Bool) : (s.setBias d on).seq = s.seq := rfl
@[simp] theorem State.setBias_feed (s : State) (d : Cd) (on : Bool) : (s.setBias d on).feed = s.feed := rfl
@[simp] theorem State.setBias_hk (s : State) (d : Cd) (on : Bool) : (s.setBias d on).hk = s.hk := rfl
@[simp] theorem State.setBias_pwr (s : State) (d : Cd) (on : Bool) : (s.setBias d on).pwr = s.pwr := rfl
@[simp] theorem State.setBias_pack (s : State) (d : Cd) (on : Bool) : (s.setBias d on).pack = s.pack := rfl
@[simp] theorem State.setBias_therm (s : State) (d : Cd) (on : Bool) : (s.setBias d on).therm = s.therm := rfl
@[simp] theorem State.setBias_mseq (s : State) (d : Cd) (on : Bool) : (s.setBias d on).mseq = s.mseq := rfl
@[simp] theorem State.setBias_conv (s : State) (d : Cd) (on : Bool) : (s.setBias d on).conv = s.conv := rfl
@[simp] theorem State.setBias_host (s : State) (d : Cd) (on : Bool) : (s.setBias d on).host = s.host := rfl
@[simp] theorem State.setBias_own (s : State) (d : Cd) (on : Bool) : (s.setBias d on).own = s.own := rfl
@[simp] theorem State.setBias_ring (s : State) (d : Cd) (on : Bool) : (s.setBias d on).ring = s.ring := rfl
@[simp] theorem State.setBias_log (s : State) (d : Cd) (on : Bool) : (s.setBias d on).log = s.log := rfl
@[simp] theorem State.setBias_wd (s : State) (d : Cd) (on : Bool) : (s.setBias d on).wd = s.wd := rfl
@[simp] theorem State.setBias_nvm (s : State) (d : Cd) (on : Bool) : (s.setBias d on).nvm = s.nvm := rfl
@[simp] theorem State.setBias_start (s : State) (d : Cd) (on : Bool) : (s.setBias d on).start = s.start := rfl
@[simp] theorem State.setBias_cfg (s : State) (d : Cd) (on : Bool) : (s.setBias d on).cfg = s.cfg := rfl
@[simp] theorem State.setBias_sched (s : State) (d : Cd) (on : Bool) : (s.setBias d on).sched = s.sched := rfl
@[simp] theorem State.setBias_fresh (s : State) (d : Cd) (on : Bool) : (s.setBias d on).fresh = s.fresh := rfl
@[simp] theorem State.setBias_pending (s : State) (d : Cd) (on : Bool) : (s.setBias d on).pending = s.pending := rfl

/-! ### hostWrite -/

@[simp] theorem State.hostWrite_time (s : State) (a : Nat) (bs : List Nat) : (s.hostWrite a bs).time = s.time := rfl
@[simp] theorem State.hostWrite_ovr (s : State) (a : Nat) (bs : List Nat) : (s.hostWrite a bs).ovr = s.ovr := rfl
@[simp] theorem State.hostWrite_arb (s : State) (a : Nat) (bs : List Nat) : (s.hostWrite a bs).arb = s.arb := rfl
@[simp] theorem State.hostWrite_ph (s : State) (a : Nat) (bs : List Nat) : (s.hostWrite a bs).ph = s.ph := rfl
@[simp] theorem State.hostWrite_phd (s : State) (a : Nat) (bs : List Nat) : (s.hostWrite a bs).phd = s.phd := rfl
@[simp] theorem State.hostWrite_rail (s : State) (a : Nat) (bs : List Nat) : (s.hostWrite a bs).rail = s.rail := rfl
@[simp] theorem State.hostWrite_raild (s : State) (a : Nat) (bs : List Nat) : (s.hostWrite a bs).raild = s.raild := rfl
@[simp] theorem State.hostWrite_region (s : State) (a : Nat) (bs : List Nat) : (s.hostWrite a bs).region = s.region := rfl
@[simp] theorem State.hostWrite_lend (s : State) (a : Nat) (bs : List Nat) : (s.hostWrite a bs).lend = s.lend := rfl
@[simp] theorem State.hostWrite_gang (s : State) (a : Nat) (bs : List Nat) : (s.hostWrite a bs).gang = s.gang := rfl
@[simp] theorem State.hostWrite_fc (s : State) (a : Nat) (bs : List Nat) : (s.hostWrite a bs).fc = s.fc := rfl
@[simp] theorem State.hostWrite_orders (s : State) (a : Nat) (bs : List Nat) : (s.hostWrite a bs).orders = s.orders := rfl
@[simp] theorem State.hostWrite_seq (s : State) (a : Nat) (bs : List Nat) : (s.hostWrite a bs).seq = s.seq := rfl
@[simp] theorem State.hostWrite_feed (s : State) (a : Nat) (bs : List Nat) : (s.hostWrite a bs).feed = s.feed := rfl
@[simp] theorem State.hostWrite_hk (s : State) (a : Nat) (bs : List Nat) : (s.hostWrite a bs).hk = s.hk := rfl
@[simp] theorem State.hostWrite_pwr (s : State) (a : Nat) (bs : List Nat) : (s.hostWrite a bs).pwr = s.pwr := rfl
@[simp] theorem State.hostWrite_pack (s : State) (a : Nat) (bs : List Nat) : (s.hostWrite a bs).pack = s.pack := rfl
@[simp] theorem State.hostWrite_therm (s : State) (a : Nat) (bs : List Nat) : (s.hostWrite a bs).therm = s.therm := rfl
@[simp] theorem State.hostWrite_mseq (s : State) (a : Nat) (bs : List Nat) : (s.hostWrite a bs).mseq = s.mseq := rfl
@[simp] theorem State.hostWrite_conv (s : State) (a : Nat) (bs : List Nat) : (s.hostWrite a bs).conv = s.conv := rfl
@[simp] theorem State.hostWrite_host (s : State) (a : Nat) (bs : List Nat) : (s.hostWrite a bs).host = { s.host with hostMem := Mem.writeList s.host.hostMem a bs } := rfl
@[simp] theorem State.hostWrite_own (s : State) (a : Nat) (bs : List Nat) : (s.hostWrite a bs).own = s.own := rfl
@[simp] theorem State.hostWrite_ring (s : State) (a : Nat) (bs : List Nat) : (s.hostWrite a bs).ring = s.ring := rfl
@[simp] theorem State.hostWrite_log (s : State) (a : Nat) (bs : List Nat) : (s.hostWrite a bs).log = s.log := rfl
@[simp] theorem State.hostWrite_wd (s : State) (a : Nat) (bs : List Nat) : (s.hostWrite a bs).wd = s.wd := rfl
@[simp] theorem State.hostWrite_nvm (s : State) (a : Nat) (bs : List Nat) : (s.hostWrite a bs).nvm = s.nvm := rfl
@[simp] theorem State.hostWrite_start (s : State) (a : Nat) (bs : List Nat) : (s.hostWrite a bs).start = s.start := rfl
@[simp] theorem State.hostWrite_cfg (s : State) (a : Nat) (bs : List Nat) : (s.hostWrite a bs).cfg = s.cfg := rfl
@[simp] theorem State.hostWrite_sched (s : State) (a : Nat) (bs : List Nat) : (s.hostWrite a bs).sched = s.sched := rfl
@[simp] theorem State.hostWrite_fresh (s : State) (a : Nat) (bs : List Nat) : (s.hostWrite a bs).fresh = s.fresh := rfl
@[simp] theorem State.hostWrite_pending (s : State) (a : Nat) (bs : List Nat) : (s.hostWrite a bs).pending = s.pending := rfl

/-! ### modWin -/

@[simp] theorem State.modWin_time (s : State) (c : Nat) (f : SpiWin → SpiWin) : (s.modWin c f).time = s.time := rfl
@[simp] theorem State.modWin_ovr (s : State) (c : Nat) (f : SpiWin → SpiWin) : (s.modWin c f).ovr = s.ovr := rfl
@[simp] theorem State.modWin_arb (s : State) (c : Nat) (f : SpiWin → SpiWin) : (s.modWin c f).arb = s.arb := rfl
@[simp] theorem State.modWin_ph (s : State) (c : Nat) (f : SpiWin → SpiWin) : (s.modWin c f).ph = s.ph := rfl
@[simp] theorem State.modWin_phd (s : State) (c : Nat) (f : SpiWin → SpiWin) : (s.modWin c f).phd = s.phd := rfl
@[simp] theorem State.modWin_rail (s : State) (c : Nat) (f : SpiWin → SpiWin) : (s.modWin c f).rail = s.rail := rfl
@[simp] theorem State.modWin_raild (s : State) (c : Nat) (f : SpiWin → SpiWin) : (s.modWin c f).raild = s.raild := rfl
@[simp] theorem State.modWin_region (s : State) (c : Nat) (f : SpiWin → SpiWin) : (s.modWin c f).region = s.region := rfl
@[simp] theorem State.modWin_lend (s : State) (c : Nat) (f : SpiWin → SpiWin) : (s.modWin c f).lend = s.lend := rfl
@[simp] theorem State.modWin_gang (s : State) (c : Nat) (f : SpiWin → SpiWin) : (s.modWin c f).gang = s.gang := rfl
@[simp] theorem State.modWin_fc (s : State) (c : Nat) (f : SpiWin → SpiWin) : (s.modWin c f).fc = s.fc := rfl
@[simp] theorem State.modWin_orders (s : State) (c : Nat) (f : SpiWin → SpiWin) : (s.modWin c f).orders = s.orders := rfl
@[simp] theorem State.modWin_seq (s : State) (c : Nat) (f : SpiWin → SpiWin) : (s.modWin c f).seq = s.seq := rfl
@[simp] theorem State.modWin_feed (s : State) (c : Nat) (f : SpiWin → SpiWin) : (s.modWin c f).feed = s.feed := rfl
@[simp] theorem State.modWin_hk (s : State) (c : Nat) (f : SpiWin → SpiWin) : (s.modWin c f).hk = s.hk := rfl
@[simp] theorem State.modWin_pwr (s : State) (c : Nat) (f : SpiWin → SpiWin) : (s.modWin c f).pwr = s.pwr := rfl
@[simp] theorem State.modWin_pack (s : State) (c : Nat) (f : SpiWin → SpiWin) : (s.modWin c f).pack = s.pack := rfl
@[simp] theorem State.modWin_therm (s : State) (c : Nat) (f : SpiWin → SpiWin) : (s.modWin c f).therm = s.therm := rfl
@[simp] theorem State.modWin_mseq (s : State) (c : Nat) (f : SpiWin → SpiWin) : (s.modWin c f).mseq = s.mseq := rfl
@[simp] theorem State.modWin_conv (s : State) (c : Nat) (f : SpiWin → SpiWin) : (s.modWin c f).conv = s.conv := rfl
@[simp] theorem State.modWin_host (s : State) (c : Nat) (f : SpiWin → SpiWin) : (s.modWin c f).host = { s.host with win := upd s.host.win (if c = 4094 then (0 : Fin 2) else 1) f } := rfl
@[simp] theorem State.modWin_own (s : State) (c : Nat) (f : SpiWin → SpiWin) : (s.modWin c f).own = s.own := rfl
@[simp] theorem State.modWin_ring (s : State) (c : Nat) (f : SpiWin → SpiWin) : (s.modWin c f).ring = s.ring := rfl
@[simp] theorem State.modWin_log (s : State) (c : Nat) (f : SpiWin → SpiWin) : (s.modWin c f).log = s.log := rfl
@[simp] theorem State.modWin_wd (s : State) (c : Nat) (f : SpiWin → SpiWin) : (s.modWin c f).wd = s.wd := rfl
@[simp] theorem State.modWin_nvm (s : State) (c : Nat) (f : SpiWin → SpiWin) : (s.modWin c f).nvm = s.nvm := rfl
@[simp] theorem State.modWin_start (s : State) (c : Nat) (f : SpiWin → SpiWin) : (s.modWin c f).start = s.start := rfl
@[simp] theorem State.modWin_cfg (s : State) (c : Nat) (f : SpiWin → SpiWin) : (s.modWin c f).cfg = s.cfg := rfl
@[simp] theorem State.modWin_sched (s : State) (c : Nat) (f : SpiWin → SpiWin) : (s.modWin c f).sched = s.sched := rfl
@[simp] theorem State.modWin_fresh (s : State) (c : Nat) (f : SpiWin → SpiWin) : (s.modWin c f).fresh = s.fresh := rfl
@[simp] theorem State.modWin_pending (s : State) (c : Nat) (f : SpiWin → SpiWin) : (s.modWin c f).pending = s.pending := rfl

/-! ### modClient -/

@[simp] theorem State.modClient_time (s : State) (c : Nat) (f : Client → Client) : (s.modClient c f).time = s.time := rfl
@[simp] theorem State.modClient_ovr (s : State) (c : Nat) (f : Client → Client) : (s.modClient c f).ovr = s.ovr := rfl
@[simp] theorem State.modClient_arb (s : State) (c : Nat) (f : Client → Client) : (s.modClient c f).arb = s.arb := rfl
@[simp] theorem State.modClient_ph (s : State) (c : Nat) (f : Client → Client) : (s.modClient c f).ph = s.ph := rfl
@[simp] theorem State.modClient_phd (s : State) (c : Nat) (f : Client → Client) : (s.modClient c f).phd = s.phd := rfl
@[simp] theorem State.modClient_rail (s : State) (c : Nat) (f : Client → Client) : (s.modClient c f).rail = s.rail := rfl
@[simp] theorem State.modClient_raild (s : State) (c : Nat) (f : Client → Client) : (s.modClient c f).raild = s.raild := rfl
@[simp] theorem State.modClient_region (s : State) (c : Nat) (f : Client → Client) : (s.modClient c f).region = s.region := rfl
@[simp] theorem State.modClient_lend (s : State) (c : Nat) (f : Client → Client) : (s.modClient c f).lend = s.lend := rfl
@[simp] theorem State.modClient_gang (s : State) (c : Nat) (f : Client → Client) : (s.modClient c f).gang = s.gang := rfl
@[simp] theorem State.modClient_fc (s : State) (c : Nat) (f : Client → Client) : (s.modClient c f).fc = s.fc := rfl
@[simp] theorem State.modClient_orders (s : State) (c : Nat) (f : Client → Client) : (s.modClient c f).orders = s.orders := rfl
@[simp] theorem State.modClient_seq (s : State) (c : Nat) (f : Client → Client) : (s.modClient c f).seq = s.seq := rfl
@[simp] theorem State.modClient_feed (s : State) (c : Nat) (f : Client → Client) : (s.modClient c f).feed = s.feed := rfl
@[simp] theorem State.modClient_hk (s : State) (c : Nat) (f : Client → Client) : (s.modClient c f).hk = s.hk := rfl
@[simp] theorem State.modClient_pwr (s : State) (c : Nat) (f : Client → Client) : (s.modClient c f).pwr = s.pwr := rfl
@[simp] theorem State.modClient_pack (s : State) (c : Nat) (f : Client → Client) : (s.modClient c f).pack = s.pack := rfl
@[simp] theorem State.modClient_therm (s : State) (c : Nat) (f : Client → Client) : (s.modClient c f).therm = s.therm := rfl
@[simp] theorem State.modClient_mseq (s : State) (c : Nat) (f : Client → Client) : (s.modClient c f).mseq = s.mseq := rfl
@[simp] theorem State.modClient_conv (s : State) (c : Nat) (f : Client → Client) : (s.modClient c f).conv = s.conv := rfl
@[simp] theorem State.modClient_own (s : State) (c : Nat) (f : Client → Client) : (s.modClient c f).own = s.own := rfl
@[simp] theorem State.modClient_ring (s : State) (c : Nat) (f : Client → Client) : (s.modClient c f).ring = s.ring := rfl
@[simp] theorem State.modClient_log (s : State) (c : Nat) (f : Client → Client) : (s.modClient c f).log = s.log := rfl
@[simp] theorem State.modClient_wd (s : State) (c : Nat) (f : Client → Client) : (s.modClient c f).wd = s.wd := rfl
@[simp] theorem State.modClient_nvm (s : State) (c : Nat) (f : Client → Client) : (s.modClient c f).nvm = s.nvm := rfl
@[simp] theorem State.modClient_start (s : State) (c : Nat) (f : Client → Client) : (s.modClient c f).start = s.start := rfl
@[simp] theorem State.modClient_cfg (s : State) (c : Nat) (f : Client → Client) : (s.modClient c f).cfg = s.cfg := rfl
@[simp] theorem State.modClient_sched (s : State) (c : Nat) (f : Client → Client) : (s.modClient c f).sched = s.sched := rfl
@[simp] theorem State.modClient_fresh (s : State) (c : Nat) (f : Client → Client) : (s.modClient c f).fresh = s.fresh := rfl
@[simp] theorem State.modClient_pending (s : State) (c : Nat) (f : Client → Client) : (s.modClient c f).pending = s.pending := rfl

/-! ### setBus -/

@[simp] theorem State.setBus_time (s : State) (v : Nat) : (s.setBus v).time = s.time := rfl
@[simp] theorem State.setBus_ovr (s : State) (v : Nat) : (s.setBus v).ovr = s.ovr := rfl
@[simp] theorem State.setBus_arb (s : State) (v : Nat) : (s.setBus v).arb = s.arb := rfl
@[simp] theorem State.setBus_ph (s : State) (v : Nat) : (s.setBus v).ph = s.ph := rfl
@[simp] theorem State.setBus_phd (s : State) (v : Nat) : (s.setBus v).phd = s.phd := rfl
@[simp] theorem State.setBus_rail (s : State) (v : Nat) : (s.setBus v).rail = s.rail := rfl
@[simp] theorem State.setBus_raild (s : State) (v : Nat) : (s.setBus v).raild = s.raild := rfl
@[simp] theorem State.setBus_region (s : State) (v : Nat) : (s.setBus v).region = s.region := rfl
@[simp] theorem State.setBus_lend (s : State) (v : Nat) : (s.setBus v).lend = s.lend := rfl
@[simp] theorem State.setBus_gang (s : State) (v : Nat) : (s.setBus v).gang = s.gang := rfl
@[simp] theorem State.setBus_fc (s : State) (v : Nat) : (s.setBus v).fc = s.fc := rfl
@[simp] theorem State.setBus_orders (s : State) (v : Nat) : (s.setBus v).orders = s.orders := rfl
@[simp] theorem State.setBus_seq (s : State) (v : Nat) : (s.setBus v).seq = s.seq := rfl
@[simp] theorem State.setBus_feed (s : State) (v : Nat) : (s.setBus v).feed = s.feed := rfl
@[simp] theorem State.setBus_hk (s : State) (v : Nat) : (s.setBus v).hk = s.hk := rfl
@[simp] theorem State.setBus_pwr (s : State) (v : Nat) : (s.setBus v).pwr = s.pwr := rfl
@[simp] theorem State.setBus_pack (s : State) (v : Nat) : (s.setBus v).pack = s.pack := rfl
@[simp] theorem State.setBus_therm (s : State) (v : Nat) : (s.setBus v).therm = s.therm := rfl
@[simp] theorem State.setBus_mseq (s : State) (v : Nat) : (s.setBus v).mseq = s.mseq := rfl
@[simp] theorem State.setBus_conv (s : State) (v : Nat) : (s.setBus v).conv = s.conv := rfl
@[simp] theorem State.setBus_host (s : State) (v : Nat) : (s.setBus v).host = { s.host with bus := some v, busUr := false } := rfl
@[simp] theorem State.setBus_own (s : State) (v : Nat) : (s.setBus v).own = s.own := rfl
@[simp] theorem State.setBus_ring (s : State) (v : Nat) : (s.setBus v).ring = s.ring := rfl
@[simp] theorem State.setBus_log (s : State) (v : Nat) : (s.setBus v).log = s.log := rfl
@[simp] theorem State.setBus_wd (s : State) (v : Nat) : (s.setBus v).wd = s.wd := rfl
@[simp] theorem State.setBus_nvm (s : State) (v : Nat) : (s.setBus v).nvm = s.nvm := rfl
@[simp] theorem State.setBus_start (s : State) (v : Nat) : (s.setBus v).start = s.start := rfl
@[simp] theorem State.setBus_cfg (s : State) (v : Nat) : (s.setBus v).cfg = s.cfg := rfl
@[simp] theorem State.setBus_sched (s : State) (v : Nat) : (s.setBus v).sched = s.sched := rfl
@[simp] theorem State.setBus_fresh (s : State) (v : Nat) : (s.setBus v).fresh = s.fresh := rfl
@[simp] theorem State.setBus_pending (s : State) (v : Nat) : (s.setBus v).pending = s.pending := rfl

/-! ### setStream -/

@[simp] theorem State.setStream_time (s : State) (x : Option (TkRef × Nat × Nat × List (Nat × Nat))) : (s.setStream x).time = s.time := rfl
@[simp] theorem State.setStream_ovr (s : State) (x : Option (TkRef × Nat × Nat × List (Nat × Nat))) : (s.setStream x).ovr = s.ovr := rfl
@[simp] theorem State.setStream_arb (s : State) (x : Option (TkRef × Nat × Nat × List (Nat × Nat))) : (s.setStream x).arb = s.arb := rfl
@[simp] theorem State.setStream_ph (s : State) (x : Option (TkRef × Nat × Nat × List (Nat × Nat))) : (s.setStream x).ph = s.ph := rfl
@[simp] theorem State.setStream_phd (s : State) (x : Option (TkRef × Nat × Nat × List (Nat × Nat))) : (s.setStream x).phd = s.phd := rfl
@[simp] theorem State.setStream_rail (s : State) (x : Option (TkRef × Nat × Nat × List (Nat × Nat))) : (s.setStream x).rail = s.rail := rfl
@[simp] theorem State.setStream_raild (s : State) (x : Option (TkRef × Nat × Nat × List (Nat × Nat))) : (s.setStream x).raild = s.raild := rfl
@[simp] theorem State.setStream_region (s : State) (x : Option (TkRef × Nat × Nat × List (Nat × Nat))) : (s.setStream x).region = s.region := rfl
@[simp] theorem State.setStream_lend (s : State) (x : Option (TkRef × Nat × Nat × List (Nat × Nat))) : (s.setStream x).lend = s.lend := rfl
@[simp] theorem State.setStream_gang (s : State) (x : Option (TkRef × Nat × Nat × List (Nat × Nat))) : (s.setStream x).gang = s.gang := rfl
@[simp] theorem State.setStream_fc (s : State) (x : Option (TkRef × Nat × Nat × List (Nat × Nat))) : (s.setStream x).fc = s.fc := rfl
@[simp] theorem State.setStream_orders (s : State) (x : Option (TkRef × Nat × Nat × List (Nat × Nat))) : (s.setStream x).orders = s.orders := rfl
@[simp] theorem State.setStream_seq (s : State) (x : Option (TkRef × Nat × Nat × List (Nat × Nat))) : (s.setStream x).seq = s.seq := rfl
@[simp] theorem State.setStream_feed (s : State) (x : Option (TkRef × Nat × Nat × List (Nat × Nat))) : (s.setStream x).feed = s.feed := rfl
@[simp] theorem State.setStream_hk (s : State) (x : Option (TkRef × Nat × Nat × List (Nat × Nat))) : (s.setStream x).hk = s.hk := rfl
@[simp] theorem State.setStream_pwr (s : State) (x : Option (TkRef × Nat × Nat × List (Nat × Nat))) : (s.setStream x).pwr = s.pwr := rfl
@[simp] theorem State.setStream_pack (s : State) (x : Option (TkRef × Nat × Nat × List (Nat × Nat))) : (s.setStream x).pack = s.pack := rfl
@[simp] theorem State.setStream_therm (s : State) (x : Option (TkRef × Nat × Nat × List (Nat × Nat))) : (s.setStream x).therm = s.therm := rfl
@[simp] theorem State.setStream_mseq (s : State) (x : Option (TkRef × Nat × Nat × List (Nat × Nat))) : (s.setStream x).mseq = s.mseq := rfl
@[simp] theorem State.setStream_conv (s : State) (x : Option (TkRef × Nat × Nat × List (Nat × Nat))) : (s.setStream x).conv = s.conv := rfl
@[simp] theorem State.setStream_host (s : State) (x : Option (TkRef × Nat × Nat × List (Nat × Nat))) : (s.setStream x).host = s.host := rfl
@[simp] theorem State.setStream_own (s : State) (x : Option (TkRef × Nat × Nat × List (Nat × Nat))) : (s.setStream x).own = s.own := rfl
@[simp] theorem State.setStream_ring (s : State) (x : Option (TkRef × Nat × Nat × List (Nat × Nat))) : (s.setStream x).ring = s.ring := rfl
@[simp] theorem State.setStream_log (s : State) (x : Option (TkRef × Nat × Nat × List (Nat × Nat))) : (s.setStream x).log = { s.log with stream := x } := rfl
@[simp] theorem State.setStream_wd (s : State) (x : Option (TkRef × Nat × Nat × List (Nat × Nat))) : (s.setStream x).wd = s.wd := rfl
@[simp] theorem State.setStream_nvm (s : State) (x : Option (TkRef × Nat × Nat × List (Nat × Nat))) : (s.setStream x).nvm = s.nvm := rfl
@[simp] theorem State.setStream_start (s : State) (x : Option (TkRef × Nat × Nat × List (Nat × Nat))) : (s.setStream x).start = s.start := rfl
@[simp] theorem State.setStream_cfg (s : State) (x : Option (TkRef × Nat × Nat × List (Nat × Nat))) : (s.setStream x).cfg = s.cfg := rfl
@[simp] theorem State.setStream_sched (s : State) (x : Option (TkRef × Nat × Nat × List (Nat × Nat))) : (s.setStream x).sched = s.sched := rfl
@[simp] theorem State.setStream_fresh (s : State) (x : Option (TkRef × Nat × Nat × List (Nat × Nat))) : (s.setStream x).fresh = s.fresh := rfl
@[simp] theorem State.setStream_pending (s : State) (x : Option (TkRef × Nat × Nat × List (Nat × Nat))) : (s.setStream x).pending = s.pending := rfl

/-! ### undue -/

@[simp] theorem State.undue_time (s : State) (per : Period) : (s.undue per).time = s.time := rfl
@[simp] theorem State.undue_ovr (s : State) (per : Period) : (s.undue per).ovr = s.ovr := rfl
@[simp] theorem State.undue_arb (s : State) (per : Period) : (s.undue per).arb = s.arb := rfl
@[simp] theorem State.undue_ph (s : State) (per : Period) : (s.undue per).ph = s.ph := rfl
@[simp] theorem State.undue_phd (s : State) (per : Period) : (s.undue per).phd = s.phd := rfl
@[simp] theorem State.undue_rail (s : State) (per : Period) : (s.undue per).rail = s.rail := rfl
@[simp] theorem State.undue_raild (s : State) (per : Period) : (s.undue per).raild = s.raild := rfl
@[simp] theorem State.undue_region (s : State) (per : Period) : (s.undue per).region = s.region := rfl
@[simp] theorem State.undue_lend (s : State) (per : Period) : (s.undue per).lend = s.lend := rfl
@[simp] theorem State.undue_gang (s : State) (per : Period) : (s.undue per).gang = s.gang := rfl
@[simp] theorem State.undue_fc (s : State) (per : Period) : (s.undue per).fc = s.fc := rfl
@[simp] theorem State.undue_orders (s : State) (per : Period) : (s.undue per).orders = s.orders := rfl
@[simp] theorem State.undue_seq (s : State) (per : Period) : (s.undue per).seq = s.seq := rfl
@[simp] theorem State.undue_feed (s : State) (per : Period) : (s.undue per).feed = s.feed := rfl
@[simp] theorem State.undue_hk (s : State) (per : Period) : (s.undue per).hk = s.hk := rfl
@[simp] theorem State.undue_pwr (s : State) (per : Period) : (s.undue per).pwr = s.pwr := rfl
@[simp] theorem State.undue_pack (s : State) (per : Period) : (s.undue per).pack = s.pack := rfl
@[simp] theorem State.undue_therm (s : State) (per : Period) : (s.undue per).therm = s.therm := rfl
@[simp] theorem State.undue_mseq (s : State) (per : Period) : (s.undue per).mseq = s.mseq := rfl
@[simp] theorem State.undue_conv (s : State) (per : Period) : (s.undue per).conv = s.conv := rfl
@[simp] theorem State.undue_host (s : State) (per : Period) : (s.undue per).host = s.host := rfl
@[simp] theorem State.undue_own (s : State) (per : Period) : (s.undue per).own = s.own := rfl
@[simp] theorem State.undue_ring (s : State) (per : Period) : (s.undue per).ring = s.ring := rfl
@[simp] theorem State.undue_log (s : State) (per : Period) : (s.undue per).log = s.log := rfl
@[simp] theorem State.undue_wd (s : State) (per : Period) : (s.undue per).wd = s.wd := rfl
@[simp] theorem State.undue_nvm (s : State) (per : Period) : (s.undue per).nvm = s.nvm := rfl
@[simp] theorem State.undue_start (s : State) (per : Period) : (s.undue per).start = s.start := rfl
@[simp] theorem State.undue_cfg (s : State) (per : Period) : (s.undue per).cfg = s.cfg := rfl
@[simp] theorem State.undue_sched (s : State) (per : Period) : (s.undue per).sched = s.sched.filter fun x => !(x.per == per && decide (x.nb ≤ s.time.clk)) := rfl
@[simp] theorem State.undue_fresh (s : State) (per : Period) : (s.undue per).fresh = s.fresh := rfl
@[simp] theorem State.undue_pending (s : State) (per : Period) : (s.undue per).pending = s.pending := rfl

/-! ### What a unit reads after an update -/

@[simp] theorem State.railAt_modRail (s : State) (r : Rail) (f : RailSt → RailSt) : (s.modRail r f).railAt r = f (s.railAt r) := upd_self _ _ _
theorem State.railAt_modRail_ne (s : State) {r q : Rail} (f : RailSt → RailSt) (h : q ≠ r) : (s.modRail r f).railAt q = s.railAt q :=
  upd_other _ _ _ _ q.isLt (Fin.val_ne_of_ne h)
@[simp] theorem State.phAt_modPh (s : State) (p : Ph) (f : PhaseSt → PhaseSt) : (s.modPh p f).phAt p = f (s.phAt p) := upd_self _ _ _
theorem State.phAt_modPh_ne (s : State) {p q : Ph} (f : PhaseSt → PhaseSt) (h : q ≠ p) : (s.modPh p f).phAt q = s.phAt q :=
  upd_other _ _ _ _ q.isLt (Fin.val_ne_of_ne h)
@[simp] theorem State.railDie_modRailDie (s : State) (d : Cd) (r : Rail) (f : RailDie → RailDie) : (s.modRailDie d r f).railDie d r = f (s.railDie d r) := by
  simp [State.railDie]
theorem State.railDie_modRailDie_ne (s : State) (d : Cd) {r q : Rail} (f : RailDie → RailDie) (h : q ≠ r) : (s.modRailDie d r f).railDie d q = s.railDie d q := by
  simp only [State.railDie, State.modRailDie_raild, upd_self]
  exact upd_other _ _ _ _ q.isLt (Fin.val_ne_of_ne h)
theorem State.railDie_modRailDie_other (s : State) (d : Cd) (r q : Rail) (f : RailDie → RailDie) : (s.modRailDie d r f).railDie d.other q = s.railDie d.other q := by
  cases d <;> simp [State.railDie, upd, Cd.ix, Cd.other]
@[simp] theorem State.phDie_modPhDie (s : State) (d : Cd) (p : Ph) (f : PhDie → PhDie) : (s.modPhDie d p f).phDie d p = f (s.phDie d p) := by
  simp [State.phDie]
@[simp] theorem State.feedAt_modFeed (s : State) (f : Feed) (g : FeedSt → FeedSt) : (s.modFeed f g).feedAt f = g (s.feedAt f) := upd_self _ _ _
@[simp] theorem State.feedAt_setFeed (s : State) (f : Feed) (g : FeedSt → FeedSt) : (s.setFeed f g).feedAt f = (g (s.feedAt f)).settle := upd_self _ _ _
@[simp] theorem State.feedAt_modFeed_other (s : State) (f : Feed) (g : FeedSt → FeedSt) : (s.modFeed f g).feedAt f.other = s.feedAt f.other := by
  cases f <;> simp [State.feedAt, Feed.other, Feed.ix, upd]
@[simp] theorem State.feedAt_setFeed_other (s : State) (f : Feed) (g : FeedSt → FeedSt) : (s.setFeed f g).feedAt f.other = s.feedAt f.other := by
  cases f <;> simp [State.feedAt, Feed.other, Feed.ix, upd]
@[simp] theorem State.convAt_modConv (s : State) (c : Conv) (f : ConvSt → ConvSt) : (s.modConv c f).convAt c = f (s.convAt c) := upd_self _ _ _

end Sys2Proof.Machine
end

