-- ==== Sys2Proof/Laws/Ops.lean ====
section
/-! SUPPORT. What the shared operations change, each said once: counting and sampling change the log, an event the log and the
alarms' report of the ring, a stub the log, the ring's queue and the client's held stubs. One equation per operation, and
one lemma per field it leaves. -/

namespace Sys2Proof.Machine

/-- A fold over operations of which each changes the log only changes the log only. -/
theorem foldl_log {α : Type} {g : State → α → State} (h : ∀ s x, g s x = { s with log := (g s x).log }) (l : List α) (s : State) :
    l.foldl g s = { s with log := (l.foldl g s).log } := by
  induction l generalizing s with
  | nil => rfl
  | cons a l ih =>
    rw [List.foldl_cons, ih (g s a), h s a]
theorem State.bumpPair_eq (s : State) (blk ctr p e k : Nat) : s.bumpPair blk ctr p e k = { s with log := (s.bumpPair blk ctr p e k).log } := by
  unfold State.bumpPair
  split
  · dsimp only; split <;> split <;> rfl
  · rfl
theorem State.countIn_eq (s : State) (blk e k : Nat) : s.countIn blk e k = { s with log := (s.countIn blk e k).log } := by
  unfold State.countIn
  split
  · exact foldl_log (fun s x => State.bumpPair_eq s _ _ _ _ _) _ _
  · rfl
/-- Counting changes the log only (R412, R414). -/
theorem State.count_eq (s : State) (blk e k : Nat) : s.count blk e k = { s with log := (s.count blk e k).log } := by
  unfold State.count
  dsimp only
  split
  · exact State.countIn_eq s blk e k
  · rw [State.countIn_eq (s.countIn blk e k), State.countIn_eq s blk e k]
/-- `t` is `s` but for the log and the alarms that the ring will report. -/
def SaysOnly (s t : State) : Prop :=
  t = { s with log := t.log, ring := { s.ring with almDirty := t.ring.almDirty, almNew := t.ring.almNew, almNewAt := t.ring.almNewAt } }
theorem SaysOnly.refl (s : State) : SaysOnly s s := rfl
theorem SaysOnly.trans {s t u : State} (h : SaysOnly s t) (k : SaysOnly t u) : SaysOnly s u := by
  unfold SaysOnly at *
  rw [k, h]
theorem SaysOnly.log (s : State) (l : LogSt) : SaysOnly s { s with log := l } := rfl
theorem SaysOnly.count (s : State) (blk e k : Nat) : SaysOnly s (s.count blk e k) := by rw [State.count_eq]; rfl
theorem SaysOnly.raise (s : State) (k : Fin 64) : SaysOnly s (s.raise k) :=
  SaysOnly.trans (t := { s with log := _, ring := { s.ring with almDirty := _, almNew := _, almNewAt := _ } }) rfl (SaysOnly.count _ _ _ _)
/-- An event changes the log and the alarms' report of the ring only (R399, R400, R403). -/
theorem SaysOnly.emit (s : State) (e : Event) : SaysOnly s (s.emit e) := by
  unfold State.emit
  dsimp only
  refine SaysOnly.trans (SaysOnly.trans ?_ (SaysOnly.log _ _)) (SaysOnly.count _ _ _ _)
  split
  · exact SaysOnly.refl s
  · split
    · exact SaysOnly.refl s
    · split
      · exact SaysOnly.raise s _
      · exact SaysOnly.refl s
theorem SaysOnly.ring {s t : State} (h : SaysOnly s t) :
    t.ring = { s.ring with almDirty := t.ring.almDirty, almNew := t.ring.almNew, almNewAt := t.ring.almNewAt } := congrArg State.ring h
theorem SaysOnly.eq {s t : State} (h : SaysOnly s t) : t = { s with log := t.log, ring := t.ring } := by
  have e := h.ring
  unfold SaysOnly at h
  rw [← e] at h
  exact h
theorem State.emit_eq (s : State) (e : Event) : s.emit e = { s with log := (s.emit e).log, ring := (s.emit e).ring } := (SaysOnly.emit s e).eq
theorem State.emit_ring (s : State) (e : Event) : (s.emit e).ring
    = { s.ring with almDirty := (s.emit e).ring.almDirty, almNew := (s.emit e).ring.almNew, almNewAt := (s.emit e).ring.almNewAt } := (SaysOnly.emit s e).ring

theorem State.postPh_eq (s : State) (code : Nat) (p : Ph) (a0 a1 a2 : Nat) : s.postPh code p a0 a1 a2 = { s with log := (s.postPh code p a0 a1 a2).log, ring := (s.postPh code p a0 a1 a2).ring } := State.emit_eq _ _
theorem State.postPh_ring (s : State) (code : Nat) (p : Ph) (a0 a1 a2 : Nat) : (s.postPh code p a0 a1 a2).ring
    = { s.ring with almDirty := (s.postPh code p a0 a1 a2).ring.almDirty, almNew := (s.postPh code p a0 a1 a2).ring.almNew, almNewAt := (s.postPh code p a0 a1 a2).ring.almNewAt } := State.emit_ring _ _
theorem State.postRail_eq (s : State) (code : Nat) (r : Rail) (a0 a1 a2 : Nat) : s.postRail code r a0 a1 a2 = { s with log := (s.postRail code r a0 a1 a2).log, ring := (s.postRail code r a0 a1 a2).ring } := State.emit_eq _ _
theorem State.postRail_ring (s : State) (code : Nat) (r : Rail) (a0 a1 a2 : Nat) : (s.postRail code r a0 a1 a2).ring
    = { s.ring with almDirty := (s.postRail code r a0 a1 a2).ring.almDirty, almNew := (s.postRail code r a0 a1 a2).ring.almNew, almNewAt := (s.postRail code r a0 a1 a2).ring.almNewAt } := State.emit_ring _ _
theorem State.postRegion_eq (s : State) (code g : Nat) (a0 a1 a2 : Nat) : s.postRegion code g a0 a1 a2 = { s with log := (s.postRegion code g a0 a1 a2).log, ring := (s.postRegion code g a0 a1 a2).ring } := State.emit_eq _ _
theorem State.postRegion_ring (s : State) (code g : Nat) (a0 a1 a2 : Nat) : (s.postRegion code g a0 a1 a2).ring
    = { s.ring with almDirty := (s.postRegion code g a0 a1 a2).ring.almDirty, almNew := (s.postRegion code g a0 a1 a2).ring.almNew, almNewAt := (s.postRegion code g a0 a1 a2).ring.almNewAt } := State.emit_ring _ _
theorem State.postDie_eq (s : State) (code d : Nat) (a0 a1 a2 : Nat) : s.postDie code d a0 a1 a2 = { s with log := (s.postDie code d a0 a1 a2).log, ring := (s.postDie code d a0 a1 a2).ring } := State.emit_eq _ _
theorem State.postDie_ring (s : State) (code d : Nat) (a0 a1 a2 : Nat) : (s.postDie code d a0 a1 a2).ring
    = { s.ring with almDirty := (s.postDie code d a0 a1 a2).ring.almDirty, almNew := (s.postDie code d a0 a1 a2).ring.almNew, almNewAt := (s.postDie code d a0 a1 a2).ring.almNewAt } := State.emit_ring _ _
theorem State.postDev_eq (s : State) (code : Nat) (a0 a1 a2 : Nat) : s.postDev code a0 a1 a2 = { s with log := (s.postDev code a0 a1 a2).log, ring := (s.postDev code a0 a1 a2).ring } := State.emit_eq _ _
theorem State.postDev_ring (s : State) (code : Nat) (a0 a1 a2 : Nat) : (s.postDev code a0 a1 a2).ring
    = { s.ring with almDirty := (s.postDev code a0 a1 a2).ring.almDirty, almNew := (s.postDev code a0 a1 a2).ring.almNew, almNewAt := (s.postDev code a0 a1 a2).ring.almNewAt } := State.emit_ring _ _
theorem State.postChain_eq (s : State) (code : Nat) (a0 a1 a2 : Nat) : s.postChain code a0 a1 a2 = { s with log := (s.postChain code a0 a1 a2).log, ring := (s.postChain code a0 a1 a2).ring } := State.emit_eq _ _
theorem State.postChain_ring (s : State) (code : Nat) (a0 a1 a2 : Nat) : (s.postChain code a0 a1 a2).ring
    = { s.ring with almDirty := (s.postChain code a0 a1 a2).ring.almDirty, almNew := (s.postChain code a0 a1 a2).ring.almNew, almNewAt := (s.postChain code a0 a1 a2).ring.almNewAt } := State.emit_ring _ _
theorem State.postClient_eq (s : State) (code c : Nat) (a0 a1 a2 : Nat) : s.postClient code c a0 a1 a2 = { s with log := (s.postClient code c a0 a1 a2).log, ring := (s.postClient code c a0 a1 a2).ring } := State.emit_eq _ _
theorem State.postClient_ring (s : State) (code c : Nat) (a0 a1 a2 : Nat) : (s.postClient code c a0 a1 a2).ring
    = { s.ring with almDirty := (s.postClient code c a0 a1 a2).ring.almDirty, almNew := (s.postClient code c a0 a1 a2).ring.almNew, almNewAt := (s.postClient code c a0 a1 a2).ring.almNewAt } := State.emit_ring _ _
theorem State.postOrder_eq (s : State) (code idx unit a1 a2 : Nat) : s.postOrder code idx unit a1 a2 = { s with log := (s.postOrder code idx unit a1 a2).log, ring := (s.postOrder code idx unit a1 a2).ring } := State.emit_eq _ _
theorem State.postOrder_ring (s : State) (code idx unit a1 a2 : Nat) : (s.postOrder code idx unit a1 a2).ring
    = { s.ring with almDirty := (s.postOrder code idx unit a1 a2).ring.almDirty, almNew := (s.postOrder code idx unit a1 a2).ring.almNew, almNewAt := (s.postOrder code idx unit a1 a2).ring.almNewAt } := State.emit_ring _ _

/-- `t` is `s` but for the log, the ring, the host link and the record of who spoke. -/
def AnswersOnly (s t : State) : Prop := t = { s with log := t.log, ring := t.ring, host := t.host, own := t.own }
theorem AnswersOnly.refl (s : State) : AnswersOnly s s := rfl
theorem AnswersOnly.trans {s t u : State} (h : AnswersOnly s t) (k : AnswersOnly t u) : AnswersOnly s u := by
  unfold AnswersOnly at *
  rw [k, h]
theorem AnswersOnly.says {s t : State} (h : SaysOnly s t) : AnswersOnly s t := by rw [h]; rfl
theorem AnswersOnly.count (s : State) (blk e k : Nat) : AnswersOnly s (s.count blk e k) := .says (.count s blk e k)
theorem AnswersOnly.host (s : State) (h : HostSt) : AnswersOnly s { s with host := h } := rfl
theorem AnswersOnly.own (s : State) (o : OwnSt) : AnswersOnly s { s with own := o } := rfl
theorem AnswersOnly.ite {s t u : State} {c : Prop} [Decidable c] (h : AnswersOnly s t) (k : AnswersOnly s u) : AnswersOnly s (if c then t else u) := by
  split
  · exact h
  · exact k
theorem AnswersOnly.stub (s : State) (st : Stub) (data : List Nat) : AnswersOnly s (s.stub st data) := by
  unfold State.stub
  dsimp only
  refine AnswersOnly.trans (t := if st.status = 0x02 then (s.count 0x054 1 1).count 0x054 2 1 else s.count 0x054 1 1)
    (.ite (AnswersOnly.trans (AnswersOnly.count s _ _ _) (AnswersOnly.count _ _ _ _)) (AnswersOnly.count s _ _ _)) ?_
  generalize (if st.status = 0x02 then (s.count 0x054 1 1).count 0x054 2 1 else s.count 0x054 1 1) = u
  split
  · rfl
  · exact .ite (AnswersOnly.trans (AnswersOnly.host _ _) (AnswersOnly.count _ _ _ _)) (AnswersOnly.host _ _)
theorem AnswersOnly.deposed (s : State) (t : Tkt) : AnswersOnly s (s.deposedSpeaks t) := by
  unfold State.deposedSpeaks
  dsimp only
  split
  · rfl
  · exact AnswersOnly.trans (AnswersOnly.own s _) (.says (.emit _ _))
theorem AnswersOnly.reply (s : State) (t : Tkt) (r : Reply) : AnswersOnly s (s.reply t r) := by
  unfold State.reply
  dsimp only
  refine AnswersOnly.trans ?_ (AnswersOnly.stub _ _ _)
  refine AnswersOnly.trans (t := if r.status = 0x10 then
      (({ s with host := { s.host with stale := satAdd 16 s.host.stale 1 } } : State)).count 0x054 3 1 else s)
    (.ite (AnswersOnly.trans (AnswersOnly.host s _) (.count _ _ _ _)) (.refl s)) ?_
  generalize (if r.status = 0x10 then (({ s with host := { s.host with stale := satAdd 16 s.host.stale 1 } } : State)).count 0x054 3 1 else s) = u
  refine AnswersOnly.trans (t := if r.status = 0x21 ∧ r.extra % 256 = 2 then u.count 0x054 4 1 else u) (.ite (.count _ _ _ _) (.refl u)) ?_
  generalize (if r.status = 0x21 ∧ r.extra % 256 = 2 then u.count 0x054 4 1 else u) = v
  refine AnswersOnly.trans (t := if r.status = 0x22 then v.count 0x054 6 1 else v) (.ite (.count _ _ _ _) (.refl v)) ?_
  exact .ite (.deposed _ _) (.refl _)
/-- An answer changes the log, the ring's queue and report, the held stubs and the record of a deposed client only. -/
theorem State.reply_eq (s : State) (t : Tkt) (r : Reply) : s.reply t r
    = { s with log := (s.reply t r).log, ring := (s.reply t r).ring, host := (s.reply t r).host, own := (s.reply t r).own } := AnswersOnly.reply s t r
@[simp] theorem State.count_own (s : State) (blk e k : Nat) : (s.count blk e k).own = s.own := by rw [State.count_eq]
@[simp] theorem State.stub_own (s : State) (st : Stub) (data : List Nat) : (s.stub st data).own = s.own := by
  unfold State.stub
  dsimp only
  (repeat' split) <;> simp
/-- A stub changes the log, the ring's queue and the held stubs of the client only (R325, R383). -/
theorem State.stub_eq (s : State) (st : Stub) (data : List Nat) : s.stub st data = { s with log := (s.stub st data).log, ring := (s.stub st data).ring, host := (s.stub st data).host } := by
  have h : s.stub st data = { s with log := (s.stub st data).log, ring := (s.stub st data).ring, host := (s.stub st data).host, own := (s.stub st data).own } := AnswersOnly.stub s st data
  rw [State.stub_own] at h
  exact h
theorem State.final_eq (s : State) (ref : TkRef) (status extra value : Nat) : s.final ref status extra value
    = { s with log := (s.final ref status extra value).log, ring := (s.final ref status extra value).ring, host := (s.final ref status extra value).host } :=
  State.stub_eq _ _ _
theorem State.streamStep_eq (s : State) : s.streamStep = { s with log := s.streamStep.log } := by
  unfold State.streamStep
  split <;> rfl
theorem State.streamOut_eq (s : State) (e : TraceEnt) : s.streamOut e = { s with log := (s.streamOut e).log, ring := (s.streamOut e).ring, host := (s.streamOut e).host } := by
  unfold State.streamOut
  dsimp only
  split
  · split
    · rfl
    · rw [State.streamStep_eq]
      split <;> rfl
  · rfl
/-- A trace entry changes the log, and where a stream runs the host memory or the ring's queue (R408 to R410). -/
theorem State.traceAdd_eq (s : State) (e : TraceEnt) : s.traceAdd e = { s with log := (s.traceAdd e).log, ring := (s.traceAdd e).ring, host := (s.traceAdd e).host } := by
  unfold State.traceAdd
  dsimp only
  rw [State.streamOut_eq]
  split
  · rw [State.count_eq (State.count _ _ _ _), State.count_eq]
  · rw [State.count_eq]
theorem State.trace_eq (s : State) (kind d0 d1 d2 d3 : Nat) : s.trace kind d0 d1 d2 d3
    = { s with log := (s.trace kind d0 d1 d2 d3).log, ring := (s.trace kind d0 d1 d2 d3).ring, host := (s.trace kind d0 d1 d2 d3).host } := State.traceAdd_eq _ _
theorem State.takeTicket_eq (s : State) : s.takeTicket = { s with log := s.takeTicket.log, host := s.takeTicket.host } := by
  unfold State.takeTicket
  dsimp only
  rw [State.count_eq]


/-- A good packet whose class does not wait for a resend is taken: what it does, it does to the state that has counted it (R375, R376). -/
theorem State.rxPkt_good {s : State} {rx : RxIn} {cls : Nat} (f : State → State) (h : rx.ok = true)
    (hw : rx.again = true ∨ (if cls = 2 then (s.linkAt rx.via).waitAlarm else decide (cls < 2) && (s.linkAt rx.via).waitTicket) = false) :
    s.rxPkt rx cls f = f (s.rxPkt rx cls id) := by
  unfold State.rxPkt
  dsimp only
  generalize (if cls = 2 then (s.linkAt rx.via).waitAlarm else decide (cls < 2) && (s.linkAt rx.via).waitTicket) = w at hw ⊢
  have e : (w && !rx.again) = false := by
    rcases hw with hw | hw <;> rw [hw]
    · exact Bool.and_false w
    · rfl
  rw [h, e]
  rfl


/-! ### count -/

@[simp] theorem State.count_time (s : State) (blk e k : Nat) : (s.count blk e k).time = s.time := (congrArg State.time (s.count_eq blk e k) :)
@[simp] theorem State.count_ovr (s : State) (blk e k : Nat) : (s.count blk e k).ovr = s.ovr := (congrArg State.ovr (s.count_eq blk e k) :)
@[simp] theorem State.count_arb (s : State) (blk e k : Nat) : (s.count blk e k).arb = s.arb := (congrArg State.arb (s.count_eq blk e k) :)
@[simp] theorem State.count_ph (s : State) (blk e k : Nat) : (s.count blk e k).ph = s.ph := (congrArg State.ph (s.count_eq blk e k) :)
@[simp] theorem State.count_phd (s : State) (blk e k : Nat) : (s.count blk e k).phd = s.phd := (congrArg State.phd (s.count_eq blk e k) :)
@[simp] theorem State.count_rail (s : State) (blk e k : Nat) : (s.count blk e k).rail = s.rail := (congrArg State.rail (s.count_eq blk e k) :)
@[simp] theorem State.count_raild (s : State) (blk e k : Nat) : (s.count blk e k).raild = s.raild := (congrArg State.raild (s.count_eq blk e k) :)
@[simp] theorem State.count_region (s : State) (blk e k : Nat) : (s.count blk e k).region = s.region := (congrArg State.region (s.count_eq blk e k) :)
@[simp] theorem State.count_lend (s : State) (blk e k : Nat) : (s.count blk e k).lend = s.lend := (congrArg State.lend (s.count_eq blk e k) :)
@[simp] theorem State.count_gang (s : State) (blk e k : Nat) : (s.count blk e k).gang = s.gang := (congrArg State.gang (s.count_eq blk e k) :)
@[simp] theorem State.count_fc (s : State) (blk e k : Nat) : (s.count blk e k).fc = s.fc := (congrArg State.fc (s.count_eq blk e k) :)
@[simp] theorem State.count_orders (s : State) (blk e k : Nat) : (s.count blk e k).orders = s.orders := (congrArg State.orders (s.count_eq blk e k) :)
@[simp] theorem State.count_seq (s : State) (blk e k : Nat) : (s.count blk e k).seq = s.seq := (congrArg State.seq (s.count_eq blk e k) :)
@[simp] theorem State.count_feed (s : State) (blk e k : Nat) : (s.count blk e k).feed = s.feed := (congrArg State.feed (s.count_eq blk e k) :)
@[simp] theorem State.count_hk (s : State) (blk e k : Nat) : (s.count blk e k).hk = s.hk := (congrArg State.hk (s.count_eq blk e k) :)
@[simp] theorem State.count_pwr (s : State) (blk e k : Nat) : (s.count blk e k).pwr = s.pwr := (congrArg State.pwr (s.count_eq blk e k) :)
@[simp] theorem State.count_pack (s : State) (blk e k : Nat) : (s.count blk e k).pack = s.pack := (congrArg State.pack (s.count_eq blk e k) :)
@[simp] theorem State.count_therm (s : State) (blk e k : Nat) : (s.count blk e k).therm = s.therm := (congrArg State.therm (s.count_eq blk e k) :)
@[simp] theorem State.count_mseq (s : State) (blk e k : Nat) : (s.count blk e k).mseq = s.mseq := (congrArg State.mseq (s.count_eq blk e k) :)
@[simp] theorem State.count_conv (s : State) (blk e k : Nat) : (s.count blk e k).conv = s.conv := (congrArg State.conv (s.count_eq blk e k) :)
@[simp] theorem State.count_host (s : State) (blk e k : Nat) : (s.count blk e k).host = s.host := (congrArg State.host (s.count_eq blk e k) :)
@[simp] theorem State.count_ring (s : State) (blk e k : Nat) : (s.count blk e k).ring = s.ring := (congrArg State.ring (s.count_eq blk e k) :)
@[simp] theorem State.count_wd (s : State) (blk e k : Nat) : (s.count blk e k).wd = s.wd := (congrArg State.wd (s.count_eq blk e k) :)
@[simp] theorem State.count_nvm (s : State) (blk e k : Nat) : (s.count blk e k).nvm = s.nvm := (congrArg State.nvm (s.count_eq blk e k) :)
@[simp] theorem State.count_start (s : State) (blk e k : Nat) : (s.count blk e k).start = s.start := (congrArg State.start (s.count_eq blk e k) :)
@[simp] theorem State.count_cfg (s : State) (blk e k : Nat) : (s.count blk e k).cfg = s.cfg := (congrArg State.cfg (s.count_eq blk e k) :)
@[simp] theorem State.count_sched (s : State) (blk e k : Nat) : (s.count blk e k).sched = s.sched := (congrArg State.sched (s.count_eq blk e k) :)
@[simp] theorem State.count_fresh (s : State) (blk e k : Nat) : (s.count blk e k).fresh = s.fresh := (congrArg State.fresh (s.count_eq blk e k) :)
@[simp] theorem State.count_pending (s : State) (blk e k : Nat) : (s.count blk e k).pending = s.pending := (congrArg State.pending (s.count_eq blk e k) :)

/-! ### emit -/

@[simp] theorem State.emit_time (s : State) (e : Event) : (s.emit e).time = s.time := (congrArg State.time (s.emit_eq e) :)
@[simp] theorem State.emit_ovr (s : State) (e : Event) : (s.emit e).ovr = s.ovr := (congrArg State.ovr (s.emit_eq e) :)
@[simp] theorem State.emit_arb (s : State) (e : Event) : (s.emit e).arb = s.arb := (congrArg State.arb (s.emit_eq e) :)
@[simp] theorem State.emit_ph (s : State) (e : Event) : (s.emit e).ph = s.ph := (congrArg State.ph (s.emit_eq e) :)
@[simp] theorem State.emit_phd (s : State) (e : Event) : (s.emit e).phd = s.phd := (congrArg State.phd (s.emit_eq e) :)
@[simp] theorem State.emit_rail (s : State) (e : Event) : (s.emit e).rail = s.rail := (congrArg State.rail (s.emit_eq e) :)
@[simp] theorem State.emit_raild (s : State) (e : Event) : (s.emit e).raild = s.raild := (congrArg State.raild (s.emit_eq e) :)
@[simp] theorem State.emit_region (s : State) (e : Event) : (s.emit e).region = s.region := (congrArg State.region (s.emit_eq e) :)
@[simp] theorem State.emit_lend (s : State) (e : Event) : (s.emit e).lend = s.lend := (congrArg State.lend (s.emit_eq e) :)
@[simp] theorem State.emit_gang (s : State) (e : Event) : (s.emit e).gang = s.gang := (congrArg State.gang (s.emit_eq e) :)
@[simp] theorem State.emit_fc (s : State) (e : Event) : (s.emit e).fc = s.fc := (congrArg State.fc (s.emit_eq e) :)
@[simp] theorem State.emit_orders (s : State) (e : Event) : (s.emit e).orders = s.orders := (congrArg State.orders (s.emit_eq e) :)
@[simp] theorem State.emit_seq (s : State) (e : Event) : (s.emit e).seq = s.seq := (congrArg State.seq (s.emit_eq e) :)
@[simp] theorem State.emit_feed (s : State) (e : Event) : (s.emit e).feed = s.feed := (congrArg State.feed (s.emit_eq e) :)
@[simp] theorem State.emit_hk (s : State) (e : Event) : (s.emit e).hk = s.hk := (congrArg State.hk (s.emit_eq e) :)
@[simp] theorem State.emit_pwr (s : State) (e : Event) : (s.emit e).pwr = s.pwr := (congrArg State.pwr (s.emit_eq e) :)
@[simp] theorem State.emit_pack (s : State) (e : Event) : (s.emit e).pack = s.pack := (congrArg State.pack (s.emit_eq e) :)
@[simp] theorem State.emit_therm (s : State) (e : Event) : (s.emit e).therm = s.therm := (congrArg State.therm (s.emit_eq e) :)
@[simp] theorem State.emit_mseq (s : State) (e : Event) : (s.emit e).mseq = s.mseq := (congrArg State.mseq (s.emit_eq e) :)
@[simp] theorem State.emit_conv (s : State) (e : Event) : (s.emit e).conv = s.conv := (congrArg State.conv (s.emit_eq e) :)
@[simp] theorem State.emit_host (s : State) (e : Event) : (s.emit e).host = s.host := (congrArg State.host (s.emit_eq e) :)
@[simp] theorem State.emit_own (s : State) (e : Event) : (s.emit e).own = s.own := (congrArg State.own (s.emit_eq e) :)
@[simp] theorem State.emit_wd (s : State) (e : Event) : (s.emit e).wd = s.wd := (congrArg State.wd (s.emit_eq e) :)
@[simp] theorem State.emit_nvm (s : State) (e : Event) : (s.emit e).nvm = s.nvm := (congrArg State.nvm (s.emit_eq e) :)
@[simp] theorem State.emit_start (s : State) (e : Event) : (s.emit e).start = s.start := (congrArg State.start (s.emit_eq e) :)
@[simp] theorem State.emit_cfg (s : State) (e : Event) : (s.emit e).cfg = s.cfg := (congrArg State.cfg (s.emit_eq e) :)
@[simp] theorem State.emit_sched (s : State) (e : Event) : (s.emit e).sched = s.sched := (congrArg State.sched (s.emit_eq e) :)
@[simp] theorem State.emit_fresh (s : State) (e : Event) : (s.emit e).fresh = s.fresh := (congrArg State.fresh (s.emit_eq e) :)
@[simp] theorem State.emit_pending (s : State) (e : Event) : (s.emit e).pending = s.pending := (congrArg State.pending (s.emit_eq e) :)

/-! ### postPh -/

@[simp] theorem State.postPh_time (s : State) (code : Nat) (p : Ph) (a0 a1 a2 : Nat) : (s.postPh code p a0 a1 a2).time = s.time := (congrArg State.time (s.postPh_eq code p a0 a1 a2) :)
@[simp] theorem State.postPh_ovr (s : State) (code : Nat) (p : Ph) (a0 a1 a2 : Nat) : (s.postPh code p a0 a1 a2).ovr = s.ovr := (congrArg State.ovr (s.postPh_eq code p a0 a1 a2) :)
@[simp] theorem State.postPh_arb (s : State) (code : Nat) (p : Ph) (a0 a1 a2 : Nat) : (s.postPh code p a0 a1 a2).arb = s.arb := (congrArg State.arb (s.postPh_eq code p a0 a1 a2) :)
@[simp] theorem State.postPh_ph (s : State) (code : Nat) (p : Ph) (a0 a1 a2 : Nat) : (s.postPh code p a0 a1 a2).ph = s.ph := (congrArg State.ph (s.postPh_eq code p a0 a1 a2) :)
@[simp] theorem State.postPh_phd (s : State) (code : Nat) (p : Ph) (a0 a1 a2 : Nat) : (s.postPh code p a0 a1 a2).phd = s.phd := (congrArg State.phd (s.postPh_eq code p a0 a1 a2) :)
@[simp] theorem State.postPh_rail (s : State) (code : Nat) (p : Ph) (a0 a1 a2 : Nat) : (s.postPh code p a0 a1 a2).rail = s.rail := (congrArg State.rail (s.postPh_eq code p a0 a1 a2) :)
@[simp] theorem State.postPh_raild (s : State) (code : Nat) (p : Ph) (a0 a1 a2 : Nat) : (s.postPh code p a0 a1 a2).raild = s.raild := (congrArg State.raild (s.postPh_eq code p a0 a1 a2) :)
@[simp] theorem State.postPh_region (s : State) (code : Nat) (p : Ph) (a0 a1 a2 : Nat) : (s.postPh code p a0 a1 a2).region = s.region := (congrArg State.region (s.postPh_eq code p a0 a1 a2) :)
@[simp] theorem State.postPh_lend (s : State) (code : Nat) (p : Ph) (a0 a1 a2 : Nat) : (s.postPh code p a0 a1 a2).lend = s.lend := (congrArg State.lend (s.postPh_eq code p a0 a1 a2) :)
@[simp] theorem State.postPh_gang (s : State) (code : Nat) (p : Ph) (a0 a1 a2 : Nat) : (s.postPh code p a0 a1 a2).gang = s.gang := (congrArg State.gang (s.postPh_eq code p a0 a1 a2) :)
@[simp] theorem State.postPh_fc (s : State) (code : Nat) (p : Ph) (a0 a1 a2 : Nat) : (s.postPh code p a0 a1 a2).fc = s.fc := (congrArg State.fc (s.postPh_eq code p a0 a1 a2) :)
@[simp] theorem State.postPh_orders (s : State) (code : Nat) (p : Ph) (a0 a1 a2 : Nat) : (s.postPh code p a0 a1 a2).orders = s.orders := (congrArg State.orders (s.postPh_eq code p a0 a1 a2) :)
@[simp] theorem State.postPh_seq (s : State) (code : Nat) (p : Ph) (a0 a1 a2 : Nat) : (s.postPh code p a0 a1 a2).seq = s.seq := (congrArg State.seq (s.postPh_eq code p a0 a1 a2) :)
@[simp] theorem State.postPh_feed (s : State) (code : Nat) (p : Ph) (a0 a1 a2 : Nat) : (s.postPh code p a0 a1 a2).feed = s.feed := (congrArg State.feed (s.postPh_eq code p a0 a1 a2) :)
@[simp] theorem State.postPh_hk (s : State) (code : Nat) (p : Ph) (a0 a1 a2 : Nat) : (s.postPh code p a0 a1 a2).hk = s.hk := (congrArg State.hk (s.postPh_eq code p a0 a1 a2) :)
@[simp] theorem State.postPh_pwr (s : State) (code : Nat) (p : Ph) (a0 a1 a2 : Nat) : (s.postPh code p a0 a1 a2).pwr = s.pwr := (congrArg State.pwr (s.postPh_eq code p a0 a1 a2) :)
@[simp] theorem State.postPh_pack (s : State) (code : Nat) (p : Ph) (a0 a1 a2 : Nat) : (s.postPh code p a0 a1 a2).pack = s.pack := (congrArg State.pack (s.postPh_eq code p a0 a1 a2) :)
@[simp] theorem State.postPh_therm (s : State) (code : Nat) (p : Ph) (a0 a1 a2 : Nat) : (s.postPh code p a0 a1 a2).therm = s.therm := (congrArg State.therm (s.postPh_eq code p a0 a1 a2) :)
@[simp] theorem State.postPh_mseq (s : State) (code : Nat) (p : Ph) (a0 a1 a2 : Nat) : (s.postPh code p a0 a1 a2).mseq = s.mseq := (congrArg State.mseq (s.postPh_eq code p a0 a1 a2) :)
@[simp] theorem State.postPh_conv (s : State) (code : Nat) (p : Ph) (a0 a1 a2 : Nat) : (s.postPh code p a0 a1 a2).conv = s.conv := (congrArg State.conv (s.postPh_eq code p a0 a1 a2) :)
@[simp] theorem State.postPh_host (s : State) (code : Nat) (p : Ph) (a0 a1 a2 : Nat) : (s.postPh code p a0 a1 a2).host = s.host := (congrArg State.host (s.postPh_eq code p a0 a1 a2) :)
@[simp] theorem State.postPh_own (s : State) (code : Nat) (p : Ph) (a0 a1 a2 : Nat) : (s.postPh code p a0 a1 a2).own = s.own := (congrArg State.own (s.postPh_eq code p a0 a1 a2) :)
@[simp] theorem State.postPh_wd (s : State) (code : Nat) (p : Ph) (a0 a1 a2 : Nat) : (s.postPh code p a0 a1 a2).wd = s.wd := (congrArg State.wd (s.postPh_eq code p a0 a1 a2) :)
@[simp] theorem State.postPh_nvm (s : State) (code : Nat) (p : Ph) (a0 a1 a2 : Nat) : (s.postPh code p a0 a1 a2).nvm = s.nvm := (congrArg State.nvm (s.postPh_eq code p a0 a1 a2) :)
@[simp] theorem State.postPh_start (s : State) (code : Nat) (p : Ph) (a0 a1 a2 : Nat) : (s.postPh code p a0 a1 a2).start = s.start := (congrArg State.start (s.postPh_eq code p a0 a1 a2) :)
@[simp] theorem State.postPh_cfg (s : State) (code : Nat) (p : Ph) (a0 a1 a2 : Nat) : (s.postPh code p a0 a1 a2).cfg = s.cfg := (congrArg State.cfg (s.postPh_eq code p a0 a1 a2) :)
@[simp] theorem State.postPh_sched (s : State) (code : Nat) (p : Ph) (a0 a1 a2 : Nat) : (s.postPh code p a0 a1 a2).sched = s.sched := (congrArg State.sched (s.postPh_eq code p a0 a1 a2) :)
@[simp] theorem State.postPh_fresh (s : State) (code : Nat) (p : Ph) (a0 a1 a2 : Nat) : (s.postPh code p a0 a1 a2).fresh = s.fresh := (congrArg State.fresh (s.postPh_eq code p a0 a1 a2) :)
@[simp] theorem State.postPh_pending (s : State) (code : Nat) (p : Ph) (a0 a1 a2 : Nat) : (s.postPh code p a0 a1 a2).pending = s.pending := (congrArg State.pending (s.postPh_eq code p a0 a1 a2) :)

/-! ### postRail -/

@[simp] theorem State.postRail_time (s : State) (code : Nat) (r : Rail) (a0 a1 a2 : Nat) : (s.postRail code r a0 a1 a2).time = s.time := (congrArg State.time (s.postRail_eq code r a0 a1 a2) :)
@[simp] theorem State.postRail_ovr (s : State) (code : Nat) (r : Rail) (a0 a1 a2 : Nat) : (s.postRail code r a0 a1 a2).ovr = s.ovr := (congrArg State.ovr (s.postRail_eq code r a0 a1 a2) :)
@[simp] theorem State.postRail_arb (s : State) (code : Nat) (r : Rail) (a0 a1 a2 : Nat) : (s.postRail code r a0 a1 a2).arb = s.arb := (congrArg State.arb (s.postRail_eq code r a0 a1 a2) :)
@[simp] theorem State.postRail_ph (s : State) (code : Nat) (r : Rail) (a0 a1 a2 : Nat) : (s.postRail code r a0 a1 a2).ph = s.ph := (congrArg State.ph (s.postRail_eq code r a0 a1 a2) :)
@[simp] theorem State.postRail_phd (s : State) (code : Nat) (r : Rail) (a0 a1 a2 : Nat) : (s.postRail code r a0 a1 a2).phd = s.phd := (congrArg State.phd (s.postRail_eq code r a0 a1 a2) :)
@[simp] theorem State.postRail_rail (s : State) (code : Nat) (r : Rail) (a0 a1 a2 : Nat) : (s.postRail code r a0 a1 a2).rail = s.rail := (congrArg State.rail (s.postRail_eq code r a0 a1 a2) :)
@[simp] theorem State.postRail_raild (s : State) (code : Nat) (r : Rail) (a0 a1 a2 : Nat) : (s.postRail code r a0 a1 a2).raild = s.raild := (congrArg State.raild (s.postRail_eq code r a0 a1 a2) :)
@[simp] theorem State.postRail_region (s : State) (code : Nat) (r : Rail) (a0 a1 a2 : Nat) : (s.postRail code r a0 a1 a2).region = s.region := (congrArg State.region (s.postRail_eq code r a0 a1 a2) :)
@[simp] theorem State.postRail_lend (s : State) (code : Nat) (r : Rail) (a0 a1 a2 : Nat) : (s.postRail code r a0 a1 a2).lend = s.lend := (congrArg State.lend (s.postRail_eq code r a0 a1 a2) :)
@[simp] theorem State.postRail_gang (s : State) (code : Nat) (r : Rail) (a0 a1 a2 : Nat) : (s.postRail code r a0 a1 a2).gang = s.gang := (congrArg State.gang (s.postRail_eq code r a0 a1 a2) :)
@[simp] theorem State.postRail_fc (s : State) (code : Nat) (r : Rail) (a0 a1 a2 : Nat) : (s.postRail code r a0 a1 a2).fc = s.fc := (congrArg State.fc (s.postRail_eq code r a0 a1 a2) :)
@[simp] theorem State.postRail_orders (s : State) (code : Nat) (r : Rail) (a0 a1 a2 : Nat) : (s.postRail code r a0 a1 a2).orders = s.orders := (congrArg State.orders (s.postRail_eq code r a0 a1 a2) :)
@[simp] theorem State.postRail_seq (s : State) (code : Nat) (r : Rail) (a0 a1 a2 : Nat) : (s.postRail code r a0 a1 a2).seq = s.seq := (congrArg State.seq (s.postRail_eq code r a0 a1 a2) :)
@[simp] theorem State.postRail_feed (s : State) (code : Nat) (r : Rail) (a0 a1 a2 : Nat) : (s.postRail code r a0 a1 a2).feed = s.feed := (congrArg State.feed (s.postRail_eq code r a0 a1 a2) :)
@[simp] theorem State.postRail_hk (s : State) (code : Nat) (r : Rail) (a0 a1 a2 : Nat) : (s.postRail code r a0 a1 a2).hk = s.hk := (congrArg State.hk (s.postRail_eq code r a0 a1 a2) :)
@[simp] theorem State.postRail_pwr (s : State) (code : Nat) (r : Rail) (a0 a1 a2 : Nat) : (s.postRail code r a0 a1 a2).pwr = s.pwr := (congrArg State.pwr (s.postRail_eq code r a0 a1 a2) :)
@[simp] theorem State.postRail_pack (s : State) (code : Nat) (r : Rail) (a0 a1 a2 : Nat) : (s.postRail code r a0 a1 a2).pack = s.pack := (congrArg State.pack (s.postRail_eq code r a0 a1 a2) :)
@[simp] theorem State.postRail_therm (s : State) (code : Nat) (r : Rail) (a0 a1 a2 : Nat) : (s.postRail code r a0 a1 a2).therm = s.therm := (congrArg State.therm (s.postRail_eq code r a0 a1 a2) :)
@[simp] theorem State.postRail_mseq (s : State) (code : Nat) (r : Rail) (a0 a1 a2 : Nat) : (s.postRail code r a0 a1 a2).mseq = s.mseq := (congrArg State.mseq (s.postRail_eq code r a0 a1 a2) :)
@[simp] theorem State.postRail_conv (s : State) (code : Nat) (r : Rail) (a0 a1 a2 : Nat) : (s.postRail code r a0 a1 a2).conv = s.conv := (congrArg State.conv (s.postRail_eq code r a0 a1 a2) :)
@[simp] theorem State.postRail_host (s : State) (code : Nat) (r : Rail) (a0 a1 a2 : Nat) : (s.postRail code r a0 a1 a2).host = s.host := (congrArg State.host (s.postRail_eq code r a0 a1 a2) :)
@[simp] theorem State.postRail_own (s : State) (code : Nat) (r : Rail) (a0 a1 a2 : Nat) : (s.postRail code r a0 a1 a2).own = s.own := (congrArg State.own (s.postRail_eq code r a0 a1 a2) :)
@[simp] theorem State.postRail_wd (s : State) (code : Nat) (r : Rail) (a0 a1 a2 : Nat) : (s.postRail code r a0 a1 a2).wd = s.wd := (congrArg State.wd (s.postRail_eq code r a0 a1 a2) :)
@[simp] theorem State.postRail_nvm (s : State) (code : Nat) (r : Rail) (a0 a1 a2 : Nat) : (s.postRail code r a0 a1 a2).nvm = s.nvm := (congrArg State.nvm (s.postRail_eq code r a0 a1 a2) :)
@[simp] theorem State.postRail_start (s : State) (code : Nat) (r : Rail) (a0 a1 a2 : Nat) : (s.postRail code r a0 a1 a2).start = s.start := (congrArg State.start (s.postRail_eq code r a0 a1 a2) :)
@[simp] theorem State.postRail_cfg (s : State) (code : Nat) (r : Rail) (a0 a1 a2 : Nat) : (s.postRail code r a0 a1 a2).cfg = s.cfg := (congrArg State.cfg (s.postRail_eq code r a0 a1 a2) :)
@[simp] theorem State.postRail_sched (s : State) (code : Nat) (r : Rail) (a0 a1 a2 : Nat) : (s.postRail code r a0 a1 a2).sched = s.sched := (congrArg State.sched (s.postRail_eq code r a0 a1 a2) :)
@[simp] theorem State.postRail_fresh (s : State) (code : Nat) (r : Rail) (a0 a1 a2 : Nat) : (s.postRail code r a0 a1 a2).fresh = s.fresh := (congrArg State.fresh (s.postRail_eq code r a0 a1 a2) :)
@[simp] theorem State.postRail_pending (s : State) (code : Nat) (r : Rail) (a0 a1 a2 : Nat) : (s.postRail code r a0 a1 a2).pending = s.pending := (congrArg State.pending (s.postRail_eq code r a0 a1 a2) :)

/-! ### postRegion -/

@[simp] theorem State.postRegion_time (s : State) (code g : Nat) (a0 a1 a2 : Nat) : (s.postRegion code g a0 a1 a2).time = s.time := (congrArg State.time (s.postRegion_eq code g a0 a1 a2) :)
@[simp] theorem State.postRegion_ovr (s : State) (code g : Nat) (a0 a1 a2 : Nat) : (s.postRegion code g a0 a1 a2).ovr = s.ovr := (congrArg State.ovr (s.postRegion_eq code g a0 a1 a2) :)
@[simp] theorem State.postRegion_arb (s : State) (code g : Nat) (a0 a1 a2 : Nat) : (s.postRegion code g a0 a1 a2).arb = s.arb := (congrArg State.arb (s.postRegion_eq code g a0 a1 a2) :)
@[simp] theorem State.postRegion_ph (s : State) (code g : Nat) (a0 a1 a2 : Nat) : (s.postRegion code g a0 a1 a2).ph = s.ph := (congrArg State.ph (s.postRegion_eq code g a0 a1 a2) :)
@[simp] theorem State.postRegion_phd (s : State) (code g : Nat) (a0 a1 a2 : Nat) : (s.postRegion code g a0 a1 a2).phd = s.phd := (congrArg State.phd (s.postRegion_eq code g a0 a1 a2) :)
@[simp] theorem State.postRegion_rail (s : State) (code g : Nat) (a0 a1 a2 : Nat) : (s.postRegion code g a0 a1 a2).rail = s.rail := (congrArg State.rail (s.postRegion_eq code g a0 a1 a2) :)
@[simp] theorem State.postRegion_raild (s : State) (code g : Nat) (a0 a1 a2 : Nat) : (s.postRegion code g a0 a1 a2).raild = s.raild := (congrArg State.raild (s.postRegion_eq code g a0 a1 a2) :)
@[simp] theorem State.postRegion_region (s : State) (code g : Nat) (a0 a1 a2 : Nat) : (s.postRegion code g a0 a1 a2).region = s.region := (congrArg State.region (s.postRegion_eq code g a0 a1 a2) :)
@[simp] theorem State.postRegion_lend (s : State) (code g : Nat) (a0 a1 a2 : Nat) : (s.postRegion code g a0 a1 a2).lend = s.lend := (congrArg State.lend (s.postRegion_eq code g a0 a1 a2) :)
@[simp] theorem State.postRegion_gang (s : State) (code g : Nat) (a0 a1 a2 : Nat) : (s.postRegion code g a0 a1 a2).gang = s.gang := (congrArg State.gang (s.postRegion_eq code g a0 a1 a2) :)
@[simp] theorem State.postRegion_fc (s : State) (code g : Nat) (a0 a1 a2 : Nat) : (s.postRegion code g a0 a1 a2).fc = s.fc := (congrArg State.fc (s.postRegion_eq code g a0 a1 a2) :)
@[simp] theorem State.postRegion_orders (s : State) (code g : Nat) (a0 a1 a2 : Nat) : (s.postRegion code g a0 a1 a2).orders = s.orders := (congrArg State.orders (s.postRegion_eq code g a0 a1 a2) :)
@[simp] theorem State.postRegion_seq (s : State) (code g : Nat) (a0 a1 a2 : Nat) : (s.postRegion code g a0 a1 a2).seq = s.seq := (congrArg State.seq (s.postRegion_eq code g a0 a1 a2) :)
@[simp] theorem State.postRegion_feed (s : State) (code g : Nat) (a0 a1 a2 : Nat) : (s.postRegion code g a0 a1 a2).feed = s.feed := (congrArg State.feed (s.postRegion_eq code g a0 a1 a2) :)
@[simp] theorem State.postRegion_hk (s : State) (code g : Nat) (a0 a1 a2 : Nat) : (s.postRegion code g a0 a1 a2).hk = s.hk := (congrArg State.hk (s.postRegion_eq code g a0 a1 a2) :)
@[simp] theorem State.postRegion_pwr (s : State) (code g : Nat) (a0 a1 a2 : Nat) : (s.postRegion code g a0 a1 a2).pwr = s.pwr := (congrArg State.pwr (s.postRegion_eq code g a0 a1 a2) :)
@[simp] theorem State.postRegion_pack (s : State) (code g : Nat) (a0 a1 a2 : Nat) : (s.postRegion code g a0 a1 a2).pack = s.pack := (congrArg State.pack (s.postRegion_eq code g a0 a1 a2) :)
@[simp] theorem State.postRegion_therm (s : State) (code g : Nat) (a0 a1 a2 : Nat) : (s.postRegion code g a0 a1 a2).therm = s.therm := (congrArg State.therm (s.postRegion_eq code g a0 a1 a2) :)
@[simp] theorem State.postRegion_mseq (s : State) (code g : Nat) (a0 a1 a2 : Nat) : (s.postRegion code g a0 a1 a2).mseq = s.mseq := (congrArg State.mseq (s.postRegion_eq code g a0 a1 a2) :)
@[simp] theorem State.postRegion_conv (s : State) (code g : Nat) (a0 a1 a2 : Nat) : (s.postRegion code g a0 a1 a2).conv = s.conv := (congrArg State.conv (s.postRegion_eq code g a0 a1 a2) :)
@[simp] theorem State.postRegion_host (s : State) (code g : Nat) (a0 a1 a2 : Nat) : (s.postRegion code g a0 a1 a2).host = s.host := (congrArg State.host (s.postRegion_eq code g a0 a1 a2) :)
@[simp] theorem State.postRegion_own (s : State) (code g : Nat) (a0 a1 a2 : Nat) : (s.postRegion code g a0 a1 a2).own = s.own := (congrArg State.own (s.postRegion_eq code g a0 a1 a2) :)
@[simp] theorem State.postRegion_wd (s : State) (code g : Nat) (a0 a1 a2 : Nat) : (s.postRegion code g a0 a1 a2).wd = s.wd := (congrArg State.wd (s.postRegion_eq code g a0 a1 a2) :)
@[simp] theorem State.postRegion_nvm (s : State) (code g : Nat) (a0 a1 a2 : Nat) : (s.postRegion code g a0 a1 a2).nvm = s.nvm := (congrArg State.nvm (s.postRegion_eq code g a0 a1 a2) :)
@[simp] theorem State.postRegion_start (s : State) (code g : Nat) (a0 a1 a2 : Nat) : (s.postRegion code g a0 a1 a2).start = s.start := (congrArg State.start (s.postRegion_eq code g a0 a1 a2) :)
@[simp] theorem State.postRegion_cfg (s : State) (code g : Nat) (a0 a1 a2 : Nat) : (s.postRegion code g a0 a1 a2).cfg = s.cfg := (congrArg State.cfg (s.postRegion_eq code g a0 a1 a2) :)
@[simp] theorem State.postRegion_sched (s : State) (code g : Nat) (a0 a1 a2 : Nat) : (s.postRegion code g a0 a1 a2).sched = s.sched := (congrArg State.sched (s.postRegion_eq code g a0 a1 a2) :)
@[simp] theorem State.postRegion_fresh (s : State) (code g : Nat) (a0 a1 a2 : Nat) : (s.postRegion code g a0 a1 a2).fresh = s.fresh := (congrArg State.fresh (s.postRegion_eq code g a0 a1 a2) :)
@[simp] theorem State.postRegion_pending (s : State) (code g : Nat) (a0 a1 a2 : Nat) : (s.postRegion code g a0 a1 a2).pending = s.pending := (congrArg State.pending (s.postRegion_eq code g a0 a1 a2) :)

/-! ### postDie -/

@[simp] theorem State.postDie_time (s : State) (code d : Nat) (a0 a1 a2 : Nat) : (s.postDie code d a0 a1 a2).time = s.time := (congrArg State.time (s.postDie_eq code d a0 a1 a2) :)
@[simp] theorem State.postDie_ovr (s : State) (code d : Nat) (a0 a1 a2 : Nat) : (s.postDie code d a0 a1 a2).ovr = s.ovr := (congrArg State.ovr (s.postDie_eq code d a0 a1 a2) :)
@[simp] theorem State.postDie_arb (s : State) (code d : Nat) (a0 a1 a2 : Nat) : (s.postDie code d a0 a1 a2).arb = s.arb := (congrArg State.arb (s.postDie_eq code d a0 a1 a2) :)
@[simp] theorem State.postDie_ph (s : State) (code d : Nat) (a0 a1 a2 : Nat) : (s.postDie code d a0 a1 a2).ph = s.ph := (congrArg State.ph (s.postDie_eq code d a0 a1 a2) :)
@[simp] theorem State.postDie_phd (s : State) (code d : Nat) (a0 a1 a2 : Nat) : (s.postDie code d a0 a1 a2).phd = s.phd := (congrArg State.phd (s.postDie_eq code d a0 a1 a2) :)
@[simp] theorem State.postDie_rail (s : State) (code d : Nat) (a0 a1 a2 : Nat) : (s.postDie code d a0 a1 a2).rail = s.rail := (congrArg State.rail (s.postDie_eq code d a0 a1 a2) :)
@[simp] theorem State.postDie_raild (s : State) (code d : Nat) (a0 a1 a2 : Nat) : (s.postDie code d a0 a1 a2).raild = s.raild := (congrArg State.raild (s.postDie_eq code d a0 a1 a2) :)
@[simp] theorem State.postDie_region (s : State) (code d : Nat) (a0 a1 a2 : Nat) : (s.postDie code d a0 a1 a2).region = s.region := (congrArg State.region (s.postDie_eq code d a0 a1 a2) :)
@[simp] theorem State.postDie_lend (s : State) (code d : Nat) (a0 a1 a2 : Nat) : (s.postDie code d a0 a1 a2).lend = s.lend := (congrArg State.lend (s.postDie_eq code d a0 a1 a2) :)
@[simp] theorem State.postDie_gang (s : State) (code d : Nat) (a0 a1 a2 : Nat) : (s.postDie code d a0 a1 a2).gang = s.gang := (congrArg State.gang (s.postDie_eq code d a0 a1 a2) :)
@[simp] theorem State.postDie_fc (s : State) (code d : Nat) (a0 a1 a2 : Nat) : (s.postDie code d a0 a1 a2).fc = s.fc := (congrArg State.fc (s.postDie_eq code d a0 a1 a2) :)
@[simp] theorem State.postDie_orders (s : State) (code d : Nat) (a0 a1 a2 : Nat) : (s.postDie code d a0 a1 a2).orders = s.orders := (congrArg State.orders (s.postDie_eq code d a0 a1 a2) :)
@[simp] theorem State.postDie_seq (s : State) (code d : Nat) (a0 a1 a2 : Nat) : (s.postDie code d a0 a1 a2).seq = s.seq := (congrArg State.seq (s.postDie_eq code d a0 a1 a2) :)
@[simp] theorem State.postDie_feed (s : State) (code d : Nat) (a0 a1 a2 : Nat) : (s.postDie code d a0 a1 a2).feed = s.feed := (congrArg State.feed (s.postDie_eq code d a0 a1 a2) :)
@[simp] theorem State.postDie_hk (s : State) (code d : Nat) (a0 a1 a2 : Nat) : (s.postDie code d a0 a1 a2).hk = s.hk := (congrArg State.hk (s.postDie_eq code d a0 a1 a2) :)
@[simp] theorem State.postDie_pwr (s : State) (code d : Nat) (a0 a1 a2 : Nat) : (s.postDie code d a0 a1 a2).pwr = s.pwr := (congrArg State.pwr (s.postDie_eq code d a0 a1 a2) :)
@[simp] theorem State.postDie_pack (s : State) (code d : Nat) (a0 a1 a2 : Nat) : (s.postDie code d a0 a1 a2).pack = s.pack := (congrArg State.pack (s.postDie_eq code d a0 a1 a2) :)
@[simp] theorem State.postDie_therm (s : State) (code d : Nat) (a0 a1 a2 : Nat) : (s.postDie code d a0 a1 a2).therm = s.therm := (congrArg State.therm (s.postDie_eq code d a0 a1 a2) :)
@[simp] theorem State.postDie_mseq (s : State) (code d : Nat) (a0 a1 a2 : Nat) : (s.postDie code d a0 a1 a2).mseq = s.mseq := (congrArg State.mseq (s.postDie_eq code d a0 a1 a2) :)
@[simp] theorem State.postDie_conv (s : State) (code d : Nat) (a0 a1 a2 : Nat) : (s.postDie code d a0 a1 a2).conv = s.conv := (congrArg State.conv (s.postDie_eq code d a0 a1 a2) :)
@[simp] theorem State.postDie_host (s : State) (code d : Nat) (a0 a1 a2 : Nat) : (s.postDie code d a0 a1 a2).host = s.host := (congrArg State.host (s.postDie_eq code d a0 a1 a2) :)
@[simp] theorem State.postDie_own (s : State) (code d : Nat) (a0 a1 a2 : Nat) : (s.postDie code d a0 a1 a2).own = s.own := (congrArg State.own (s.postDie_eq code d a0 a1 a2) :)
@[simp] theorem State.postDie_wd (s : State) (code d : Nat) (a0 a1 a2 : Nat) : (s.postDie code d a0 a1 a2).wd = s.wd := (congrArg State.wd (s.postDie_eq code d a0 a1 a2) :)
@[simp] theorem State.postDie_nvm (s : State) (code d : Nat) (a0 a1 a2 : Nat) : (s.postDie code d a0 a1 a2).nvm = s.nvm := (congrArg State.nvm (s.postDie_eq code d a0 a1 a2) :)
@[simp] theorem State.postDie_start (s : State) (code d : Nat) (a0 a1 a2 : Nat) : (s.postDie code d a0 a1 a2).start = s.start := (congrArg State.start (s.postDie_eq code d a0 a1 a2) :)
@[simp] theorem State.postDie_cfg (s : State) (code d : Nat) (a0 a1 a2 : Nat) : (s.postDie code d a0 a1 a2).cfg = s.cfg := (congrArg State.cfg (s.postDie_eq code d a0 a1 a2) :)
@[simp] theorem State.postDie_sched (s : State) (code d : Nat) (a0 a1 a2 : Nat) : (s.postDie code d a0 a1 a2).sched = s.sched := (congrArg State.sched (s.postDie_eq code d a0 a1 a2) :)
@[simp] theorem State.postDie_fresh (s : State) (code d : Nat) (a0 a1 a2 : Nat) : (s.postDie code d a0 a1 a2).fresh = s.fresh := (congrArg State.fresh (s.postDie_eq code d a0 a1 a2) :)
@[simp] theorem State.postDie_pending (s : State) (code d : Nat) (a0 a1 a2 : Nat) : (s.postDie code d a0 a1 a2).pending = s.pending := (congrArg State.pending (s.postDie_eq code d a0 a1 a2) :)

/-! ### postDev -/

@[simp] theorem State.postDev_time (s : State) (code : Nat) (a0 a1 a2 : Nat) : (s.postDev code a0 a1 a2).time = s.time := (congrArg State.time (s.postDev_eq code a0 a1 a2) :)
@[simp] theorem State.postDev_ovr (s : State) (code : Nat) (a0 a1 a2 : Nat) : (s.postDev code a0 a1 a2).ovr = s.ovr := (congrArg State.ovr (s.postDev_eq code a0 a1 a2) :)
@[simp] theorem State.postDev_arb (s : State) (code : Nat) (a0 a1 a2 : Nat) : (s.postDev code a0 a1 a2).arb = s.arb := (congrArg State.arb (s.postDev_eq code a0 a1 a2) :)
@[simp] theorem State.postDev_ph (s : State) (code : Nat) (a0 a1 a2 : Nat) : (s.postDev code a0 a1 a2).ph = s.ph := (congrArg State.ph (s.postDev_eq code a0 a1 a2) :)
@[simp] theorem State.postDev_phd (s : State) (code : Nat) (a0 a1 a2 : Nat) : (s.postDev code a0 a1 a2).phd = s.phd := (congrArg State.phd (s.postDev_eq code a0 a1 a2) :)
@[simp] theorem State.postDev_rail (s : State) (code : Nat) (a0 a1 a2 : Nat) : (s.postDev code a0 a1 a2).rail = s.rail := (congrArg State.rail (s.postDev_eq code a0 a1 a2) :)
@[simp] theorem State.postDev_raild (s : State) (code : Nat) (a0 a1 a2 : Nat) : (s.postDev code a0 a1 a2).raild = s.raild := (congrArg State.raild (s.postDev_eq code a0 a1 a2) :)
@[simp] theorem State.postDev_region (s : State) (code : Nat) (a0 a1 a2 : Nat) : (s.postDev code a0 a1 a2).region = s.region := (congrArg State.region (s.postDev_eq code a0 a1 a2) :)
@[simp] theorem State.postDev_lend (s : State) (code : Nat) (a0 a1 a2 : Nat) : (s.postDev code a0 a1 a2).lend = s.lend := (congrArg State.lend (s.postDev_eq code a0 a1 a2) :)
@[simp] theorem State.postDev_gang (s : State) (code : Nat) (a0 a1 a2 : Nat) : (s.postDev code a0 a1 a2).gang = s.gang := (congrArg State.gang (s.postDev_eq code a0 a1 a2) :)
@[simp] theorem State.postDev_fc (s : State) (code : Nat) (a0 a1 a2 : Nat) : (s.postDev code a0 a1 a2).fc = s.fc := (congrArg State.fc (s.postDev_eq code a0 a1 a2) :)
@[simp] theorem State.postDev_orders (s : State) (code : Nat) (a0 a1 a2 : Nat) : (s.postDev code a0 a1 a2).orders = s.orders := (congrArg State.orders (s.postDev_eq code a0 a1 a2) :)
@[simp] theorem State.postDev_seq (s : State) (code : Nat) (a0 a1 a2 : Nat) : (s.postDev code a0 a1 a2).seq = s.seq := (congrArg State.seq (s.postDev_eq code a0 a1 a2) :)
@[simp] theorem State.postDev_feed (s : State) (code : Nat) (a0 a1 a2 : Nat) : (s.postDev code a0 a1 a2).feed = s.feed := (congrArg State.feed (s.postDev_eq code a0 a1 a2) :)
@[simp] theorem State.postDev_hk (s : State) (code : Nat) (a0 a1 a2 : Nat) : (s.postDev code a0 a1 a2).hk = s.hk := (congrArg State.hk (s.postDev_eq code a0 a1 a2) :)
@[simp] theorem State.postDev_pwr (s : State) (code : Nat) (a0 a1 a2 : Nat) : (s.postDev code a0 a1 a2).pwr = s.pwr := (congrArg State.pwr (s.postDev_eq code a0 a1 a2) :)
@[simp] theorem State.postDev_pack (s : State) (code : Nat) (a0 a1 a2 : Nat) : (s.postDev code a0 a1 a2).pack = s.pack := (congrArg State.pack (s.postDev_eq code a0 a1 a2) :)
@[simp] theorem State.postDev_therm (s : State) (code : Nat) (a0 a1 a2 : Nat) : (s.postDev code a0 a1 a2).therm = s.therm := (congrArg State.therm (s.postDev_eq code a0 a1 a2) :)
@[simp] theorem State.postDev_mseq (s : State) (code : Nat) (a0 a1 a2 : Nat) : (s.postDev code a0 a1 a2).mseq = s.mseq := (congrArg State.mseq (s.postDev_eq code a0 a1 a2) :)
@[simp] theorem State.postDev_conv (s : State) (code : Nat) (a0 a1 a2 : Nat) : (s.postDev code a0 a1 a2).conv = s.conv := (congrArg State.conv (s.postDev_eq code a0 a1 a2) :)
@[simp] theorem State.postDev_host (s : State) (code : Nat) (a0 a1 a2 : Nat) : (s.postDev code a0 a1 a2).host = s.host := (congrArg State.host (s.postDev_eq code a0 a1 a2) :)
@[simp] theorem State.postDev_own (s : State) (code : Nat) (a0 a1 a2 : Nat) : (s.postDev code a0 a1 a2).own = s.own := (congrArg State.own (s.postDev_eq code a0 a1 a2) :)
@[simp] theorem State.postDev_wd (s : State) (code : Nat) (a0 a1 a2 : Nat) : (s.postDev code a0 a1 a2).wd = s.wd := (congrArg State.wd (s.postDev_eq code a0 a1 a2) :)
@[simp] theorem State.postDev_nvm (s : State) (code : Nat) (a0 a1 a2 : Nat) : (s.postDev code a0 a1 a2).nvm = s.nvm := (congrArg State.nvm (s.postDev_eq code a0 a1 a2) :)
@[simp] theorem State.postDev_start (s : State) (code : Nat) (a0 a1 a2 : Nat) : (s.postDev code a0 a1 a2).start = s.start := (congrArg State.start (s.postDev_eq code a0 a1 a2) :)
@[simp] theorem State.postDev_cfg (s : State) (code : Nat) (a0 a1 a2 : Nat) : (s.postDev code a0 a1 a2).cfg = s.cfg := (congrArg State.cfg (s.postDev_eq code a0 a1 a2) :)
@[simp] theorem State.postDev_sched (s : State) (code : Nat) (a0 a1 a2 : Nat) : (s.postDev code a0 a1 a2).sched = s.sched := (congrArg State.sched (s.postDev_eq code a0 a1 a2) :)
@[simp] theorem State.postDev_fresh (s : State) (code : Nat) (a0 a1 a2 : Nat) : (s.postDev code a0 a1 a2).fresh = s.fresh := (congrArg State.fresh (s.postDev_eq code a0 a1 a2) :)
@[simp] theorem State.postDev_pending (s : State) (code : Nat) (a0 a1 a2 : Nat) : (s.postDev code a0 a1 a2).pending = s.pending := (congrArg State.pending (s.postDev_eq code a0 a1 a2) :)

/-! ### postChain -/

@[simp] theorem State.postChain_time (s : State) (code : Nat) (a0 a1 a2 : Nat) : (s.postChain code a0 a1 a2).time = s.time := (congrArg State.time (s.postChain_eq code a0 a1 a2) :)
@[simp] theorem State.postChain_ovr (s : State) (code : Nat) (a0 a1 a2 : Nat) : (s.postChain code a0 a1 a2).ovr = s.ovr := (congrArg State.ovr (s.postChain_eq code a0 a1 a2) :)
@[simp] theorem State.postChain_arb (s : State) (code : Nat) (a0 a1 a2 : Nat) : (s.postChain code a0 a1 a2).arb = s.arb := (congrArg State.arb (s.postChain_eq code a0 a1 a2) :)
@[simp] theorem State.postChain_ph (s : State) (code : Nat) (a0 a1 a2 : Nat) : (s.postChain code a0 a1 a2).ph = s.ph := (congrArg State.ph (s.postChain_eq code a0 a1 a2) :)
@[simp] theorem State.postChain_phd (s : State) (code : Nat) (a0 a1 a2 : Nat) : (s.postChain code a0 a1 a2).phd = s.phd := (congrArg State.phd (s.postChain_eq code a0 a1 a2) :)
@[simp] theorem State.postChain_rail (s : State) (code : Nat) (a0 a1 a2 : Nat) : (s.postChain code a0 a1 a2).rail = s.rail := (congrArg State.rail (s.postChain_eq code a0 a1 a2) :)
@[simp] theorem State.postChain_raild (s : State) (code : Nat) (a0 a1 a2 : Nat) : (s.postChain code a0 a1 a2).raild = s.raild := (congrArg State.raild (s.postChain_eq code a0 a1 a2) :)
@[simp] theorem State.postChain_region (s : State) (code : Nat) (a0 a1 a2 : Nat) : (s.postChain code a0 a1 a2).region = s.region := (congrArg State.region (s.postChain_eq code a0 a1 a2) :)
@[simp] theorem State.postChain_lend (s : State) (code : Nat) (a0 a1 a2 : Nat) : (s.postChain code a0 a1 a2).lend = s.lend := (congrArg State.lend (s.postChain_eq code a0 a1 a2) :)
@[simp] theorem State.postChain_gang (s : State) (code : Nat) (a0 a1 a2 : Nat) : (s.postChain code a0 a1 a2).gang = s.gang := (congrArg State.gang (s.postChain_eq code a0 a1 a2) :)
@[simp] theorem State.postChain_fc (s : State) (code : Nat) (a0 a1 a2 : Nat) : (s.postChain code a0 a1 a2).fc = s.fc := (congrArg State.fc (s.postChain_eq code a0 a1 a2) :)
@[simp] theorem State.postChain_orders (s : State) (code : Nat) (a0 a1 a2 : Nat) : (s.postChain code a0 a1 a2).orders = s.orders := (congrArg State.orders (s.postChain_eq code a0 a1 a2) :)
@[simp] theorem State.postChain_seq (s : State) (code : Nat) (a0 a1 a2 : Nat) : (s.postChain code a0 a1 a2).seq = s.seq := (congrArg State.seq (s.postChain_eq code a0 a1 a2) :)
@[simp] theorem State.postChain_feed (s : State) (code : Nat) (a0 a1 a2 : Nat) : (s.postChain code a0 a1 a2).feed = s.feed := (congrArg State.feed (s.postChain_eq code a0 a1 a2) :)
@[simp] theorem State.postChain_hk (s : State) (code : Nat) (a0 a1 a2 : Nat) : (s.postChain code a0 a1 a2).hk = s.hk := (congrArg State.hk (s.postChain_eq code a0 a1 a2) :)
@[simp] theorem State.postChain_pwr (s : State) (code : Nat) (a0 a1 a2 : Nat) : (s.postChain code a0 a1 a2).pwr = s.pwr := (congrArg State.pwr (s.postChain_eq code a0 a1 a2) :)
@[simp] theorem State.postChain_pack (s : State) (code : Nat) (a0 a1 a2 : Nat) : (s.postChain code a0 a1 a2).pack = s.pack := (congrArg State.pack (s.postChain_eq code a0 a1 a2) :)
@[simp] theorem State.postChain_therm (s : State) (code : Nat) (a0 a1 a2 : Nat) : (s.postChain code a0 a1 a2).therm = s.therm := (congrArg State.therm (s.postChain_eq code a0 a1 a2) :)
@[simp] theorem State.postChain_mseq (s : State) (code : Nat) (a0 a1 a2 : Nat) : (s.postChain code a0 a1 a2).mseq = s.mseq := (congrArg State.mseq (s.postChain_eq code a0 a1 a2) :)
@[simp] theorem State.postChain_conv (s : State) (code : Nat) (a0 a1 a2 : Nat) : (s.postChain code a0 a1 a2).conv = s.conv := (congrArg State.conv (s.postChain_eq code a0 a1 a2) :)
@[simp] theorem State.postChain_host (s : State) (code : Nat) (a0 a1 a2 : Nat) : (s.postChain code a0 a1 a2).host = s.host := (congrArg State.host (s.postChain_eq code a0 a1 a2) :)
@[simp] theorem State.postChain_own (s : State) (code : Nat) (a0 a1 a2 : Nat) : (s.postChain code a0 a1 a2).own = s.own := (congrArg State.own (s.postChain_eq code a0 a1 a2) :)
@[simp] theorem State.postChain_wd (s : State) (code : Nat) (a0 a1 a2 : Nat) : (s.postChain code a0 a1 a2).wd = s.wd := (congrArg State.wd (s.postChain_eq code a0 a1 a2) :)
@[simp] theorem State.postChain_nvm (s : State) (code : Nat) (a0 a1 a2 : Nat) : (s.postChain code a0 a1 a2).nvm = s.nvm := (congrArg State.nvm (s.postChain_eq code a0 a1 a2) :)
@[simp] theorem State.postChain_start (s : State) (code : Nat) (a0 a1 a2 : Nat) : (s.postChain code a0 a1 a2).start = s.start := (congrArg State.start (s.postChain_eq code a0 a1 a2) :)
@[simp] theorem State.postChain_cfg (s : State) (code : Nat) (a0 a1 a2 : Nat) : (s.postChain code a0 a1 a2).cfg = s.cfg := (congrArg State.cfg (s.postChain_eq code a0 a1 a2) :)
@[simp] theorem State.postChain_sched (s : State) (code : Nat) (a0 a1 a2 : Nat) : (s.postChain code a0 a1 a2).sched = s.sched := (congrArg State.sched (s.postChain_eq code a0 a1 a2) :)
@[simp] theorem State.postChain_fresh (s : State) (code : Nat) (a0 a1 a2 : Nat) : (s.postChain code a0 a1 a2).fresh = s.fresh := (congrArg State.fresh (s.postChain_eq code a0 a1 a2) :)
@[simp] theorem State.postChain_pending (s : State) (code : Nat) (a0 a1 a2 : Nat) : (s.postChain code a0 a1 a2).pending = s.pending := (congrArg State.pending (s.postChain_eq code a0 a1 a2) :)

/-! ### postClient -/

@[simp] theorem State.postClient_time (s : State) (code c : Nat) (a0 a1 a2 : Nat) : (s.postClient code c a0 a1 a2).time = s.time := (congrArg State.time (s.postClient_eq code c a0 a1 a2) :)
@[simp] theorem State.postClient_ovr (s : State) (code c : Nat) (a0 a1 a2 : Nat) : (s.postClient code c a0 a1 a2).ovr = s.ovr := (congrArg State.ovr (s.postClient_eq code c a0 a1 a2) :)
@[simp] theorem State.postClient_arb (s : State) (code c : Nat) (a0 a1 a2 : Nat) : (s.postClient code c a0 a1 a2).arb = s.arb := (congrArg State.arb (s.postClient_eq code c a0 a1 a2) :)
@[simp] theorem State.postClient_ph (s : State) (code c : Nat) (a0 a1 a2 : Nat) : (s.postClient code c a0 a1 a2).ph = s.ph := (congrArg State.ph (s.postClient_eq code c a0 a1 a2) :)
@[simp] theorem State.postClient_phd (s : State) (code c : Nat) (a0 a1 a2 : Nat) : (s.postClient code c a0 a1 a2).phd = s.phd := (congrArg State.phd (s.postClient_eq code c a0 a1 a2) :)
@[simp] theorem State.postClient_rail (s : State) (code c : Nat) (a0 a1 a2 : Nat) : (s.postClient code c a0 a1 a2).rail = s.rail := (congrArg State.rail (s.postClient_eq code c a0 a1 a2) :)
@[simp] theorem State.postClient_raild (s : State) (code c : Nat) (a0 a1 a2 : Nat) : (s.postClient code c a0 a1 a2).raild = s.raild := (congrArg State.raild (s.postClient_eq code c a0 a1 a2) :)
@[simp] theorem State.postClient_region (s : State) (code c : Nat) (a0 a1 a2 : Nat) : (s.postClient code c a0 a1 a2).region = s.region := (congrArg State.region (s.postClient_eq code c a0 a1 a2) :)
@[simp] theorem State.postClient_lend (s : State) (code c : Nat) (a0 a1 a2 : Nat) : (s.postClient code c a0 a1 a2).lend = s.lend := (congrArg State.lend (s.postClient_eq code c a0 a1 a2) :)
@[simp] theorem State.postClient_gang (s : State) (code c : Nat) (a0 a1 a2 : Nat) : (s.postClient code c a0 a1 a2).gang = s.gang := (congrArg State.gang (s.postClient_eq code c a0 a1 a2) :)
@[simp] theorem State.postClient_fc (s : State) (code c : Nat) (a0 a1 a2 : Nat) : (s.postClient code c a0 a1 a2).fc = s.fc := (congrArg State.fc (s.postClient_eq code c a0 a1 a2) :)
@[simp] theorem State.postClient_orders (s : State) (code c : Nat) (a0 a1 a2 : Nat) : (s.postClient code c a0 a1 a2).orders = s.orders := (congrArg State.orders (s.postClient_eq code c a0 a1 a2) :)
@[simp] theorem State.postClient_seq (s : State) (code c : Nat) (a0 a1 a2 : Nat) : (s.postClient code c a0 a1 a2).seq = s.seq := (congrArg State.seq (s.postClient_eq code c a0 a1 a2) :)
@[simp] theorem State.postClient_feed (s : State) (code c : Nat) (a0 a1 a2 : Nat) : (s.postClient code c a0 a1 a2).feed = s.feed := (congrArg State.feed (s.postClient_eq code c a0 a1 a2) :)
@[simp] theorem State.postClient_hk (s : State) (code c : Nat) (a0 a1 a2 : Nat) : (s.postClient code c a0 a1 a2).hk = s.hk := (congrArg State.hk (s.postClient_eq code c a0 a1 a2) :)
@[simp] theorem State.postClient_pwr (s : State) (code c : Nat) (a0 a1 a2 : Nat) : (s.postClient code c a0 a1 a2).pwr = s.pwr := (congrArg State.pwr (s.postClient_eq code c a0 a1 a2) :)
@[simp] theorem State.postClient_pack (s : State) (code c : Nat) (a0 a1 a2 : Nat) : (s.postClient code c a0 a1 a2).pack = s.pack := (congrArg State.pack (s.postClient_eq code c a0 a1 a2) :)
@[simp] theorem State.postClient_therm (s : State) (code c : Nat) (a0 a1 a2 : Nat) : (s.postClient code c a0 a1 a2).therm = s.therm := (congrArg State.therm (s.postClient_eq code c a0 a1 a2) :)
@[simp] theorem State.postClient_mseq (s : State) (code c : Nat) (a0 a1 a2 : Nat) : (s.postClient code c a0 a1 a2).mseq = s.mseq := (congrArg State.mseq (s.postClient_eq code c a0 a1 a2) :)
@[simp] theorem State.postClient_conv (s : State) (code c : Nat) (a0 a1 a2 : Nat) : (s.postClient code c a0 a1 a2).conv = s.conv := (congrArg State.conv (s.postClient_eq code c a0 a1 a2) :)
@[simp] theorem State.postClient_host (s : State) (code c : Nat) (a0 a1 a2 : Nat) : (s.postClient code c a0 a1 a2).host = s.host := (congrArg State.host (s.postClient_eq code c a0 a1 a2) :)
@[simp] theorem State.postClient_own (s : State) (code c : Nat) (a0 a1 a2 : Nat) : (s.postClient code c a0 a1 a2).own = s.own := (congrArg State.own (s.postClient_eq code c a0 a1 a2) :)
@[simp] theorem State.postClient_wd (s : State) (code c : Nat) (a0 a1 a2 : Nat) : (s.postClient code c a0 a1 a2).wd = s.wd := (congrArg State.wd (s.postClient_eq code c a0 a1 a2) :)
@[simp] theorem State.postClient_nvm (s : State) (code c : Nat) (a0 a1 a2 : Nat) : (s.postClient code c a0 a1 a2).nvm = s.nvm := (congrArg State.nvm (s.postClient_eq code c a0 a1 a2) :)
@[simp] theorem State.postClient_start (s : State) (code c : Nat) (a0 a1 a2 : Nat) : (s.postClient code c a0 a1 a2).start = s.start := (congrArg State.start (s.postClient_eq code c a0 a1 a2) :)
@[simp] theorem State.postClient_cfg (s : State) (code c : Nat) (a0 a1 a2 : Nat) : (s.postClient code c a0 a1 a2).cfg = s.cfg := (congrArg State.cfg (s.postClient_eq code c a0 a1 a2) :)
@[simp] theorem State.postClient_sched (s : State) (code c : Nat) (a0 a1 a2 : Nat) : (s.postClient code c a0 a1 a2).sched = s.sched := (congrArg State.sched (s.postClient_eq code c a0 a1 a2) :)
@[simp] theorem State.postClient_fresh (s : State) (code c : Nat) (a0 a1 a2 : Nat) : (s.postClient code c a0 a1 a2).fresh = s.fresh := (congrArg State.fresh (s.postClient_eq code c a0 a1 a2) :)
@[simp] theorem State.postClient_pending (s : State) (code c : Nat) (a0 a1 a2 : Nat) : (s.postClient code c a0 a1 a2).pending = s.pending := (congrArg State.pending (s.postClient_eq code c a0 a1 a2) :)

/-! ### postOrder -/

@[simp] theorem State.postOrder_time (s : State) (code idx unit a1 a2 : Nat) : (s.postOrder code idx unit a1 a2).time = s.time := (congrArg State.time (s.postOrder_eq code idx unit a1 a2) :)
@[simp] theorem State.postOrder_ovr (s : State) (code idx unit a1 a2 : Nat) : (s.postOrder code idx unit a1 a2).ovr = s.ovr := (congrArg State.ovr (s.postOrder_eq code idx unit a1 a2) :)
@[simp] theorem State.postOrder_arb (s : State) (code idx unit a1 a2 : Nat) : (s.postOrder code idx unit a1 a2).arb = s.arb := (congrArg State.arb (s.postOrder_eq code idx unit a1 a2) :)
@[simp] theorem State.postOrder_ph (s : State) (code idx unit a1 a2 : Nat) : (s.postOrder code idx unit a1 a2).ph = s.ph := (congrArg State.ph (s.postOrder_eq code idx unit a1 a2) :)
@[simp] theorem State.postOrder_phd (s : State) (code idx unit a1 a2 : Nat) : (s.postOrder code idx unit a1 a2).phd = s.phd := (congrArg State.phd (s.postOrder_eq code idx unit a1 a2) :)
@[simp] theorem State.postOrder_rail (s : State) (code idx unit a1 a2 : Nat) : (s.postOrder code idx unit a1 a2).rail = s.rail := (congrArg State.rail (s.postOrder_eq code idx unit a1 a2) :)
@[simp] theorem State.postOrder_raild (s : State) (code idx unit a1 a2 : Nat) : (s.postOrder code idx unit a1 a2).raild = s.raild := (congrArg State.raild (s.postOrder_eq code idx unit a1 a2) :)
@[simp] theorem State.postOrder_region (s : State) (code idx unit a1 a2 : Nat) : (s.postOrder code idx unit a1 a2).region = s.region := (congrArg State.region (s.postOrder_eq code idx unit a1 a2) :)
@[simp] theorem State.postOrder_lend (s : State) (code idx unit a1 a2 : Nat) : (s.postOrder code idx unit a1 a2).lend = s.lend := (congrArg State.lend (s.postOrder_eq code idx unit a1 a2) :)
@[simp] theorem State.postOrder_gang (s : State) (code idx unit a1 a2 : Nat) : (s.postOrder code idx unit a1 a2).gang = s.gang := (congrArg State.gang (s.postOrder_eq code idx unit a1 a2) :)
@[simp] theorem State.postOrder_fc (s : State) (code idx unit a1 a2 : Nat) : (s.postOrder code idx unit a1 a2).fc = s.fc := (congrArg State.fc (s.postOrder_eq code idx unit a1 a2) :)
@[simp] theorem State.postOrder_orders (s : State) (code idx unit a1 a2 : Nat) : (s.postOrder code idx unit a1 a2).orders = s.orders := (congrArg State.orders (s.postOrder_eq code idx unit a1 a2) :)
@[simp] theorem State.postOrder_seq (s : State) (code idx unit a1 a2 : Nat) : (s.postOrder code idx unit a1 a2).seq = s.seq := (congrArg State.seq (s.postOrder_eq code idx unit a1 a2) :)
@[simp] theorem State.postOrder_feed (s : State) (code idx unit a1 a2 : Nat) : (s.postOrder code idx unit a1 a2).feed = s.feed := (congrArg State.feed (s.postOrder_eq code idx unit a1 a2) :)
@[simp] theorem State.postOrder_hk (s : State) (code idx unit a1 a2 : Nat) : (s.postOrder code idx unit a1 a2).hk = s.hk := (congrArg State.hk (s.postOrder_eq code idx unit a1 a2) :)
@[simp] theorem State.postOrder_pwr (s : State) (code idx unit a1 a2 : Nat) : (s.postOrder code idx unit a1 a2).pwr = s.pwr := (congrArg State.pwr (s.postOrder_eq code idx unit a1 a2) :)
@[simp] theorem State.postOrder_pack (s : State) (code idx unit a1 a2 : Nat) : (s.postOrder code idx unit a1 a2).pack = s.pack := (congrArg State.pack (s.postOrder_eq code idx unit a1 a2) :)
@[simp] theorem State.postOrder_therm (s : State) (code idx unit a1 a2 : Nat) : (s.postOrder code idx unit a1 a2).therm = s.therm := (congrArg State.therm (s.postOrder_eq code idx unit a1 a2) :)
@[simp] theorem State.postOrder_mseq (s : State) (code idx unit a1 a2 : Nat) : (s.postOrder code idx unit a1 a2).mseq = s.mseq := (congrArg State.mseq (s.postOrder_eq code idx unit a1 a2) :)
@[simp] theorem State.postOrder_conv (s : State) (code idx unit a1 a2 : Nat) : (s.postOrder code idx unit a1 a2).conv = s.conv := (congrArg State.conv (s.postOrder_eq code idx unit a1 a2) :)
@[simp] theorem State.postOrder_host (s : State) (code idx unit a1 a2 : Nat) : (s.postOrder code idx unit a1 a2).host = s.host := (congrArg State.host (s.postOrder_eq code idx unit a1 a2) :)
@[simp] theorem State.postOrder_own (s : State) (code idx unit a1 a2 : Nat) : (s.postOrder code idx unit a1 a2).own = s.own := (congrArg State.own (s.postOrder_eq code idx unit a1 a2) :)
@[simp] theorem State.postOrder_wd (s : State) (code idx unit a1 a2 : Nat) : (s.postOrder code idx unit a1 a2).wd = s.wd := (congrArg State.wd (s.postOrder_eq code idx unit a1 a2) :)
@[simp] theorem State.postOrder_nvm (s : State) (code idx unit a1 a2 : Nat) : (s.postOrder code idx unit a1 a2).nvm = s.nvm := (congrArg State.nvm (s.postOrder_eq code idx unit a1 a2) :)
@[simp] theorem State.postOrder_start (s : State) (code idx unit a1 a2 : Nat) : (s.postOrder code idx unit a1 a2).start = s.start := (congrArg State.start (s.postOrder_eq code idx unit a1 a2) :)
@[simp] theorem State.postOrder_cfg (s : State) (code idx unit a1 a2 : Nat) : (s.postOrder code idx unit a1 a2).cfg = s.cfg := (congrArg State.cfg (s.postOrder_eq code idx unit a1 a2) :)
@[simp] theorem State.postOrder_sched (s : State) (code idx unit a1 a2 : Nat) : (s.postOrder code idx unit a1 a2).sched = s.sched := (congrArg State.sched (s.postOrder_eq code idx unit a1 a2) :)
@[simp] theorem State.postOrder_fresh (s : State) (code idx unit a1 a2 : Nat) : (s.postOrder code idx unit a1 a2).fresh = s.fresh := (congrArg State.fresh (s.postOrder_eq code idx unit a1 a2) :)
@[simp] theorem State.postOrder_pending (s : State) (code idx unit a1 a2 : Nat) : (s.postOrder code idx unit a1 a2).pending = s.pending := (congrArg State.pending (s.postOrder_eq code idx unit a1 a2) :)

/-! ### stub -/

@[simp] theorem State.stub_time (s : State) (st : Stub) (data : List Nat) : (s.stub st data).time = s.time := (congrArg State.time (s.stub_eq st data) :)
@[simp] theorem State.stub_ovr (s : State) (st : Stub) (data : List Nat) : (s.stub st data).ovr = s.ovr := (congrArg State.ovr (s.stub_eq st data) :)
@[simp] theorem State.stub_arb (s : State) (st : Stub) (data : List Nat) : (s.stub st data).arb = s.arb := (congrArg State.arb (s.stub_eq st data) :)
@[simp] theorem State.stub_ph (s : State) (st : Stub) (data : List Nat) : (s.stub st data).ph = s.ph := (congrArg State.ph (s.stub_eq st data) :)
@[simp] theorem State.stub_phd (s : State) (st : Stub) (data : List Nat) : (s.stub st data).phd = s.phd := (congrArg State.phd (s.stub_eq st data) :)
@[simp] theorem State.stub_rail (s : State) (st : Stub) (data : List Nat) : (s.stub st data).rail = s.rail := (congrArg State.rail (s.stub_eq st data) :)
@[simp] theorem State.stub_raild (s : State) (st : Stub) (data : List Nat) : (s.stub st data).raild = s.raild := (congrArg State.raild (s.stub_eq st data) :)
@[simp] theorem State.stub_region (s : State) (st : Stub) (data : List Nat) : (s.stub st data).region = s.region := (congrArg State.region (s.stub_eq st data) :)
@[simp] theorem State.stub_lend (s : State) (st : Stub) (data : List Nat) : (s.stub st data).lend = s.lend := (congrArg State.lend (s.stub_eq st data) :)
@[simp] theorem State.stub_gang (s : State) (st : Stub) (data : List Nat) : (s.stub st data).gang = s.gang := (congrArg State.gang (s.stub_eq st data) :)
@[simp] theorem State.stub_fc (s : State) (st : Stub) (data : List Nat) : (s.stub st data).fc = s.fc := (congrArg State.fc (s.stub_eq st data) :)
@[simp] theorem State.stub_orders (s : State) (st : Stub) (data : List Nat) : (s.stub st data).orders = s.orders := (congrArg State.orders (s.stub_eq st data) :)
@[simp] theorem State.stub_seq (s : State) (st : Stub) (data : List Nat) : (s.stub st data).seq = s.seq := (congrArg State.seq (s.stub_eq st data) :)
@[simp] theorem State.stub_feed (s : State) (st : Stub) (data : List Nat) : (s.stub st data).feed = s.feed := (congrArg State.feed (s.stub_eq st data) :)
@[simp] theorem State.stub_hk (s : State) (st : Stub) (data : List Nat) : (s.stub st data).hk = s.hk := (congrArg State.hk (s.stub_eq st data) :)
@[simp] theorem State.stub_pwr (s : State) (st : Stub) (data : List Nat) : (s.stub st data).pwr = s.pwr := (congrArg State.pwr (s.stub_eq st data) :)
@[simp] theorem State.stub_pack (s : State) (st : Stub) (data : List Nat) : (s.stub st data).pack = s.pack := (congrArg State.pack (s.stub_eq st data) :)
@[simp] theorem State.stub_therm (s : State) (st : Stub) (data : List Nat) : (s.stub st data).therm = s.therm := (congrArg State.therm (s.stub_eq st data) :)
@[simp] theorem State.stub_mseq (s : State) (st : Stub) (data : List Nat) : (s.stub st data).mseq = s.mseq := (congrArg State.mseq (s.stub_eq st data) :)
@[simp] theorem State.stub_conv (s : State) (st : Stub) (data : List Nat) : (s.stub st data).conv = s.conv := (congrArg State.conv (s.stub_eq st data) :)
@[simp] theorem State.stub_wd (s : State) (st : Stub) (data : List Nat) : (s.stub st data).wd = s.wd := (congrArg State.wd (s.stub_eq st data) :)
@[simp] theorem State.stub_nvm (s : State) (st : Stub) (data : List Nat) : (s.stub st data).nvm = s.nvm := (congrArg State.nvm (s.stub_eq st data) :)
@[simp] theorem State.stub_start (s : State) (st : Stub) (data : List Nat) : (s.stub st data).start = s.start := (congrArg State.start (s.stub_eq st data) :)
@[simp] theorem State.stub_cfg (s : State) (st : Stub) (data : List Nat) : (s.stub st data).cfg = s.cfg := (congrArg State.cfg (s.stub_eq st data) :)
@[simp] theorem State.stub_sched (s : State) (st : Stub) (data : List Nat) : (s.stub st data).sched = s.sched := (congrArg State.sched (s.stub_eq st data) :)
@[simp] theorem State.stub_fresh (s : State) (st : Stub) (data : List Nat) : (s.stub st data).fresh = s.fresh := (congrArg State.fresh (s.stub_eq st data) :)
@[simp] theorem State.stub_pending (s : State) (st : Stub) (data : List Nat) : (s.stub st data).pending = s.pending := (congrArg State.pending (s.stub_eq st data) :)

/-! ### final -/

@[simp] theorem State.final_time (s : State) (ref : TkRef) (status extra value : Nat) : (s.final ref status extra value).time = s.time := (congrArg State.time (s.final_eq ref status extra value) :)
@[simp] theorem State.final_ovr (s : State) (ref : TkRef) (status extra value : Nat) : (s.final ref status extra value).ovr = s.ovr := (congrArg State.ovr (s.final_eq ref status extra value) :)
@[simp] theorem State.final_arb (s : State) (ref : TkRef) (status extra value : Nat) : (s.final ref status extra value).arb = s.arb := (congrArg State.arb (s.final_eq ref status extra value) :)
@[simp] theorem State.final_ph (s : State) (ref : TkRef) (status extra value : Nat) : (s.final ref status extra value).ph = s.ph := (congrArg State.ph (s.final_eq ref status extra value) :)
@[simp] theorem State.final_phd (s : State) (ref : TkRef) (status extra value : Nat) : (s.final ref status extra value).phd = s.phd := (congrArg State.phd (s.final_eq ref status extra value) :)
@[simp] theorem State.final_rail (s : State) (ref : TkRef) (status extra value : Nat) : (s.final ref status extra value).rail = s.rail := (congrArg State.rail (s.final_eq ref status extra value) :)
@[simp] theorem State.final_raild (s : State) (ref : TkRef) (status extra value : Nat) : (s.final ref status extra value).raild = s.raild := (congrArg State.raild (s.final_eq ref status extra value) :)
@[simp] theorem State.final_region (s : State) (ref : TkRef) (status extra value : Nat) : (s.final ref status extra value).region = s.region := (congrArg State.region (s.final_eq ref status extra value) :)
@[simp] theorem State.final_lend (s : State) (ref : TkRef) (status extra value : Nat) : (s.final ref status extra value).lend = s.lend := (congrArg State.lend (s.final_eq ref status extra value) :)
@[simp] theorem State.final_gang (s : State) (ref : TkRef) (status extra value : Nat) : (s.final ref status extra value).gang = s.gang := (congrArg State.gang (s.final_eq ref status extra value) :)
@[simp] theorem State.final_fc (s : State) (ref : TkRef) (status extra value : Nat) : (s.final ref status extra value).fc = s.fc := (congrArg State.fc (s.final_eq ref status extra value) :)
@[simp] theorem State.final_orders (s : State) (ref : TkRef) (status extra value : Nat) : (s.final ref status extra value).orders = s.orders := (congrArg State.orders (s.final_eq ref status extra value) :)
@[simp] theorem State.final_seq (s : State) (ref : TkRef) (status extra value : Nat) : (s.final ref status extra value).seq = s.seq := (congrArg State.seq (s.final_eq ref status extra value) :)
@[simp] theorem State.final_feed (s : State) (ref : TkRef) (status extra value : Nat) : (s.final ref status extra value).feed = s.feed := (congrArg State.feed (s.final_eq ref status extra value) :)
@[simp] theorem State.final_hk (s : State) (ref : TkRef) (status extra value : Nat) : (s.final ref status extra value).hk = s.hk := (congrArg State.hk (s.final_eq ref status extra value) :)
@[simp] theorem State.final_pwr (s : State) (ref : TkRef) (status extra value : Nat) : (s.final ref status extra value).pwr = s.pwr := (congrArg State.pwr (s.final_eq ref status extra value) :)
@[simp] theorem State.final_pack (s : State) (ref : TkRef) (status extra value : Nat) : (s.final ref status extra value).pack = s.pack := (congrArg State.pack (s.final_eq ref status extra value) :)
@[simp] theorem State.final_therm (s : State) (ref : TkRef) (status extra value : Nat) : (s.final ref status extra value).therm = s.therm := (congrArg State.therm (s.final_eq ref status extra value) :)
@[simp] theorem State.final_mseq (s : State) (ref : TkRef) (status extra value : Nat) : (s.final ref status extra value).mseq = s.mseq := (congrArg State.mseq (s.final_eq ref status extra value) :)
@[simp] theorem State.final_conv (s : State) (ref : TkRef) (status extra value : Nat) : (s.final ref status extra value).conv = s.conv := (congrArg State.conv (s.final_eq ref status extra value) :)
@[simp] theorem State.final_own (s : State) (ref : TkRef) (status extra value : Nat) : (s.final ref status extra value).own = s.own := (congrArg State.own (s.final_eq ref status extra value) :)
@[simp] theorem State.final_wd (s : State) (ref : TkRef) (status extra value : Nat) : (s.final ref status extra value).wd = s.wd := (congrArg State.wd (s.final_eq ref status extra value) :)
@[simp] theorem State.final_nvm (s : State) (ref : TkRef) (status extra value : Nat) : (s.final ref status extra value).nvm = s.nvm := (congrArg State.nvm (s.final_eq ref status extra value) :)
@[simp] theorem State.final_start (s : State) (ref : TkRef) (status extra value : Nat) : (s.final ref status extra value).start = s.start := (congrArg State.start (s.final_eq ref status extra value) :)
@[simp] theorem State.final_cfg (s : State) (ref : TkRef) (status extra value : Nat) : (s.final ref status extra value).cfg = s.cfg := (congrArg State.cfg (s.final_eq ref status extra value) :)
@[simp] theorem State.final_sched (s : State) (ref : TkRef) (status extra value : Nat) : (s.final ref status extra value).sched = s.sched := (congrArg State.sched (s.final_eq ref status extra value) :)
@[simp] theorem State.final_fresh (s : State) (ref : TkRef) (status extra value : Nat) : (s.final ref status extra value).fresh = s.fresh := (congrArg State.fresh (s.final_eq ref status extra value) :)
@[simp] theorem State.final_pending (s : State) (ref : TkRef) (status extra value : Nat) : (s.final ref status extra value).pending = s.pending := (congrArg State.pending (s.final_eq ref status extra value) :)

/-! ### trace -/

@[simp] theorem State.trace_time (s : State) (kind d0 d1 d2 d3 : Nat) : (s.trace kind d0 d1 d2 d3).time = s.time := (congrArg State.time (s.trace_eq kind d0 d1 d2 d3) :)
@[simp] theorem State.trace_ovr (s : State) (kind d0 d1 d2 d3 : Nat) : (s.trace kind d0 d1 d2 d3).ovr = s.ovr := (congrArg State.ovr (s.trace_eq kind d0 d1 d2 d3) :)
@[simp] theorem State.trace_arb (s : State) (kind d0 d1 d2 d3 : Nat) : (s.trace kind d0 d1 d2 d3).arb = s.arb := (congrArg State.arb (s.trace_eq kind d0 d1 d2 d3) :)
@[simp] theorem State.trace_ph (s : State) (kind d0 d1 d2 d3 : Nat) : (s.trace kind d0 d1 d2 d3).ph = s.ph := (congrArg State.ph (s.trace_eq kind d0 d1 d2 d3) :)
@[simp] theorem State.trace_phd (s : State) (kind d0 d1 d2 d3 : Nat) : (s.trace kind d0 d1 d2 d3).phd = s.phd := (congrArg State.phd (s.trace_eq kind d0 d1 d2 d3) :)
@[simp] theorem State.trace_rail (s : State) (kind d0 d1 d2 d3 : Nat) : (s.trace kind d0 d1 d2 d3).rail = s.rail := (congrArg State.rail (s.trace_eq kind d0 d1 d2 d3) :)
@[simp] theorem State.trace_raild (s : State) (kind d0 d1 d2 d3 : Nat) : (s.trace kind d0 d1 d2 d3).raild = s.raild := (congrArg State.raild (s.trace_eq kind d0 d1 d2 d3) :)
@[simp] theorem State.trace_region (s : State) (kind d0 d1 d2 d3 : Nat) : (s.trace kind d0 d1 d2 d3).region = s.region := (congrArg State.region (s.trace_eq kind d0 d1 d2 d3) :)
@[simp] theorem State.trace_lend (s : State) (kind d0 d1 d2 d3 : Nat) : (s.trace kind d0 d1 d2 d3).lend = s.lend := (congrArg State.lend (s.trace_eq kind d0 d1 d2 d3) :)
@[simp] theorem State.trace_gang (s : State) (kind d0 d1 d2 d3 : Nat) : (s.trace kind d0 d1 d2 d3).gang = s.gang := (congrArg State.gang (s.trace_eq kind d0 d1 d2 d3) :)
@[simp] theorem State.trace_fc (s : State) (kind d0 d1 d2 d3 : Nat) : (s.trace kind d0 d1 d2 d3).fc = s.fc := (congrArg State.fc (s.trace_eq kind d0 d1 d2 d3) :)
@[simp] theorem State.trace_orders (s : State) (kind d0 d1 d2 d3 : Nat) : (s.trace kind d0 d1 d2 d3).orders = s.orders := (congrArg State.orders (s.trace_eq kind d0 d1 d2 d3) :)
@[simp] theorem State.trace_seq (s : State) (kind d0 d1 d2 d3 : Nat) : (s.trace kind d0 d1 d2 d3).seq = s.seq := (congrArg State.seq (s.trace_eq kind d0 d1 d2 d3) :)
@[simp] theorem State.trace_feed (s : State) (kind d0 d1 d2 d3 : Nat) : (s.trace kind d0 d1 d2 d3).feed = s.feed := (congrArg State.feed (s.trace_eq kind d0 d1 d2 d3) :)
@[simp] theorem State.trace_hk (s : State) (kind d0 d1 d2 d3 : Nat) : (s.trace kind d0 d1 d2 d3).hk = s.hk := (congrArg State.hk (s.trace_eq kind d0 d1 d2 d3) :)
@[simp] theorem State.trace_pwr (s : State) (kind d0 d1 d2 d3 : Nat) : (s.trace kind d0 d1 d2 d3).pwr = s.pwr := (congrArg State.pwr (s.trace_eq kind d0 d1 d2 d3) :)
@[simp] theorem State.trace_pack (s : State) (kind d0 d1 d2 d3 : Nat) : (s.trace kind d0 d1 d2 d3).pack = s.pack := (congrArg State.pack (s.trace_eq kind d0 d1 d2 d3) :)
@[simp] theorem State.trace_therm (s : State) (kind d0 d1 d2 d3 : Nat) : (s.trace kind d0 d1 d2 d3).therm = s.therm := (congrArg State.therm (s.trace_eq kind d0 d1 d2 d3) :)
@[simp] theorem State.trace_mseq (s : State) (kind d0 d1 d2 d3 : Nat) : (s.trace kind d0 d1 d2 d3).mseq = s.mseq := (congrArg State.mseq (s.trace_eq kind d0 d1 d2 d3) :)
@[simp] theorem State.trace_conv (s : State) (kind d0 d1 d2 d3 : Nat) : (s.trace kind d0 d1 d2 d3).conv = s.conv := (congrArg State.conv (s.trace_eq kind d0 d1 d2 d3) :)
@[simp] theorem State.trace_own (s : State) (kind d0 d1 d2 d3 : Nat) : (s.trace kind d0 d1 d2 d3).own = s.own := (congrArg State.own (s.trace_eq kind d0 d1 d2 d3) :)
@[simp] theorem State.trace_wd (s : State) (kind d0 d1 d2 d3 : Nat) : (s.trace kind d0 d1 d2 d3).wd = s.wd := (congrArg State.wd (s.trace_eq kind d0 d1 d2 d3) :)
@[simp] theorem State.trace_nvm (s : State) (kind d0 d1 d2 d3 : Nat) : (s.trace kind d0 d1 d2 d3).nvm = s.nvm := (congrArg State.nvm (s.trace_eq kind d0 d1 d2 d3) :)
@[simp] theorem State.trace_start (s : State) (kind d0 d1 d2 d3 : Nat) : (s.trace kind d0 d1 d2 d3).start = s.start := (congrArg State.start (s.trace_eq kind d0 d1 d2 d3) :)
@[simp] theorem State.trace_cfg (s : State) (kind d0 d1 d2 d3 : Nat) : (s.trace kind d0 d1 d2 d3).cfg = s.cfg := (congrArg State.cfg (s.trace_eq kind d0 d1 d2 d3) :)
@[simp] theorem State.trace_sched (s : State) (kind d0 d1 d2 d3 : Nat) : (s.trace kind d0 d1 d2 d3).sched = s.sched := (congrArg State.sched (s.trace_eq kind d0 d1 d2 d3) :)
@[simp] theorem State.trace_fresh (s : State) (kind d0 d1 d2 d3 : Nat) : (s.trace kind d0 d1 d2 d3).fresh = s.fresh := (congrArg State.fresh (s.trace_eq kind d0 d1 d2 d3) :)
@[simp] theorem State.trace_pending (s : State) (kind d0 d1 d2 d3 : Nat) : (s.trace kind d0 d1 d2 d3).pending = s.pending := (congrArg State.pending (s.trace_eq kind d0 d1 d2 d3) :)

/-! ### reply -/

@[simp] theorem State.reply_time (s : State) (t : Tkt) (r : Reply) : (s.reply t r).time = s.time := (congrArg State.time (s.reply_eq t r) :)
@[simp] theorem State.reply_ovr (s : State) (t : Tkt) (r : Reply) : (s.reply t r).ovr = s.ovr := (congrArg State.ovr (s.reply_eq t r) :)
@[simp] theorem State.reply_arb (s : State) (t : Tkt) (r : Reply) : (s.reply t r).arb = s.arb := (congrArg State.arb (s.reply_eq t r) :)
@[simp] theorem State.reply_ph (s : State) (t : Tkt) (r : Reply) : (s.reply t r).ph = s.ph := (congrArg State.ph (s.reply_eq t r) :)
@[simp] theorem State.reply_phd (s : State) (t : Tkt) (r : Reply) : (s.reply t r).phd = s.phd := (congrArg State.phd (s.reply_eq t r) :)
@[simp] theorem State.reply_rail (s : State) (t : Tkt) (r : Reply) : (s.reply t r).rail = s.rail := (congrArg State.rail (s.reply_eq t r) :)
@[simp] theorem State.reply_raild (s : State) (t : Tkt) (r : Reply) : (s.reply t r).raild = s.raild := (congrArg State.raild (s.reply_eq t r) :)
@[simp] theorem State.reply_region (s : State) (t : Tkt) (r : Reply) : (s.reply t r).region = s.region := (congrArg State.region (s.reply_eq t r) :)
@[simp] theorem State.reply_lend (s : State) (t : Tkt) (r : Reply) : (s.reply t r).lend = s.lend := (congrArg State.lend (s.reply_eq t r) :)
@[simp] theorem State.reply_gang (s : State) (t : Tkt) (r : Reply) : (s.reply t r).gang = s.gang := (congrArg State.gang (s.reply_eq t r) :)
@[simp] theorem State.reply_fc (s : State) (t : Tkt) (r : Reply) : (s.reply t r).fc = s.fc := (congrArg State.fc (s.reply_eq t r) :)
@[simp] theorem State.reply_orders (s : State) (t : Tkt) (r : Reply) : (s.reply t r).orders = s.orders := (congrArg State.orders (s.reply_eq t r) :)
@[simp] theorem State.reply_seq (s : State) (t : Tkt) (r : Reply) : (s.reply t r).seq = s.seq := (congrArg State.seq (s.reply_eq t r) :)
@[simp] theorem State.reply_feed (s : State) (t : Tkt) (r : Reply) : (s.reply t r).feed = s.feed := (congrArg State.feed (s.reply_eq t r) :)
@[simp] theorem State.reply_hk (s : State) (t : Tkt) (r : Reply) : (s.reply t r).hk = s.hk := (congrArg State.hk (s.reply_eq t r) :)
@[simp] theorem State.reply_pwr (s : State) (t : Tkt) (r : Reply) : (s.reply t r).pwr = s.pwr := (congrArg State.pwr (s.reply_eq t r) :)
@[simp] theorem State.reply_pack (s : State) (t : Tkt) (r : Reply) : (s.reply t r).pack = s.pack := (congrArg State.pack (s.reply_eq t r) :)
@[simp] theorem State.reply_therm (s : State) (t : Tkt) (r : Reply) : (s.reply t r).therm = s.therm := (congrArg State.therm (s.reply_eq t r) :)
@[simp] theorem State.reply_mseq (s : State) (t : Tkt) (r : Reply) : (s.reply t r).mseq = s.mseq := (congrArg State.mseq (s.reply_eq t r) :)
@[simp] theorem State.reply_conv (s : State) (t : Tkt) (r : Reply) : (s.reply t r).conv = s.conv := (congrArg State.conv (s.reply_eq t r) :)
@[simp] theorem State.reply_wd (s : State) (t : Tkt) (r : Reply) : (s.reply t r).wd = s.wd := (congrArg State.wd (s.reply_eq t r) :)
@[simp] theorem State.reply_nvm (s : State) (t : Tkt) (r : Reply) : (s.reply t r).nvm = s.nvm := (congrArg State.nvm (s.reply_eq t r) :)
@[simp] theorem State.reply_start (s : State) (t : Tkt) (r : Reply) : (s.reply t r).start = s.start := (congrArg State.start (s.reply_eq t r) :)
@[simp] theorem State.reply_cfg (s : State) (t : Tkt) (r : Reply) : (s.reply t r).cfg = s.cfg := (congrArg State.cfg (s.reply_eq t r) :)
@[simp] theorem State.reply_sched (s : State) (t : Tkt) (r : Reply) : (s.reply t r).sched = s.sched := (congrArg State.sched (s.reply_eq t r) :)
@[simp] theorem State.reply_fresh (s : State) (t : Tkt) (r : Reply) : (s.reply t r).fresh = s.fresh := (congrArg State.fresh (s.reply_eq t r) :)
@[simp] theorem State.reply_pending (s : State) (t : Tkt) (r : Reply) : (s.reply t r).pending = s.pending := (congrArg State.pending (s.reply_eq t r) :)

/-! ### takeTicket -/

@[simp] theorem State.takeTicket_time (s : State)  : (s.takeTicket ).time = s.time := (congrArg State.time (s.takeTicket_eq ) :)
@[simp] theorem State.takeTicket_ovr (s : State)  : (s.takeTicket ).ovr = s.ovr := (congrArg State.ovr (s.takeTicket_eq ) :)
@[simp] theorem State.takeTicket_arb (s : State)  : (s.takeTicket ).arb = s.arb := (congrArg State.arb (s.takeTicket_eq ) :)
@[simp] theorem State.takeTicket_ph (s : State)  : (s.takeTicket ).ph = s.ph := (congrArg State.ph (s.takeTicket_eq ) :)
@[simp] theorem State.takeTicket_phd (s : State)  : (s.takeTicket ).phd = s.phd := (congrArg State.phd (s.takeTicket_eq ) :)
@[simp] theorem State.takeTicket_rail (s : State)  : (s.takeTicket ).rail = s.rail := (congrArg State.rail (s.takeTicket_eq ) :)
@[simp] theorem State.takeTicket_raild (s : State)  : (s.takeTicket ).raild = s.raild := (congrArg State.raild (s.takeTicket_eq ) :)
@[simp] theorem State.takeTicket_region (s : State)  : (s.takeTicket ).region = s.region := (congrArg State.region (s.takeTicket_eq ) :)
@[simp] theorem State.takeTicket_lend (s : State)  : (s.takeTicket ).lend = s.lend := (congrArg State.lend (s.takeTicket_eq ) :)
@[simp] theorem State.takeTicket_gang (s : State)  : (s.takeTicket ).gang = s.gang := (congrArg State.gang (s.takeTicket_eq ) :)
@[simp] theorem State.takeTicket_fc (s : State)  : (s.takeTicket ).fc = s.fc := (congrArg State.fc (s.takeTicket_eq ) :)
@[simp] theorem State.takeTicket_orders (s : State)  : (s.takeTicket ).orders = s.orders := (congrArg State.orders (s.takeTicket_eq ) :)
@[simp] theorem State.takeTicket_seq (s : State)  : (s.takeTicket ).seq = s.seq := (congrArg State.seq (s.takeTicket_eq ) :)
@[simp] theorem State.takeTicket_feed (s : State)  : (s.takeTicket ).feed = s.feed := (congrArg State.feed (s.takeTicket_eq ) :)
@[simp] theorem State.takeTicket_hk (s : State)  : (s.takeTicket ).hk = s.hk := (congrArg State.hk (s.takeTicket_eq ) :)
@[simp] theorem State.takeTicket_pwr (s : State)  : (s.takeTicket ).pwr = s.pwr := (congrArg State.pwr (s.takeTicket_eq ) :)
@[simp] theorem State.takeTicket_pack (s : State)  : (s.takeTicket ).pack = s.pack := (congrArg State.pack (s.takeTicket_eq ) :)
@[simp] theorem State.takeTicket_therm (s : State)  : (s.takeTicket ).therm = s.therm := (congrArg State.therm (s.takeTicket_eq ) :)
@[simp] theorem State.takeTicket_mseq (s : State)  : (s.takeTicket ).mseq = s.mseq := (congrArg State.mseq (s.takeTicket_eq ) :)
@[simp] theorem State.takeTicket_conv (s : State)  : (s.takeTicket ).conv = s.conv := (congrArg State.conv (s.takeTicket_eq ) :)
@[simp] theorem State.takeTicket_own (s : State)  : (s.takeTicket ).own = s.own := (congrArg State.own (s.takeTicket_eq ) :)
@[simp] theorem State.takeTicket_ring (s : State)  : (s.takeTicket ).ring = s.ring := (congrArg State.ring (s.takeTicket_eq ) :)
@[simp] theorem State.takeTicket_wd (s : State)  : (s.takeTicket ).wd = s.wd := (congrArg State.wd (s.takeTicket_eq ) :)
@[simp] theorem State.takeTicket_nvm (s : State)  : (s.takeTicket ).nvm = s.nvm := (congrArg State.nvm (s.takeTicket_eq ) :)
@[simp] theorem State.takeTicket_start (s : State)  : (s.takeTicket ).start = s.start := (congrArg State.start (s.takeTicket_eq ) :)
@[simp] theorem State.takeTicket_cfg (s : State)  : (s.takeTicket ).cfg = s.cfg := (congrArg State.cfg (s.takeTicket_eq ) :)
@[simp] theorem State.takeTicket_sched (s : State)  : (s.takeTicket ).sched = s.sched := (congrArg State.sched (s.takeTicket_eq ) :)
@[simp] theorem State.takeTicket_fresh (s : State)  : (s.takeTicket ).fresh = s.fresh := (congrArg State.fresh (s.takeTicket_eq ) :)
@[simp] theorem State.takeTicket_pending (s : State)  : (s.takeTicket ).pending = s.pending := (congrArg State.pending (s.takeTicket_eq ) :)

end Sys2Proof.Machine
end

