-- ==== Sys2Proof/Laws/Ticket.lean ====
section
/-! SUPPORT. When the ticket engine reaches a ticket's own effect: `State.admits` and the checks that a row adds. -/

namespace Sys2Proof.Machine

@[simp] theorem failIf_false (r : Reply) : failIf false r = none := rfl

@[simp] theorem failIf_true (r : Reply) : failIf true r = some r := rfl

theorem firstFail_append (a b : List (Option Reply)) :
    firstFail (a ++ b) = match firstFail a with
      | some r => some r
      | none => firstFail b := by
  induction a with
  | nil => rfl
  | cons x a ih => cases x <;> simp [firstFail, ih]

theorem firstFail_none {l : List (Option Reply)} (h : l.all Option.isNone = true) : firstFail l = none := by
  induction l with
  | nil => rfl
  | cons x l ih =>
    simp only [List.all_cons, Bool.and_eq_true, Option.isNone_iff_eq_none] at h
    rw [h.1]
    exact ih h.2

theorem firstFail_isNone (l : List (Option Reply)) : (firstFail l).isNone = l.all Option.isNone := by
  induction l with
  | nil => rfl
  | cons x l ih => cases x <;> simp [firstFail, ih]

/-- Field ranges that all hold find no byte to blame. -/
theorem payBad_of_rng {t : Tkt} {row : OpRow} {rng : List (Nat × Bool)} (h : rng.all Prod.snd = true) :
    payBad t row rng = payBad t row [] := by
  have : rng.filter (fun x => !x.2) = [] := by
    simp only [List.filter_eq_nil_iff]
    intro x hx
    simpa using List.all_eq_true.mp h x hx
  simp [payBad, this]

/-- A ticket whose row adds only checks that pass has its effect. -/
theorem runTicket_admits {s : State} {t : Tkt} {key : Nat} {body : State → State} {own nb grant : Option Bool} {perm : Option Nat}
    {free : Bool} {rng : List (Nat × Bool)} {den pre post : List (Option Reply)} {bnd : Option Nat}
    (h : s.admits t key { own := own, nb := nb, perm := perm, grant := grant, free := free } = true)
    (hr : rng.all Prod.snd = true) (hd : den.all Option.isNone = true) (hp : pre.all Option.isNone = true)
    (hq : post.all Option.isNone = true) :
    runTicket t key s
      { own := own, nb := nb, perm := perm, grant := grant, rng := rng, den := den, pre := pre, post := post, free := free, bnd := bnd } body
      = .next (body s.takeTicket) := by
  obtain ⟨c, hc⟩ : ∃ c : TCheck, c = TCheck.mk own nb perm grant rng den pre post free bnd := ⟨_, rfl⟩
  rw [← hc]
  have h0 : ({ own := own, nb := nb, perm := perm, grant := grant, free := free } : TCheck)
      = { c with rng := [], den := [], pre := [], post := [], bnd := none } := by rw [hc]
  rw [h0] at h
  replace hr : c.rng.all Prod.snd = true := by rw [hc]; exact hr
  replace hd : c.den.all Option.isNone = true := by rw [hc]; exact hd
  replace hp : c.pre.all Option.isNone = true := by rw [hc]; exact hp
  replace hq : c.post.all Option.isNone = true := by rw [hc]; exact hq
  unfold State.admits at h
  unfold runTicket
  simp only [Bool.and_eq_true, decide_eq_true_eq, Bool.not_eq_true'] at h
  obtain ⟨⟨⟨hk, he⟩, hf⟩, hm⟩ := h
  rw [if_neg (by simp [hk]), he]
  cases hop : opRow t.op with
  | none => rw [hop] at hm; simp at hm
  | some row =>
    rw [hop] at hm
    simp only [Bool.and_eq_true, Bool.not_eq_true', Option.isNone_iff_eq_none] at hm
    obtain ⟨⟨h1, h2⟩, h3⟩ := hm
    rw [← Option.isNone_iff_eq_none, firstFail_isNone] at h1 h3
    have e1 : firstFail (headChecks s t row c) = none := by
      rw [← Option.isNone_iff_eq_none, firstFail_isNone]
      unfold headChecks at h1 ⊢
      rw [payBad_of_rng hr]
      simp only [List.all_append, Bool.and_eq_true] at h1 ⊢
      refine ⟨h1.1, ?_⟩
      split
      · rfl
      · exact hd
    have e3 : firstFail (tailChecks s t key row c) = none := by
      rw [← Option.isNone_iff_eq_none, firstFail_isNone]
      unfold tailChecks at h3 ⊢
      simp only [List.all_append, Bool.and_eq_true] at h3 ⊢
      exact ⟨⟨⟨h3.1.1.1, hp⟩, h3.1.2⟩, hq⟩
    simp [e1, h2, e3, hf]

end Sys2Proof.Machine
end

