-- ==== Sys2Proof/Tests/Slice0.lean ====
section
/-! SUPPORT. The model's own tests: a witness for the hypotheses of every statement, the worked cases of the spec on one step each, and an
ill-formed command for every check of WellFormed. -/

namespace Sys2Proof

open Machine

set_option Elab.async false

/-! The state and the tickets that the tests use. Device 0 of its own, head and keeper, both dies in service, an image in force;
rail 1 is in use with phases 8 to 15, of which 8 to 11 are ACTIVE; client 5 is the owner, with every permission. The next
boundary is one of a frame and of a round. -/

/-- A record with one field set. -/
def tSet (w hi lo v : Nat) : Nat := w - bits w hi lo * 2 ^ lo + v * 2 ^ lo

/-- Several fields of a record set. -/
def tSets (w : Nat) (l : List (Nat × Nat × Nat)) : Nat := l.foldl (fun w x => tSet w x.1 x.2.1 x.2.2) w

/-- Rail 1. -/
def tR : Rail := 1

/-- Phase 8. -/
def tP : Ph := 8

/-- The records of the image in force. -/
def tCfg : Cfg :=
  { railCfg := (Vector.replicate 12 dRailCfg).set 1 (dRailCfg + 1)
    regionCfg := (Vector.replicate 6 dRegionCfg).set 0 (tSet dRegionCfg 11 0 2)
    phCfg := Vector.ofFn fun (i : Fin 48) => if 8 ≤ i.val ∧ i.val < 16 then tSet dPhCfg 22 16 60 else dPhCfg
    phPool := Vector.ofFn fun (i : Fin 48) => if 8 ≤ i.val ∧ i.val < 16 then 1 else 0 }

/-- Client 5, whose entry has every permission and a grant for every region of device 0. -/
def tClient : Client := { id := 5, entry := 4 + 4 * 2 ^ 64 + 63 * 2 ^ 136 + 384 * 2 ^ 160, cached := true }

/-- The state. -/
def tS : State :=
  { time := { clk := 7999, counting := true }
    arb := { active := some .a, st := #v[.active, .standby] }
    ph := Vector.ofFn fun (i : Fin 48) => if 8 ≤ i.val ∧ i.val < 12 then { asg := some 1, st := .active, cycSt := .active } else if 12 ≤ i.val ∧ i.val < 16 then { asg := some 1, st := .idle } else {}
    rail := (Vector.replicate 12 {}).set 1 { st := .regulate, vset := 800, cmdOn := true }
    raild := Vector.replicate 2 ((Vector.replicate 12 {}).set 1 { st := .regulate, slew := 3200, iout := { num := 320 }, ioutF := { num := 320 } })
    host := { en := true, first := 0, cnt := 100, islA := true, islB := true, speed := 3, fetchOn := true, clients := [tClient] }
    own := { valid := true, port := 0, client := 5, epoch := 3, headDev := #v[some 0, none] }
    pwr := { vaonOk := true, supEn := true }
    feed := #v[{ st := .conducting, present := true, pairOn := true }, {}]
    start := { step := 8 }
    cfg := { cfg := tCfg, base := tCfg, plain := tCfg, inForce := some false } }

/-- A ticket of client 5: opcode, class and (bit, value) of its other fields. -/
def tk (op cls : Nat) (l : List (Nat × Nat)) : Tkt :=
  { client := 5, raw := op + 5 * 2 ^ 16 + cls * 2 ^ 42 + 9 * 2 ^ 48 + (l.map fun x => x.2 * 2 ^ x.1).sum }

/-- The same with a scatter list of one segment of 4,096 bytes. -/
def tkSg (op cls : Nat) (l : List (Nat × Nat)) : Tkt := { tk op cls ([(9, 1), (448, 1)] ++ l) with sgl := [4096 * 2 ^ 64] }

/-- The ticket stands first among the fetched ones. -/
def tQ (s : State) (t : Tkt) : State :=
  { s with host := { s.host with fetched := { client := t.client, raw := t.raw, ts := t.ts } :: s.host.fetched } }

/-! ### Witnesses: for every clause of a statement that has hypotheses, a state and operands that meet them together. -/

theorem test_hyp_QueueAndClockKept : ∃ (c : Instr) (s t : State), exec c s = .next t := ⟨.shipEffect, tS, tS, rfl⟩

theorem test_hyp_CommandsGo : ∃ c : Instr, c.wf = true := ⟨.voteFloor (tk 0x00 0 [(73, 2), (128, 3300)]), by decide +kernel⟩

theorem test_hyp_StaleGenerations_1 : ∃ (i : Instr) (t : Tkt) (k : Nat) (s : State), i.ticket = some (t, k) ∧ t.rowKey = k ∧ s.ready t = true ∧ s.isFwd t = false ∧
    t.gen ≠ (s.client t.client).gen := ⟨.setTarget (tk 0x01 0 [(32, 255)]), tk 0x01 0 [(32, 255)], 0x010, tQ tS (tk 0x01 0 [(32, 255)]), by decide +kernel⟩

theorem test_hyp_StaleGenerations_2 : ∃ (s u : State) (c w entry : Nat), s.tsPath c = true ∧ s.inRange c = true ∧ (u.client c).entryGen ≠ bits w 23 16 ∧
    u = (s.count 0x055 0 1).meetEntry c entry (some (bits w 23 16)) ∧ bits w 31 30 = 0 := ⟨tS, _, 5, 255 * 2 ^ 16, tClient.entry, by decide +kernel, by decide +kernel, by decide +kernel, rfl, by decide⟩

theorem test_hyp_StaleGenerations_3 : ∃ (s u : State) (c w entry : Nat), s.tsPath c = true ∧ s.inRange c = true ∧ (u.client c).entryGen ≠ bits w 23 16 ∧
    u = (s.count 0x055 0 1).meetEntry c entry (some (bits w 23 16)) ∧ bits w 31 30 = 1 := ⟨tS, _, 5, 2 ^ 30 + 2 ^ 16, tClient.entry, by decide +kernel, by decide +kernel, by decide +kernel, rfl, by decide⟩

theorem test_hyp_StaleGenerations_4 : ∃ (s u : State) (c w entry : Nat), s.tsPath c = true ∧ s.inRange c = true ∧ (u.client c).entryGen ≠ bits w 23 16 ∧
    u = (s.count 0x055 0 1).meetEntry c entry (some (bits w 23 16)) ∧ bits w 31 30 = 2 := ⟨tS, _, 5, 2 ^ 31 + 2 ^ 16, tClient.entry, by decide +kernel, by decide +kernel, by decide +kernel, rfl, by decide⟩

theorem test_hyp_OnlyTheOwner_1 : ∃ (i : Instr) (t : Tkt) (k : Nat) (row : OpRow) (s : State), i.ticket = some (t, k) ∧ t.rowKey = k ∧ opRow t.op = some row ∧
    (row.owner = true ∧ k ≠ 0xE00) ∧ s.isOwner t = false ∧ s.ready t = true :=
  ⟨.setTarget { tk 0x01 0 [] with client := 4 }, { tk 0x01 0 [] with client := 4 }, 0x010, _, tQ tS { tk 0x01 0 [] with client := 4 }, by decide +kernel, by decide +kernel, rfl, by decide +kernel⟩

theorem test_hyp_OnlyTheOwner_2 : ∃ (i : Instr) (t : Tkt) (row : OpRow) (s : State), i.ticket = some (t, 0x121) ∧ t.rowKey = 0x121 ∧ opRow t.op = some row ∧
    s.isOwner t = false ∧ s.ready t = true :=
  ⟨.forecastTrustSet { tk 0x12 1 [(144, 1)] with client := 4 }, { tk 0x12 1 [(144, 1)] with client := 4 }, _, tQ tS { tk 0x12 1 [(144, 1)] with client := 4 }, by decide +kernel, by decide +kernel, rfl, by decide +kernel⟩

theorem test_hyp_FusesStayBlown : ∃ (o : Fin 3 → OtpDie) (s t : State), (∀ d : Fin 3, (o d).le (s.otpDie d)) ∧ step s = .next t :=
  ⟨fun d => tS.otpDie d, tS, tS, fun _ => ⟨fun _ _ h => h, fun _ h => h⟩, rfl⟩

theorem test_hyp_VoltageTickets_1 : ∃ (s : State) (t : Tkt) (r : Rail), t.rail = some r ∧ s.admits t 0x000 {} = true ∧ (t.le 16 2 = 0 ∨ (250 ≤ t.le 16 2 ∧ t.le 16 2 ≤ 3300)) ∧
    (t.le 16 2 = 0 ∨ (s.floorClients r).contains t.client = true ∨ (s.floorClients r).length < 32) :=
  ⟨tQ tS (tk 0x00 0 [(73, 2), (128, 3300)]), tk 0x00 0 [(73, 2), (128, 3300)], tR, by decide +kernel⟩

theorem test_hyp_VoltageTickets_2 : ∃ (s : State) (t : Tkt) (r : Rail), t.rail = some r ∧ s.admits t 0x010 {} = true ∧ 250 ≤ t.le 16 2 ∧ t.le 16 2 ≤ 3300 ∧ RailCfg.avsEn (s.rcfg r) = false :=
  ⟨tQ tS (tk 0x01 0 [(73, 2), (128, 250)]), tk 0x01 0 [(73, 2), (128, 250)], tR, by decide +kernel⟩

theorem test_hyp_VoltageTickets_3 : ∃ (s : State) (t : Tkt) (r : Rail), t.rail = some r ∧ s.admits t 0x020 {} = true ∧ RailCfg.vminOwn (s.rcfg r) ≤ t.le 16 2 ∧ t.le 16 2 ≤ t.le 18 2 ∧
    t.le 18 2 ≤ RailCfg.vmaxOwn (s.rcfg r) := ⟨tQ tS (tk 0x02 0 [(73, 2), (128, 250), (144, 1100)]), tk 0x02 0 [(73, 2), (128, 250), (144, 1100)], tR, by decide +kernel⟩

/-- The state with FC_EN on rail 1. -/
def tFc : State := { tS with cfg := { tS.cfg with cfg := { tCfg with fcCfg := tCfg.fcCfg.set 1 (dFcCfg / 2 * 2 + 1) } } }

theorem test_hyp_ForecastTickets_1 : ∃ (s : State) (t : Tkt) (r : Rail), t.rail = some r ∧
    let di := sint 32 (t.le 20 4)
    let w := t.le 24 2
    let uc := min w (FcCfg.fcWmax (s.fccfg r))
    s.admits t 0x100 {} = true ∧ di ≠ 0 ∧ di.natAbs ≤ 115200 ∧ 4 ≤ w ∧ w ≤ 1023 ∧ FcCfg.fcEn (s.fccfg r) = true ∧ s.leads r = true ∧
      s.fcTimeBad (resolve s.time.clk (t.le 16 4)) uc = false ∧ (s.railAt r).st = .regulate ∧ (s.fcPending r).length < 8 ∧
      ((s.fcPending r).filter fun f => f.client == t.client).length < 2 ∧
      countP (fun x => x.1 == t.client && x.2 == r.val) s.fc.filed < FcCfg.fcRate (s.fccfg r) ∧ s.trustRoom t.client r.val = true :=
  ⟨tQ tFc (tk 0x10 0 [(73, 2), (128, 9000), (160, 115200), (192, 1023)]), tk 0x10 0 [(73, 2), (128, 9000), (160, 115200), (192, 1023)], tR, by decide +kernel⟩

theorem test_hyp_ForecastTickets_2 : ∃ (s : State) (t : Tkt) (r : Rail) (f : Fc), t.rail = some r ∧ s.admits t 0x110 {} = true ∧
    (s.fc.fcs.find? fun (f : Fc) => f.client == t.client && f.seq == t.le 16 2 && f.rail == r.val) = some f ∧ s.time.clk < f.ts :=
  ⟨tQ { tS with fc := { fcs := [{ client := 5, seq := 3, rail := 1, tstep := 9000, u := 4 }] } } (tk 0x11 0 [(73, 2), (128, 3)]), tk 0x11 0 [(73, 2), (128, 3)], tR, { client := 5, seq := 3, rail := 1, tstep := 9000, u := 4 }, by decide +kernel⟩

theorem test_hyp_ForecastTickets_3 : ∃ (s : State) (t : Tkt) (r : Rail), t.rail = some r ∧
    s.admits t 0x120 { own := some (t.le 16 2 != t.client), nb := some false } = true ∧ t.le 16 2 < 4096 ∧ t.byte 18 = 0 ∧ t.byte 19 = 0 := ⟨tQ tS (tk 0x12 1 [(73, 2), (128, 4095)]), tk 0x12 1 [(73, 2), (128, 4095)], tR, by decide +kernel⟩

theorem test_hyp_ForecastTickets_4 : ∃ (s : State) (t : Tkt) (r : Rail), t.rail = some r ∧ s.admits t 0x121 { own := some true } = true ∧ t.le 16 2 < 4096 ∧
    s.trustRoom (t.le 16 2) r.val = true :=
  ⟨tQ tS (tk 0x12 1 [(73, 2), (128, 5), (144, 1), (152, 64)]), tk 0x12 1 [(73, 2), (128, 5), (144, 1), (152, 64)], tR, by decide +kernel⟩

theorem test_hyp_BenchTickets_1 : ∃ (s : State) (t : Tkt) (p : Ph), s.admits t 0x510 {} = true ∧ t.phase = some p ∧ t.byte 16 = 0 ∧ t.byte 17 = 0 ∧
    ∀ r : Rail, s.railOfPh p = some r → s.usable p = true → s.benchWaits p = false → RailCfg.nmin (s.rcfg r) < (s.stayingOf r).length := ⟨tQ tS (tk 0x51 0 [(77, 9)]), tk 0x51 0 [(77, 9)], tP, by decide +kernel⟩

theorem test_hyp_BenchTickets_2 : ∃ (s : State) (t : Tkt) (r : Rail), s.admits t 0x511 { free := true } = true ∧ t.rail = some r ∧ t.byte 17 = 0 ∧ s.followsGang r = false ∧
    s.ring.benchedMe = false := ⟨tQ tS (tk 0x51 0 [(73, 2), (128, 1)]), tk 0x51 0 [(73, 2), (128, 1)], tR, by decide +kernel⟩

theorem test_hyp_BenchTickets_3 : ∃ (s : State) (t : Tkt) (d : Cd), s.admits t 0x512 {} = true ∧ dieOf t = d ∧ t.byte 17 ≤ 1 ∧ (s.arb.st[d.ix.val] = .standby ∨ s.arb.st[d.ix.val] = .benched) :=
  ⟨tQ tS (tk 0x51 0 [(128, 2), (136, 1)]), tk 0x51 0 [(128, 2), (136, 1)], .b, by decide +kernel⟩

theorem test_hyp_BenchTickets_4 : ∃ (s : State) (t : Tkt), s.admits t 0x515 { free := true } = true ∧ t.byte 17 = 0 ∧ (t.dev = s.ring.num ∨ (s.devAt t.dev).known = true) :=
  ⟨tQ tS (tk 0x51 0 [(128, 5)]), tk 0x51 0 [(128, 5)], by decide +kernel⟩

theorem test_hyp_ReadmitTickets_1 : ∃ (s : State) (t : Tkt) (p : Ph), s.admits t 0x520 {} = true ∧ t.phase = some p ∧ t.byte 16 = 0 ∧ t.byte 17 = 0 ∧ (s.phAt p).st = .benched ∧
    (s.phAt p).test = none :=
  ⟨tQ { tS with ph := tS.ph.set 8 { asg := some 1, st := .benched, benchCause := 6 } } (tk 0x52 0 [(77, 9)]), tk 0x52 0 [(77, 9)], tP, by decide +kernel⟩

theorem test_hyp_ReadmitTickets_2 : ∃ (s : State) (t : Tkt) (r : Rail), s.admits t 0x521 { free := true } = true ∧ t.rail = some r ∧ t.byte 17 = 0 ∧ (s.railAt r).benched.isSome = true ∧
    s.followsGang r = false ∧ s.ring.benchedMe = false ∧ (s.railAt r).ramp = none :=
  ⟨tQ { tS with rail := tS.rail.set 1 { benched := some 0 } } (tk 0x52 0 [(73, 2), (128, 1)]), tk 0x52 0 [(73, 2), (128, 1)], tR, by decide +kernel⟩

theorem test_hyp_ReadmitTickets_3 : ∃ (s : State) (t : Tkt), s.admits t 0x522 {} = true ∧ t.byte 17 ≤ 1 ∧ s.arb.st[(dieOf t).ix.val] = .benched ∧
    s.arb.active = some (dieOf t).other ∧ s.arb.voteQ = [] :=
  ⟨tQ { tS with arb := { tS.arb with st := #v[.active, .benched] } } (tk 0x52 0 [(128, 2), (136, 1)]), tk 0x52 0 [(128, 2), (136, 1)], by decide +kernel⟩

theorem test_hyp_ReadmitTickets_4 : ∃ (s : State) (t : Tkt), s.admits t 0x523 {} = true ∧ t.byte 17 = 0 ∧ s.chgBenched = true ∧ s.pack.missing = false ∧ s.pack.check = none :=
  ⟨tQ { tS with pack := { chg := .stopped } } (tk 0x52 0 [(128, 3)]), tk 0x52 0 [(128, 3)], by decide +kernel⟩

theorem test_hyp_ReadmitTickets_5 : ∃ (s : State) (t : Tkt) (r : Rail), s.admits t 0x524 { free := true } = true ∧ t.rail = some r ∧ t.byte 17 = 0 ∧ s.gang[r.val].role = .detached ∧
    s.gang[r.val].readmit = none ∧ s.ring.benchedMe = false :=
  ⟨tQ { tS with gang := tS.gang.set 1 { role := .detached }, cfg := { tS.cfg with cfg := { tCfg with railChain := tCfg.railChain.set 1 (dRailChain / 2 * 2 + 1) } } } (tk 0x52 0 [(73, 2), (128, 4)]), tk 0x52 0 [(73, 2), (128, 4)], tR,
    by decide +kernel⟩

theorem test_hyp_ReadmitTickets_6 : ∃ (s : State) (t : Tkt), s.admits t 0x525 { free := true } = true ∧ t.byte 17 = 0 ∧ (s.devAt t.dev).benched = true ∧ (s.devAt t.dev).check = none ∧
    roundOf s.time.clk ≤ (s.devAt t.dev).seen + 1 :=
  ⟨tQ { tS with ring := { devs := tS.ring.devs.set 63 { benched := true, known := true } } } (tk 0x52 0 [(64, 63), (128, 5)]), tk 0x52 0 [(64, 63), (128, 5)], by decide +kernel⟩

theorem test_hyp_ReadmitTickets_7 : ∃ (s : State) (t : Tkt) (k : OPort), s.admits t 0x526 { free := true } = true ∧ t.byte 17 = k.val ∧ (s.own.ports[k.val]).benched = true ∧
    (s.own.ports[k.val]).check = none ∧ s.ring.benchedMe = false :=
  ⟨tQ { tS with own := { tS.own with ports := tS.own.ports.set 3 { benched := true } } } (tk 0x52 0 [(128, 6), (136, 3)]), tk 0x52 0 [(128, 6), (136, 3)], 3, by decide +kernel⟩

theorem test_hyp_ReadmitTickets_8 : ∃ (s : State) (t : Tkt), s.admits t 0x530 {} = true ∧ s.standby.isSome = true ∧ s.arb.voteQ = [] := ⟨tQ tS (tk 0x53 0 []), tk 0x53 0 [], by decide +kernel⟩

/-- The state with programme 7, which is defined and has chain scope, and its run under way when `run` is set. -/
def tSeq (run : Bool) : State :=
  { tS with cfg := { tS.cfg with cfg := { tCfg with seqProg := tCfg.seqProg.set 7 (tSets dSeqProg [(7, 7, 1), (11, 11, 1)]) } }
            seq := if run then tS.seq.set 7 { st := .running, started := some 4000 } else tS.seq }

theorem test_hyp_SequenceTickets_1 : ∃ (s : State) (t : Tkt) (n : Prog), t.byte 16 = n.val ∧ s.admits t 0x400 {} = true ∧ SeqProg.defd (s.progcfg n) = true ∧
    s.cfg.inForce.isSome = true ∧ 8 ≤ s.start.step ∧ s.seqBusy n = false ∧ t.chain = false := ⟨tQ (tSeq false) (tk 0x40 0 [(128, 7)]), tk 0x40 0 [(128, 7)], 7, by decide +kernel⟩

theorem test_hyp_SequenceTickets_2 : ∃ (s : State) (t : Tkt) (n : Prog), t.byte 16 = n.val ∧ s.admits t 0x400 {} = true ∧ SeqProg.defd (s.progcfg n) = true ∧
    s.cfg.inForce.isSome = true ∧ 8 ≤ s.start.step ∧ s.seqBusy n = false ∧ t.chain = true ∧ SeqProg.chain (s.progcfg n) = true ∧ s.isFwd t = false :=
  ⟨tQ (tSeq false) (tk 0x40 0 [(10, 1), (128, 7)]), tk 0x40 0 [(10, 1), (128, 7)], 7, by decide +kernel⟩

theorem test_hyp_SequenceTickets_3 : ∃ (s : State) (t : Tkt) (n : Prog), t.byte 16 = n.val ∧ s.admits t 0x410 {} = true ∧ s.seq[n.val].running = true := ⟨tQ (tSeq true) (tk 0x41 0 [(128, 7)]), tk 0x41 0 [(128, 7)], 7, by decide +kernel⟩

theorem test_hyp_SequenceTickets_4 : ∃ (s : State) (t : Tkt) (n : Prog), t.byte 16 = n.val ∧ s.admits t 0x420 {} = true ∧ s.seq[n.val].running = true := ⟨tQ (tSeq true) (tk 0x42 0 [(128, 7)]), tk 0x42 0 [(128, 7)], 7, by decide +kernel⟩

theorem test_hyp_SequenceTickets_5 : ∃ (s : State) (t : Tkt) (k : Hk), t.byte 16 = k.val ∧ s.admits t 0x430 {} = true ∧ t.byte 17 < 2 ∧ HkCfg.en (s.hkcfg k) = true ∧ s.cfg.inForce.isSome = true :=
  ⟨tQ { tS with cfg := { tS.cfg with cfg := { tCfg with hkCfg := tCfg.hkCfg.set 13 (dHkCfg / 2 * 2 + 1) } } } (tk 0x43 0 [(128, 13), (136, 1)]), tk 0x43 0 [(128, 13), (136, 1)], 13, by decide +kernel⟩

theorem test_hyp_ClearTickets_1 : ∃ (s : State) (t : Tkt) (r : Rail), s.admits t 0x500 {} = true ∧ t.rail = some r ∧ bit (t.byte 16) 6 = false := ⟨tQ tS (tk 0x50 0 [(73, 2), (128, 0x3F)]), tk 0x50 0 [(73, 2), (128, 0x3F)], tR, by decide +kernel⟩

theorem test_hyp_ClearTickets_2 : ∃ (s : State) (t : Tkt) (r : Rail), s.admits t 0x500 {} = true ∧ t.rail = some r ∧ bit (t.byte 16) 6 = true ∧ (s.railAt r).snsFault = false :=
  ⟨tQ tS (tk 0x50 0 [(73, 2), (128, 0x40)]), tk 0x50 0 [(73, 2), (128, 0x40)], tR, by decide +kernel⟩

theorem test_hyp_ClearTickets_3 : ∃ (s : State) (t : Tkt) (r : Rail), s.admits t 0x500 {} = true ∧ t.rail = some r ∧ bit (t.byte 16) 6 = true ∧ (s.railAt r).snsFault = true ∧
    s.watching r = false := ⟨tQ { tS with rail := tS.rail.set 1 { st := .regulate, snsFault := true, snsLocal := true } } (tk 0x50 0 [(73, 2), (128, 0x7F)]), tk 0x50 0 [(73, 2), (128, 0x7F)], tR, by decide +kernel⟩

theorem test_hyp_ClearTickets_4 : ∃ (s : State) (t : Tkt), s.admits t 0x540 {} = true ∧ t.byte 16 < 76 := ⟨tQ tS (tk 0x54 0 [(128, 75)]), tk 0x54 0 [(128, 75)], by decide +kernel⟩

theorem test_hyp_ClearTickets_5 : ∃ (s : State) (t : Tkt), s.admits t 0x540 {} = true ∧ t.byte 16 = 255 := ⟨tQ tS (tk 0x54 0 [(128, 255)]), tk 0x54 0 [(128, 255)], by decide +kernel⟩

theorem test_hyp_ClearTickets_6 : ∃ (s : State) (t : Tkt), s.admits t 0x830 {} = true := ⟨tQ tS (tk 0x83 0 [(128, 0x3F)]), tk 0x83 0 [(128, 0x3F)], by decide +kernel⟩

theorem test_hyp_ClearTickets_7 : ∃ (s : State) (t : Tkt), s.admits t 0xA30 {} = true := ⟨tQ tS (tk 0xA3 0 [(128, 2 ^ 64 - 1)]), tk 0xA3 0 [(128, 2 ^ 64 - 1)], by decide +kernel⟩

/-- A pending WARN proposal for rail 1. -/
def tProp : Proposal := { num := 65535, kind := 0, target := 1, v1 := 30, v2 := 30, inside := true }

theorem test_hyp_MarginTickets_1 : ∃ (s : State) (t : Tkt) (x : Proposal), s.admits t 0x350 {} = true ∧ nvmFault s = none ∧ s.propAt (t.le 16 2) = some x ∧ s.valueOk s.cfg.cfg x.kind x.target x.v1 x.v2 = true :=
  ⟨tQ { tS with therm := { props := [tProp] } } (tk 0x35 0 [(128, 65535)]), tk 0x35 0 [(128, 65535)], tProp, by decide +kernel⟩

theorem test_hyp_MarginTickets_2 : ∃ (s : State) (t : Tkt), s.admits t 0x360 {} = true ∧ (s.propAt (t.le 16 2)).isSome = true :=
  ⟨tQ { tS with therm := { props := [tProp] } } (tk 0x36 0 [(128, 65535)]), tk 0x36 0 [(128, 65535)], by decide +kernel⟩

theorem test_hyp_MarginTickets_3 : ∃ (s : State) (t : Tkt), s.admits t 0x370 {} = true ∧ nvmFault s = none := ⟨tQ tS (tk 0x37 0 [(128, 1)]), tk 0x37 0 [(128, 1)], by decide +kernel⟩

theorem test_hyp_ReadTickets_1 : ∃ (s : State) (t : Tkt) (r : Rail), s.admits t 0x200 { free := true } = true ∧ subOk (t.byte 16) (t.byte 17) = true ∧ t.rail = some r ∧ t.byte 16 = 0 :=
  ⟨tQ tS (tk 0x20 1 [(73, 2)]), tk 0x20 1 [(73, 2)], tR, by decide +kernel⟩

theorem test_hyp_ReadTickets_2 : ∃ (s : State) (t : Tkt) (r : Rail), s.admits t 0x200 { free := true } = true ∧ subOk (t.byte 16) (t.byte 17) = true ∧ t.rail = some r ∧ t.byte 16 = 2 :=
  ⟨tQ tS (tk 0x20 1 [(73, 2), (128, 2)]), tk 0x20 1 [(73, 2), (128, 2)], tR, by decide +kernel⟩

theorem test_hyp_ReadTickets_3 : ∃ (s : State) (t : Tkt) (r : Rail), s.admits t 0x200 { free := true } = true ∧ subOk (t.byte 16) (t.byte 17) = true ∧ t.sg = true ∧ t.rail = some r ∧ t.byte 16 = 7 :=
  ⟨tQ tS (tkSg 0x20 1 [(73, 2), (128, 7)]), tkSg 0x20 1 [(73, 2), (128, 7)], tR, by decide +kernel⟩

theorem test_hyp_ReadTickets_4 : ∃ (s : State) (t : Tkt) (r : Rail), s.admits t 0x200 { free := true } = true ∧ subOk (t.byte 16) (t.byte 17) = true ∧ t.sg = true ∧ t.rail = some r ∧ t.byte 16 = 8 :=
  ⟨tQ tS (tkSg 0x20 1 [(73, 2), (128, 8)]), tkSg 0x20 1 [(73, 2), (128, 8)], tR, by decide +kernel⟩

theorem test_hyp_ReadTickets_5 : ∃ (s : State) (t : Tkt) (r : Rail), s.admits t 0x200 { free := true } = true ∧ subOk (t.byte 16) (t.byte 17) = true ∧ t.sg = true ∧ t.rail = some r ∧ t.byte 16 = 9 :=
  ⟨tQ tS (tkSg 0x20 1 [(73, 2), (128, 9)]), tkSg 0x20 1 [(73, 2), (128, 9)], tR, by decide +kernel⟩

theorem test_hyp_ReadTickets_6 : ∃ (s : State) (t : Tkt) (p : Ph), s.admits t 0x200 { free := true } = true ∧ subOk (t.byte 16) (t.byte 17) = true ∧ t.phase = some p ∧ t.byte 16 = 1 :=
  ⟨tQ tS (tk 0x20 1 [(77, 16), (128, 1)]), tk 0x20 1 [(77, 16), (128, 1)], 15, by decide +kernel⟩

theorem test_hyp_ReadTickets_7 : ∃ (s : State) (t : Tkt) (p : Ph), s.admits t 0x200 { free := true } = true ∧ subOk (t.byte 16) (t.byte 17) = true ∧ t.sg = true ∧ t.phase = some p ∧ t.byte 16 = 9 ∧
    t.rail = none := ⟨tQ tS (tkSg 0x20 1 [(77, 16), (128, 9)]), tkSg 0x20 1 [(77, 16), (128, 9)], 15, by decide +kernel⟩

theorem test_hyp_ReadTickets_8 : ∃ (s : State) (t : Tkt) (n : Prog), s.admits t 0x200 { free := true } = true ∧ subOk (t.byte 16) (t.byte 17) = true ∧ t.byte 16 = 3 ∧ t.byte 17 = n.val :=
  ⟨tQ tS (tk 0x20 1 [(128, 3), (136, 7)]), tk 0x20 1 [(128, 3), (136, 7)], 7, by decide +kernel⟩

theorem test_hyp_ReadTickets_9 : ∃ (s : State) (t : Tkt), s.admits t 0x200 { free := true } = true ∧ subOk (t.byte 16) (t.byte 17) = true ∧ t.byte 16 = 4 := ⟨tQ tS (tk 0x20 1 [(128, 4), (136, 1)]), tk 0x20 1 [(128, 4), (136, 1)], by decide +kernel⟩

theorem test_hyp_ReadTickets_10 : ∃ (s : State) (t : Tkt) (x : Src), s.admits t 0x200 { free := true } = true ∧ subOk (t.byte 16) (t.byte 17) = true ∧ t.byte 16 = 5 ∧ t.byte 17 = x.val :=
  ⟨tQ tS (tk 0x20 1 [(128, 5), (136, 75)]), tk 0x20 1 [(128, 5), (136, 75)], 75, by decide +kernel⟩

theorem test_hyp_ReadTickets_11 : ∃ (s : State) (t : Tkt), s.admits t 0x200 { free := true } = true ∧ subOk (t.byte 16) (t.byte 17) = true ∧ t.sg = true ∧ t.byte 16 = 6 := ⟨tQ tS (tkSg 0x20 1 [(128, 6)]), tkSg 0x20 1 [(128, 6)], by decide +kernel⟩

theorem test_hyp_ReadTickets_12 : ∃ (s : State) (t : Tkt), s.admits t 0x200 { free := true } = true ∧ subOk (t.byte 16) (t.byte 17) = true ∧ t.byte 16 = 10 := ⟨tQ tS (tk 0x20 1 [(128, 10)]), tk 0x20 1 [(128, 10)], by decide +kernel⟩

theorem test_hyp_ReadTickets_13 : ∃ (s : State) (t : Tkt), s.admits t 0x210 { perm := some 140, free := true } = true ∧ t.byte 16 = 4 ∧ t.le 20 4 = 1 ∧ t.le 24 4 ≤ min (t.le 20 4) (s.bulkWhole t 4) ∧
    t.chain = false := ⟨tQ tS (tkSg 0x21 2 [(128, 4), (160, 1)]), tkSg 0x21 2 [(128, 4), (160, 1)], by decide +kernel⟩

/-- A BULK_READ of everything with CHAIN. -/
def tBulk : Tkt := tkSg 0x21 2 [(10, 1), (128, 1), (160, 16777216)]

theorem test_hyp_ReadTickets_14 : ∃ (s : State) (t : Tkt), s.admits t 0x210 { free := true } = true ∧ t.byte 16 = 1 ∧ t.le 20 4 = 16777216 ∧ t.le 24 4 ≤ min (t.le 20 4) (s.bulkWhole t 1) ∧ t.chain = true ∧
    s.isFwd t = true := ⟨{ tS with host := { tS.host with fetched := [{ client := 5, raw := tBulk.raw, fwd := true }] } }, tBulk, by decide +kernel⟩

theorem test_hyp_ReadTickets_15 : ∃ (s : State) (t : Tkt), s.admits t 0x210 { free := true } = true ∧ t.byte 16 = 1 ∧ t.le 20 4 = 16777216 ∧ t.le 24 4 ≤ min (t.le 20 4) (s.bulkWhole t 1) ∧ t.chain = true ∧
    s.isFwd t = false := ⟨tQ tS tBulk, tBulk, by decide +kernel⟩

/-- A pending DERATE proposal for phase 8. -/
def tProp2 : Proposal := { num := 1, kind := 2, target := 8, v1 := 7 }

theorem test_hyp_ReadTickets_16 : ∃ (s : State) (t : Tkt), s.admits t 0x220 { free := true } = true ∧ t.le 16 2 = 65535 ∧ t.sg = true := ⟨tQ tS (tkSg 0x22 1 [(73, 2), (128, 65535)]), tkSg 0x22 1 [(73, 2), (128, 65535)], by decide +kernel⟩

theorem test_hyp_ReadTickets_17 : ∃ (s : State) (t : Tkt) (x : Proposal) (r : Rail), s.admits t 0x220 { free := true } = true ∧ t.le 16 2 ≠ 65535 ∧ t.rail = some r ∧
    (s.therm.props.find? fun y => y.num == t.le 16 2 && (y.kind != 2 && y.target == r.val)) = some x :=
  ⟨tQ { tS with therm := { props := [{ tProp with num := 65534 }] } } (tk 0x22 1 [(73, 2), (128, 65534)]), tk 0x22 1 [(73, 2), (128, 65534)], { tProp with num := 65534 }, tR, by decide +kernel⟩

theorem test_hyp_ReadTickets_18 : ∃ (s : State) (t : Tkt) (x : Proposal) (p : Ph), s.admits t 0x220 { free := true } = true ∧ t.le 16 2 ≠ 65535 ∧ t.rail = none ∧ t.phase = some p ∧
    (s.therm.props.find? fun y => y.num == t.le 16 2 && (y.kind == 2 && y.target == p.val)) = some x :=
  ⟨tQ { tS with therm := { props := [tProp2] } } (tk 0x22 1 [(77, 9), (128, 1)]), tk 0x22 1 [(77, 9), (128, 1)], tProp2, tP, by decide +kernel⟩

theorem test_hyp_ReadTickets_19 : ∃ (s : State) (t : Tkt), s.admits t 0x900 {} = true ∧ t.byte 16 = 0 := ⟨tQ tS (tk 0x90 1 []), tk 0x90 1 [], by decide +kernel⟩

theorem test_hyp_ReadTickets_20 : ∃ (s : State) (t : Tkt), s.admits t 0x900 {} = true ∧ t.byte 16 = 1 ∧ t.sg = true := ⟨tQ tS (tkSg 0x90 1 [(128, 1)]), tkSg 0x90 1 [(128, 1)], by decide +kernel⟩

theorem test_hyp_ReadTickets_21 : ∃ (s : State) (t : Tkt), s.admits t 0x900 {} = true ∧ t.byte 16 = 2 := ⟨tQ tS (tk 0x90 1 [(128, 2)]), tk 0x90 1 [(128, 2)], by decide +kernel⟩

theorem test_hyp_ReadTickets_22 : ∃ (s : State) (t : Tkt) (q : Fin 32), s.admits t 0x820 { free := true } = true ∧ t.byte 16 = 0 ∧ t.byte 17 = q.val ∧ t.sg = true :=
  ⟨tQ tS (tkSg 0x82 1 [(136, 31)]), tkSg 0x82 1 [(136, 31)], 31, by decide +kernel⟩

theorem test_hyp_ReadTickets_23 : ∃ (s : State) (t : Tkt) (c : Conv), s.admits t 0x820 { free := true } = true ∧ t.byte 16 = 1 ∧ t.byte 17 = c.ix.val := ⟨tQ tS (tk 0x82 1 [(128, 1), (136, 2)]), tk 0x82 1 [(128, 1), (136, 2)], .p, by decide +kernel⟩

theorem test_hyp_ReadTickets_24 : ∃ (s : State) (t : Tkt), s.admits t 0xA00 { free := true } = true ∧ 0 < cntCount (t.le 16 2) ∧ 1 ≤ t.byte 19 ∧ t.byte 19 ≤ 8 ∧ t.byte 18 + t.byte 19 ≤ cntCount (t.le 16 2) ∧
    t.byte 19 ≤ 2 := ⟨tQ tS (tk 0xA0 1 [(128, 0x054), (152, 2)]), tk 0xA0 1 [(128, 0x054), (152, 2)], by decide +kernel⟩

theorem test_hyp_ReadTickets_25 : ∃ (s : State) (t : Tkt), s.admits t 0xA00 { free := true } = true ∧ 0 < cntCount (t.le 16 2) ∧ 1 ≤ t.byte 19 ∧ t.byte 19 ≤ 8 ∧ t.byte 18 + t.byte 19 ≤ cntCount (t.le 16 2) ∧
    2 < t.byte 19 ∧ t.sg = true := ⟨tQ tS (tkSg 0xA0 1 [(128, 0x054), (152, 8)]), tkSg 0xA0 1 [(128, 0x054), (152, 8)], by decide +kernel⟩

theorem test_hyp_ReadTickets_26 : ∃ (s : State) (t : Tkt), s.admits t 0x750 {} = true := ⟨tQ tS (tk 0x75 1 []), tk 0x75 1 [], by decide +kernel⟩

theorem test_hyp_ReadTickets_27 : ∃ (s : State) (t : Tkt), s.admits t 0x630 {} = true := ⟨tQ tS (tk 0x63 1 []), tk 0x63 1 [], by decide +kernel⟩

theorem test_hyp_ImageTickets_1 : ∃ (s : State) (t : Tkt), s.admits t 0x300 {} = true ∧ 1 ≤ t.le 24 4 ∧ t.le 24 4 ≤ segSum t.segs ∧ t.le 24 4 ≤ 1048576 ∧ t.chain = false ∧
    s.poolOver (t.le 20 4 + t.le 24 4) = false ∧ s.commitWaits true = false ∧ nvmFault s = none := ⟨tQ tS { tkSg 0x30 2 [(160, 4096), (192, 1)] with data := [255] }, { tkSg 0x30 2 [(160, 4096), (192, 1)] with data := [255] }, by decide +kernel⟩

theorem test_hyp_ImageTickets_2 : ∃ (s : State) (t : Tkt) (fin : Nat), (match bundleOwn (Mem.writeList s.nvm.bundle (t.le 20 4) (t.data.take (t.le 24 4))) (max s.nvm.bundleLen (t.le 20 4 + t.le 24 4)) s.ring.num with
      | some (_, n) => n
      | none => 0) = fin ∧ s.admits t 0x300 {} = true ∧ 1 ≤ t.le 24 4 ∧ t.le 24 4 ≤ segSum t.segs ∧ t.le 24 4 ≤ 1048576 ∧ t.chain = true ∧ s.poolOver fin = false ∧ s.commitWaits true = false ∧
    nvmFault s = none ∧ s.isFwd t = true :=
  ⟨{ tS with host := { tS.host with fetched := [{ client := 5, raw := (tkSg 0x30 2 [(10, 1), (192, 1)]).raw, fwd := true }] } }, { tkSg 0x30 2 [(10, 1), (192, 1)] with data := [255] }, 0, by decide +kernel⟩

theorem test_hyp_ImageTickets_3 : ∃ (s : State) (t : Tkt) (fin : Nat), (match bundleOwn (Mem.writeList s.nvm.bundle (t.le 20 4) (t.data.take (t.le 24 4))) (max s.nvm.bundleLen (t.le 20 4 + t.le 24 4)) s.ring.num with
      | some (_, n) => n
      | none => 0) = fin ∧ s.admits t 0x300 {} = true ∧ 1 ≤ t.le 24 4 ∧ t.le 24 4 ≤ segSum t.segs ∧ t.le 24 4 ≤ 1048576 ∧ t.chain = true ∧ s.poolOver fin = false ∧ s.commitWaits true = false ∧
    nvmFault s = none ∧ s.isFwd t = false := ⟨tQ tS { tkSg 0x30 2 [(10, 1), (192, 1)] with data := [255] }, { tkSg 0x30 2 [(10, 1), (192, 1)] with data := [255] }, 0, by decide +kernel⟩

theorem test_hyp_ImageTickets_4 : ∃ (s : State) (t : Tkt), s.admits t 0x310 {} = true ∧ s.commitWaits true = false ∧ nvmFault s = none := ⟨tQ tS (tk 0x31 0 []), tk 0x31 0 [], by decide +kernel⟩

theorem test_hyp_ImageTickets_5 : ∃ (s : State) (t : Tkt), s.admits t 0x320 {} = true ∧ 1 ≤ t.le 24 4 ∧ t.le 24 4 ≤ segSum t.segs ∧ t.le 20 4 + t.le 24 4 ≤ 262144 ∧ s.commitWaits false = false :=
  ⟨tQ tS { tkSg 0x32 2 [(160, 262143), (192, 1)] with data := [255] }, { tkSg 0x32 2 [(160, 262143), (192, 1)] with data := [255] }, by decide +kernel⟩

theorem test_hyp_ImageTickets_6 : ∃ (s : State) (t : Tkt), s.admits t 0x330 {} = true ∧ t.byte 16 < 8 ∧ t.le 20 4 ≤ 262144 ∧ s.cfg.inForce.isSome = true ∧ s.commitWaits false = false ∧ nvmFault s = none :=
  ⟨tQ tS (tk 0x33 0 [(128, 7), (160, 262144)]), tk 0x33 0 [(128, 7), (160, 262144)], by decide +kernel⟩

/-- The state whose slot A carries overlay 7, with a second device. -/
def tOvl : State := { tS with nvm := { tS.nvm with ovlA := [(7, 16, Mem.writeList [] 4 [7])] }, ring := { devs := tS.ring.devs.set 1 { known := true } } }

theorem test_hyp_ImageTickets_7 : ∃ (s : State) (t : Tkt), s.admits t 0x340 {} = true ∧ t.byte 16 < 8 ∧ s.stored (t.byte 16) = true ∧ s.overBudget { nb := s.selectBeat t, per := .round, act := .overlaySelect (t.byte 16) none } = none ∧
    t.chain = false := ⟨tQ tOvl (tk 0x34 0 [(128, 7)]), tk 0x34 0 [(128, 7)], by decide +kernel⟩

theorem test_hyp_ImageTickets_8 : ∃ (s : State) (t : Tkt), s.admits t 0x340 {} = true ∧ t.byte 16 < 8 ∧ s.stored (t.byte 16) = true ∧ s.overBudget { nb := s.selectBeat t, per := .round, act := .overlaySelect (t.byte 16) none } = none ∧
    t.chain = true ∧ s.isFwd t = false ∧ (s.takeTicket).askedFor t = [] :=
  ⟨tQ { tOvl with ring := {} } (tk 0x34 0 [(10, 1), (128, 7)]), tk 0x34 0 [(10, 1), (128, 7)], by decide +kernel⟩

theorem test_hyp_ImageTickets_9 : ∃ (s : State) (t : Tkt), s.admits t 0x340 {} = true ∧ t.byte 16 < 8 ∧ s.stored (t.byte 16) = true ∧ s.overBudget { nb := s.selectBeat t, per := .round, act := .overlaySelect (t.byte 16) none } = none ∧
    t.chain = true ∧ s.isFwd t = false ∧ (s.takeTicket).askedFor t ≠ [] :=
  ⟨tQ tOvl (tk 0x34 0 [(10, 1), (128, 7)]), tk 0x34 0 [(10, 1), (128, 7)], by decide +kernel⟩

theorem test_hyp_OwnershipTickets_1 : ∃ (s : State) (t : Tkt), s.admits t 0x600 {} = true ∧ s.partFits t false = true ∧ t.byte 17 ≤ 3 := ⟨tQ tS (tk 0x60 0 [(136, 3)]), tk 0x60 0 [(136, 3)], by decide +kernel⟩

/-- The client with parts 0 to 2 of a signed ticket held. -/
def tParts (unlock : Bool) : State :=
  { tS with host := { tS.host with clients := [{ tClient with parts := [1, 2, 3], partSeq := 8, partKey := 3, partEpoch := 3, partNonce := 7, partUnlock := unlock }] } }

theorem test_hyp_OwnershipTickets_2 : ∃ (s : State) (t : Tkt), s.admits t 0x603 {} = true ∧ s.partFits t false = true ∧ t.byte 17 ≤ 3 ∧ nvmFault s = none :=
  ⟨tQ (tParts false) (tk 0x60 0 [(128, 3), (136, 3), (160, 3), (192, 7)]), tk 0x60 0 [(128, 3), (136, 3), (160, 3), (192, 7)], by decide +kernel⟩

theorem test_hyp_OwnershipTickets_3 : ∃ (s : State) (t : Tkt), s.admits t 0x610 {} = true ∧ t.le 20 4 = s.own.epoch ∧ (s.takeTicket).own.keeper = (s.takeTicket).ring.num := ⟨tQ tS (tk 0x61 0 [(160, 3)]), tk 0x61 0 [(160, 3)], by decide +kernel⟩

theorem test_hyp_OwnershipTickets_4 : ∃ (s : State) (t : Tkt), s.admits t 0x610 {} = true ∧ t.le 20 4 = s.own.epoch ∧ (s.takeTicket).own.keeper ≠ (s.takeTicket).ring.num :=
  ⟨tQ { tS with own := { tS.own with keeper := 1 } } (tk 0x61 0 [(160, 3)]), tk 0x61 0 [(160, 3)], by decide +kernel⟩

/-- A second head, device 1, whose port is eligible, as the keeper `n` has it. -/
def tHand (n : Nat) : State :=
  { tS with own := { tS.own with keeper := n, headDev := #v[some 0, some 1], cand := [1] }
            ring := { devs := tS.ring.devs.set 1 { known := true, head := true, range := some (200, 10), rangeRound := 1, svc := 1 } } }

theorem test_hyp_OwnershipTickets_5 : ∃ (s : State) (t : Tkt) (k : OPort) (c d : Nat), s.admits t 0x620 {} = true ∧ t.byte 16 = k.val ∧ t.le 20 4 = s.own.epoch ∧ s.candidate k = true ∧
    ¬ (s.own.valid = true ∧ s.own.port = k.val) ∧ (s.own.ports[k.val]).benched = false ∧ (s.own.ports[k.val]).remain = 0 ∧ s.own.pend = none ∧ nvmFault s = none ∧ s.own.epoch ≠ 2 ^ 32 - 1 ∧
    (s.takeTicket).own.keeper = (s.takeTicket).ring.num ∧ (s.takeTicket).portClient k = some c ∧ (s.takeTicket).portDev k = some d :=
  ⟨tQ (tHand 0) (tk 0x62 0 [(128, 1), (160, 3)]), tk 0x62 0 [(128, 1), (160, 3)], 1, 200, 1, by decide +kernel⟩

theorem test_hyp_OwnershipTickets_7 : ∃ (s : State) (t : Tkt) (k : OPort), s.admits t 0x620 {} = true ∧ t.byte 16 = k.val ∧ t.le 20 4 = s.own.epoch ∧ s.candidate k = true ∧
    ¬ (s.own.valid = true ∧ s.own.port = k.val) ∧ (s.own.ports[k.val]).benched = false ∧ (s.own.ports[k.val]).remain = 0 ∧ s.own.pend = none ∧ nvmFault s = none ∧ s.own.epoch = 2 ^ 32 - 1 :=
  ⟨tQ { tHand 0 with own := { (tHand 0).own with epoch := 2 ^ 32 - 1 } } (tk 0x62 0 [(128, 1), (160, 2 ^ 32 - 1)]), tk 0x62 0 [(128, 1), (160, 2 ^ 32 - 1)], 1, by decide +kernel⟩

theorem test_hyp_OwnershipTickets_6 : ∃ (s : State) (t : Tkt) (k : OPort), s.admits t 0x620 {} = true ∧ t.byte 16 = k.val ∧ t.le 20 4 = s.own.epoch ∧ s.candidate k = true ∧
    ¬ (s.own.valid = true ∧ s.own.port = k.val) ∧ (s.own.ports[k.val]).benched = false ∧ (s.own.ports[k.val]).remain = 0 ∧ s.own.pend = none ∧ nvmFault s = none ∧ s.own.epoch ≠ 2 ^ 32 - 1 ∧
    (s.takeTicket).own.keeper ≠ (s.takeTicket).ring.num := ⟨tQ (tHand 1) (tk 0x62 0 [(128, 1), (160, 3)]), tk 0x62 0 [(128, 1), (160, 3)], 1, by decide +kernel⟩

theorem test_hyp_WatchdogTickets_1 : ∃ (s : State) (t : Tkt) (k : Slot), t.byte 16 = k.val ∧ s.admits t 0x711 {} = true ∧ t.byte 17 = 1 ∧ t.le 18 2 ≠ 0 ∧ t.le 20 2 < 4096 ∧
    s.overBudget { nb := t.nbBeat s, per := .round, act := .wdArm k (t.le 18 2) (t.le 20 2) } = none := ⟨tQ tS (tk 0x71 0 [(128, 15), (136, 1), (144, 65535), (160, 4095)]), tk 0x71 0 [(128, 15), (136, 1), (144, 65535), (160, 4095)], 15, by decide +kernel⟩

theorem test_hyp_WatchdogTickets_2 : ∃ (s : State) (t : Tkt) (k : Slot), t.byte 16 = k.val ∧ s.admits t 0x710 {} = true ∧ t.le 20 2 < 4096 := ⟨tQ tS (tk 0x71 0 [(128, 15)]), tk 0x71 0 [(128, 15)], 15, by decide +kernel⟩

/-- Slot 15 armed for client 5 with a period of 2 rounds from beat 4,000, and a verdict of its period before. -/
def tWd : State := { tS with wd := { slots := tS.wd.slots.set 15 { armed := true, client := 5, period := 2, beg := 4000 }, verdicts := [{ slot := 15, beg := 0, fin := 4000 }] } }

theorem test_hyp_WatchdogTickets_3 : ∃ (s : State) (t : Tkt) (k : Slot), t.byte 16 = k.val ∧ s.admits t 0x700 {} = true ∧ (s.wd.slots[k.val]).armed = true ∧ (s.wd.slots[k.val]).client = t.client ∧
    (s.wd.slots[k.val]).beg ≤ t.ts ∧ t.ts < (s.wd.slots[k.val]).beg + 4000 * (s.wd.slots[k.val]).period := ⟨tQ tWd { tk 0x70 0 [(128, 15)] with ts := 11999 }, { tk 0x70 0 [(128, 15)] with ts := 11999 }, 15, by decide +kernel⟩

theorem test_hyp_WatchdogTickets_4 : ∃ (s : State) (t : Tkt) (k : Slot), t.byte 16 = k.val ∧ s.admits t 0x700 {} = true ∧ (s.wd.slots[k.val]).armed = true ∧ (s.wd.slots[k.val]).client = t.client ∧
    (s.wd.slots[k.val]).beg + 4000 * (s.wd.slots[k.val]).period ≤ t.ts := ⟨tQ tWd { tk 0x70 0 [(128, 15)] with ts := 12000 }, { tk 0x70 0 [(128, 15)] with ts := 12000 }, 15, by decide +kernel⟩

theorem test_hyp_WatchdogTickets_5 : ∃ (s : State) (t : Tkt) (k : Slot), t.byte 16 = k.val ∧ s.admits t 0x700 {} = true ∧ (s.wd.slots[k.val]).armed = true ∧ (s.wd.slots[k.val]).client = t.client ∧
    t.ts < (s.wd.slots[k.val]).beg := ⟨tQ tWd { tk 0x70 0 [(128, 15)] with ts := 3999 }, { tk 0x70 0 [(128, 15)] with ts := 3999 }, 15, by decide +kernel⟩

theorem test_hyp_WatchdogTickets_6 : ∃ (s : State) (t : Tkt) (c : Cal), s.admits t 0x720 {} = true ∧ t.le 16 2 = 2000 + c.year ∧ c.year < 200 ∧ t.byte 18 = c.month ∧ t.byte 19 = c.day ∧
    t.byte 20 = c.hour ∧ t.byte 21 = c.min ∧ t.byte 22 = c.sec ∧ 1 ≤ c.month ∧ c.month ≤ 12 ∧ 1 ≤ c.day ∧ c.day ≤ monthDays (2000 + c.year) c.month ∧ c.hour < 24 ∧ c.min < 60 ∧ c.sec < 60 :=
  ⟨tQ tS (tk 0x72 0 [(128, 2199), (144, 12), (152, 31), (160, 23), (168, 59), (176, 59)]), tk 0x72 0 [(128, 2199), (144, 12), (152, 31), (160, 23), (168, 59), (176, 59)], { year := 199, month := 12, day := 31, hour := 23, min := 59, sec := 59 }, by decide +kernel⟩

theorem test_hyp_WatchdogTickets_7 : ∃ (s : State) (t : Tkt), s.admits t 0x730 {} = true ∧ (sint 32 (t.le 16 4)).natAbs ≤ 32768 ∧ s.wd.shifting = false := ⟨tQ tS (tk 0x73 0 [(128, 2 ^ 32 - 32768)]), tk 0x73 0 [(128, 2 ^ 32 - 32768)], by decide +kernel⟩

theorem test_hyp_WatchdogTickets_8 : ∃ (s : State) (t : Tkt), s.admits t 0x740 {} = true ∧ t.le 16 4 ≤ 5529600 := ⟨tQ tS (tk 0x74 0 [(128, 5529600)]), tk 0x74 0 [(128, 5529600)], by decide +kernel⟩

theorem test_hyp_MeterTickets_1 : ∃ (s : State) (t : Tkt) (q : Fin 32), t.byte 16 = q.val ∧ 3 ≤ q.val ∧ s.admits t 0x800 {} = true ∧ MeterSeqCfg.defd (s.mcfg q) = true ∧
    s.overBudget { nb := t.nbBeat s, per := .frame, act := .meterStart q.val } = none :=
  ⟨tQ { tS with cfg := { tS.cfg with cfg := { tCfg with meterSeq := tCfg.meterSeq.set 31 (dMeterSeq / 2 * 2 + 1) } } } (tk 0x80 0 [(128, 31)]), tk 0x80 0 [(128, 31)], 31, by decide +kernel⟩

theorem test_hyp_MeterTickets_2 : ∃ (s : State) (t : Tkt) (q : Fin 32), t.byte 16 = q.val ∧ 3 ≤ q.val ∧ s.admits t 0x810 {} = true := ⟨tQ tS (tk 0x81 0 [(128, 3)]), tk 0x81 0 [(128, 3)], 3, by decide +kernel⟩

theorem test_hyp_MeterTickets_3 : ∃ (s : State) (t : Tkt), s.admits t 0xA10 {} = true ∧ 0 < cntCount (t.le 16 2) ∧ t.byte 18 < cntCount (t.le 16 2) ∧ t.byte 19 < cntCount (t.le 16 2) ∧ t.byte 20 < 4 :=
  ⟨tQ tS (tk 0xA1 0 [(128, 0x054), (144, 7), (152, 7), (160, 3)]), tk 0xA1 0 [(128, 0x054), (144, 7), (152, 7), (160, 3)], by decide +kernel⟩

theorem test_hyp_MeterTickets_4 : ∃ (s : State) (t : Tkt), s.admits t 0xA21 {} = true ∧ t.sg = true ∧ s.log.stream = none := ⟨tQ tS (tkSg 0xA2 2 [(128, 1)]), tkSg 0xA2 2 [(128, 1)], by decide +kernel⟩

theorem test_hyp_MeterTickets_5 : ∃ (s : State) (t : Tkt), s.admits t 0xA20 {} = true ∧ t.byte 16 = 0 ∧ (s.takeTicket).log.stream = none := ⟨tQ tS (tk 0xA2 2 []), tk 0xA2 2 [], by decide +kernel⟩

theorem test_hyp_MeterTickets_6 : ∃ (s : State) (t : Tkt) (ref : TkRef) (n off : Nat) (segs : List (Nat × Nat)), s.admits t 0xA20 {} = true ∧ t.byte 16 = 0 ∧
    (s.takeTicket).log.stream = some (ref, n, off, segs) := ⟨tQ { tS with log := { stream := some ({}, 9, 144, [(0, 4096)]) } } (tk 0xA2 2 []), tk 0xA2 2 [], {}, 9, 144, [(0, 4096)], by decide +kernel⟩

theorem test_hyp_PackTickets_1 : ∃ (s : State) (t : Tkt), s.admits t 0x910 {} = true ∧ t.le 16 2 ≤ 80 := ⟨tQ tS (tk 0x91 0 [(128, 80)]), tk 0x91 0 [(128, 80)], by decide +kernel⟩

theorem test_hyp_PackTickets_2 : ∃ (s : State) (t : Tkt), s.admits t 0x920 { nb := some false } = true ∧ t.byte 16 < 2 ∧ ¬ (s.pack.psw = .closed ∧ s.bothBelowRes = true) := ⟨tQ tS (tk 0x92 0 []), tk 0x92 0 [], by decide +kernel⟩

theorem test_hyp_PackTickets_3 : ∃ (s : State) (t : Tkt), s.admits t 0x921 { nb := some false } = true ∧ t.byte 16 < 2 := ⟨tQ tS (tk 0x92 0 [(128, 1)]), tk 0x92 0 [(128, 1)], by decide +kernel⟩

theorem test_hyp_PackTickets_4 : ∃ (s : State) (t : Tkt), s.admits t 0x930 {} = true ∧ ¬ (s.pack.psw = .closed ∧ s.bothBelowRes = true) := ⟨tQ tS (tk 0x93 0 [(128, 2)]), tk 0x93 0 [(128, 2)], by decide +kernel⟩

theorem test_hyp_PackTickets_5 : ∃ (s : State) (t : Tkt), s.admits t 0x931 {} = true ∧ ¬ (s.pack.psw = .closed ∧ s.bothBelowRes = true) := ⟨tQ tS (tk 0x93 0 [(128, 1)]), tk 0x93 0 [(128, 1)], by decide +kernel⟩

theorem test_hyp_PackTickets_6 : ∃ (s : State) (t : Tkt), s.admits t 0x940 {} = true ∧ t.byte 16 < 2 ∧ t.le 17 2 ≤ 1000 ∧ nvmFault s = none ∧ s.packOn = false := ⟨tQ tS (tk 0x94 0 [(136, 1000)]), tk 0x94 0 [(136, 1000)], by decide +kernel⟩

theorem test_hyp_PackTickets_7 : ∃ (s : State) (t : Tkt), s.admits t 0x940 {} = true ∧ t.byte 16 < 2 ∧ t.le 17 2 ≤ 1000 ∧ nvmFault s = none ∧ s.packOn = true :=
  ⟨tQ { tS with cfg := { tS.cfg with cfg := { tCfg with packCfg := #v[tSets dPackCfg [(1, 0, 1)]] } } } (tk 0x94 0 [(136, 1000)]), tk 0x94 0 [(136, 1000)], by decide +kernel⟩

theorem test_hyp_PackTickets_8 : ∃ (s : State) (t : Tkt), s.admits t 0x941 {} = true ∧ t.byte 16 < 2 ∧ nvmFault s = none ∧ s.packOn = false := ⟨tQ tS (tk 0x94 0 [(128, 1)]), tk 0x94 0 [(128, 1)], by decide +kernel⟩

theorem test_hyp_PackTickets_9 : ∃ (s : State) (t : Tkt), s.admits t 0x941 {} = true ∧ t.byte 16 < 2 ∧ nvmFault s = none ∧ s.packOn = true :=
  ⟨tQ { tS with cfg := { tS.cfg with cfg := { tCfg with packCfg := #v[tSets dPackCfg [(1, 0, 1)]] } } } (tk 0x94 0 [(128, 1)]), tk 0x94 0 [(128, 1)], by decide +kernel⟩

/-- What lets a FUSE_WRITE of row `r` on die `die` with DATA `data` through. -/
def tFuseOk (s : State) (t : Tkt) : Bool :=
  let die := t.byte 16
  let r := t.le 18 2
  let data := t.le 20 8
  let mine := provisionRow die r && (t.dev != s.ring.num || s.unprovisioned) && s.designated t.client
  s.admits t 0xE00 { own := if mine then some false else none } && decide (die < 3) && (if die = 2 then pRow r else ctlRow r) && !neverWritten r
    && (die == 2 || !domainI r || !s.lockBars r data) && (die != 2 || r != 0x41 || s.unprovisioned)
    && (!epochRow die r || (data != 0 && decide (s.own.epoch = 2 ^ 32 - 1) && ((fuseDies die r).all (fun d => s.rowHas d r data) || !s.noSlotLeft)))
    && (!cfgRow die r || (data != 0 && decide (s.nvm.cfgVer = 2 ^ 32 - 1))) && ((s.feed[0]).present || (s.feed[1]).present) && decide ((s.dieMax 2).getD 0 ≤ 500)
    && s.nvm.fuse.isNone && s.nvm.voiding.isNone && !s.pwr.powerFail

theorem test_hyp_SecurityTickets_1 : ∃ (s : State) (t : Tkt), tFuseOk s t = true ∧ ¬ (∀ d ∈ fuseDies (t.byte 16) (t.le 18 2), s.rowHas d (t.le 18 2) (t.le 20 8) = true) ∧
    (∀ d ∈ fuseDies (t.byte 16) (t.le 18 2), (s.otpDie d).read (t.le 18 2) = .blank ∨ (s.otpDie d).read (t.le 18 2) = .torn ∨ s.rowHas d (t.le 18 2) (t.le 20 8) = true) ∧
    (t.byte 16 ≠ 2 → t.le 18 2 = 0xEF → (s.takeTicket).lockWrong (t.le 20 8) = false) := ⟨tQ tS (tk 0xE0 0 [(128, 1), (144, 0x80), (160, 1)]), tk 0xE0 0 [(128, 1), (144, 0x80), (160, 1)], by decide +kernel⟩

theorem test_hyp_SecurityTickets_2 : ∃ (s : State) (t : Tkt), tFuseOk s t = true ∧ ∀ d ∈ fuseDies (t.byte 16) (t.le 18 2), s.rowHas d (t.le 18 2) (t.le 20 8) = true :=
  ⟨tQ { tS with nvm := { tS.nvm with otp := #v[{ rows := [(0x80, fusesOf 1)] }, { rows := [(0x80, fusesOf 1)] }, {}] } } (tk 0xE0 0 [(128, 0), (144, 0x80), (160, 1)]), tk 0xE0 0 [(128, 0), (144, 0x80), (160, 1)], by decide +kernel⟩

theorem test_hyp_SecurityTickets_3 : ∃ (s : State) (t : Tkt), s.admits t 0xE10 {} = true ∧ s.nvm.void = false ∧ s.nvm.keySector = true := ⟨tQ tS (tkSg 0xE1 1 [(128, 1)]), tkSg 0xE1 1 [(128, 1)], by decide +kernel⟩

theorem test_hyp_SecurityTickets_4 : ∃ (s : State) (t : Tkt), s.admits t 0xE20 {} = true ∧ s.partFits t true = true ∧ t.byte 17 ≤ 3 := ⟨tQ tS (tk 0xE2 0 [(136, 3)]), tk 0xE2 0 [(136, 3)], by decide +kernel⟩

theorem test_hyp_SecurityTickets_5 : ∃ (s : State) (t : Tkt) (e : Option Nat), s.admits t 0xE23 {} = true ∧ s.partFits t true = true ∧ t.byte 17 ≤ 3 ∧ nvmFault s = none ∧ s.nvm.fuse = none ∧ s.nvm.voiding = none ∧
    t.le 20 4 = s.own.epoch ∧ (let l := ((s.holdPart t true).client t.client).parts
      s.sigCheck [0x54, 0x58, 0x44, 0x55] (t.byte 17) (l.getD 0 0) (l.getD 1 0) (l.getD 2 0) (l.getD 3 0) (t.le 20 4) (t.le 24 8) = e) ∧
    (((s.takeTicket).dropParts t.client).queued t).nvm.void = true :=
  ⟨tQ { tParts true with nvm := { tS.nvm with void := true } } (tk 0xE2 0 [(128, 3), (136, 3), (160, 3), (192, 7)]), tk 0xE2 0 [(128, 3), (136, 3), (160, 3), (192, 7)], _, by decide +kernel, by decide +kernel, by decide +kernel, rfl, rfl, rfl, by decide +kernel, rfl, by decide +kernel⟩

theorem test_hyp_SecurityTickets_6 : ∃ (s : State) (t : Tkt) (e : Option Nat), s.admits t 0xE23 {} = true ∧ s.partFits t true = true ∧ t.byte 17 ≤ 3 ∧ nvmFault s = none ∧ s.nvm.fuse = none ∧ s.nvm.voiding = none ∧
    t.le 20 4 = s.own.epoch ∧ (let l := ((s.holdPart t true).client t.client).parts
      s.sigCheck [0x54, 0x58, 0x44, 0x55] (t.byte 17) (l.getD 0 0) (l.getD 1 0) (l.getD 2 0) (l.getD 3 0) (t.le 20 4) (t.le 24 8) = e) ∧
    (((s.takeTicket).dropParts t.client).queued t).nvm.void = false ∧ ((((s.takeTicket).dropParts t.client).queued t).otpDie 2).read 0x40 = .blank :=
  ⟨tQ (tParts true) (tk 0xE2 0 [(128, 3), (136, 3), (160, 3), (192, 7)]), tk 0xE2 0 [(128, 3), (136, 3), (160, 3), (192, 7)], _, by decide +kernel, by decide +kernel, by decide +kernel, rfl, rfl, rfl, by decide +kernel, rfl, by decide +kernel⟩

theorem test_hyp_SecurityTickets_7 : ∃ (s : State) (t : Tkt), t.rowKey = 4096 ∧ s.ready t = true ∧ (s.isFwd t = true ∨ t.gen = (s.client t.client).gen) := ⟨tQ tS (tk 0xFF 0 []), tk 0xFF 0 [], by decide +kernel⟩

/-- The state with phase 8 replaced. -/
def tPh (x : PhaseSt) : State := { tS with ph := tS.ph.set 8 x }

/-- The state with rail 1 replaced. -/
def tRl (x : RailSt) : State := { tS with rail := tS.rail.set 1 x }

/-- The state with rail 1 as Die A holds it replaced. -/
def tRd (x : RailDie) : State := { tS with raild := tS.raild.set 0 (tS.raild[0].set 1 x) }

theorem test_hyp_PhaseDetectors_1 : ∃ (s : State) (p : Ph), (s.phAt p).st ≠ .off := ⟨tS, tP, by decide +kernel⟩

theorem test_hyp_PhaseDetectors_2 : ∃ (s : State) (d : Cd) (p : Ph), (s.phAt p).st ≠ .off ∧ (s.phAt p).st = .active ∧ d = s.act ∧ (s.phAt p).limCyc = false := ⟨tS, .a, tP, by decide +kernel⟩

theorem test_hyp_PhaseDetectors_3 : ∃ (s : State) (d : Cd) (p : Ph), (s.phAt p).st ≠ .off ∧ (s.phAt p).st = .test ∧ d = s.act ∧ (s.phAt p).limCyc = false := ⟨tPh { asg := some 1, st := .test }, .a, tP, by decide +kernel⟩

theorem test_hyp_PhaseDetectors_4 : ∃ (s : State) (d : Cd) (p : Ph), (s.phAt p).st ≠ .off ∧ (s.phAt p).st = .active ∧ d = s.act ∧ PhCfg.ilimNeg (s.pcfg p) ≠ 0 := ⟨tS, .a, tP, by decide +kernel⟩

theorem test_hyp_PhaseDetectors_5 : ∃ (s : State) (d : Cd) (p : Ph) (r : Rail), (s.phAt p).st ≠ .off ∧ (s.phAt p).st = .active ∧ d = s.act ∧ s.railOfPh p = some r ∧
    PhCfg.deEn (s.pcfg p) = true ∧ (s.railAct r).light = true := ⟨tRd { st := .regulate, light := true }, .a, tP, tR, by decide +kernel⟩

theorem test_hyp_PhaseDetectors_6 : ∃ (s : State) (d : Cd) (p : Ph) (r : Rail), (s.phAt p).st ≠ .off ∧ (s.phAt p).st = .active ∧ d = s.act ∧ s.railOfPh p = some r ∧ (s.railAt r).st = .rampUp :=
  ⟨tRl { st := .rampUp }, .a, tP, tR, by decide +kernel⟩

theorem test_hyp_PhaseDetectors_7 : ∃ (s : State) (d : Cd) (p : Ph) (r : Rail), (s.phAt p).st ≠ .off ∧ (s.phAt p).st = .active ∧ d = s.act ∧ s.railOfPh p = some r ∧ (s.railAt r).st = .rampDown :=
  ⟨tRl { st := .rampDown }, .a, tP, tR, by decide +kernel⟩

theorem test_hyp_PhaseDetectors_8 : ∃ (s : State) (d : Cd) (p : Ph), (s.phAt p).st ≠ .off ∧ (s.phAt p).st = .test ∧ d = s.act ∧ PhCfg.ilimNeg (s.pcfg p) ≠ 0 :=
  ⟨tPh { asg := some 1, st := .test }, .a, tP, by decide +kernel⟩

theorem test_hyp_PhaseDetectors_9 : ∃ (s : State) (d : Cd) (p : Ph) (r : Rail) (y : Disch), (s.phAt p).st = .off ∧ s.railOfPh p = some r ∧ (s.railAt r).disch = some y ∧ y.start.isSome = true ∧
    d = s.act ∧ PhCfg.ilimNeg (s.pcfg p) ≠ 0 :=
  ⟨{ tPh { asg := some 1, st := .off } with rail := tS.rail.set 1 { disch := some { start := some 4000 } } }, .a, tP, tR, { start := some 4000 }, by decide +kernel⟩

theorem test_hyp_PhaseTestsAndMoves_1 : ∃ s : State, s.noRram = false ∧ s.bnd % 240000000 = 0 := ⟨{ tS with time := { clk := 239999999 } }, by decide +kernel⟩

theorem test_hyp_PhaseTestsAndMoves_2 : ∃ s : State, s.cfg.cfg.rotPeriod ≠ 0 ∧ s.bnd % (4000 * s.cfg.cfg.rotPeriod) = 0 := ⟨{ tS with time := { clk := 3999999 } }, by decide +kernel⟩

theorem test_hyp_PhaseTestsAndMoves_3 : ∃ (s : State) (p : Ph) (t : PhTest), (s.phAt p).test = some t ∧ t.live = false ∧ t.steered = none ∧ t.start + 128 ≤ s.bnd ∧ s.bnd % 32 = 0 ∧ s.staticOk p = false :=
  ⟨tPh { asg := some 1, st := .benched, test := some { start := 7872, bad := true } }, tP, { start := 7872, bad := true }, by decide +kernel⟩

theorem test_hyp_PhaseTestsAndMoves_4 : ∃ (s : State) (p : Ph) (t : PhTest), (s.phAt p).test = some t ∧ t.live = false ∧ t.steered = none ∧ t.start + 128 ≤ s.bnd ∧ s.bnd % 32 = 0 ∧ s.staticOk p = true ∧ s.steerLow p = false :=
  ⟨tPh { asg := some 1, st := .benched, test := some { start := 7872 } }, tP, { start := 7872 }, by decide +kernel⟩

theorem test_hyp_PhaseTestsAndMoves_5 : ∃ (s : State) (p : Ph) (t : PhTest), (s.phAt p).test = some t ∧ t.live = true ∧ 64 ≤ t.cycles :=
  ⟨tPh { asg := some 1, st := .test, test := some { live := true, cycles := 64 } }, tP, { live := true, cycles := 64 }, by decide +kernel⟩

theorem test_hyp_PhaseTestsAndMoves_6 : ∃ (s : State) (p : Ph) (m : Move), (s.phAt p).move = some m ∧ m.steered = true ∧ m.atBeat + RegionCfg.flxDt (s.phRegCfg p) + RegionCfg.flxOn (s.phRegCfg p) ≤ s.bnd ∧ s.benchDue p = false :=
  ⟨tPh { asg := none, st := .idle, move := some { src := 1, dst := 1, steered := true } }, tP, { src := 1, dst := 1, steered := true }, by decide +kernel⟩

theorem test_hyp_PhaseTestsAndMoves_7 : ∃ (s : State) (p : Ph) (t : PhTest), (s.phAt p).test = some t ∧ t.live = false ∧ t.steered = none ∧ t.start + 128 ≤ s.bnd ∧ s.bnd % 32 = 0 ∧ s.staticOk p = true ∧ s.steerLow p = true :=
  ⟨{ tPh { asg := some 1, st := .benched, test := some { start := 7872 } } with cfg := { tS.cfg with cfg := { tCfg with phPool := tCfg.phPool.set 8 17 } } }, tP, { start := 7872 }, by decide +kernel⟩

theorem test_hyp_PhaseTestsAndMoves_8 : ∃ (s : State) (p : Ph) (t : PhTest) (b : Nat), (s.phAt p).test = some t ∧ t.live = false ∧ t.steered = some b ∧
    b + (RegionCfg.flxDt (s.phRegCfg p) + RegionCfg.flxOn (s.phRegCfg p)) ≤ s.bnd ∧ s.staticOk p = true :=
  ⟨tPh { asg := some 1, st := .benched, test := some { start := 7872, steered := some 4000 } }, tP, { start := 7872, steered := some 4000 }, 4000, by decide +kernel⟩

theorem test_hyp_PhaseTestsAndMoves_9 : ∃ (s : State) (p : Ph) (m : Move), (s.phAt p).move = some m ∧ s.benchDue p = true :=
  ⟨{ tPh { asg := none, st := .idle, move := some { src := 1, dst := 1, steered := true } } with sched := [{ nb := 8000, per := .beat, act := .benchPhase 8 6 }] }, tP,
    { src := 1, dst := 1, steered := true }, by decide +kernel⟩

/-- The state with rail 1 a member of a gang of two, as `g` has it; RING_CFG takes its commands from slot 0 and its returns from slot 1 of the
west port; `first` says whether this device is its first member. -/
def tGang (first : Bool) (g : GangSt) : State :=
  { tS with gang := tS.gang.set 1 g
            ring := { links := #v[{}, { st := .up }], devs := tS.ring.devs.set 1 { known := true } }
            cfg := { tS.cfg with cfg := { tCfg with railChain := tCfg.railChain.set 1 (tSets dRailChain [(0, 0, 1), (6, 4, 2), (17, 8, if first then 64 else 65), (27, 18, if first then 65 else 64)]), ringCfg := #v[0xA1 * 2 ^ 72 + 0xF1 * 2 ^ 80] } } }

/-- A GANG packet of 57 bits with its CRC. -/
def tPkt (x : Nat) : Nat := x + crc7 x * 2 ^ 57

theorem test_hyp_GangLinks_1 : ∃ (s : State) (r : Rail) (m : GMem) (x : GangRx), s.ganged r = true ∧ s.gang[r.val].role = .deputy ∧ bit (s.gangEntry r false x) 5 = true ∧ bits x.pkt 63 57 = gangCrc x.pkt ∧
    (bits x.pkt 15 0 + 1) % 65536 = s.time.clk % 65536 ∧ s.memberBenched r m = false := ⟨tGang false { role := .deputy }, tR, 0, { pkt := tPkt 7998 }, by decide +kernel⟩

theorem test_hyp_GangLinks_2 : ∃ (s : State) (r : Rail) (m : GMem) (x : GangRx), s.ganged r = true ∧ s.gang[r.val].role = .follower ∧ bit (s.gangEntry r false x) 5 = true ∧ bits x.pkt 63 57 = gangCrc x.pkt ∧
    (bits x.pkt 15 0 + 1) % 65536 = s.time.clk % 65536 ∧ s.memberBenched r m = false := ⟨{ tGang false { role := .follower } with time := { clk := 65536, counting := true } }, tR, 0, { pkt := tPkt (2 ^ 55 + 65535) }, by decide +kernel⟩

theorem test_hyp_GangLinks_3 : ∃ (s : State) (r : Rail) (m : GMem) (x : GangRx), s.ganged r = true ∧ s.gang[r.val].role = .leader ∧ bit (s.gangEntry r true x) 5 = true ∧ bits x.pkt 63 57 = gangCrc x.pkt ∧
    (s.time.clk % 65536 + 65536 - bits x.pkt 15 0) % 65536 ≤ 2 ∧ m.val ≠ s.myIx r ∧ m.val < RailChain.size (s.rchain r) ∧ s.memberBenched r m = false :=
  ⟨tGang true { role := .leader }, tR, 1, { slot := 1, pkt := tPkt 7997 }, by decide +kernel⟩

theorem test_hyp_GangLinks_4 : ∃ (s : State) (r : Rail) (m : GMem) (x : GangRx), s.ganged r = true ∧ s.gang[r.val].role = .deputy ∧ bit (s.gangEntry r true x) 5 = true ∧ bits x.pkt 63 57 = gangCrc x.pkt ∧
    (s.time.clk % 65536 + 65536 - bits x.pkt 15 0) % 65536 ≤ 2 ∧ m.val ≠ s.myIx r ∧ m.val < RailChain.size (s.rchain r) ∧ s.memberBenched r m = false :=
  ⟨tGang false { role := .deputy }, tR, 0, { slot := 1, pkt := tPkt 7999 }, by decide +kernel⟩

theorem test_hyp_GangLinks_5 : ∃ (s : State) (r : Rail), s.ganged r = true ∧ s.gang[r.val].role = .deputy ∧ RailChain.missN (s.rchain r) ≤ s.gang[r.val].misses := ⟨tGang false { role := .deputy, miss := 3 }, tR, by decide +kernel⟩

theorem test_hyp_GangLinks_6 : ∃ (s : State) (r : Rail), s.ganged r = true ∧ s.gang[r.val].role = .leader ∧ s.gang[r.val].noDep = false ∧ RailChain.missN (s.rchain r) ≤ s.gang[r.val].retMisses :=
  ⟨tGang true { role := .leader, retMiss := 3 }, tR, by decide +kernel⟩

theorem test_hyp_GangLinks_7 : ∃ (s : State) (r : Rail), s.ganged r = true ∧ s.gang[r.val].role = .follower ∧ RailChain.missN (s.rchain r) ≤ s.gang[r.val].misses := ⟨tGang false { role := .follower, miss := 3 }, tR, by decide +kernel⟩

theorem test_hyp_GangLinks_8 : ∃ (s : State) (r : Rail) (b : Nat), s.ganged r = true ∧ s.gang[r.val].role = .follower ∧ s.gang[r.val].holdFrom = some b ∧ s.gang[r.val].got = false ∧
    b + RailChain.hold (s.rchain r) ≤ s.bnd := ⟨tGang false { role := .follower, holdFrom := some 7988 }, tR, 7988, by decide +kernel⟩

theorem test_hyp_GangLinks_9 : ∃ (s : State) (r : Rail) (ref : TkRef), s.ganged r = true ∧ s.gang[r.val].readmit = some ref := ⟨tGang false { role := .detached, readmit := some {} }, tR, {}, by decide +kernel⟩

theorem test_hyp_GangLinks_10 : ∃ (s : State) (r : Rail) (x : GangRx), s.ganged r = true ∧ bit (s.gangEntry r true x) 5 = false := ⟨tGang true { role := .leader }, tR, { slot := 2 }, by decide +kernel⟩

theorem test_hyp_GangLinks_11 : ∃ (s : State) (r : Rail) (m : GMem) (x : GangRx), s.ganged r = true ∧ s.gang[r.val].role = .deputy ∧ bit (s.gangEntry r false x) 5 = true ∧ bits x.pkt 63 57 = gangCrc x.pkt ∧
    (bits x.pkt 15 0 + 1) % 65536 = s.time.clk % 65536 ∧ s.memberBenched r m = false ∧ bits x.pkt 15 0 % 32 = 31 :=
  ⟨{ tGang false { role := .deputy } with time := { clk := 8000, counting := true } }, tR, 0, { pkt := tPkt 7999 }, by decide +kernel⟩

theorem test_hyp_ArbiterEvidence_1 : ∃ (s : State) (d : Cd) (p : Ph) (r : Rail) (t : LaneTimes), s.railOfPh p = some r ∧ s.arb.active = some d ∧ (s.phAt p).st = .active ∧ (s.phAt p).cycSt = (s.phAt p).st ∧
    s.laneBlanked r = false ∧ s.laneDiffers r t = true ∧ s.arb.st[d.other.ix.val] ≠ .resync := ⟨tS, .a, tP, tR, { act := some 1001, twin := some 0 }, by decide +kernel⟩

theorem test_hyp_ArbiterEvidence_2 : ∃ (s : State) (lane : Nat), lane < 80 ∧ s.arb.active.isSome = true ∧ lane ∉ s.arb.gateOff := ⟨tS, 79, by decide +kernel⟩

theorem test_hyp_ArbiterEvidence_3 : ∃ (s : State) (lane : Nat), lane ∈ s.arb.gateOff := ⟨{ tS with arb := { tS.arb with gateOff := [79] } }, 79, by decide +kernel⟩

theorem test_hyp_ArbiterEvidence_4 : ∃ (s : State) (d : Cd), s.time.pllLocal[d.ix.val] = false := ⟨tS, .b, by decide +kernel⟩

theorem test_hyp_ArbiterEvidence_5 : ∃ (s : State) (d : Cd) (p : Ph) (r : Rail) (t : LaneTimes), s.railOfPh p = some r ∧ s.arb.active = some d ∧ (s.phAt p).st = .active ∧ (s.phAt p).cycSt = (s.phAt p).st ∧
    s.laneBlanked r = false ∧ s.laneDiffers r t = false := ⟨tS, .a, tP, tR, { act := some 1000, twin := some 0 }, by decide +kernel⟩

theorem test_hyp_ArbiterEvidence_6 : ∃ (s : State) (d : Cd) (p : Ph) (r : Rail), s.railOfPh p = some r ∧ s.arb.active = some d ∧ s.laneBlanked r = true :=
  ⟨tRl { st := .regulate, laneBlank := 7999 }, .a, tP, tR, by decide +kernel⟩

/-- The state with a LANE vote raised for rail 1, in which the dies' INTENT_CRC differ from Die P's as `x` has them. -/
def tVote (x : Vector Nat 2) : State := { tS with arb := { tS.arb with voteQ := [{ unit := 1, lane := true }], dieCrc := tS.arb.dieCrc.set 1 x } }

theorem test_hyp_VotesAndHandovers_1 : ∃ (s : State) (d o : Cd) (v : VoteReq) (rest : List VoteReq), s.arb.active = some d ∧ s.standby = some o ∧ s.arb.voteQ = v :: rest :=
  ⟨tVote #v[0, 1], .a, .b, { unit := 1, lane := true }, [], by decide +kernel⟩

theorem test_hyp_VotesAndHandovers_2 : ∃ (s : State) (d o : Cd), s.arb.active = some d ∧ s.standby = some o ∧ s.intentBad 1 d = false ∧ s.intentBad 1 o = true :=
  ⟨tVote #v[0, 1], .a, .b, by decide +kernel⟩

theorem test_hyp_VotesAndHandovers_3 : ∃ (s : State) (d o : Cd), s.arb.active = some d ∧ s.standby = some o ∧ s.intentBad 1 d = true ∧ s.intentBad 1 o = false :=
  ⟨tVote #v[1, 0], .a, .b, by decide +kernel⟩

theorem test_hyp_VotesAndHandovers_4 : ∃ (s : State) (d o : Cd), s.arb.active = some d ∧ s.standby = some o ∧ s.measBad d { unit := 1, lane := true } {} = s.measBad o { unit := 1, lane := true } {} :=
  ⟨tVote #v[0, 0], .a, .b, by decide +kernel⟩

theorem test_hyp_VotesAndHandovers_5 : ∃ (s : State) (d o : Cd) (cause det mask : Nat), s.arb.active = some d ∧ s.standby = some o ∧ s.arb.handover = some (cause, det, mask) :=
  ⟨{ tS with arb := { tS.arb with handover := some (0, 0, 0) } }, .a, .b, 0, 0, 0, by decide +kernel⟩

/-- The state with Die B readmitted, in state `x`, its observation begun at beat `b`. -/
def tDie (x : DieState) (b : Nat) : State := { tS with arb := { tS.arb with st := #v[.active, x], readmit := some (.b, {}, b) } }

theorem test_hyp_DieReadmission_1 : ∃ (s : State) (d : Cd) (ref : TkRef) (b : Nat), s.arb.readmit = some (d, ref, b) ∧ s.arb.st[d.ix.val] = .selftest := ⟨tDie .selftest 0, .b, {}, 0, by decide +kernel⟩

theorem test_hyp_DieReadmission_2 : ∃ (s : State) (d : Cd) (ref : TkRef) (b : Nat), s.arb.readmit = some (d, ref, b) ∧ b = 0 ∧ s.arb.st[d.ix.val] = .resync := ⟨tDie .resync 0, .b, {}, 0, by decide +kernel⟩

theorem test_hyp_DieReadmission_3 : ∃ (s : State) (d : Cd) (ref : TkRef) (b : Nat), s.arb.readmit = some (d, ref, b) ∧ 0 < b ∧ b + 544 ≤ s.bnd ∧ s.bnd % 32 = 0 := ⟨tDie .resync 7456, .b, {}, 7456, by decide +kernel⟩

theorem test_hyp_DieReadmission_4 : ∃ (s : State) (d : Cd) (ref : TkRef) (b : Nat), s.arb.readmit = some (d, ref, b) ∧ s.arb.testEnd = some true :=
  ⟨{ tDie .selftest 0 with arb := { (tDie .selftest 0).arb with testEnd := some true } }, .b, {}, 0, by decide +kernel⟩

theorem test_hyp_DieReadmission_5 : ∃ (s : State) (d : Cd) (ref : TkRef) (b : Nat), s.arb.readmit = some (d, ref, b) ∧ s.arb.testEnd = some false :=
  ⟨{ tDie .resync 0 with arb := { (tDie .resync 0).arb with testEnd := some false } }, .b, {}, 0, by decide +kernel⟩

theorem test_hyp_RailTimes_1 : ∃ (s : State) (r : Rail) (b : Nat), (s.railAt r).hiccupEnd = some b ∧ (s.railAt r).st = .hiccup ∧ b ≤ s.bnd := ⟨tRl { st := .hiccup, hiccupEnd := some 8000 }, tR, 8000, by decide +kernel⟩

theorem test_hyp_RailTimes_2 : ∃ (s : State) (r : Rail) (i : Fin s.orders.length) (w : Order), (s.railAt r).st = .regulate ∧ s.orderAt (s.orders[i]).idx = some w :=
  ⟨{ tS with orders := [{ idx := 48, used := 2, unit := 1 }], cfg := { tS.cfg with orders := [{ idx := 48, layer := 1, word := 0 }] } }, tR, ⟨0, by decide⟩, { idx := 48, layer := 1, word := 0 }, by decide +kernel⟩

theorem test_hyp_RailTimes_3 : ∃ (s : State) (r : Rail) (y : Disch) (b : Nat), (s.railAt r).disch = some y ∧ y.start = some b ∧ s.bnd % 32 = 0 ∧ 2 ≤ y.run := ⟨tRl { disch := some { start := some 4000, frames := 1000, run := 2 } }, tR, { start := some 4000, frames := 1000, run := 2 }, 4000, by decide +kernel⟩

theorem test_hyp_RailTimes_4 : ∃ (s : State) (r : Rail) (y : Disch) (b : Nat), (s.railAt r).disch = some y ∧ y.start = some b ∧ s.bnd % 32 = 0 ∧ b + 32 * y.frames ≤ s.bnd := ⟨tRl { disch := some { start := some 7968, frames := 1 } }, tR, { start := some 7968, frames := 1 }, 7968, by decide +kernel⟩

theorem test_hyp_RailTimes_5 : ∃ (s : State) (r : Rail) (y : Ramp), (s.railAt r).ramp = some y ∧ 16 ≤ y.good := ⟨tRl { st := .regulate, ramp := some { good := 16 } }, tR, { good := 16 }, by decide +kernel⟩

theorem test_hyp_RailTimes_6 : ∃ (s : State) (r : Rail) (y : Ramp), (s.railAt r).ramp = some y ∧ y.good < 16 ∧ y.limit ≤ s.bnd := ⟨tRl { st := .rampUp, ramp := some { good := 15, limit := 8000 } }, tR, { good := 15, limit := 8000 }, by decide +kernel⟩

theorem test_hyp_RailSamples_1 : ∃ (s : State) (r : Rail), s.railEn r = true := ⟨tS, tR, by decide +kernel⟩

theorem test_hyp_RailSamples_2 : ∃ (s : State) (r : Rail), s.railEn r = true ∧ s.trackBeat true = true ∧ s.compares r = true := ⟨{ tS with time := { clk := 8000 } }, tR, by decide +kernel⟩

theorem test_hyp_RailSamples_3 : ∃ (s : State) (r : Rail), s.railEn r = true ∧ s.trackBeat true = true ∧ s.compares r = false := ⟨{ tRl { st := .off } with time := { clk := 8000 } }, tR, by decide +kernel⟩

theorem test_hyp_RailSamples_4 : ∃ (s : State) (r : Rail), s.railEn r = true ∧ s.trackBeat false = true := ⟨{ tS with time := { clk := 8008 } }, tR, by decide +kernel⟩

theorem test_hyp_RailSamples_5 : ∃ (s : State) (r : Rail), s.railEn r = true ∧ s.trackBeat false = false := ⟨tS, tR, by decide +kernel⟩

theorem test_hyp_CatchAndSense_1 : ∃ (s : State) (d : Cd) (r : Rail) (c : CatchSt), (s.railDie d r).ctch = some c ∧ s.catchDue r c = true :=
  ⟨tRd { ctch := some { thr := 40, start := 7998, w1 := -19, w2 := -19 } }, .a, tR, { thr := 40, start := 7998, w1 := -19, w2 := -19 }, by decide +kernel⟩

theorem test_hyp_CatchAndSense_2 : ∃ (s : State) (d : Cd) (r : Rail) (b : Nat), (s.railDie d r).rearm = some b ∧ b ≤ s.bnd := ⟨tRd { rearm := some 8000 }, .a, tR, 8000, by decide +kernel⟩

theorem test_hyp_CatchAndSense_3 : ∃ (s : State) (r : Rail) (w : Watch), (s.railAt r).watch = some w ∧ s.bnd % 32 = 0 ∧ 16 ≤ w.good := ⟨tRl { st := .regulate, watch := some { good := 16, frames := 64 } }, tR, { good := 16, frames := 64 }, by decide +kernel⟩

theorem test_hyp_CatchAndSense_4 : ∃ (s : State) (r : Rail) (w : Watch), (s.railAt r).watch = some w ∧ s.bnd % 32 = 0 ∧ w.good < 16 ∧ 64 ≤ w.frames := ⟨tRl { st := .regulate, watch := some { good := 15, frames := 64 } }, tR, { good := 15, frames := 64 }, by decide +kernel⟩

/-- The state with rail 1 bound to AVSBus port 3, select 14, with the latest temperature of its phase 8 as `q` has it. -/
def tAvs (q : Option Int) : State :=
  { tS with cfg := { tS.cfg with cfg := { tCfg with railCfg := tCfg.railCfg.set 1 (tSets (dRailCfg + 1) [(2, 2, 1), (7, 6, 3), (11, 8, 14)]) } }, therm := { src := tS.therm.src.set 32 { s0 := q } } }

theorem test_hyp_AvsBus_1 : ∃ (s : State) (port : Avs) (sel v : Nat) (l : List Rail), s.avsRails port sel = l ∧ l ≠ [] ∧ 250 ≤ v ∧ v ≤ 3300 := ⟨tAvs none, 3, 15, 3300, [tR], by decide +kernel⟩

theorem test_hyp_AvsBus_2 : ∃ (s : State) (port : Avs) (sel : Nat), s.avsRails port sel = [] := ⟨tAvs none, 3, 13, by decide +kernel⟩

theorem test_hyp_AvsBus_3 : ∃ (s : State) (port : Avs) (sel : Nat) (r : Rail) (l : List Rail) (q : Int), sel ≠ 15 ∧ s.avsRails port sel = r :: l ∧
    maxTemp ((s.activeOf r).filterMap fun p => (s.therm.src[p.val + 24]'(by omega)).tq) = some q := ⟨tAvs (some 500), 3, 14, tR, [], 500, by decide +kernel⟩

theorem test_hyp_AvsBus_4 : ∃ (s : State) (port : Avs) (sel : Nat) (r : Rail) (l : List Rail), sel ≠ 15 ∧ s.avsRails port sel = r :: l ∧
    maxTemp ((s.activeOf r).filterMap fun p => (s.therm.src[p.val + 24]'(by omega)).tq) = none := ⟨tAvs none, 3, 14, tR, [], by decide +kernel⟩

/-- The state with a forecast of client 5 for rail 1 pending: TSTEP `b`, U 8. -/
def tFcst (b : Nat) : State := { tS with fc := { fcs := [{ client := 5, seq := 3, rail := 1, tstep := b, u := 8, wn := 255, head := 80 }] } }

theorem test_hyp_ForecastEvents_1 : ∃ (s : State) (c seq : Nat) (f : Fc), f ∈ s.fc.fcs ∧ f.client = c ∧ f.seq = seq ∧ f.rail = 1 ∧ f.ended = none ∧ f.ts = s.bnd ∧ s.fcHeads f s.bnd = true ∧ f.curtailed = false :=
  ⟨tFcst 8008, 5, 3, { client := 5, seq := 3, rail := 1, tstep := 8008, u := 8, wn := 255, head := 80 }, by decide +kernel⟩

theorem test_hyp_ForecastEvents_2 : ∃ (s : State) (c seq : Nat) (f : Fc), f ∈ s.fc.fcs ∧ f.client = c ∧ f.seq = seq ∧ f.te < s.bnd := ⟨tFcst 7991, 5, 3, { client := 5, seq := 3, rail := 1, tstep := 7991, u := 8, wn := 255, head := 80 }, by decide +kernel⟩

theorem test_hyp_ForecastEvents_3 : ∃ (s : State) (c seq : Nat) (f : Fc), (s.fc.fcs.find? fun (f : Fc) => f.client == c && f.seq == seq && f.ended.isNone) = some f ∧ f.scoreAt ≤ s.bnd :=
  ⟨tFcst 7980, 5, 3, { client := 5, seq := 3, rail := 1, tstep := 7980, u := 8, wn := 255, head := 80 }, by decide +kernel⟩

/-- The state with programme 7 in step 9, whose record is `w`, since beat `b`. -/
def tStep (w b : Nat) : State :=
  { tS with cfg := { tS.cfg with cfg := { tCfg with seqProg := tCfg.seqProg.set 7 (tSets dSeqProg [(6, 0, 9), (7, 7, 1)]), seqStep := tCfg.seqStep.set 9 w } }
            seq := tS.seq.set 7 { st := .running, step := 9, started := some b, parts := [0, 1] }, ring := { devs := tS.ring.devs.set 1 { known := true } } }

theorem test_hyp_SequenceTimes_1 : ∃ (s : State) (n : Prog) (b : Nat) (r : Rail), s.stepUntil n 1 (32 * SeqStep.arg (s.stepRec n)) = some b ∧ railOf (SeqStep.unit (s.stepRec n)) = some r ∧ b ≤ s.bnd ∧ s.risen r = false :=
  ⟨tStep (1 + 11 * 16 + 2 * 256) 7936, 7, 8000, 11, by decide +kernel⟩

theorem test_hyp_SequenceTimes_2 : ∃ (s : State) (n : Prog) (b : Nat), s.stepUntil n 3 (32 * SeqStep.arg (s.stepRec n)) = some b ∧ b ≤ s.bnd := ⟨tStep (3 + 2 * 256) 7936, 7, 8000, by decide +kernel⟩

theorem test_hyp_SequenceTimes_3 : ∃ (s : State) (n : Prog) (b : Nat) (r : Rail), s.stepUntil n 2 (32 * SeqProg.stallT (s.progcfg n)) = some b ∧ railOf (SeqStep.unit (s.stepRec n)) = some r ∧ b ≤ s.bnd ∧
    (s.seq[n.val]).stalled = false ∧ (s.railAt r).offAt < 2 := ⟨tStep (2 + 11 * 16) 0, 7, 8000, 11, by decide +kernel⟩

theorem test_hyp_SequenceTimes_4 : ∃ (s : State) (n : Prog) (b : Nat) (miss : List Nat), s.stepUntil n 5 (4000 * (SeqStep.arg (s.stepRec n) / 16)) = some b ∧ s.bnd ≥ b ∧ (s.seq[n.val]).stalled = false ∧
    s.barrierMiss n = miss ∧ miss ≠ [] := ⟨tStep (5 + 16 * 256) 4000, 7, 8000, [0, 1], by decide +kernel⟩

/-- The state with the feeds as `a` and `b` have them, Feed A preferred, for a device without hold. -/
def tFd (a b : FeedSt) : State := { tS with feed := #v[a, b], pwr := { tS.pwr with mode := 1 } }

theorem test_hyp_FeedEvents_1 : ∃ (s : State) (f : Feed), (s.feedAt f).pairOn = true ∧ s.prefFeed = some f := ⟨tFd { present := true, pairOn := true } {}, .a, by decide +kernel⟩

theorem test_hyp_FeedEvents_2 : ∃ (s : State) (f : Feed), (s.feedAt f).pairOn = false := ⟨tS, .b, by decide +kernel⟩

theorem test_hyp_FeedEvents_3 : ∃ (s : State) (f : Feed), (s.feedAt f).present = false ∧ (s.feedAt f).revOn = false ∧ ∀ b, (s.feedAt f).revAt = some b → b + 4000 ≤ s.time.clk :=
  ⟨tFd { revAt := some 3999 } {}, .a, by decide +kernel, by decide +kernel, fun b h => by cases h; decide +kernel⟩

theorem test_hyp_FeedEvents_4 : ∃ (s : State) (f : Feed), s.prefFeed = some f ∧ s.bnd % 4000 = 0 ∧ (s.feedAt f).present = true ∧ (s.feedAt f).pairOn = false ∧
    (s.feedAt f).presentFrom + 4000 * FeedCfg.retT s.fdcfg ≤ s.bnd ∧ s.feedsHeld = false := ⟨{ tFd { present := true, presentFrom := 0 } { present := true, pairOn := true } with time := { clk := 4000 * 100000 - 1, counting := true } }, .a, by decide +kernel⟩

theorem test_hyp_FeedEvents_5 : ∃ (s : State) (f : Feed), (s.feedAt f.other).present = false := ⟨tS, .a, by decide +kernel⟩

theorem test_hyp_FeedEvents_6 : ∃ (s : State) (k : Hk) (good : Bool), (s.hk[k.val]).on = true ∧ (s.hk[k.val]).good = false ∧
    (good = true ∨ ((s.hk[k.val]).ended = false ∧ (s.hk[k.val]).since + 1000 * 2 ^ HkCfg.ss (s.hkcfg k) ≤ s.bnd)) :=
  ⟨{ tS with hk := tS.hk.set 13 { on := true }, time := { clk := 131071999 } }, 13, false, by decide +kernel⟩

theorem test_hyp_FeedEvents_7 : ∃ (s : State) (f : Feed), (s.feedAt f).present = false ∧ (s.feedAt f).revOn = true := ⟨tFd { revOn := true } {}, .a, by decide +kernel⟩

theorem test_hyp_FeedEvents_8 : ∃ (s : State) (f : Feed) (b : Nat), (s.feedAt f).present = false ∧ (s.feedAt f).revAt = some b ∧ s.time.clk < b + 4000 := ⟨tFd { revAt := some 4000 } {}, .a, 4000, by decide +kernel⟩

/-- The state with a pack of 10 cells, PACK_CFG set accordingly. -/
def tPk (x : PackSt) : State := { tS with pack := x, cfg := { tS.cfg with cfg := { tCfg with packCfg := #v[tSets dPackCfg [(1, 0, 1)]], gaugeOcv := #v[(List.range 21).foldr (fun k a => 3000 + 20 * k + 65536 * a) 0] } } }

theorem test_hyp_PackEvents_1 : ∃ s : State, s.pack.psw = .armed ∧ s.packOn = true ∧ s.pack.revPosted = false := ⟨tPk {}, by decide +kernel⟩

theorem test_hyp_PackEvents_2 : ∃ (s : State) (b : Nat), s.pack.openEnd = some b := ⟨tPk { openEnd := some 8000 }, 8000, by decide +kernel⟩

theorem test_hyp_PackEvents_3 : ∃ (s : State) (n : Nat), (s.pack.chg = .precharge ∧ n = 240000000 * PackCfg.preT s.pkcfg) ∧ s.pack.toutPosted = false ∧ s.pack.stageFrom + n ≤ s.bnd :=
  ⟨{ tPk { chg := .precharge } with time := { clk := 240000000 * 255 - 1 } }, _, ⟨rfl, rfl⟩, by decide +kernel⟩

theorem test_hyp_PackEvents_4 : ∃ (s : State) (n : Nat), ((s.pack.chg = .fast ∨ s.pack.chg = .cv) ∧ n = 1200000000 * PackCfg.fastT s.pkcfg) ∧ s.pack.toutPosted = false ∧ s.pack.stageFrom + n ≤ s.bnd :=
  ⟨{ tPk { chg := .cv } with time := { clk := 1200000000 * 255 - 1 } }, _, ⟨Or.inr rfl, rfl⟩, by decide +kernel⟩

theorem test_hyp_PackEvents_5 : ∃ (s : State) (ref : TkRef), s.pack.check = some ref ∧ 16 ≤ s.pack.checkN ∧ s.pack.checkBad = true := ⟨tPk { check := some {}, checkN := 16, checkBad := true }, {}, by decide +kernel⟩

theorem test_hyp_PackEvents_6 : ∃ (s : State) (ref : TkRef), s.pack.check = some ref ∧ 16 ≤ s.pack.checkN ∧ s.pack.checkBad = false := ⟨tPk { check := some {}, checkN := 16 }, {}, by decide +kernel⟩

theorem test_hyp_PackEvents_7 : ∃ (s : State) (v : Q) (soc : Nat) (u : State), s.packOn = true ∧ s.pack.restN ≠ 0 ∧ s.pack.restN % 1200000 = 0 ∧ s.pack.missing = false ∧ s.pack.vMean = some v ∧
    s.ocvSoc (Q.divN v (max 1 s.cells)) = (soc, false, u) := ⟨tPk { restN := 1200000, vMean := some { num := 3010 * max 1 (tPk {}).cells } }, { num := 3010 * max 1 (tPk {}).cells }, 25, _, by decide +kernel, by decide +kernel, by decide +kernel, rfl, rfl, rfl⟩

theorem test_hyp_PackEvents_8 : ∃ (s : State) (v : Q) (soc : Nat) (u : State), s.packOn = true ∧ s.pack.restN ≠ 0 ∧ s.pack.restN % 1200000 = 0 ∧ s.pack.missing = false ∧ s.pack.vMean = some v ∧
    s.ocvSoc (Q.divN v (max 1 s.cells)) = (soc, true, u) :=
  ⟨{ tPk { restN := 1200000, vMean := some {} } with cfg := { tS.cfg with cfg := { tCfg with packCfg := #v[tSets dPackCfg [(1, 0, 1)]], gaugeOcv := #v[0] } } }, {}, 0, _, by decide +kernel, by decide +kernel, by decide +kernel, rfl, rfl, rfl⟩

theorem test_hyp_PackEvents_9 : ∃ s : State, s.packOn = true ∧ s.bnd % 240000000 = 0 ∧ s.noRram = false := ⟨{ tPk {} with time := { clk := 239999999 } }, by decide +kernel⟩

theorem test_hyp_PackEvents_10 : ∃ s : State, s.pack.chg = .precharge ∨ s.pack.chg = .fast ∨ s.pack.chg = .cv := ⟨tPk { chg := .cv }, by decide +kernel⟩

theorem test_hyp_ButtonAndShip_1 : ∃ (s : State) (b : Nat), s.pack.hold = some b ∧ b + 7840000 ≤ s.time.clk := ⟨{ tS with pack := { hold := some 0 }, time := { clk := 7840000 } }, 0, by decide +kernel⟩

theorem test_hyp_ButtonAndShip_2 : ∃ s : State, s.pack.ship = true := ⟨{ tS with pack := { ship := true } }, by decide +kernel⟩

theorem test_hyp_ButtonAndShip_3 : ∃ s : State, s.pack.shipIn = true := ⟨{ tS with pack := { shipIn := true } }, by decide +kernel⟩

theorem test_hyp_ButtonAndShip_4 : ∃ s : State, s.pwr.vaonOk = true := ⟨tS, by decide +kernel⟩

/-- The state with client 5 as `x` has it. -/
def tCl (x : Client) : State := { tS with host := { tS.host with clients := [x] } }

theorem test_hyp_Turnstiles_1 : ∃ (s u : State) (c w entry : Nat), s.tsPath c = true ∧ s.inRange c = true ∧ u = (s.count 0x055 0 1).meetEntry c entry (some (bits w 23 16)) ∧ bits w 29 24 = 0 ∧
    (u.client c).bad = false ∧ (u.client c).entryGen = bits w 23 16 ∧ bits w 31 30 = 0 ∧ (u.client c).genPend = none ∧ (bits w 15 0 + 2 ^ 16 - (u.client c).tktHead) % 2 ^ 16 ≤ (u.client c).tktSize :=
  ⟨tCl { tClient with tktHead := 65535 }, _, 5, 15, 0, by decide +kernel, by decide +kernel, rfl, by decide +kernel⟩

theorem test_hyp_Turnstiles_2 : ∃ (s u : State) (c w entry : Nat), s.tsPath c = true ∧ s.inRange c = true ∧ u = (s.count 0x055 0 1).meetEntry c entry (some (bits w 23 16)) ∧ bits w 29 24 = 0 ∧
    (u.client c).bad = false ∧ (u.client c).entryGen = bits w 23 16 ∧ bits w 31 30 = 1 ∧ (u.client c).genPend = none ∧
    (bits w 15 0 + 2 ^ 16 - (u.client c).stubHead) % 2 ^ 16 ≤ ((u.client c).stubTail + 2 ^ 16 - (u.client c).stubHead) % 2 ^ 16 :=
  ⟨tCl { tClient with stubHead := 65535, stubTail := 3 }, _, 5, 2 ^ 30 + 3, 0, by decide +kernel, by decide +kernel, rfl, by decide +kernel⟩

theorem test_hyp_Turnstiles_3 : ∃ (s u : State) (c w entry : Nat), s.tsPath c = true ∧ s.inRange c = true ∧ u = (s.count 0x055 0 1).meetEntry c entry (some (bits w 23 16)) ∧ bits w 29 24 = 0 ∧
    bits w 31 30 = 2 ∧ (u.client c).bad = false ∧ (u.client c).entryGen = bits w 23 16 ∧ u.ownerHere c = true ∧ u.own.gen = bits w 23 16 ∧ isWindow c = false ∧
    (bits w 15 0 + 2 ^ 16 - (u.evIdx c).1) % 2 ^ 16 ≤ ((u.evIdx c).2 + 2 ^ 16 - (u.evIdx c).1) % 2 ^ 16 :=
  ⟨{ tS with host := { tS.host with evTail := 9 } }, _, 5, 2 ^ 31 + 9, 0, by decide +kernel, by decide +kernel, rfl, by decide +kernel⟩

theorem test_hyp_Turnstiles_4 : ∃ (s : State) (c w : Nat), s.tsPath c = true ∧ s.inRange c = false ∧ bits w 31 30 = 0 := ⟨tS, 100, 1, by decide +kernel⟩

theorem test_hyp_Turnstiles_5 : ∃ (s : State) (c gen : Nat), s.tsPath c = true ∧ (s.client c).genPend = some gen ∧ s.own.valid = false := ⟨{ tCl { tClient with genPend := some 1 } with own := {} }, 5, 1, by decide +kernel⟩

theorem test_hyp_Turnstiles_6 : ∃ (s : State) (c gen : Nat), s.tsPath c = true ∧ (s.client c).gen ≠ gen := ⟨tS, 5, 255, by decide +kernel⟩

theorem test_hyp_Turnstiles_7 : ∃ (s : State) (c gen : Nat), s.tsPath c = true ∧ (s.client c).gen = gen ∧ (s.client c).genPend ≠ none := ⟨tCl { tClient with genPend := some 1 }, 5, 0, by decide +kernel⟩

theorem test_hyp_FetchAndAnswer_1 : ∃ (s u : State) (c entry : Nat), s.host.fetchOn = true ∧ s.inRange c = true ∧ s.tsPath c = true ∧ s.engineStopped = false ∧ s.fetchTurn c = true ∧ u = (s.meetEntry c entry none).modClient c Client.dropIdle ∧
    (u.client c).bad = false ∧ (u.client c).genPend = none ∧ (u.client c).noFetch = false ∧ u.stubHeld c = false ∧ ((u.client c).tktTail + 2 ^ 16 - (u.client c).tktHead) % 2 ^ 16 = 0 :=
  ⟨tS, _, 5, 0, by decide +kernel, by decide +kernel, by decide +kernel, by decide +kernel, by decide +kernel, rfl, by decide +kernel⟩

theorem test_hyp_FetchAndAnswer_2 : ∃ (s u : State) (c entry : Nat), s.host.fetchOn = true ∧ s.inRange c = true ∧ s.tsPath c = true ∧ s.engineStopped = false ∧ s.fetchTurn c = true ∧ u = (s.meetEntry c entry none).modClient c Client.dropIdle ∧
    (u.client c).bad = false ∧ (u.client c).genPend = none ∧ (u.client c).noFetch = false ∧ u.stubHeld c = false ∧ isWindow c = false ∧ ((u.client c).tktTail + 2 ^ 16 - (u.client c).tktHead) % 2 ^ 16 = 9 :=
  ⟨tCl { tClient with tktHead := 65535, tktTail := 8 }, _, 5, 0, by decide +kernel, by decide +kernel, by decide +kernel, by decide +kernel, by decide +kernel, rfl, by decide +kernel⟩

theorem test_hyp_FetchAndAnswer_8 : ∃ (s u : State) (c entry : Nat), s.host.fetchOn = true ∧ s.inRange c = true ∧ s.tsPath c = true ∧ s.engineStopped = false ∧ s.fetchTurn c = true ∧ u = (s.meetEntry c entry none).modClient c Client.dropIdle ∧ (u.client c).noFetch = true :=
  ⟨tCl { tClient with noFetch := true }, _, 5, 0, by decide +kernel, by decide +kernel, by decide +kernel, by decide +kernel, by decide +kernel, rfl, by decide +kernel⟩

theorem test_hyp_FetchAndAnswer_12 : ∃ (s u : State) (c entry : Nat), s.host.fetchOn = true ∧ s.inRange c = true ∧ s.tsPath c = true ∧ s.engineStopped = false ∧ s.fetchTurn c = true ∧ u = (s.meetEntry c entry none).modClient c Client.dropIdle ∧ u.stubHeld c = true :=
  ⟨tCl { tClient with held := [{}], stubHead := 65535, stubTail := 15 }, _, 5, 0, by decide +kernel, by decide +kernel, by decide +kernel, by decide +kernel, by decide +kernel, rfl, by decide +kernel⟩

theorem test_hyp_FetchAndAnswer_9 : ∃ (s : State) (c gen : Nat), (s.client c).gen ≠ gen := ⟨tS, 5, 255, by decide +kernel⟩

theorem test_hyp_FetchAndAnswer_3 : ∃ (s : State) (c gen seq : Nat), (s.client c).gen = gen ∧ (s.client c).genPend = none ∧ ∀ x ∈ (s.client c).held, ¬ (x.ref = { client := c, gen := gen, seq := seq } ∧ x.status ≠ 0x02) := ⟨tS, 5, 0, 9, by decide +kernel⟩

theorem test_hyp_FetchAndAnswer_10 : ∃ (s : State) (c gen seq : Nat), (s.client c).gen = gen ∧ (s.client c).genPend = none ∧ ∃ x ∈ (s.client c).held, x.ref = { client := c, gen := gen, seq := seq } ∧ x.status ≠ 0x02 :=
  ⟨tCl { tClient with held := [{}, { ref := { client := 5, seq := 9 } }] }, 5, 0, 9, by decide +kernel⟩

theorem test_hyp_FetchAndAnswer_4 : ∃ (s : State) (c : Nat) (st : Stub) (rest : List Stub), (s.client c).held = st :: rest ∧ s.tsPath c = true ∧ s.inRange c = true ∧ s.arb.engineMove = false ∧ isWindow c = false ∧
    (let x := (s.meetEntry c (Mem.le s.host.hostMem (s.entryAddr c) 32) none).client c; (x.stubTail + 2 ^ 16 - x.stubHead) % 2 ^ 16 < 2 ^ stubLog c x) := ⟨tCl { tClient with held := [{}, {}], stubTail := 14, stubHead := 65535 }, 5, {}, [{}], by decide +kernel⟩

theorem test_hyp_FetchAndAnswer_11 : ∃ (s : State) (c : Nat) (st : Stub) (rest : List Stub), (s.client c).held = st :: rest ∧ s.tsPath c = true ∧ s.inRange c = true ∧ s.arb.engineMove = false ∧ isWindow c = true ∧
    (let x := (s.meetEntry c (Mem.le s.host.hostMem (s.entryAddr c) 32) none).client c; (x.stubTail + 2 ^ 16 - x.stubHead) % 2 ^ 16 < 2 ^ stubLog c x) := ⟨tCl { tClient with id := 4094, held := [{}, {}], stubTail := 30, stubHead := 65535 }, 4094, {}, [{}], by decide +kernel⟩

theorem test_hyp_FetchAndAnswer_5 : ∃ (s : State) (c : Nat) (st : Stub) (l r : List Stub), (s.client c).held = l ++ st :: r ∧ (∀ y ∈ l, y.stalled = true ∨ s.time.clk < y.since + 4000000) ∧ st.stalled = false ∧
    st.since + 4000000 ≤ s.time.clk ∧ st ∉ l := ⟨{ tCl { tClient with held := [{ stalled := true }, {}, {}] } with time := { clk := 4000000 } }, 5, {}, [{ stalled := true }], [{}], by decide +kernel⟩

theorem test_hyp_FetchAndAnswer_6 : ∃ s : State, s.ownerHere s.own.client = true ∧ s.tsPath s.own.client = true ∧ s.inRange s.own.client = true ∧ isWindow s.own.client = true := ⟨{ tS with own := { tS.own with client := 4094, port := 2 } }, by decide +kernel⟩

theorem test_hyp_FetchAndAnswer_7 : ∃ s : State, s.ownerHere s.own.client = true ∧ s.tsPath s.own.client = true ∧ s.inRange s.own.client = true ∧ s.host.evtEn = true := ⟨{ tS with host := { tS.host with evtEn := true } }, by decide +kernel⟩

theorem test_hyp_FetchAndAnswer_13 : ∃ (s : State) (c : Nat), s.tsPath c = true ∧ s.engineStopped = true := ⟨{ tS with arb := { tS.arb with engineMove := true } }, 5, by decide +kernel⟩

theorem test_hyp_FetchAndAnswer_14 : ∃ (s : State) (c : Nat), s.fetchTurn c = false :=
  ⟨{ tS with host := { tS.host with clients := [{ tClient with tktTail := 1, burstAt := 3 }, { tClient with id := 6, tktTail := 1, burstAt := 2 }] } }, 5, by decide +kernel⟩

theorem test_hyp_FetchAndAnswer_15 : ∃ s : State, s.arb.engineMove = true := ⟨{ tS with arb := { tS.arb with engineMove := true } }, by decide +kernel⟩

theorem test_hyp_FetchAndAnswer_16 : ∃ s : State, s.owned = true ∧ s.own.ownDev ≠ s.ring.num := ⟨{ tS with own := { tS.own with ownDev := 63 } }, by decide +kernel⟩

theorem test_hyp_HostLink_1 : ∃ (s : State) (v : Nat), s.bar0Up = true ∧ v % 2 = 1 ∧ s.host.en = false ∧ s.enRefused = true := ⟨{ tS with host := { tS.host with en := false, cnt := 0 } }, 1, by decide +kernel⟩

theorem test_hyp_HostLink_2 : ∃ (s : State) (v : Nat), s.bar0Up = true ∧ v % 2 = 1 ∧ s.host.en = false ∧ s.enRefused = false := ⟨{ tS with host := { tS.host with en := false, first := 4093, cnt := 1 } }, 7, by decide +kernel⟩

theorem test_hyp_HostLink_3 : ∃ (s : State) (v : Nat), s.bar0Up = true ∧ v % 2 = 1 ∧ s.host.en = true := ⟨tS, 1, by decide +kernel⟩

theorem test_hyp_HostLink_4 : ∃ (s : State) (v : Nat), s.bar0Up = true ∧ v % 2 = 0 := ⟨tS, 0, by decide +kernel⟩

theorem test_hyp_HostLink_5 : ∃ s : State, s.linkTrained = true := ⟨{ tS with host := { tS.host with en := false } }, by decide +kernel⟩

theorem test_hyp_HostLink_6 : ∃ (s : State) (x : PcieUp), 4 ≤ s.start.step ∧ 1 ≤ x.speed ∧ x.speed ≤ 3 ∧ s.host.islA = true := ⟨tS, { speed := 3, d3 := true }, by decide +kernel⟩

theorem test_hyp_HostLink_7 : ∃ s : State, s.log.refillAt + 3600 ≤ roundOf s.bnd := ⟨{ tS with time := { clk := 14399999 } }, by decide +kernel⟩

theorem test_hyp_HostLink_8 : ∃ s : State, 1000 ≤ s.log.overRounds := ⟨{ tS with log := { overRounds := 1000 } }, by decide +kernel⟩

/-- The state with meter timer 7 as `w` has it. -/
def tMt (w : Nat) : State := { tS with cfg := { tS.cfg with cfg := { tCfg with meterTmr := tCfg.meterTmr.set 7 w } } }

theorem test_hyp_MeterAndThermalInstants_1 : ∃ (s : State) (n : Tmr), MeterTmr.per (s.cfg.cfg.meterTmr[n.val]) ≠ 0 ∧
    ((s.time.clk : Int) - MeterTmr.ofs (s.cfg.cfg.meterTmr[n.val])) % MeterTmr.per (s.cfg.cfg.meterTmr[n.val]) = 0 := ⟨{ tMt 40 with time := { clk := 8000 } }, 7, by decide +kernel⟩

theorem test_hyp_MeterAndThermalInstants_2 : ∃ (s : State) (n : Tmr), MeterTmr.per (s.cfg.cfg.meterTmr[n.val]) = 0 := ⟨tMt 0, 7, by decide +kernel⟩

theorem test_hyp_MeterAndThermalInstants_3 : ∃ (s : State) (p : Ph), (s.phAt p).st = .active := ⟨tS, tP, by decide +kernel⟩

theorem test_hyp_MeterAndThermalInstants_4 : ∃ (s : State) (p : Ph), (s.phAt p).st = .test := ⟨tPh { st := .test }, tP, by decide +kernel⟩

theorem test_hyp_MeterAndThermalInstants_5 : ∃ (s : State) (c : Conv) (ch : Nat), ch < 120 ∧ (s.convAt c).run = none := ⟨tS, .p, 119, by decide +kernel⟩

theorem test_hyp_MeterAndThermalInstants_10 : ∃ (s : State) (c : Conv) (p : Pass) (ch : Nat), (s.convAt c).run = some p ∧ passCh p = ch :=
  ⟨{ tS with conv := tS.conv.set 1 { run := some {} } }, .b, {}, _, rfl, rfl⟩

/-- The state `s` whose frame gives source `k` a thermal period. -/
def tPlan (s : State) (k : Nat) : State := { s with conv := s.conv.map fun x => { x with plan := [75, k] } }

theorem test_hyp_MeterAndThermalInstants_6 : ∃ (s : State) (k : Src) (p : Ph), s.srcEn k = true ∧ (s.convAt (s.srcConv k)).plan.contains k.val = true ∧ stagePh k = some p := ⟨tPlan tS 32, 32, tP, by decide +kernel⟩

theorem test_hyp_MeterAndThermalInstants_7 : ∃ (s : State) (k : Src), s.srcEn k = true ∧ (s.convAt (s.srcConv k)).plan.contains k.val = true ∧ stagePh k = none ∧ k.val < 72 := ⟨tPlan tS 23, 23, by decide +kernel⟩

theorem test_hyp_MeterAndThermalInstants_8 : ∃ (s : State) (k : Src) (n : Fin 4), s.srcEn k = true ∧ (s.convAt (s.srcConv k)).plan.contains k.val = true ∧ k.val = 72 + n.val :=
  ⟨tPlan { tS with cfg := { tS.cfg with cfg := { tCfg with thermCfg := #v[((List.range 256).find? fun i => bit (ThermCfg.ntcEn (2 ^ i)) 3).elim 0 (2 ^ ·)] } } } 0, 75, 3, by decide +kernel⟩

theorem test_hyp_MeterAndThermalInstants_11 : ∃ (s : State) (k : Src), s.srcEn k = true ∧ (s.convAt (s.srcConv k)).plan.contains k.val = false := ⟨tS, 32, by decide +kernel⟩

theorem test_hyp_MeterAndThermalInstants_9 : ∃ s : State, s.bnd % 4000000 = 0 := ⟨{ tS with time := { clk := 3999999 } }, by decide +kernel⟩

/-- The state with MP_CFG of rail 1 all ones, so that the margin plan, its automatic mode and the chirp are on. -/
def tMp (x : RailSt) : State := { tRl x with cfg := { tS.cfg with cfg := { tCfg with mpCfg := tCfg.mpCfg.set 1 (2 ^ 128 - 1) } } }

theorem test_hyp_MarginInstants_1 : ∃ (s : State) (r : Rail), MpCfg.mpEn (s.mpcfg r) = true ∧ s.railEn r = true ∧ 86400000 ≤ (s.railAt r).regBeats := ⟨tMp { st := .regulate, regBeats := 86400000 }, tR, by decide +kernel⟩

theorem test_hyp_MarginInstants_2 : ∃ s : State, s.bnd % 4000 = 0 ∧ ({ s with time := { s.time with clk := s.bnd } } : State).ovlDue = false ∧ ∀ x ∈ s.therm.props, x.inside = false :=
  ⟨{ tMp {} with therm := { props := [tProp2] } }, by decide +kernel⟩

theorem test_hyp_MarginInstants_7 : ∃ s : State, s.bnd % 4000 = 0 ∧ ({ s with time := { s.time with clk := s.bnd } } : State).ovlDue = true :=
  ⟨{ tMp {} with sched := [{ nb := 8000, per := .round, act := .overlaySelect 3 none }] }, by decide +kernel⟩

theorem test_hyp_MarginInstants_3 : ∃ (s : State) (x : Proposal) (l : List Proposal) (q : Rail), s.bnd % 4000 = 0 ∧ ({ s with time := { s.time with clk := s.bnd } } : State).ovlDue = false ∧ s.cfg.inForce ≠ none ∧
    (∀ b : Int, s.therm.lastAuto = some b → b + 14400000000 * (ThermCfg.revGap s.thcfg : Int) ≤ s.bnd) ∧ s.therm.props = x :: l ∧ x.inside = true ∧
    railOf (s.propRail x) = some q ∧ MpCfg.auto (s.mpcfg q) = true ∧ MpCfg.mpEn (s.mpcfg q) = true ∧ s.valueOk s.cfg.cfg x.kind x.target x.v1 x.v2 = true ∧ x.kind ≠ 2 :=
  ⟨{ tMp {} with therm := { props := [tProp] } }, tProp, [], tR, by decide +kernel, by decide +kernel, by decide +kernel, (fun _ h => nomatch h), by decide +kernel⟩

theorem test_hyp_MarginInstants_4 : ∃ (s : State) (r : Rail), s.bnd % 4000 = 0 ∧ s.railEn r = true ∧ MpCfg.chirpEn (s.mpcfg r) = true ∧ s.therm.chirpAt[r.val] = none ∧ (s.railAt r).st = .regulate ∧
    ((s.railAct r).light = true ∨ 4 ≤ s.therm.iLow[r.val]) ∧ s.fcOf r = [] ∧ (s.railDie .a r).ctch = none ∧ (s.railDie .b r).ctch = none ∧ (s.railAt r).left % 4 = 0 ∧ s.therm.chirps[r.val] = none :=
  ⟨{ tMp { st := .regulate } with therm := { iLow := tS.therm.iLow.set 1 4 } }, tR, by decide +kernel⟩

theorem test_hyp_MarginInstants_5 : ∃ (s : State) (r : Rail) (x : ChirpSt), s.therm.chirps[r.val] = some x ∧ x.start + 16000 ≤ s.bnd ∧ x.tone < 7 :=
  ⟨{ tMp {} with therm := { chirps := tS.therm.chirps.set 1 (some { tone := 6 }) }, time := { clk := 15999 } }, tR, { tone := 6 }, by decide +kernel⟩

theorem test_hyp_MarginInstants_6 : ∃ (s : State) (r : Rail) (x : ChirpSt), s.therm.chirps[r.val] = some x ∧ x.start + 16000 ≤ s.bnd ∧ 7 ≤ x.tone :=
  ⟨{ tMp {} with therm := { chirps := tS.therm.chirps.set 1 (some { tone := 7 }) }, time := { clk := 15999 } }, tR, { tone := 7 }, by decide +kernel⟩

/-- The state with both links of the ring as `x` has them. -/
def tLk (x : LinkSt) : State := { tS with ring := { links := #v[x, x] } }

theorem test_hyp_RingLinks_1 : ∃ (s : State) (p : Side) (t : LinkTrain) (num hop : Nat), s.trainCause p t num hop = none ∧ (s.linkAt p).st ≠ .wrapped := ⟨tS, .east, {}, 1, 512, by decide +kernel⟩

theorem test_hyp_RingLinks_2 : ∃ (s : State) (p : Side), (s.linkAt p).st = .wrapped ∧ (s.linkAt p).retrained = true ∧ 16 ≤ (s.linkAt p).cleanRounds ∧ s.bnd % 4000 = 0 := ⟨tLk { st := .wrapped, retrained := true, cleanRounds := 16 }, .east, by decide +kernel⟩

/-- The state of a chain of 4 with devices 1 and 2 cut off. -/
def tSplit : State := { tS with ring := { ndev := 3, links := #v[{ st := .up }, { st := .up }], cuts := [(0, .east), (2, .east)], devs := Vector.ofFn fun (i : Fin 64) => { known := decide (i.val ≤ 3) } } }

theorem test_hyp_RingLinks_3 : ∃ (s : State) (l : List Nat), s.unreachable = l ∧ l ≠ [] ∧ s.own.keeper = s.ring.num ∧ 2 ≤ s.cutLinks.length ∧ s.ring.splitPosted = false := ⟨tSplit, [1, 2], by decide +kernel⟩

theorem test_hyp_RingLinks_4 : ∃ (s : State) (p : Side) (a : RingPkt) (l : List RingPkt), ((s.linkAt p).unTicket.dropWhile fun k => decide (k.tries < 2)) = a :: l := ⟨tLk { unTicket := [{ tries := 1 }, { tries := 2 }] }, .west, { tries := 2 }, [], by decide +kernel⟩

theorem test_hyp_RingLinks_5 : ∃ (s : State) (p : Side) (t : LinkTrain) (num hop : Nat), s.trainCause p t num hop = none ∧ (s.linkAt p).st = .wrapped := ⟨tLk { st := .wrapped }, .west, {}, 63, 0, by decide +kernel⟩

theorem test_hyp_RingLinks_6 : ∃ (s : State) (p : Side) (t : LinkTrain) (num hop cause : Nat), s.trainCause p t num hop = some cause := ⟨tS, .east, {}, 1, 513, 1, by decide +kernel⟩

/-- The state before its clock counts, in step 5 since beat 0. -/
def tClk (n : Nat) : State := { tS with time := { clk := n }, start := { step := 5 }, cfg := {} }

theorem test_hyp_RingClock_1 : ∃ (s : State) (n : Nat), ((s.time.counting = false ∧ s.time.startPend = false) ∨ s.start.solo = true) ∧ n ≤ 63 := ⟨tClk 9, 63, by decide +kernel⟩

theorem test_hyp_RingClock_9 : ∃ s : State, s.start.solo = true ∧ s.time.counting = true := ⟨{ tS with start := { step := 8, solo := true } }, by decide +kernel⟩

theorem test_hyp_RingClock_2 : ∃ s : State, s.time.counting = false ∧ s.time.startPend = false ∧ s.start.step = 5 ∧ s.start.enter5 + 800000 ≤ s.bnd := ⟨tClk 799999, by decide +kernel⟩

theorem test_hyp_RingClock_3 : ∃ (s u : State) (rx : RxIn) (dev : Nat), rx.ok = true ∧ s.rxPkt rx 2 id = u ∧ (s.linkAt rx.via).waitAlarm = false ∧ dev ≠ s.ring.num ∧ s.time.counting = false := ⟨tClk 9, _, {}, 63, rfl, rfl, by decide +kernel⟩

theorem test_hyp_RingClock_4 : ∃ (s u : State) (rx : RxIn) (dev : Nat), rx.ok = true ∧ s.rxPkt rx 2 id = u ∧ rx.again = true ∧ dev ≠ s.ring.num ∧ s.time.counting = true ∧ s.start.solo = false := ⟨tLk { waitAlarm := true }, _, { again := true }, 63, rfl, rfl, by decide +kernel⟩

theorem test_hyp_RingClock_5 : ∃ (s u : State) (rx : RxIn) (dev : Nat), rx.ok = true ∧ s.rxPkt rx 2 id = u ∧ (s.linkAt rx.via).waitAlarm = false ∧ dev ≠ s.ring.num ∧ s.time.counting = true ∧ s.start.solo = true :=
  ⟨{ tS with start := { step := 8, solo := true } }, _, {}, 1, rfl, rfl, by decide +kernel⟩

theorem test_hyp_RingClock_6 : ∃ (s : State) (c : Nat), s.start.solo = true ∧ s.time.timeSeen = some c ∧ s.dieOut .a = false := ⟨{ tS with start := { step := 8, solo := true }, time := { clk := 7999, counting := true, timeSeen := some (2 ^ 40 * 4000) } }, 2 ^ 40 * 4000, by decide +kernel⟩

/-- Device 3 of a chain of 4, its ports as `e` and `w` have them. -/
def tRef (e w : LinkState) : State := { tS with ring := { num := 3, ndev := 3, links := #v[{ st := e }, { st := w }], devs := Vector.ofFn fun (i : Fin 64) => { known := decide (i.val ≤ 3) } } }

theorem test_hyp_RingClock_7 : ∃ s : State, s.own.keeper ≠ s.ring.num ∧ s.time.clockStopped = false ∧ s.linkUp (if s.ring.refEast then Side.east else .west).other = true := ⟨tRef .up .down, by decide +kernel⟩

theorem test_hyp_RingClock_8 : ∃ s : State, s.own.keeper ≠ s.ring.num ∧ s.time.clockStopped = false ∧ s.linkUp (if s.ring.refEast then Side.east else .west).other = false := ⟨tRef .down .down, by decide +kernel⟩

theorem test_hyp_RingPackets_1 : ∃ (s u : State) (rx : RxIn), rx.ok = true ∧ (s.linkAt rx.via).waitAlarm = false ∧ s.rxPkt rx 2 id = u := ⟨tS, _, {}, rfl, by decide +kernel, rfl⟩

/-- A ticket packet of device 1 for device `d`, forwarding count `n`. -/
def tFwd (d n : Nat) : Nat := (tk 0x01 0 [(64, d), (83, n)]).raw

theorem test_hyp_RingPackets_2 : ∃ (s u : State) (rx : RxIn) (raw : Nat), rx.ok = true ∧ (s.linkAt rx.via).waitTicket = false ∧ s.rxPkt rx 0 id = u ∧ u.tktDst { raw := raw } ≠ s.ring.num := ⟨tS, _, {}, tFwd 63 0, rfl, by decide +kernel, rfl, by decide +kernel⟩

theorem test_hyp_RingPackets_3 : ∃ (s u : State) (rx : RxIn) (src raw : Nat), rx.ok = true ∧ (s.linkAt rx.via).waitTicket = false ∧ s.rxPkt rx 0 id = u ∧ u.tktDst { raw := raw } = s.ring.num ∧
    2 ^ 12 ≤ (bits raw 95 83 + 2 ^ 13 - (u.devAt src).fwdRx) % 2 ^ 13 := ⟨tS, _, {}, 1, tFwd 0 4096, rfl, by decide +kernel, rfl, by decide +kernel⟩

theorem test_hyp_RingPackets_4 : ∃ (s u : State) (rx : RxIn) (src raw : Nat), rx.ok = true ∧ (s.linkAt rx.via).waitTicket = false ∧ s.rxPkt rx 0 id = u ∧ u.tktDst { raw := raw } = s.ring.num ∧
    (u.devAt src).fwdHold = [] ∧ bits raw 95 83 = (u.devAt src).fwdRx ∧ (u.devAt src).fwdRx < 2 ^ 13 :=
  ⟨{ tS with ring := { devs := tS.ring.devs.set 1 { known := true, fwdRx := 8191 } } }, _, {}, 1, tFwd 0 8191, rfl, by decide +kernel, rfl, by decide +kernel⟩

/-- A ticket of client 5 that has gone to device 1, with a segment of 16 bytes for its answer. -/
def tEnt : FwdEnt := { ref := { client := 5, seq := 9 }, atBeat := 4000, segs := [(64, 16)], cur := 32 }

/-- The state in which it has, and device 2 is the head of clients 200 to 209. -/
def tOut : State := { tS with ring := { devs := (tS.ring.devs.set 1 { known := true, fwdOut := [tEnt] }).set 2 { known := true, range := some (200, 10), rangeRound := 1 } } }

/-- The stub of ticket 9 of client `c`. -/
def tStub (c : Nat) : Nat := 9 + c * 2 ^ 16

theorem test_hyp_RingPackets_5 : ∃ (s u : State) (rx : RxIn) (i : StubIn) (h : Nat), rx.ok = true ∧ (s.linkAt rx.via).waitTicket = false ∧ s.rxPkt rx 1 id = u ∧ u.stubHead (stubOf i.raw).ref.client = some h := ⟨tOut, _, {}, { raw := tStub 209 }, 2, rfl, by decide +kernel, rfl, by decide +kernel⟩

theorem test_hyp_RingPackets_6 : ∃ (s u : State) (rx : RxIn) (src : Nat) (i : StubIn), rx.ok = true ∧ (s.linkAt rx.via).waitTicket = false ∧ s.rxPkt rx 1 id = u ∧ u.stubHead (stubOf i.raw).ref.client = none ∧
    ∀ e ∈ (u.devAt src).fwdOut, e.ref ≠ (stubOf i.raw).ref := ⟨tOut, _, {}, 2, { raw := tStub 5 }, rfl, by decide +kernel, rfl, by decide +kernel⟩

theorem test_hyp_RingPackets_7 : ∃ (s u : State) (rx : RxIn) (src : Nat) (i : StubIn) (e : FwdEnt), rx.ok = true ∧ (s.linkAt rx.via).waitTicket = false ∧ s.rxPkt rx 1 id = u ∧
    u.stubHead (stubOf i.raw).ref.client = none ∧ (u.devAt src).fwdOut = [e] ∧ e.ref = (stubOf i.raw).ref ∧ e.atBeat < 2 ^ 64 ∧ u.ring.chainOut = [] ∧ i.data = [] :=
  ⟨tOut, _, {}, 1, { raw := tStub 5 }, tEnt, rfl, by decide +kernel, rfl, by decide +kernel⟩

theorem test_hyp_RingPackets_8 : ∃ (s u : State) (rx : RxIn) (src : Nat) (i : StubIn) (e : FwdEnt), rx.ok = true ∧ (s.linkAt rx.via).waitTicket = false ∧ s.rxPkt rx 1 id = u ∧
    u.stubHead (stubOf i.raw).ref.client = none ∧ (u.devAt src).fwdOut = [e] ∧ e.ref = (stubOf i.raw).ref ∧ e.atBeat < 2 ^ 64 ∧ u.ring.chainOut = [] ∧ i.data ≠ [] ∧ i.data.length ≤ segSum e.segs :=
  ⟨tOut, _, {}, 1, { raw := tStub 5, data := List.replicate 16 255 }, tEnt, rfl, by decide +kernel, rfl, by decide +kernel⟩

theorem test_hyp_RingPackets_9 : ∃ (s u : State) (rx : RxIn) (src : Nat) (i : StubIn) (e : FwdEnt), rx.ok = true ∧ (s.linkAt rx.via).waitTicket = false ∧ s.rxPkt rx 1 id = u ∧
    u.stubHead (stubOf i.raw).ref.client = none ∧ (u.devAt src).fwdOut = [e] ∧ e.ref = (stubOf i.raw).ref ∧ e.atBeat < 2 ^ 64 ∧ u.ring.chainOut = [] ∧ i.data ≠ [] ∧ segSum e.segs < i.data.length :=
  ⟨tOut, _, {}, 1, { raw := tStub 5, data := List.replicate 17 255 }, tEnt, rfl, by decide +kernel, rfl, by decide +kernel⟩

/-- The state with device 1 as `x` has it. -/
def tDev (x : DevSt) : State := { tS with ring := { devs := tS.ring.devs.set 1 x } }

theorem test_hyp_RingReports_1 : ∃ (s : State) (dev n raw b : Nat), dev < 64 ∧ (s.devAt dev).fwdHold = [(n, raw, b)] ∧ b + 4000 ≤ s.time.clk ∧ n < 2 ^ 13 ∧ (s.devAt dev).fwdRx < 2 ^ 13 := ⟨tDev { fwdHold := [(8191, 0, 3999)] }, 1, 8191, 0, 3999, by decide +kernel⟩

theorem test_hyp_RingReports_2 : ∃ (s : State) (dev : Nat) (e : FwdEnt), dev < 64 ∧ (s.devAt dev).fwdOut = [e] ∧ e.atBeat + 4000000 ≤ s.time.clk ∧ s.ring.chainOut = [] := ⟨{ tOut with time := { clk := 4004000 } }, 1, tEnt, by decide +kernel⟩

theorem test_hyp_RingReports_3 : ∃ (s : State) (dev : Nat) (ref : TkRef), dev < 64 ∧ (s.devAt dev).check = some ref ∧ (s.devAt dev).checkBad = true := ⟨tDev { check := some {}, checkBad := true }, 1, {}, by decide +kernel⟩

theorem test_hyp_RingReports_4 : ∃ (s : State) (dev : Nat) (ref : TkRef), dev < 64 ∧ (s.devAt dev).check = some ref ∧ (s.devAt dev).checkBad = false ∧ 16 ≤ (s.devAt dev).checkN ∧ s.bnd % 4000 = 0 := ⟨tDev { check := some {}, checkN := 16 }, 1, {}, by decide +kernel⟩

theorem test_hyp_RingReports_11 : ∃ (s : State) (dev : Nat) (ref : TkRef), dev < 64 ∧ (s.devAt dev).check = some ref ∧ (s.devAt dev).checkBad = false ∧ (s.devAt dev).checkN < 16 := ⟨tDev { check := some {}, checkN := 15 }, 1, {}, by decide +kernel⟩

theorem test_hyp_RingReports_5 : ∃ (s u : State) (rx : RxIn) (dev : Nat), dev < 64 ∧ rx.ok = true ∧ (s.linkAt rx.via).waitAlarm = false ∧ s.rxPkt rx 2 id = u ∧ dev ≠ s.ring.num ∧ (rx.dst = none ∨ rx.dst = some s.ring.num) ∧ s.own.keeper = s.ring.num ∧
    (u.devAt dev).benched = false := ⟨tS, _, {}, 63, by decide, rfl, by decide +kernel, rfl, by decide +kernel⟩

theorem test_hyp_RingReports_6 : ∃ (s : State) (dev first n : Nat), dev < 64 ∧ dev < s.ring.num ∧ s.host.en = true ∧ first < s.host.first + s.host.cnt ∧ s.host.first < first + n := ⟨tRef .up .up, 2, 99, 1, by decide +kernel⟩

theorem test_hyp_RingReports_7 : ∃ s : State, s.host.en = false := ⟨{ tS with host := {} }, by decide +kernel⟩

theorem test_hyp_RingReports_8 : ∃ (s u : State) (rx : RxIn) (dev : Nat) (ref : TkRef) (off a : Nat) (segs : List (Nat × Nat)), dev < 64 ∧ rx.ok = true ∧ s.rxPkt rx 4 id = u ∧ (rx.dst = none ∨ rx.dst = some s.ring.num) ∧ (u.devAt dev).stream = some (ref, off, segs) ∧
    segAddr segs off = some a ∧ segSum segs ≠ 0 := ⟨tDev { stream := some ({}, 4080, [(64, 4096)]) }, _, {}, 1, {}, 4080, 4144, [(64, 4096)], by decide, rfl, rfl, by decide, by decide +kernel⟩

theorem test_hyp_RingReports_9 : ∃ (s u : State) (rx : RxIn) (dev : Nat), dev < 64 ∧ rx.ok = true ∧ s.rxPkt rx 4 id = u ∧ (rx.dst = none ∨ rx.dst = some s.ring.num) ∧ (u.devAt dev).stream = none := ⟨tS, _, {}, 63, by decide, rfl, rfl, by decide, by decide +kernel⟩

theorem test_hyp_RingReports_10 : ∃ (s u : State) (rx : RxIn) (dev d : Nat), dev < 64 ∧ rx.ok = true ∧ (s.linkAt rx.via).waitAlarm = false ∧ s.rxPkt rx 2 id = u ∧ dev ≠ s.ring.num ∧ rx.dst = some d ∧ d ≠ s.ring.num :=
  ⟨tS, _, { dst := some 63 }, 1, 63, by decide, rfl, by decide +kernel, rfl, by decide +kernel⟩

theorem test_hyp_RingReports_12 : ∃ (s u v : State) (rx : RxIn) (dev d : Nat), dev < 64 ∧ rx.ok = true ∧ s.rxPkt rx 3 id = u ∧ s.rxPkt rx 4 id = v ∧ rx.dst = some d ∧ d ≠ s.ring.num :=
  ⟨tS, _, _, { dst := some 63 }, 1, 63, by decide, rfl, rfl, rfl, by decide +kernel⟩

theorem test_hyp_RingReports_13 : ∃ (s u : State) (rx : RxIn) (dev : Nat), dev < 64 ∧ rx.ok = true ∧ s.rxPkt rx 3 id = u ∧ (rx.dst = none ∨ rx.dst = some s.ring.num) :=
  ⟨tS, _, { dst := some 0 }, 1, by decide, rfl, rfl, by decide +kernel⟩

theorem test_hyp_RingReports_14 : ∃ (s u : State) (rx : RxIn) (dev w : Nat), dev < 64 ∧ rx.ok = true ∧ s.rxPkt rx 3 id = u ∧ (rx.dst = none ∨ rx.dst = some s.ring.num) ∧
    qJoin (eventOf w) u.log.ringQ = none ∧ u.log.ringQ.length < 256 :=
  ⟨{ tS with log := { ringQ := [{ code := 1 }] } }, _, { dst := some 0 }, 1, 1 + 2 ^ 16, by decide, rfl, rfl, by decide +kernel⟩

theorem test_hyp_OwnershipPackets_1 : ∃ (s u : State) (rx : RxIn) (o : OwnRec), rx.ok = true ∧ (s.linkAt rx.via).waitAlarm = false ∧ s.rxPkt rx 2 id = u ∧ o.keeper ≠ s.ring.num ∧ (u.devAt o.keeper).benched = false ∧
    s.own.keeper ≠ s.ring.num := ⟨tHand 1, _, {}, { keeper := 1 }, rfl, by decide +kernel, rfl, by decide +kernel⟩

theorem test_hyp_OwnershipPackets_6 : ∃ (s u : State) (rx : RxIn) (o : OwnRec), rx.ok = true ∧ (s.linkAt rx.via).waitAlarm = false ∧ s.rxPkt rx 2 id = u ∧ o.keeper ≠ s.ring.num ∧ (u.devAt o.keeper).benched = false ∧
    s.own.keeper = s.ring.num ∧ s.ring.num < o.keeper ∧ s.ring.num ∉ o.benched := ⟨tS, _, {}, { keeper := 1, epoch := 9 }, rfl, by decide +kernel, rfl, by decide +kernel⟩

theorem test_hyp_OwnershipPackets_2 : ∃ (s u : State) (rx : RxIn) (dev epoch key : Nat), rx.ok = true ∧ rx.again = true ∧ s.rxPkt rx 2 id = u ∧ dev ≠ s.ring.num ∧ epoch ≠ 0 ∧ key < 4 ∧ s.noRram = false := ⟨tLk { waitAlarm := true }, _, { again := true }, 63, 2 ^ 32 - 1, 3, rfl, rfl, rfl, by decide +kernel⟩

theorem test_hyp_OwnershipPackets_7 : ∃ (s u : State) (rx : RxIn) (dev epoch key : Nat), rx.ok = true ∧ (s.linkAt rx.via).waitAlarm = false ∧ s.rxPkt rx 2 id = u ∧ dev ≠ s.ring.num ∧ epoch ≠ 0 ∧ key < 4 ∧ s.noRram = true :=
  ⟨{ tS with pwr := { powerFail := true } }, _, {}, 63, 1, 0, rfl, by decide +kernel, rfl, by decide +kernel⟩

theorem test_hyp_OwnershipPackets_3 : ∃ (s u : State) (rx : RxIn), rx.ok = true ∧ (s.linkAt rx.via).waitAlarm = false ∧ s.rxPkt rx 2 id = u ∧ (rx.dst = none ∨ rx.dst = some s.ring.num) ∧ s.own.keeper = s.ring.num ∧ (u.devAt s.own.ownDev).benched = false ∧
    s.own.valid = true := ⟨tS, _, {}, rfl, by decide +kernel, rfl, by decide, by decide +kernel⟩

/-- A claim of client 200 that device 1 fetched, and its result. -/
def tClaim : Claim := { client := 200, seq := 9, dev := 1, verified := true }

/-- The result that device 1 sends of it. -/
def tRes : ClaimMsg := { client := 200, seq := 9, dev := 1, port := 1, epoch := 4 }

theorem test_hyp_OwnershipPackets_4 : ∃ (s u : State) (rx : RxIn) (cl : ClaimMsg), rx.ok = true ∧ (s.linkAt rx.via).waitAlarm = false ∧ s.rxPkt rx 2 id = u ∧ (rx.dst = none ∨ rx.dst = some s.ring.num) ∧ s.own.keeper = s.ring.num ∧ (u.devAt cl.dev).benched = false ∧
    cl.readmit = false ∧ cl.handover = false ∧ ∃ x ∈ u.own.claims, x.client = cl.client ∧ x.seq = cl.seq ∧ x.dev = cl.dev :=
  ⟨{ tS with own := { tS.own with claims := [tClaim] } }, _, {}, tRes, rfl, by decide +kernel, rfl, by decide, by decide +kernel⟩

theorem test_hyp_OwnershipPackets_5 : ∃ (s u : State) (rx : RxIn) (cl : ClaimMsg), rx.ok = true ∧ (s.linkAt rx.via).waitAlarm = false ∧ s.rxPkt rx 2 id = u ∧ (rx.dst = none ∨ rx.dst = some s.ring.num) ∧ s.own.keeper = s.ring.num ∧ (u.devAt cl.dev).benched = false ∧
    cl.readmit = false ∧ cl.handover = false ∧ ∀ x ∈ u.own.claims, ¬ (x.client = cl.client ∧ x.seq = cl.seq ∧ x.dev = cl.dev) ∧ u.own.pendRef ≠ some { client := cl.client, gen := cl.gen, seq := cl.seq } := ⟨tS, _, {}, tRes, rfl, by decide +kernel, rfl, by decide, by decide +kernel⟩

theorem test_hyp_OwnershipPackets_8 : ∃ (s u : State) (rx : RxIn) (d : Nat), rx.ok = true ∧ (s.linkAt rx.via).waitAlarm = false ∧ s.rxPkt rx 2 id = u ∧ rx.dst = some d ∧ d ≠ s.ring.num :=
  ⟨tS, _, { dst := some 63 }, 63, rfl, by decide +kernel, rfl, by decide +kernel⟩

theorem test_hyp_OwnershipInstants_1 : ∃ (s : State) (c : Nat) (x : Claim), s.own.claims = [x] ∧ x.client = c ∧ x.dev = s.ring.num ∧ x.verified = false ∧ x.ep5 = true :=
  ⟨{ tS with own := { tS.own with claims := [{ client := 5, ep5 := true }] } }, 5, { client := 5, ep5 := true }, by decide +kernel⟩

theorem test_hyp_OwnershipInstants_2 : ∃ s : State, s.own.keeper = s.ring.num ∧ s.own.mismatch = false ∧ s.bnd % 4000 = 0 := ⟨tS, by decide +kernel⟩

theorem test_hyp_OwnershipInstants_3 : ∃ (s : State) (port client gen epoch : Nat), s.own.pend = some (port, client, gen, epoch) ∧ s.own.keeper = s.ring.num ∧ s.bnd % 4000 = 0 ∧ s.own.pendFrom < s.bnd ∧
    (∀ d ∈ s.inChain, d ∈ s.own.acks) ∧ epoch ≤ s.own.epochNvm ∧ s.own.handQ = none ∧ port < 4 ∧ s.own.valid = false ∧ gen < 256 ∧ s.own.pendRef = none :=
  ⟨{ tDev { known := true } with own := { pend := some (3, 4095, 255, 4), pendFrom := 7999, acks := [1], epochNvm := 4 } }, 3, 4095, 255, 4, by decide +kernel⟩

theorem test_hyp_OwnershipInstants_4 : ∃ s : State, s.own.keeper = s.ring.num ∧ s.own.valid = true ∧ s.bnd % 4000 = 0 ∧ OwnCfg.deadT s.owcfg ≤ s.own.silent ∧ s.own.port < 4 := ⟨{ tS with own := { tS.own with silent := OwnCfg.deadT tS.owcfg, port := 3 } }, by decide +kernel⟩

theorem test_hyp_OwnershipInstants_5 : ∃ s : State, s.own.keeper = s.ring.num ∧ s.own.valid = true ∧ s.bnd % 4000 = 0 ∧ s.own.genEnd = true ∧ s.own.port < 4 := ⟨{ tS with own := { tS.own with genEnd := true } }, by decide +kernel⟩

/-- The state with port 3 as `x` has it. -/
def tPort (x : PortSt) : State := { tS with own := { tS.own with ports := tS.own.ports.set 3 x } }

theorem test_hyp_OwnershipInstants_6 : ∃ (s : State) (port : OPort), (s.own.ports[port.val]).remain = 1 ∧ s.bnd % 4000 = 0 ∧ s.own.portsAt ≠ s.bnd := ⟨tPort { remain := 1 }, 3, by decide +kernel⟩

theorem test_hyp_OwnershipInstants_9 : ∃ (s : State) (port : OPort), (s.own.ports[port.val]).remain = 1 ∧ s.bnd % 4000 = 0 ∧ s.own.portsAt = s.bnd :=
  ⟨{ tS with own := { tS.own with ports := tS.own.ports.set 3 { remain := 1 }, portsAt := 8000 } }, 3, by decide +kernel⟩

theorem test_hyp_OwnershipInstants_7 : ∃ (s : State) (port : OPort) (ref : TkRef), (s.own.ports[port.val]).check = some ref ∧ (s.own.ports[port.val]).checkBad = true := ⟨tPort { benched := true, check := some {}, checkBad := true }, 3, {}, by decide +kernel⟩

theorem test_hyp_OwnershipInstants_8 : ∃ (s : State) (port : OPort) (ref : TkRef), (s.own.ports[port.val]).check = some ref ∧ (s.own.ports[port.val]).checkBad = false ∧ 16 ≤ (s.own.ports[port.val]).checkN ∧ s.own.keeper = s.ring.num :=
  ⟨tPort { benched := true, check := some {}, checkN := 16 }, 3, {}, by decide +kernel⟩

theorem test_hyp_WatchdogInstants_1 : ∃ (s : State) (k : Slot), (s.wd.slots[k.val]).armed = true ∧ (s.wd.slots[k.val]).beg + 4000 * (s.wd.slots[k.val]).period ≤ s.bnd := ⟨{ tWd with time := { clk := 11999 } }, 15, by decide +kernel⟩

theorem test_hyp_WatchdogInstants_2 : ∃ (s : State) (k : Slot), (s.wd.slots[k.val]).armed = false := ⟨tWd, 14, by decide +kernel⟩

theorem test_hyp_WatchdogInstants_3 : ∃ (s : State) (k : Slot) (v : Verdict), s.wd.verdicts = [v] ∧ v.slot = k.val ∧ s.bnd % 4000 = 0 ∧ s.engineStopped = false ∧ v.fin ≤ s.bnd ∧ v.left = 0 :=
  ⟨{ tS with wd := { verdicts := [{ slot := 15, beg := 4000, fin := 8000, left := 0 }] } }, 15, { slot := 15, beg := 4000, fin := 8000, left := 0 }, by decide +kernel⟩

theorem test_hyp_WatchdogInstants_4 : ∃ (s : State) (b : Nat), s.pwr.hostRst = some b ∧ b ≤ s.bnd := ⟨{ tS with pwr := { hostRst := some 8000 } }, 8000, by decide +kernel⟩

theorem test_hyp_WatchdogInstants_5 : ∃ (s : State) (d : Cd), s.wd.grace[d.ix.val] = none ∧ s.wd.halted[d.ix.val] = false ∧ s.nvm.debugOpen = false := ⟨tS, .b, by decide +kernel⟩

theorem test_hyp_WatchdogInstants_6 : ∃ (s : State) (d : Cd), s.wd.grace[d.ix.val] = none ∧ s.wd.halted[d.ix.val] = true ∧ s.nvm.debugOpen = true := ⟨{ tS with wd := { halted := #v[false, true] }, nvm := { debugOpen := true } }, .b, by decide +kernel⟩

theorem test_hyp_WatchdogInstants_7 : ∃ (s : State) (d : Cd) (b : Nat), s.wd.grace[d.ix.val] = some b ∧ s.time.clk < b := ⟨{ tS with wd := { grace := #v[none, some 8000] } }, .b, 8000, by decide +kernel⟩

/-- The state with the RTC as `x` has it. -/
def tRtc (x : WdSt) : State := { tS with wd := x }

/-- RTC_SET and RTC_SHIFT of one beat boundary act at one edge: the prescaler restarts and the shift is withheld from there (Table 17.7). -/
theorem test_rtc_set_shift : (match execRtcEdge (tRtc { setPend := true, pre := 100, shiftPend := [5, -3] }) with
    | .next t => some (t.wd.pre, t.wd.withhold, t.wd.shifting)
    | _ => none) = some (5, 3, true) := by decide +kernel

/-- A page that fails its verify takes a spare for its sector (R453). -/
theorem test_bad_page : ((tS.pageWork { badPages := [60] }).nvm.spares, (tS.pageWork { ecc := 2 }).log.dirtyLog) = (1, true) := by decide +kernel

theorem test_hyp_RtcInstants_1 : ∃ s : State, s.wd.setPend = true := ⟨tRtc { setPend := true }, by decide +kernel⟩

theorem test_hyp_RtcInstants_2 : ∃ s : State, s.wd.setPend = false ∧ 0 < s.wd.withhold + s.wd.drops := ⟨tRtc { shiftPend := [-1] }, by decide +kernel⟩

theorem test_hyp_RtcInstants_3 : ∃ s : State, s.wd.setPend = false ∧ s.wd.withhold = 0 ∧ s.wd.drops = 0 := ⟨tRtc { shiftPend := [32768] }, by decide +kernel⟩

theorem test_hyp_RtcInstants_4 : ∃ s : State, s.wd.cal = calEnd ∧ s.wd.ended = false := ⟨tRtc { cal := calEnd }, by decide +kernel⟩

theorem test_hyp_RtcInstants_5 : ∃ s : State, s.wd.wakeW ≠ 0 ∧ s.wd.wakeW ≤ s.wd.wakeN ∧ s.wd.stopped = false := ⟨tRtc { wakeW := 5529600, wakeN := 5529600 }, by decide +kernel⟩

theorem test_hyp_RtcInstants_6 : ∃ s u : State, s.vbakUp = (false, u) := ⟨{ tS with pack := { missing := true } }, _, rfl⟩

theorem test_hyp_RtcInstants_7 : ∃ s u : State, s.vbakUp = (true, u) ∧ s.running = true := ⟨tPk {}, tPk {}, by decide +kernel⟩

theorem test_hyp_RtcInstants_9 : ∃ (s u : State) (b : Bool), ((b = false ∧ u = s) ∨ (b = true ∧ s.vbakUp = (true, u))) ∧ s.running = false := ⟨State.reset, State.reset, false, by decide +kernel⟩

theorem test_hyp_RegisterAccess_9 : ∃ (s : State) (c : Nat), s.pathUp .bar0 = true ∧ c < 4096 ∧ s.inRange c = true := ⟨tS, 99, by decide +kernel⟩

theorem test_hyp_RtcInstants_8 : ∃ (s : State) (path : Path), (s.wd.shadows[path.ix.val]).frozen = true ∧ (s.wd.shadows[path.ix.val]).atBeat + 4000000 ≤ s.time.clk :=
  ⟨{ tRtc { shadows := #v[{}, {}, { frozen := true }] } with time := { clk := 4000000 } }, .spiB, by decide +kernel⟩

/-- The state with a write of row 0x80 to both control dies under way. -/
def tFuse (otp : Vector OtpDie 3) : State := { tS with nvm := { otp := otp, fuse := some { die := 0, row := 0x80, data := 1 } } }

theorem test_hyp_FuseInstants_1 : ∃ (s u : State) (w : FuseWr) (ok : Bool), s.nvm.fuse = some w ∧ s.programAll (fuseDies w.die w.row) w.row w.data ok = (none, u) := ⟨tFuse #v[{}, {}, {}], _, { die := 0, row := 0x80, data := 1 }, true, rfl, rfl⟩

theorem test_hyp_FuseInstants_2 : ∃ (s u : State) (w : FuseWr) (ok : Bool) (k : Nat), s.nvm.fuse = some w ∧ s.programAll (fuseDies w.die w.row) w.row w.data ok = (some k, u) :=
  ⟨tFuse #v[{}, {}, {}], _, { die := 0, row := 0x80, data := 1 }, false, 0, rfl, rfl⟩

theorem test_hyp_FuseInstants_3 : ∃ (s : State) (ref : TkRef), s.nvm.voiding = some (some ref) := ⟨{ tS with nvm := { voiding := some (some {}) } }, {}, by decide +kernel⟩

theorem test_hyp_FuseInstants_4 : ∃ s : State, s.nvm.voiding = some none := ⟨{ tS with nvm := { voiding := some none } }, by decide +kernel⟩

/-- The state in start-up step `n`. -/
def tUp (n : Nat) (x : NvmSt) : State := { tS with start := { step := n }, nvm := x }

theorem test_hyp_StartupSteps_1 : ∃ s : State, s.pwr.vaonOk = false := ⟨State.reset, by decide +kernel⟩

theorem test_hyp_StartupSteps_2 : ∃ s : State, s.start.step < 2 := ⟨tUp 1 {}, by decide +kernel⟩

theorem test_hyp_StartupSteps_3 : ∃ s : State, s.start.step = 2 := ⟨tUp 2 {}, by decide +kernel⟩

theorem test_hyp_StartupSteps_4 : ∃ s : State, s.start.step = 3 ∧ s.nvm.inReset = false ∧ s.voidRow = false ∧ s.integrityBad = true ∧ s.holdPolicy = true := ⟨tUp 3 { otp := #v[{ rows := [(0, 1)] }, {}, { rows := [(0x41, fusesOf 0x5A5A5A5A5A5A5A5A)] }] }, by decide +kernel⟩

theorem test_hyp_StartupSteps_6 : ∃ s : State, s.start.step = 4 ∧ s.nvm.result ≠ 2 := ⟨tUp 4 {}, by decide +kernel⟩

theorem test_hyp_StartupSteps_17 : ∃ s : State, s.start.step = 4 ∧ s.pwr.testEn = true := ⟨{ tUp 4 {} with pwr := { testEn := true } }, by decide +kernel⟩

theorem test_hyp_StartupSteps_7 : ∃ s : State, s.start.step = 6 ∧ s.time.counting = true ∧ s.start.barker = false ∧ s.unprovisioned = true := ⟨tUp 6 {}, by decide +kernel⟩

theorem test_hyp_StartupSteps_8 : ∃ s : State, s.start.step = 6 ∧ s.time.counting = true ∧ s.start.barker = false ∧ s.unprovisioned = false := ⟨tUp 6 { otp := #v[{ rows := [(0xEF, fusesOf 1)] }, { rows := [(0xEF, fusesOf 1)] }, {}] }, by decide +kernel⟩

theorem test_hyp_StartupSteps_9 : ∃ s : State, s.start.step = 7 ∧ s.bnd % 4000 = 0 ∧ s.own.valid = true ∧ s.own.noRec < 2 := ⟨tUp 7 {}, by decide +kernel⟩

/-- The same with no owner and OWN_WAIT `w`. -/
def tWait (w : Nat) : State := { tUp 7 {} with own := {}, cfg := { tS.cfg with cfg := { tCfg with startCfg := #v[tSet dStartCfg 15 0 w] } } }

theorem test_hyp_StartupSteps_10 : ∃ s : State, s.start.step = 7 ∧ s.bnd % 4000 = 0 ∧ StartCfg.ownWait s.stcfg = 0 := ⟨tWait 0, by decide +kernel⟩

theorem test_hyp_StartupSteps_11 : ∃ s : State, s.start.step = 7 ∧ s.bnd % 4000 = 0 ∧ s.own.valid = false ∧ StartCfg.ownWait s.stcfg = 65535 := ⟨tWait 65535, by decide +kernel⟩

theorem test_hyp_StartupSteps_12 : ∃ s : State, s.start.step = 7 ∧ s.bnd % 4000 = 0 ∧ s.own.valid = false ∧ StartCfg.ownWait s.stcfg ≠ 0 ∧ StartCfg.ownWait s.stcfg ≠ 65535 := ⟨tWait 1, by decide +kernel⟩

theorem test_hyp_StartupSteps_13 : ∃ s : State, s.start.step = 8 ∧ s.bnd % 4000 = 0 ∧ s.cfg.inForce ≠ none ∧ s.start.ownFrom + 4000 ≤ s.bnd ∧ s.pwr.slot = 0 := ⟨tS, by decide +kernel⟩

theorem test_hyp_StartupSteps_14 : ∃ s : State, s.start.step = 8 ∧ s.bnd % 4000 = 0 ∧ s.cfg.inForce ≠ none ∧ s.start.ownFrom + 4000 ≤ s.bnd ∧ s.pwr.slot ≠ 0 ∧ s.start.chainAuto = true :=
  ⟨{ tS with pwr := { slot := 16 }, start := { step := 8, chainAuto := true, ownFrom := 4000 } }, by decide +kernel⟩

theorem test_hyp_StartupSteps_15 : ∃ s : State, s.start.step = 8 ∧ s.bnd % 4000 = 0 ∧ s.cfg.inForce ≠ none ∧ s.start.ownFrom + 4000 ≤ s.bnd ∧ s.pwr.slot ≠ 0 ∧ s.start.chainAuto = false ∧ s.own.keeper ≠ s.ring.num :=
  ⟨{ tHand 1 with pwr := { slot := 16 } }, by decide +kernel⟩

theorem test_hyp_StartupSteps_16 : ∃ (s : State) (b : Nat), s.start.step = 8 ∧ s.bnd % 4000 = 0 ∧ s.cfg.inForce ≠ none ∧ s.start.ownFrom + 4000 ≤ s.bnd ∧ s.pwr.slot ≠ 0 ∧ s.start.chainAuto = false ∧ s.ring.ready8 = some b ∧
    b + 8000 ≤ s.bnd := ⟨{ tS with pwr := { slot := 16 }, ring := { ready8 := some 0 } }, 0, by decide +kernel⟩

theorem test_hyp_RegisterAccess_1 : ∃ (s : State) (path : Path) (off size : Nat), s.pathUp path = true ∧ accessOk off size = true ∧ path ≠ .bar0 ∧ off ≠ 0x0110 ∧ off ≠ 0x0520 ∧ off / 4 ≠ 0x0524 / 4 := ⟨tS, .spiB, 0x3FFC, 4, by decide +kernel⟩

theorem test_hyp_RegisterAccess_2 : ∃ (s : State) (path : Path) (off size : Nat), s.pathUp path = true ∧ accessOk off size = true ∧ path = .bar0 ∧ off ≠ 0x0110 ∧ off ≠ 0x0520 ∧ off / 4 ≠ 0x0524 / 4 := ⟨tS, .bar0, 0x3FFF, 1, by decide +kernel⟩

theorem test_hyp_RegisterAccess_10 : ∃ (s : State) (path : Path) (off size : Nat), s.pathUp path = true ∧ accessOk off size = true ∧ off = 0x0110 := ⟨tS, .spiB, 0x0110, 4, by decide +kernel⟩

theorem test_hyp_RegisterAccess_11 : ∃ (s : State) (path : Path) (off size : Nat), s.pathUp path = true ∧ accessOk off size = true ∧ off = 0x0520 := ⟨tS, .bar0, 0x0520, 1, by decide +kernel⟩

theorem test_hyp_RegisterAccess_12 : ∃ (s : State) (path : Path) (off size : Nat), s.pathUp path = true ∧ accessOk off size = true ∧ off / 4 = 0x0524 / 4 := ⟨tS, .spiA, 0x0527, 1, by decide +kernel⟩

theorem test_hyp_RegisterAccess_3 : ∃ (s : State) (path : Path) (off size : Nat), s.pathUp path = true ∧ path = .bar0 ∧ accessOk off size = false := ⟨tS, .bar0, 0x0110, 8, by decide +kernel⟩

theorem test_hyp_RegisterAccess_4 : ∃ (s : State) (path : Path) (off size v : Nat), s.pathUp path = true ∧ Instr.wf (.registerWrite path off size v) = true ∧ accessOk off size = true := ⟨tS, .bar0, 0x0200, 4, 2 ^ 32 - 1, by decide +kernel⟩

theorem test_hyp_RegisterAccess_5 : ∃ (s : State) (path : Path) (off size v : Nat), s.pathUp path = true ∧ Instr.wf (.registerWrite path off size v) = true ∧ accessOk off size = false ∧ path = .bar0 := ⟨tS, .bar0, 0x0201, 2, 0, by decide +kernel⟩

theorem test_hyp_RegisterAccess_6 : ∃ (s : State) (path : Path) (v : Nat), s.pathUp path = true ∧ (path = .bar0 ∨ s.ring.num = 0) ∧ bit v 0 = true ∧ bits v 15 8 = 0xB4 ∧ s.start.barker = true := ⟨{ tS with start := { step := 5, barker := true } }, .spiA, 0xB401, by decide +kernel⟩

theorem test_hyp_RegisterAccess_7 : ∃ (s : State) (path : Path) (v : Nat), s.pathUp path = true ∧ (path = .bar0 ∨ s.ring.num = 0) ∧ bit v 0 = true ∧ bits v 15 8 = 0xB4 ∧ s.start.noimg = true := ⟨{ tS with start := { step := 6, noimg := true } }, .bar0, 0xB401, by decide +kernel⟩

theorem test_hyp_RegisterAccess_8 : ∃ (s : State) (path : Path), s.pathUp path = true ∧ (path = .bar0 ∨ s.ring.num = 0) ∧ s.start.barker = false ∧ s.start.noimg = false := ⟨tS, .bar0, by decide +kernel⟩

theorem test_hyp_SpiAccess_1 : ∃ (s : State) (p : Port) (addr : Nat) (data : List Nat) (crc : Nat), s.pathUp (spiPath p) = true ∧ s.ring.num = 0 ∧ data.length ≤ 2048 ∧ crc8 ([0x01, addr / 256, addr] ++ data) = crc :=
  ⟨tS, .b, 0x0200, [1, 2, 3, 4], _, by decide +kernel, rfl, by decide, rfl⟩

theorem test_hyp_SpiAccess_2 : ∃ (s : State) (p : Port) (addr : Nat) (data : List Nat) (crc : Nat), s.pathUp (spiPath p) = true ∧ s.ring.num = 0 ∧ data.length ≤ 2048 ∧ crc8 ([0x01, addr / 256, addr] ++ data) ≠ crc :=
  ⟨tS, .b, 0x0200, [1, 2, 3, 4], crc8 [1, 2, 0, 1, 2, 3, 4] + 1, by decide +kernel⟩

theorem test_hyp_SpiAccess_3 : ∃ (s : State) (p : Port), s.pathUp (spiPath p) = true ∧ s.ring.num ≠ 0 := ⟨tRef .up .up, .a, by decide +kernel⟩

theorem test_hyp_SpiAccess_4 : ∃ (s : State) (p : Port) (w : Nat), s.pathUp (spiPath p) = true ∧ w % 4 = 0 ∧ w < 0x1000 ∧ w ≠ 0x0110 ∧ w ≠ 0x0520 ∧ w ≠ 0x0524 := ⟨tS, .a, 0x0FFC, by decide +kernel⟩

theorem test_hyp_Ticks_1 : ∃ s : State, s.bnd % 32 = 0 ∧ s.bnd % 4000 = 0 := ⟨tS, by decide +kernel⟩

theorem test_hyp_Ticks_2 : ∃ s : State, s.bnd % 32 ≠ 0 ∧ s.bnd % 4000 ≠ 0 := ⟨{ tS with time := { clk := 8000 } }, by decide +kernel⟩

/-- The phases of rail 1 that it may add. -/
def tCan (s : State) : List Ph := (s.phasesOf tR).filter fun p => (s.phAt p).st == .idle && !(s.phAt p).limHot && !s.heldOut p

theorem test_hyp_PhaseChoice_1 : ∃ s : State, tCan s ≠ [] ∧ ((s.activeOf tR).filter fun p => !PhCfg.noRot (s.pcfg p)) ≠ [] := ⟨tS, by decide +kernel⟩

theorem test_hyp_PhaseChoice_2 : ∃ s : State, tCan s = [] ∧ s.activeOf tR = [] := ⟨{ tS with ph := Vector.replicate 48 {} }, by decide +kernel⟩

theorem test_hyp_PhaseChoice_3 : ∃ s : State, s.activeOf tR ≠ [] ∧ ((s.activeOf tR).filter fun p => !PhCfg.noRot (s.pcfg p)) = [] :=
  ⟨{ tS with cfg := { tS.cfg with cfg := { tCfg with phCfg := tCfg.phCfg.map fun (w : Nat) => tSet w 97 97 1 } } }, by decide +kernel⟩

theorem test_hyp_Coalescing : ∃ (s : State) (e x : Event) (l r : List Event), (∀ y ∈ l, y.code ≠ e.code) ∧ x.code = e.code ∧ x.dev = e.dev ∧ x.scope = e.scope ∧ x.unit = e.unit ∧ x.close = e.close ∧ x.obs = e.obs ∧ x.summary = false ∧
    e.summary = false ∧ s.log.jro = false ∧ s.log.ringQ = l ++ x :: r ∧ s.log.jrnQ = l ++ x :: r :=
  ⟨{ tS with log := { ringQ := [{ code := 1 }, { code := 2, count := 65535 }], jrnQ := [{ code := 1 }, { code := 2, count := 65535 }] } }, { code := 2 }, { code := 2, count := 65535 }, [{ code := 1 }], [], by decide +kernel⟩

theorem test_hyp_SetPoints_1 : ∃ (s : State) (r : Rail), s.vlo r ≤ s.vhi r ∧ s.vlo r ≤ max (s.vreqOf r) (s.railAt r).floor ∧ max (s.vreqOf r) (s.railAt r).floor ≤ s.vhi r ∧ RailCfg.avsEn (s.rcfg r) = false := ⟨tS, tR, by decide +kernel⟩

theorem test_hyp_SetPoints_2 : ∃ (s : State) (r : Rail), s.vlo r ≤ s.vhi r ∧ max (s.vreqOf r) (s.railAt r).floor < s.vlo r := ⟨tRl { st := .regulate, envLo := some 801, envHi := some 801 }, tR, by decide +kernel⟩

theorem test_hyp_SetPoints_3 : ∃ (s : State) (r : Rail), s.vlo r ≤ s.vhi r ∧ s.vhi r < max (s.vreqOf r) (s.railAt r).floor ∧ (s.railAt r).floor ≠ 0 := ⟨tRl { st := .regulate, floors := [(5, 1101)] }, tR, by decide +kernel⟩

theorem test_hyp_SetPoints_4 : ∃ (s : State) (r : Rail), RailCfg.avsEn (s.rcfg r) = true := ⟨tAvs none, tR, by decide +kernel⟩

theorem test_hyp_SetPoints_5 : ∃ (s : State) (r : Rail), (s.railAt r).floors = [] := ⟨tS, tR, by decide +kernel⟩

theorem test_hyp_Buffers : ∃ m n : Mem, m.wf = true ∧ n.wf = true ∧ m ≠ [] := ⟨Mem.writeList [] 4 [7, 0, 255], [], by decide +kernel⟩

theorem test_hyp_SecDed : ∃ d : Nat, d < 2 ^ 64 ∧ fusesOf d ≠ 2 ^ 80 - 1 ∧ fusesOf d ^^^ 2 ^ 71 ≠ 2 ^ 80 - 1 := ⟨2 ^ 64 - 1, by decide +kernel⟩

set_option maxRecDepth 1000000 in
theorem test_hyp_StartupSteps_5 : ∃ s : State, s.start.step = 3 ∧ s.nvm.inReset = false ∧ s.voidRow = false ∧ s.integrityBad = false := ⟨{ tS with start := { step := 3 }}, by decide +kernel⟩

/-! ### Small checks against the spec's worked cases. -/

/-- The state a command leads to. -/
def tNext (o : Host.Outcome State Fault Refusal) : State :=
  match o with
  | .next t => t
  | _ => State.reset

/-- R10's worked case: the not-before field 0x40 read at beat 0x3_FFFF_FF00. -/
theorem test_resolve : resolve 0x3FFFFFF00 0x40 = 0x400000040 := by decide

/-- R437: the CHK of DATA 1 is 0x07. -/
theorem test_chk : fusesOf 1 = 1 + 7 * 2 ^ 64 + 255 * 2 ^ 72 := by decide +kernel

/-- R113's worked record passes its checks. -/
theorem test_comp : compOk (0x0C8000 + 0xEC0000 * 2 ^ 24 + 0x084000 * 2 ^ 48 + 0xC99999 * 2 ^ 96 + 0x19999A * 2 ^ 120 + 0xFCCCCD * 2 ^ 144) = true := by decide +kernel

/-- Host Link's worked case: client 305 moves its tail over the end of the ring. -/
def tTurn : State := { tCl { id := 305, cached := true, entry := 4 + 5 * 2 ^ 64 + 7 * 2 ^ 128 + 2 ^ 136, gen := 7, tktTail := 0xFFFE, tktHead := 0xFFFB } with
  host := { tS.host with cnt := 400, clients := [{ id := 305, cached := true, entry := 4 + 5 * 2 ^ 64 + 7 * 2 ^ 128 + 2 ^ 136, gen := 7, tktTail := 0xFFFE, tktHead := 0xFFFB }] } }

theorem test_turnstile_wraps : ((tNext (exec (.turnstileTicketTail 305 0x00070001 0) tTurn)).client 305).tktTail = 0x0001 := by decide +kernel

theorem test_turnstile_too_far : ((tNext (exec (.turnstileTicketTail 305 0x0007000C 0) tTurn)).client 305).tktTail = 0xFFFE := by decide +kernel

/-- Ticket Catalogue's worked case: the 64 bytes of client 212's vote of 820 mV on RAIL01 of device 4. -/
def tVoteTkt (mv : Nat) : Tkt := { client := 212, raw := 0xD40000 + 0x01500203 * 2 ^ 32 + 0x444 * 2 ^ 64 + mv * 2 ^ 128 }

/-- Device 4 with that client, the envelope from 0.700 V to 0.850 V. -/
def tVoteSt : State :=
  { tRl { st := .regulate, vreq := 790, vreqAcc := true, envLo := some 700, envHi := some 850, floors := [(212, 820)] } with
    ring := { num := 4 }
    cfg := (tAvs none).cfg
    host := { tS.host with cnt := 400, clients := [{ id := 212, cached := true, entry := 3 + 3 * 2 ^ 64 + 3 * 2 ^ 128 + 3 * 2 ^ 136 + 4 * 2 ^ 160, gen := 3 }] } }

theorem test_vote_stub : ((tNext (exec (.voteFloor (tVoteTkt 820)) (tQ tVoteSt (tVoteTkt 820)))).client 212).held.map (fun x => (x.status, x.extra, x.value)) = [(0, 0, 0x010334)] := by decide +kernel

theorem test_vote_clamped : ((tNext (exec (.voteFloor (tVoteTkt 900)) (tQ tVoteSt (tVoteTkt 900)))).client 212).held.map (fun x => (x.status, x.extra)) = [(0, 1)] := by decide +kernel

theorem test_vote_vset : ((tVoteSt.compose tR).railAt tR).vset = 820 := by decide +kernel

/-- Thermal's worked case: the third sample at or above 130 °C of TP5. -/
def tTp5 : State := tPlan { tS with therm := { src := tS.therm.src.set 21 { s0 := some 521, s1 := some 520, warn := { run := 2 } } } } 21

theorem test_therm_above : (let x := (tNext (exec (.thermalSample 21 522) tTp5)).therm.src[21]; (x.warn.above, x.tq)) = (true, some 521) := by decide +kernel

/-- The margin plan's worked case: 13.2 mV below and 9.1 mV above, W_MARGIN 8. -/
theorem test_warn_proposal : ((tNext (exec (.warnProposal tR) { tMp { st := .regulate, regBeats := 86400000, peakLo := 27, peakHi := 19 } with
    cfg := { tS.cfg with cfg := { tCfg with mpCfg := tCfg.mpCfg.set 1 (dMpCfg + 3) } } })).therm.props.map fun x => (x.v1, x.v2, x.inside)) = [(35, 27, true)] := by decide +kernel

/-- The watchdog's worked case: a period of 200 rounds is 800,000 beats. -/
theorem test_wd_period : ((tNext (exec (.wdPeriodEnd 3) { tS with time := { clk := 4799999 }, wd := { slots := tS.wd.slots.set 3 { armed := true, period := 200, beg := 4000000 } } })).wd.slots[3]).beg = 4800000 := by decide +kernel

/-- The register map's worked case: the chain clock over SPI_A at beat 5,000,000,000. -/
theorem test_spi_clock : (((tNext (exec (.spiRead .a 0x0110 8) { tS with time := { clk := 5000000000, counting := true } })).winOf 4094).out.take 8) = [0x00, 0xF2, 0x05, 0x2A, 0x01, 0x00, 0x00, 0x00] := by decide +kernel

/-! ### Ill-formed commands, one for every check of `Instr.wf`. -/

theorem test_wf_client : Instr.wf (.setTarget { tk 0x01 0 [] with client := 4096 }) = false := by decide +kernel

theorem test_wf_raw : Instr.wf (.setTarget { client := 5, raw := 1 + 2 ^ 512 }) = false := by decide +kernel

theorem test_wf_data : Instr.wf (.imageWrite { tkSg 0x30 2 [] with data := [256] }) = false := by decide +kernel

theorem test_wf_segment : Instr.wf (.imageWrite { tkSg 0x30 2 [] with sgl := [2 ^ 128] }) = false := by decide +kernel

theorem test_wf_row : Instr.wf (.setTarget (tk 0x02 0 [])) = false := by decide +kernel

theorem test_wf_row_refused : exec (.setTarget (tk 0x02 0 [])) tS = .refused .illFormed := by rfl

theorem test_wf_gang_command : Instr.wf (.gangCommandReceive 0 0 { pkt := 2 ^ 64 }) = false := by decide

theorem test_wf_gang_return : Instr.wf (.gangReturnReceive 0 0 { pkt := 2 ^ 64 }) = false := by decide

theorem test_wf_page : Instr.wf (.roundTick { badPages := [128] }) = false := by decide

theorem test_wf_cid : Instr.wf (.vaonRise { cid := 64 }) = false := by decide

theorem test_wf_number : Instr.wf (.linkTrained .east {} 64 0) = false := by decide

theorem test_wf_current : Instr.wf (.currentSample .a 0 0 1000) = false := by decide

theorem test_wf_barrier : Instr.wf (.barrierArrival {} 64 0 {}) = false := by decide

theorem test_wf_barrier_number : Instr.wf (.barrierArrival {} 0 0 { bar := 16 }) = false := by decide

theorem test_wf_conversion : Instr.wf (.conversionComplete .a 128 0 0 false) = false := by decide

theorem test_wf_tail_client : Instr.wf (.turnstileTicketTail 4096 0 0) = false := by decide +kernel

theorem test_wf_tail_word : Instr.wf (.turnstileTicketTail 0 (2 ^ 32) 0) = false := by decide +kernel

theorem test_wf_tail_entry : Instr.wf (.turnstileTicketTail 0 0 (2 ^ 256)) = false := by decide +kernel

theorem test_wf_tail_kind : Instr.wf (.turnstileTicketTail 0 (2 ^ 30) 0) = false := by decide +kernel

theorem test_wf_stub_client : Instr.wf (.turnstileStubHead 4096 (2 ^ 30) 0) = false := by decide +kernel

theorem test_wf_stub_word : Instr.wf (.turnstileStubHead 0 (2 ^ 32 + 2 ^ 30) 0) = false := by decide +kernel

theorem test_wf_stub_entry : Instr.wf (.turnstileStubHead 0 (2 ^ 30) (2 ^ 256)) = false := by decide +kernel

theorem test_wf_stub_kind : Instr.wf (.turnstileStubHead 0 0 0) = false := by decide +kernel

theorem test_wf_event_client : Instr.wf (.turnstileEventHead 4096 { w := 2 ^ 31 }) = false := by decide +kernel

theorem test_wf_event_word : Instr.wf (.turnstileEventHead 0 { w := 2 ^ 32 + 2 ^ 31 }) = false := by decide +kernel

theorem test_wf_event_entry : Instr.wf (.turnstileEventHead 0 { w := 2 ^ 31, entry := 2 ^ 256 }) = false := by decide +kernel

theorem test_wf_event_kind : Instr.wf (.turnstileEventHead 0 { w := 3 * 2 ^ 30 }) = false := by decide +kernel

theorem test_wf_fetch_client : Instr.wf (.ticketFetch 4096 0 []) = false := by decide +kernel

theorem test_wf_fetch_entry : Instr.wf (.ticketFetch 0 (2 ^ 256) []) = false := by decide +kernel

theorem test_wf_fetch_data : Instr.wf (.ticketFetch 0 0 [2 ^ 512]) = false := by decide +kernel

theorem test_wf_en_set : Instr.wf (.hostCtlEnSet 2) = false := by decide +kernel

theorem test_wf_en_set_width : Instr.wf (.hostCtlEnSet (2 ^ 32 + 1)) = false := by decide +kernel

theorem test_wf_en_clear : Instr.wf (.hostCtlEnClear 1) = false := by decide +kernel

theorem test_wf_en_clear_width : Instr.wf (.hostCtlEnClear (2 ^ 32)) = false := by decide +kernel

theorem test_wf_link_slow : Instr.wf (.pcieLinkUp {}) = false := by decide

theorem test_wf_link_fast : Instr.wf (.pcieLinkUp { speed := 4 }) = false := by decide

theorem test_wf_spi_write_addr : Instr.wf (.spiWrite .a 65536 [0] 0) = false := by decide

theorem test_wf_spi_write_data : Instr.wf (.spiWrite .a 0 [] 0) = false := by decide

theorem test_wf_spi_write_crc : Instr.wf (.spiWrite .a 0 [0] 256) = false := by decide

theorem test_wf_spi_read_addr : Instr.wf (.spiRead .a 65536 1) = false := by decide

theorem test_wf_spi_read_none : Instr.wf (.spiRead .a 0 0) = false := by decide

theorem test_wf_spi_read_long : Instr.wf (.spiRead .a 0 2049) = false := by decide

theorem test_wf_reg_offset : Instr.wf (.registerWrite .bar0 65536 4 0) = false := by decide

theorem test_wf_reg_value : Instr.wf (.registerWrite .bar0 0x0200 4 (2 ^ 32)) = false := by decide

theorem test_wf_reg_ctl : Instr.wf (.registerWrite .bar0 0x0214 4 0) = false := by decide

theorem test_wf_reg_start : Instr.wf (.registerWrite .spiA 0x0024 2 0) = false := by decide

theorem test_wf_reg_turnstile : Instr.wf (.registerWrite .bar0 0x7FFC 4 0) = false := by decide

theorem test_wf_ring_ticket_src : Instr.wf (.ringTicketPacket {} 64 0) = false := by decide +kernel

theorem test_wf_ring_ticket_raw : Instr.wf (.ringTicketPacket {} 0 (2 ^ 512)) = false := by decide +kernel

theorem test_wf_ring_stub_src : Instr.wf (.ringStubPacket {} 64 {}) = false := by decide +kernel

theorem test_wf_ring_stub_raw : Instr.wf (.ringStubPacket {} 0 { raw := 2 ^ 128 }) = false := by decide +kernel

theorem test_wf_ring_stub_data : Instr.wf (.ringStubPacket {} 0 { data := [256] }) = false := by decide +kernel

theorem test_wf_telem_dev : Instr.wf (.ringTelemetryPacket {} { dev := 64 } 0 0 0 0) = false := by decide +kernel

theorem test_wf_telem_event : Instr.wf (.ringTelemetryPacket {} { event := some (2 ^ 256) } 0 0 0 0) = false := by decide +kernel

/-- A record read back is the event it was made of (Table 13.4). -/
theorem test_event_record : eventOf (Event.word { code := 0x30, obs := true, scope := 4, unit := 65535, count := 2, beat := 2 ^ 64 - 1, arg2 := 7, eseq := some 65535 } 63) =
    { code := 0x30, obs := true, scope := 4, unit := 65535, count := 2, beat := 2 ^ 64 - 1, arg2 := 7, eseq := some 65535, dev := some 63 } := by decide +kernel

theorem test_wf_head_dev : Instr.wf (.headAnnounce {} 64 0 0) = false := by decide

theorem test_wf_head_count : Instr.wf (.headAnnounce {} 0 0 4096) = false := by decide

theorem test_wf_alarm_dev : Instr.wf (.alarmReportReceive {} 64 0 {}) = false := by decide

theorem test_wf_alarm_kind : Instr.wf (.alarmReportReceive {} 0 64 {}) = false := by decide

theorem test_wf_alarm_count : Instr.wf (.alarmReportReceive {} 0 0 { count := 65536 }) = false := by decide

theorem test_wf_presence_dev : Instr.wf (.presencePacket {} 64 {}) = false := by decide

theorem test_wf_presence_arb : Instr.wf (.presencePacket {} 0 { arb := 256 }) = false := by decide

theorem test_wf_presence_svc : Instr.wf (.presencePacket {} 0 { svc := 8 }) = false := by decide

theorem test_wf_presence_slots : Instr.wf (.presencePacket {} 0 { slots := [{}, {}, {}, {}, {}] }) = false := by decide

/-- No row of the table gives bits, so no word spells a command. -/
theorem test_decode_none : decodeTableWord 16 0 = none := rfl

end Sys2Proof
end

section
/-!
PHASE CHOICE (R71). The model chooses a phase by a fold over an ascending list that keeps the later of two phases the rule holds
equal. One lemma about such a fold serves the phase a rail adds (least wear) and the phase it sheds (most wear).
-/
namespace Sys2Proof.Machine

/-- The later of the best phase so far and the next one, unless the best so far is strictly better under `le`. -/
def pickStep (le : Ph → Ph → Prop) [DecidableRel le] (b : Option Ph) (p : Ph) : Option Ph :=
  match b with
  | none => some p
  | some q => if le q p then some p else some q

theorem State.mostWorn_eq_foldl (s : State) (l : List Ph) :
    s.mostWorn l = l.foldl (pickStep fun q p => (s.phAt q).wear ≤ (s.phAt p).wear) none := rfl

theorem State.leastWorn_eq_foldl (s : State) (l : List Ph) :
    s.leastWorn l = l.foldl (pickStep fun q p => (s.phAt p).wear ≤ (s.phAt q).wear) none := rfl

/-- `p` is the best phase of `l` under `le`, and the highest number among those as good as it. -/
def IsLastBest (le : Ph → Ph → Prop) (l : List Ph) (p : Ph) : Prop :=
  p ∈ l ∧ ∀ q ∈ l, le q p ∧ (le p q → q ≤ p)

section
variable {le : Ph → Ph → Prop}

theorem isLastBest_singleton (refl : ∀ a, le a a) (p : Ph) : IsLastBest le [p] p := by
  simp [IsLastBest, refl]

/-- A next phase as good as the best so far takes its place: it is the last, so the ties are its own. -/
theorem IsLastBest.concat_of_le (refl : ∀ a, le a a) (trans : ∀ a b c, le a b → le b c → le a c) {l : List Ph} {b p : Ph}
    (hb : IsLastBest le l b) (hlt : ∀ q ∈ l, q < p) (hle : le b p) : IsLastBest le (l ++ [p]) p := by
  refine ⟨by simp, fun q hq => ?_⟩
  rcases List.mem_append.mp hq with hq | hq
  · exact ⟨trans q b p (hb.2 q hq).1 hle, fun _ => (hlt q hq).le⟩
  · obtain rfl := List.mem_singleton.mp hq
    exact ⟨refl q, fun _ => le_rfl⟩

/-- A next phase that is worse leaves the best so far. -/
theorem IsLastBest.concat_of_not_le (total : ∀ a b, le a b ∨ le b a) {l : List Ph} {b p : Ph}
    (hb : IsLastBest le l b) (hle : ¬ le b p) : IsLastBest le (l ++ [p]) b := by
  refine ⟨List.mem_append_left _ hb.1, fun q hq => ?_⟩
  rcases List.mem_append.mp hq with hq | hq
  · exact hb.2 q hq
  · obtain rfl := List.mem_singleton.mp hq
    exact ⟨(total b q).resolve_left hle, fun h => absurd h hle⟩

/-- Over an ascending list that is not empty, the fold finds the last of the best phases. -/
theorem foldl_pickStep_isLastBest [DecidableRel le] (trans : ∀ a b c, le a b → le b c → le a c) (total : ∀ a b, le a b ∨ le b a)
    {l : List Ph} (hl : l.Pairwise (· < ·)) (hne : l ≠ []) : ∃ p, l.foldl (pickStep le) none = some p ∧ IsLastBest le l p := by
  have refl : ∀ a, le a a := fun a => (total a a).elim id id
  induction l using List.reverseRecOn with
  | nil => exact absurd rfl hne
  | append_singleton l p ih =>
    obtain ⟨hl', -, hlt⟩ := List.pairwise_append.mp hl
    rw [List.foldl_concat]
    rcases eq_or_ne l [] with rfl | hne'
    · exact ⟨p, rfl, isLastBest_singleton refl p⟩
    · obtain ⟨b, hfold, hb⟩ := ih hl' hne'
      rw [hfold]
      by_cases hle : le b p
      · exact ⟨p, if_pos hle, hb.concat_of_le refl trans (fun q hq => hlt q hq p (by simp)) hle⟩
      · exact ⟨b, if_neg hle, hb.concat_of_not_le total hle⟩

end

/-- The most worn phase of an ascending list, the highest number of those that tie. -/
theorem State.mostWorn_spec (s : State) {l : List Ph} (hl : l.Pairwise (· < ·)) (hne : l ≠ []) :
    ∃ p ∈ l, s.mostWorn l = some p
      ∧ ∀ q ∈ l, (s.phAt q).wear < (s.phAt p).wear ∨ ((s.phAt q).wear = (s.phAt p).wear ∧ q.val ≤ p.val) := by
  obtain ⟨p, hp, hmem, hbest⟩ := foldl_pickStep_isLastBest (le := fun q p => (s.phAt q).wear ≤ (s.phAt p).wear)
    (fun _ _ _ => le_trans) (fun _ _ => le_total _ _) hl hne
  refine ⟨p, hmem, s.mostWorn_eq_foldl l ▸ hp, fun q hq => ?_⟩
  obtain ⟨hle, htie⟩ := hbest q hq
  exact hle.lt_or_eq.imp_right fun heq => ⟨heq, htie heq.ge⟩

/-- The least worn phase of an ascending list, the highest number of those that tie. -/
theorem State.leastWorn_spec (s : State) {l : List Ph} (hl : l.Pairwise (· < ·)) (hne : l ≠ []) :
    ∃ p ∈ l, s.leastWorn l = some p
      ∧ ∀ q ∈ l, (s.phAt p).wear < (s.phAt q).wear ∨ ((s.phAt p).wear = (s.phAt q).wear ∧ q.val ≤ p.val) := by
  obtain ⟨p, hp, hmem, hbest⟩ := foldl_pickStep_isLastBest (le := fun q p => (s.phAt p).wear ≤ (s.phAt q).wear)
    (fun _ _ _ hab hbc => hbc.trans hab) (fun _ _ => le_total _ _) hl hne
  refine ⟨p, hmem, s.leastWorn_eq_foldl l ▸ hp, fun q hq => ?_⟩
  obtain ⟨hle, htie⟩ := hbest q hq
  exact hle.lt_or_eq.imp_right fun heq => ⟨heq, htie heq.ge⟩

theorem State.phasesOf_ascending (s : State) (r : Rail) : (s.phasesOf r).Pairwise (· < ·) :=
  (List.pairwise_lt_finRange 48).filter _

theorem State.activeOf_ascending (s : State) (r : Rail) : (s.activeOf r).Pairwise (· < ·) :=
  (s.phasesOf_ascending r).filter _

theorem State.spare_ascending (s : State) (r : Rail) : (s.spare r).Pairwise (· < ·) :=
  (s.phasesOf_ascending r).filter _

theorem State.addPhases_of_spare_nil {s : State} {r : Rail} (n : Nat) (h : s.spare r = []) : s.addPhases r n = s := by
  cases n with
  | zero => rfl
  | succ n => simp [State.addPhases, h, State.leastWorn]

theorem State.addPhases_one_of_leastWorn {s : State} {r : Rail} {p : Ph} (h : s.leastWorn (s.spare r) = some p) :
    s.addPhases r 1 = s.toActive p := by
  simp [State.addPhases, h]

@[simp] theorem State.shedPick_nil (s : State) : s.shedPick [] = none := rfl

theorem State.shedPick_of_all_noRot {s : State} {l : List Ph} (h : (l.filter fun p => !PhCfg.noRot (s.pcfg p)) = []) :
    s.shedPick l = l.getLast? := if_pos h

theorem State.shedPick_of_free {s : State} {l : List Ph} (h : (l.filter fun p => !PhCfg.noRot (s.pcfg p)) ≠ []) :
    s.shedPick l = s.mostWorn (l.filter fun p => !PhCfg.noRot (s.pcfg p)) := if_neg h

/-- The last phase of an ascending list has its highest number. -/
theorem getLast?_highest {l : List Ph} (hl : l.Pairwise (· < ·)) (hne : l ≠ []) :
    ∃ p ∈ l, l.getLast? = some p ∧ ∀ q ∈ l, q.val ≤ p.val :=
  ⟨l.getLast hne, l.getLast_mem hne, List.getLast?_eq_some_getLast hne, fun _ hq => (hl.imp le_of_lt).rel_getLast hq⟩

/-- Settles O56: the lists the two choices fold over ascend, so the fold's last best phase is the one R71 names. -/
theorem phaseChoice : Obligations.PhaseChoice := by
  unfold Obligations.PhaseChoice
  refine fun s r => ⟨⟨State.addPhases_of_spare_nil 1, fun hcan => ?_⟩, ?_, fun hact hfree => ?_, fun hfree => ?_⟩
  · obtain ⟨p, hmem, hpick, hbest⟩ := s.leastWorn_spec (s.spare_ascending r) hcan
    exact ⟨p, hmem, State.addPhases_one_of_leastWorn hpick, hbest⟩
  · intro hact
    rw [hact, State.shedPick_nil]
  · rw [State.shedPick_of_all_noRot hfree]
    exact getLast?_highest (s.activeOf_ascending r) hact
  · rw [State.shedPick_of_free hfree]
    exact s.mostWorn_spec ((s.activeOf_ascending r).filter _) hfree

end Sys2Proof.Machine
end

section
/-!
STALE GENERATIONS (R323). Every ticket of the catalogue runs by one of three operations: its row's checks, those of a signed
ticket's part, or the answer to an unknown opcode. Each of them looks at the generation first, so one lemma for each settles
every row. A turnstile write looks at the generation of the entry it meets, whatever its KIND.
-/
namespace Sys2Proof.Machine

/-! ### How a ticket runs -/

/-- The outcome of a ticket `t` of the row `k` in the state `s` is that of the checks of R340 with an effect, that of a part of a
signed ticket, or the answer to an unknown opcode. -/
inductive RunsAsTicket (t : Tkt) (k : Nat) (s : State) : Host.Outcome State Fault Refusal → Prop where
  | row (known : k ≠ 4096) (c : TCheck) (body : State → State) : RunsAsTicket t k s (runTicket t k s c body)
  | signed (known : k ≠ 4096) (unlock : Bool) (c : TCheck) (body : State → State) :
      RunsAsTicket t k s (signedPart t k unlock c s body)
  | unknown (hk : k = 4096) : RunsAsTicket t k s (execUnknownOpcode t s)

theorem execForecast_runsAsTicket (t : Tkt) (s : State) : RunsAsTicket t 0x100 s (execForecast t s) := by
  unfold execForecast
  cases t.rail with
  | none => exact .row (by decide) _ _
  | some r => exact .row (by decide) _ _

/-- Every command that carries a ticket runs it in one of the three ways. -/
theorem exec_runsAsTicket {i : Instr} {t : Tkt} {k : Nat} (h : i.ticket = some (t, k)) (s : State) :
    RunsAsTicket t k s (exec i s) := by
  cases i
  all_goals cases h
  all_goals dsimp only [exec]
  case forecast => exact execForecast_runsAsTicket t s
  case unknownOpcode => exact .unknown rfl
  all_goals dsimp only [
    execVoteFloor, execSetTarget, execSetEnvelope, execForecastCancel, execForecastTrustRead, execForecastTrustSet,
    execTelemRead, execBulkRead, execMpRead, execImageWrite, execImageCommit, execOverlayWrite, execOverlayCommit,
    execOverlaySelect, execMpAccept, execMpReject, execMpReset, execSeqRun, execSeqSkip, execSeqAbort, execHkSwitch,
    execClearLatch, execBenchPhase, execBenchRail, execBenchControlDie, execBenchChainDevice, execReadmitPhase,
    execReadmitRail, execReadmitControlDie, execReadmitCharger, execReadmitGangMember, execReadmitChainDevice,
    execReadmitHostPort, execSwap, execThermClear, execClaimPart, execClaim, execHeartbeat, execHandover, execOwnerRead,
    execWdCheckin, execWdArm, execWdDisarm, execRtcSet, execRtcShift, execRtcWake, execRtcRead, execMeterStart, execMeterStop,
    execMeterRead, execMeterClear, execGaugeRead, execChgSet, execPackSwitchOpen, execPackSwitchRelease, execShipArm,
    execShipCancel, execGaugeSetSoc, execGaugeReset, execCntRead, execCntCtl, execTraceStreamStart, execTraceStreamStop,
    execAlarmClear, execFuseWrite, execAttest, execDebugUnlockPart, execDebugUnlock]
  case claimPart | claim | debugUnlockPart | debugUnlock => exact .signed (by decide) _ _ _
  all_goals exact .row (by decide) _ _

/-- A ticket of a row other than UNKNOWN_OPCODE has an opcode of Table 13.7: `Tkt.rowKey` names the opcodes that have several rows,
and its last arm asks the table. -/
theorem opRow_of_rowKey {t : Tkt} (h : t.rowKey ≠ 4096) : ∃ row, opRow t.op = some row := by
  rw [← Option.isSome_iff_exists]
  unfold Tkt.rowKey at h
  dsimp only at h
  split at h
  case h_11 => exact by_contra fun hno => h (if_neg hno)
  all_goals simp [*, opRow]

/-! ### A ticket of a stale generation -/

/-- Of the checks of R340 the generation comes first. -/
theorem firstFail_headChecks_stale {s : State} {t : Tkt} (hfwd : s.isFwd t = false) (hgen : t.gen ≠ (s.client t.client).gen)
    (row : OpRow) (c : TCheck) : firstFail (headChecks s t row c) = some { status := 0x10 } := by
  have hstale : (t.gen != (s.client t.client).gen) = true := bne_iff_ne.mpr hgen
  simp [headChecks, hfwd, hstale, firstFail]

section
variable {s : State} {t : Tkt} {k : Nat} (hkey : t.rowKey = k) (hready : s.ready t = true) (hfwd : s.isFwd t = false)
  (hgen : t.gen ≠ (s.client t.client).gen)
include hkey hready hfwd hgen

theorem runTicket_stale (known : k ≠ 4096) (c : TCheck) (body : State → State) :
    runTicket t k s c body = .next (s.takeTicket.reply t { status := 0x10 }) := by
  obtain ⟨row, hrow⟩ := opRow_of_rowKey (hkey ▸ known)
  simp [runTicket, hkey, hready, hrow, firstFail_headChecks_stale hfwd hgen]

/-- A stale part of a signed ticket leaves the parts that are held (R348). -/
theorem signedPart_stale (known : k ≠ 4096) (unlock : Bool) (c : TCheck) (body : State → State) :
    signedPart t k unlock c s body = .next (s.takeTicket.reply t { status := 0x10 }) := by
  simp [signedPart, hgen, runTicket_stale hkey hready hfwd hgen known]

theorem execUnknownOpcode_stale (hk : k = 4096) :
    execUnknownOpcode t s = .next (s.takeTicket.reply t { status := 0x10 }) := by
  simp [execUnknownOpcode, hkey, hk, hready, hfwd, hgen]

/-- A ticket of a stale generation is taken and answered STALE_GEN, and that is all. -/
theorem RunsAsTicket.stale {o : Host.Outcome State Fault Refusal} (h : RunsAsTicket t k s o) :
    o = .next (s.takeTicket.reply t { status := 0x10 }) := by
  cases h with
  | row known c body => exact runTicket_stale hkey hready hfwd hgen known c body
  | signed known unlock c body => exact signedPart_stale hkey hready hfwd hgen known unlock c body
  | unknown hk => exact execUnknownOpcode_stale hkey hready hfwd hgen hk

end

/-- HOST_CNT.STALE and the counter of stale tickets, as the answer STALE_GEN counts them. -/
def State.countStale (s : State) : State :=
  ({ s with host := { s.host with stale := satAdd 16 s.host.stale 1 } } : State).count 0x054 3 1

theorem State.reply_stale (s : State) (t : Tkt) :
    s.reply t { status := 0x10 } = s.countStale.stub { ref := t.ref, status := 0x10 } := by
  simp [State.reply, State.countStale]

@[simp] theorem State.countStale_host (s : State) :
    s.countStale.host = { s.host with stale := satAdd 16 s.host.stale 1 } := by
  simp [State.countStale]

theorem State.countStale_eq (s : State) :
    s.countStale = { s with host := s.countStale.host, log := s.countStale.log } := by
  rw [State.countStale_host, State.countStale, State.count_eq]

@[simp] theorem State.takeTicket_host (s : State) :
    s.takeTicket.host = { s.host with fetched := s.host.fetched.drop 1, ticketN := s.host.ticketN + 1 } := by
  simp [State.takeTicket]

/-! ### A turnstile write of a stale generation -/

@[simp] theorem State.count_inRange (s : State) (blk e k c : Nat) : (s.count blk e k).inRange c = s.inRange c := by
  simp [State.inRange, State.isHead]

/-- A turnstile write whose generation is not that of the entry it meets is discarded, whatever its KIND would do (R318, R323). -/
theorem State.turnstile_stale {s u : State} {c w entry : Nat} (body : State → State) (hrange : s.inRange c = true)
    (hu : u = (s.count 0x055 0 1).meetEntry c entry (some (bits w 23 16))) (hgen : (u.client c).entryGen ≠ bits w 23 16) :
    s.turnstile c w entry body = u.badTs c (bits w 31 30) := by
  subst hu
  simp [State.turnstile, hrange, hgen]

section
variable {s : State} {c w : Nat} (hpath : s.tsPath c = true)
include hpath

theorem exec_turnstileTicketTail (entry : Nat) (hkind : bits w 31 30 = 0) :
    exec (.turnstileTicketTail c w entry) s = .next (s.turnstile c w entry fun u => u.ticketTail c w) := by
  simp [exec, execTurnstileTicketTail, hpath, hkind]

theorem exec_turnstileStubHead (entry : Nat) (hkind : bits w 31 30 = 1) :
    exec (.turnstileStubHead c w entry) s = .next (s.turnstile c w entry fun u => u.stubHeadWrite c w) := by
  simp [exec, execTurnstileStubHead, hpath, hkind]

theorem exec_turnstileEventHead (entry : Nat) (hkind : bits w 31 30 = 2) :
    exec (.turnstileEventHead c { w := w, entry := entry }) s = .next (s.turnstile c w entry fun u => u.eventHead c w) := by
  simp [exec, execTurnstileEventHead, hpath, hkind]

end

/-- Settles O5: whatever its row, a stale ticket is answered by the first check that every ticket meets, and a stale turnstile
write is discarded by the check that every turnstile write meets. -/
theorem staleGenerations : Obligations.StaleGenerations := by
  unfold Obligations.StaleGenerations
  refine ⟨fun i t k s hi hkey hready hfwd hgen => ?_, fun s u c w entry hpath hrange hgen hu => ?_⟩
  · refine ⟨s.takeTicket.countStale, by simp, ?_, ?_⟩
    · rw [State.countStale_eq, State.takeTicket_eq]
      simp
    · rw [(exec_runsAsTicket hi s).stale hkey hready hfwd hgen, State.reply_stale, Tkt.ref]
  · refine ⟨fun hkind => ?_, fun hkind => ?_, fun hkind => ?_⟩
    · rw [exec_turnstileTicketTail hpath entry hkind, State.turnstile_stale _ hrange hu hgen, hkind]
    · rw [exec_turnstileStubHead hpath entry hkind, State.turnstile_stale _ hrange hu hgen, hkind]
    · rw [exec_turnstileEventHead hpath entry hkind, State.turnstile_stale _ hrange hu hgen, hkind]

end Sys2Proof.Machine
end

section
/-!
COALESCING (R404). `qJoin` counts an event in the first pending record that it agrees with, so a queue cut at that record says
what it becomes. Both queues then count the coalesced event in the performance counters, which leaves the queues and the next
ESEQ as they are.
-/
namespace Sys2Proof.Machine

/-! ### Counting leaves the queues -/

/-- `t` is `s` but for the performance counters and what a sampled counter's carry posts (R411, R414). -/
def CountsOnly (s t : State) : Prop :=
  t = { s with log := { s.log with cnts := t.log.cnts, staged := t.log.staged, evalQ := t.log.evalQ } }

theorem CountsOnly.refl (s : State) : CountsOnly s s := rfl

theorem CountsOnly.trans {s t u : State} (hst : CountsOnly s t) (htu : CountsOnly t u) : CountsOnly s u := by
  unfold CountsOnly at *
  rw [htu, hst]

theorem CountsOnly.foldl {α : Type} {g : State → α → State} (hg : ∀ s x, CountsOnly s (g s x)) (l : List α) (s : State) :
    CountsOnly s (l.foldl g s) := by
  induction l generalizing s with
  | nil => exact .refl s
  | cons x l ih => exact (hg s x).trans (ih (g s x))

theorem CountsOnly.bumpPair (s : State) (blk ctr p e k : Nat) : CountsOnly s (s.bumpPair blk ctr p e k) := by
  unfold State.bumpPair
  split
  · dsimp only
    split <;> split <;> rfl
  · exact .refl s

theorem CountsOnly.countIn (s : State) (blk e k : Nat) : CountsOnly s (s.countIn blk e k) := by
  unfold State.countIn
  split
  · exact .foldl (fun s j => .bumpPair s _ _ _ e k) _ s
  · exact .refl s

theorem CountsOnly.count (s : State) (blk e k : Nat) : CountsOnly s (s.count blk e k) := by
  unfold State.count
  dsimp only
  split
  · exact .countIn s blk e k
  · exact (CountsOnly.countIn s blk e k).trans (.countIn _ _ _ _)

@[simp] theorem State.count_ringQ (s : State) (blk e k : Nat) : (s.count blk e k).log.ringQ = s.log.ringQ := by
  rw [CountsOnly.count s blk e k]

@[simp] theorem State.count_jrnQ (s : State) (blk e k : Nat) : (s.count blk e k).log.jrnQ = s.log.jrnQ := by
  rw [CountsOnly.count s blk e k]

@[simp] theorem State.count_eseq (s : State) (blk e k : Nat) : (s.count blk e k).log.eseq = s.log.eseq := by
  rw [CountsOnly.count s blk e k]

/-! ### Joining a queue -/

theorem Event.meets_iff {a b : Event} : a.meets b = true ↔ a.code = b.code ∧ a.dev = b.dev ∧ a.scope = b.scope ∧
    a.unit = b.unit ∧ a.close = b.close ∧ a.obs = b.obs ∧ a.summary = false ∧ b.summary = false := by
  simp [Event.meets, and_assoc]

/-- COUNT rises by 1 and saturates at 65,535 (R404). -/
theorem satAdd_sixteen (n k : Nat) : satAdd 16 n k = min 65535 (n + k) := Nat.min_comm _ _

theorem qJoin_cons_of_meets {e x : Event} (hx : x.meets e = true) (r : List Event) :
    qJoin e (x :: r) = some ({ x with count := min 65535 (x.count + 1) } :: r, x) := by
  rw [qJoin, if_pos hx, satAdd_sixteen]

theorem qJoin_cons_of_not_meets {e x : Event} (hx : ¬ x.meets e = true) (r : List Event) :
    qJoin e (x :: r) = (qJoin e r).map fun y => (x :: y.1, y.2) := if_neg hx

/-- An event finds no record to coalesce into where it agrees with none. -/
theorem qJoin_eq_none_iff {e : Event} {q : List Event} : qJoin e q = none ↔ ∀ x ∈ q, ¬ x.meets e = true := by
  induction q with
  | nil => simp [qJoin]
  | cons x r ih =>
    by_cases hx : x.meets e = true
    · simp [qJoin_cons_of_meets hx, hx]
    · simp [qJoin_cons_of_not_meets hx, hx, ih]

/-- The first record that agrees with the event counts it; the records before and behind it stand. -/
theorem qJoin_append_cons {e x : Event} {l : List Event} (hl : ∀ y ∈ l, ¬ y.meets e = true) (hx : x.meets e = true)
    (r : List Event) : qJoin e (l ++ x :: r) = some (l ++ { x with count := min 65535 (x.count + 1) } :: r, x) := by
  induction l with
  | nil => exact qJoin_cons_of_meets hx r
  | cons y l ih =>
    obtain ⟨hy, hrest⟩ := List.forall_mem_cons.mp hl
    rw [List.cons_append, qJoin_cons_of_not_meets hy, ih hrest]
    rfl

/-! ### The two queues -/

/-- A coalesced event leaves the ring queue as `qJoin` has it, and takes no ESEQ (R399, R404). -/
theorem State.ringPut_of_join {s : State} {e x : Event} {q : List Event} (hjoin : qJoin e s.log.ringQ = some (q, x)) :
    (s.ringPut e).2.log.ringQ = q ∧ (s.ringPut e).2.log.eseq = s.log.eseq := by
  simp [State.ringPut, hjoin]

/-- A coalesced event leaves the journal queue as `qJoin` has it, unless the journal is read-only (R404, R416). -/
theorem State.jrnPut_of_join {s : State} {e x : Event} {q : List Event} (hjro : s.log.jro = false)
    (hjoin : qJoin e s.log.jrnQ = some (q, x)) : (s.jrnPut e).log.jrnQ = q := by
  simp [State.jrnPut, hjro, hjoin]

/-- Settles O57: the two queues are joined by the one `qJoin`, which walks to the first record that agrees. -/
theorem coalescing : Obligations.Coalescing := by
  unfold Obligations.Coalescing
  simp only [← Event.meets_iff]
  refine ⟨fun e q => qJoin_eq_none_iff.symm, fun e x l r hl hx => qJoin_append_cons hl hx r,
    fun s e x l r hl hx => ⟨fun hring => ?_, fun hjro hjrn => ?_⟩⟩
  · exact State.ringPut_of_join (hring ▸ qJoin_append_cons hl hx r)
  · exact State.jrnPut_of_join hjro (hjrn ▸ qJoin_append_cons hl hx r)

end Sys2Proof.Machine
end

section
/-!
WHAT EVERY COMMAND KEEPS (R31, R437, R442). The laws of the commands (`Kept`, `FuseKept`) put together over the instruction type:
most commands keep the queue, the fuses and the beat count; a few blow fuses, move the beat count or reset the device.
-/
namespace Sys2Proof.Machine

/-- The commands that may blow fuses, move the beat count or reset the device. -/
def blowsOrMoves : Instr → Bool
  | .beatTick _ | .roundTick _ | .svcBtnResetEnd | .shipEnd | .spiWrite _ _ _ _ | .spiRead _ _ _ | .startCtlRestart _ _
  | .clockAdopt | .timePacket _ _ _ _ | .epochCommit _ _ _ _ | .fuseWriteDone _ | .voidingDone _ | .powerFail | .supplyReset
  | .vaonRise _ | .otpCheck | .debugUnlock _ _ => true
  | _ => false

/-- Every other command keeps the queue, the fuses and the beat count. -/
theorem exec_kept {c : Instr} {s u : State} (hc : blowsOrMoves c = false) (h : exec c s = .next u) : Kept s u := by
  cases c with
  | frameTick ir => exact execFrameTick_kept ir s u h
  | catchEnd d r => exact execCatchEnd_kept d r s u h
  | catchRearm d r => exact execCatchRearm_kept d r s u h
  | lendSteerOn p => exact execLendSteerOn_kept p s u h
  | lendArrive p => exact execLendArrive_kept p s u h
  | currentSample d p mv uv => exact execCurrentSample_kept d p mv uv s u h
  | stageFault d p => exact execStageFault_kept d p s u h
  | phLimitCrossing d p low => exact execPhLimitCrossing_kept d p low s u h
  | negativeLimit d p => exact execNegativeLimit_kept d p s u h
  | zeroCurrentTrip d p => exact execZeroCurrentTrip_kept d p s u h
  | windowSample d r half uv low high => exact execWindowSample_kept d r half uv low high s u h
  | trackingSample d r remote uv => exact execTrackingSample_kept d r remote uv s u h
  | senseWatchEnd r => exact execSenseWatchEnd_kept r s u h
  | phaseStaticCheckEnd p => exact execPhaseStaticCheckEnd_kept p s u h
  | phaseLiveCheckEnd p => exact execPhaseLiveCheckEnd_kept p s u h
  | phWearCommit => exact execPhWearCommit_kept s u h
  | rotationPeriod => exact execRotationPeriod_kept s u h
  | gangCommandReceive r m x => exact execGangCommandReceive_kept r m x s u h
  | gangReturnReceive r m x => exact execGangReturnReceive_kept r m x s u h
  | gangCommandMiss r => exact execGangCommandMiss_kept r s u h
  | gangHoldExpiry r => exact execGangHoldExpiry_kept r s u h
  | dieSelfReport d => exact execDieSelfReport_kept d s u h
  | laneMismatch p t => exact execLaneMismatch_kept p t s u h
  | vote c1 c2 => exact execVote_kept c1 c2 s u h
  | trapeze => exact execTrapeze_kept s u h
  | gateMonitorFault lane => exact execGateMonitorFault_kept lane s u h
  | refoscLost d => exact execRefoscLost_kept d s u h
  | beatStrobeLost => exact execBeatStrobeLost_kept s u h
  | dieSelftestEnd pass => exact execDieSelftestEnd_kept pass s u h
  | dieResyncEnd ok => exact execDieResyncEnd_kept ok s u h
  | dieObservationEnd => exact execDieObservationEnd_kept s u h
  | hiccupOffEnd r => exact execHiccupOffEnd_kept r s u h
  | hiccupGoodTime r => exact execHiccupGoodTime_kept r s u h
  | dischargeEnd r => exact execDischargeEnd_kept r s u h
  | railReadmitRampEnd r => exact execRailReadmitRampEnd_kept r s u h
  | riseFail n => exact execRiseFail_kept n s u h
  | seqWaitEnd n => exact execSeqWaitEnd_kept n s u h
  | seqStall n => exact execSeqStall_kept n s u h
  | barrierArrival rx dev n a => exact execBarrierArrival_kept rx dev n a s u h
  | barrierTimeout n => exact execBarrierTimeout_kept n s u h
  | feedLost f cause => exact execFeedLost_kept f cause s u h
  | feedPresent f => exact execFeedPresent_kept f s u h
  | feedReturn => exact execFeedReturn_kept s u h
  | feedRev f => exact execFeedRev_kept f s u h
  | feedOv f => exact execFeedOv_kept f s u h
  | hkPowerGood k good => exact execHkPowerGood_kept k good s u h
  | hkExcursion k above => exact execHkExcursion_kept k above s u h
  | chgTimeout => exact execChgTimeout_kept s u h
  | packRemoved => exact execPackRemoved_kept s u h
  | packOn => exact execPackOn_kept s u h
  | packOpenTimeEnd => exact execPackOpenTimeEnd_kept s u h
  | chargerCheckEnd => exact execChargerCheckEnd_kept s u h
  | svcBtnPress => exact execSvcBtnPress_kept s u h
  | svcBtnHold => exact execSvcBtnHold_kept s u h
  | shipEffect => exact execShipEffect_kept s u h
  | gaugeRestPoint => exact execGaugeRestPoint_kept s u h
  | gaugeCommit => exact execGaugeCommit_kept s u h
  | thermalSample k q => exact execThermalSample_kept k q s u h
  | ageRoMeasure d drift => exact execAgeRoMeasure_kept d drift s u h
  | chirpStart r => exact execChirpStart_kept r s u h
  | chirpToneStep r c esr => exact execChirpToneStep_kept r c esr s u h
  | warnProposal r => exact execWarnProposal_kept r s u h
  | mpAutoApply => exact execMpAutoApply_kept s u h
  | meterTimerTick n => exact execMeterTimerTick_kept n s u h
  | meterPwmTrigger c p falling => exact execMeterPwmTrigger_kept c p falling s u h
  | conversionComplete c ch code code2 stalled => exact execConversionComplete_kept c ch code code2 stalled s u h
  | turnstileTicketTail c w entry => exact execTurnstileTicketTail_kept c w entry s u h
  | turnstileStubHead c w entry => exact execTurnstileStubHead_kept c w entry s u h
  | turnstileEventHead c w => exact execTurnstileEventHead_kept c w s u h
  | ticketFetch c entry data => exact execTicketFetch_kept c entry data s u h
  | dmaErr c op seq gen err => exact execDmaErr_kept c op seq gen err s u h
  | staleCompletion c gen n => exact execStaleCompletion_kept c gen n s u h
  | generationAdopt c gen => exact execGenerationAdopt_kept c gen s u h
  | stubWrite c => exact execStubWrite_kept c s u h
  | stubStall c => exact execStubStall_kept c s u h
  | eventWrite => exact execEventWrite_kept s u h
  | pcieLinkDown => exact execPcieLinkDown_kept s u h
  | pcieLinkUp x => exact execPcieLinkUp_kept x s u h
  | pcieHotReset => exact execPcieHotReset_kept s u h
  | hostCtlEnSet v => exact execHostCtlEnSet_kept v s u h
  | hostCtlEnClear v => exact execHostCtlEnClear_kept v s u h
  | chainClkLoRead path => exact execChainClkLoRead_kept path s u h
  | rtcTime0Read path => exact execRtcTime0Read_kept path s u h
  | rtcTime1Read path => exact execRtcTime1Read_kept path s u h
  | rtcShadowRelease path => exact execRtcShadowRelease_kept path s u h
  | rcFieldRead path off size => exact execRcFieldRead_kept path off size s u h
  | registerWrite path off size v => exact execRegisterWrite_kept path off size v s u h
  | bar0UnsupportedAccess off size => exact execBar0UnsupportedAccess_kept off size s u h
  | avsTargetVoltageWrite port sel v => exact execAvsTargetVoltageWrite_kept port sel v s u h
  | avsTargetVoltageRead port sel => exact execAvsTargetVoltageRead_kept port sel s u h
  | avsTransitionRateWrite port sel v => exact execAvsTransitionRateWrite_kept port sel v s u h
  | avsTransitionRateRead port sel => exact execAvsTransitionRateRead_kept port sel s u h
  | avsReadRailCurrent port sel => exact execAvsReadRailCurrent_kept port sel s u h
  | avsReadTemperature port sel => exact execAvsReadTemperature_kept port sel s u h
  | avsResetVoltage port sel => exact execAvsResetVoltage_kept port sel s u h
  | avsStatusRead port sel => exact execAvsStatusRead_kept port sel s u h
  | avsStatusWrite port sel v => exact execAvsStatusWrite_kept port sel v s u h
  | avsVersionRead port sel => exact execAvsVersionRead_kept port sel s u h
  | avsUnsupported port => exact execAvsUnsupported_kept port s u h
  | avsCrcError port => exact execAvsCrcError_kept port s u h
  | avsPortFault port => exact execAvsPortFault_kept port s u h
  | linkTrained p t num hop => exact execLinkTrained_kept p t num hop s u h
  | trainingComplete ndev => exact execTrainingComplete_kept ndev s u h
  | ringTrainingTimeout => exact execRingTrainingTimeout_kept s u h
  | laneDown p => exact execLaneDown_kept p s u h
  | linkHeal p => exact execLinkHeal_kept p s u h
  | ringSplit => exact execRingSplit_kept s u h
  | referenceChange => exact execReferenceChange_kept s u h
  | ringResend p ticket => exact execRingResend_kept p ticket s u h
  | forwardGap head => exact execForwardGap_kept head s u h
  | forwardStubTimeout dev => exact execForwardStubTimeout_kept dev s u h
  | ringTicketPacket rx src raw => exact execRingTicketPacket_kept rx src raw s u h
  | ringStubPacket rx src x => exact execRingStubPacket_kept rx src x s u h
  | ringAck rx alarms tickets => exact execRingAck_kept rx alarms tickets s u h
  | cutPacket rx dev p => exact execCutPacket_kept rx dev p s u h
  | presencePacket rx dev pr => exact execPresencePacket_kept rx dev pr s u h
  | headAnnounce rx dev first count => exact execHeadAnnounce_kept rx dev first count s u h
  | alarmReportReceive rx dev kind a => exact execAlarmReportReceive_kept rx dev kind a s u h
  | ownershipRecord rx rec => exact execOwnershipRecord_kept rx rec s u h
  | claimResult rx cl => exact execClaimResult_kept rx cl s u h
  | epochAck rx dev => exact execEpochAck_kept rx dev s u h
  | heartbeatForward rx dev round ended => exact execHeartbeatForward_kept rx dev round ended s u h
  | ringTelemetryPacket rx x ga ia gb ib => exact execRingTelemetryPacket_kept rx x ga ia gb ib s u h
  | tracePacket rx dev e => exact execTracePacket_kept rx dev e s u h
  | chainDeviceCheckEnd dev => exact execChainDeviceCheckEnd_kept dev s u h
  | claimVerifyDone c => exact execClaimVerifyDone_kept c s u h
  | claimDecision => exact execClaimDecision_kept s u h
  | ownerRecordEffect => exact execOwnerRecordEffect_kept s u h
  | ownerDead => exact execOwnerDead_kept s u h
  | lockoutEnd port => exact execLockoutEnd_kept port s u h
  | portCheckEnd port => exact execPortCheckEnd_kept port s u h
  | wdPeriodEnd k => exact execWdPeriodEnd_kept k s u h
  | wdVerdict k => exact execWdVerdict_kept k s u h
  | hostRstRelease => exact execHostRstRelease_kept s u h
  | coreWdExpiry d => exact execCoreWdExpiry_kept d s u h
  | debugHalt d => exact execDebugHalt_kept d s u h
  | debugRelease d => exact execDebugRelease_kept d s u h
  | rtcWakeExpiry => exact execRtcWakeExpiry_kept s u h
  | rtcCrystalStop => exact execRtcCrystalStop_kept s u h
  | rtcCalendarEnd => exact execRtcCalendarEnd_kept s u h
  | rtcCompensationWindow => exact execRtcCompensationWindow_kept s u h
  | rtcShiftEnd => exact execRtcShiftEnd_kept s u h
  | vrtcSwitch toVbak => exact execVrtcSwitch_kept toVbak s u h
  | tokenRefill => exact execTokenRefill_kept s u h
  | traceOvw => exact execTraceOvw_kept s u h
  | supplyMonitorTrip k => exact execSupplyMonitorTrip_kept k s u h
  | startupAonDone memOk xtalOk => exact execStartupAonDone_kept memOk xtalOk s u h
  | selfTestDone a b p => exact execSelfTestDone_kept a b p s u h
  | imageLoad => exact execImageLoad_kept s u h
  | ownerWaitEnd => exact execOwnerWaitEnd_kept s u h
  | sequenceStep => exact execSequenceStep_kept s u h
  | voteFloor t => exact execVoteFloor_kept t s u h
  | setTarget t => exact execSetTarget_kept t s u h
  | setEnvelope t => exact execSetEnvelope_kept t s u h
  | forecast t => exact execForecast_kept t s u h
  | forecastHeadroomRamp c seq => exact execForecastHeadroomRamp_kept c seq s u h
  | forecastWindowOpen c seq => exact execForecastWindowOpen_kept c seq s u h
  | forecastWindowClose c seq => exact execForecastWindowClose_kept c seq s u h
  | forecastScore c seq => exact execForecastScore_kept c seq s u h
  | forecastCancel t => exact execForecastCancel_kept t s u h
  | forecastTrustRead t => exact execForecastTrustRead_kept t s u h
  | forecastTrustSet t => exact execForecastTrustSet_kept t s u h
  | telemRead t => exact execTelemRead_kept t s u h
  | bulkRead t => exact execBulkRead_kept t s u h
  | mpRead t => exact execMpRead_kept t s u h
  | imageWrite t => exact execImageWrite_kept t s u h
  | imageCommit t => exact execImageCommit_kept t s u h
  | overlayWrite t => exact execOverlayWrite_kept t s u h
  | overlayCommit t => exact execOverlayCommit_kept t s u h
  | overlaySelect t => exact execOverlaySelect_kept t s u h
  | mpAccept t => exact execMpAccept_kept t s u h
  | mpReject t => exact execMpReject_kept t s u h
  | mpReset t => exact execMpReset_kept t s u h
  | seqRun t => exact execSeqRun_kept t s u h
  | seqSkip t => exact execSeqSkip_kept t s u h
  | seqAbort t => exact execSeqAbort_kept t s u h
  | hkSwitch t => exact execHkSwitch_kept t s u h
  | clearLatch t => exact execClearLatch_kept t s u h
  | benchPhase t => exact execBenchPhase_kept t s u h
  | benchRail t => exact execBenchRail_kept t s u h
  | benchControlDie t => exact execBenchControlDie_kept t s u h
  | benchChainDevice t => exact execBenchChainDevice_kept t s u h
  | readmitPhase t => exact execReadmitPhase_kept t s u h
  | readmitRail t => exact execReadmitRail_kept t s u h
  | readmitControlDie t => exact execReadmitControlDie_kept t s u h
  | readmitCharger t => exact execReadmitCharger_kept t s u h
  | readmitGangMember t => exact execReadmitGangMember_kept t s u h
  | gangMemberSelftestEnd r pass => exact execGangMemberSelftestEnd_kept r pass s u h
  | readmitChainDevice t => exact execReadmitChainDevice_kept t s u h
  | readmitHostPort t => exact execReadmitHostPort_kept t s u h
  | swap t => exact execSwap_kept t s u h
  | thermClear t => exact execThermClear_kept t s u h
  | claimPart t => exact execClaimPart_kept t s u h
  | claim t => exact execClaim_kept t s u h
  | heartbeat t => exact execHeartbeat_kept t s u h
  | handover t => exact execHandover_kept t s u h
  | ownerRead t => exact execOwnerRead_kept t s u h
  | wdCheckin t => exact execWdCheckin_kept t s u h
  | wdArm t => exact execWdArm_kept t s u h
  | wdDisarm t => exact execWdDisarm_kept t s u h
  | rtcSet t => exact execRtcSet_kept t s u h
  | rtcShift t => exact execRtcShift_kept t s u h
  | rtcWake t => exact execRtcWake_kept t s u h
  | rtcRead t => exact execRtcRead_kept t s u h
  | meterStart t => exact execMeterStart_kept t s u h
  | meterStop t => exact execMeterStop_kept t s u h
  | meterRead t => exact execMeterRead_kept t s u h
  | meterClear t => exact execMeterClear_kept t s u h
  | gaugeRead t => exact execGaugeRead_kept t s u h
  | chgSet t => exact execChgSet_kept t s u h
  | packSwitchOpen t => exact execPackSwitchOpen_kept t s u h
  | packSwitchRelease t => exact execPackSwitchRelease_kept t s u h
  | shipArm t => exact execShipArm_kept t s u h
  | shipCancel t => exact execShipCancel_kept t s u h
  | gaugeSetSoc t => exact execGaugeSetSoc_kept t s u h
  | gaugeReset t => exact execGaugeReset_kept t s u h
  | cntRead t => exact execCntRead_kept t s u h
  | cntCtl t => exact execCntCtl_kept t s u h
  | traceStreamStart t => exact execTraceStreamStart_kept t s u h
  | traceStreamStop t => exact execTraceStreamStop_kept t s u h
  | alarmClear t => exact execAlarmClear_kept t s u h
  | fuseWrite t => exact execFuseWrite_kept t s u h
  | attest t => exact execAttest_kept t s u h
  | debugUnlockPart t => exact execDebugUnlockPart_kept t s u h
  | unknownOpcode t => exact execUnknownOpcode_kept t s u h
  | k281Received p => exact execK281Received_kept p s u h
  | linkHealPacket rx dev p => exact execLinkHealPacket_kept rx dev p s u h
  | rtcEdge => exact execRtcEdge_kept s u h
  | belzapolRestart d => exact execBelzapolRestart_kept d s u h  | _ => cases hc

/-- Every command keeps the queue, and every blown fuse. -/
theorem exec_fuseKept {c : Instr} {s u : State} (h : exec c s = .next u) : FuseKept s u := by
  cases hc : blowsOrMoves c with
  | false => exact .of3 (exec_kept hc h)
  | true =>
    cases c with
    | beatTick i => exact execBeatTick_fuseKept i s u h
    | roundTick i => exact execRoundTick_fuseKept i s u h
    | svcBtnResetEnd => exact execSvcBtnResetEnd_fuseKept s u h
    | shipEnd => exact execShipEnd_fuseKept s u h
    | spiWrite p addr data crc => exact execSpiWrite_fuseKept p addr data crc s u h
    | spiRead p addr len => exact execSpiRead_fuseKept p addr len s u h
    | startCtlRestart path v => exact execStartCtlRestart_fuseKept path v s u h
    | clockAdopt => exact execClockAdopt_fuseKept s u h
    | timePacket rx dev count late => exact execTimePacket_fuseKept rx dev count late s u h
    | epochCommit rx dev epoch key => exact execEpochCommit_fuseKept rx dev epoch key s u h
    | fuseWriteDone ok => exact execFuseWriteDone_fuseKept ok s u h
    | voidingDone verified => exact execVoidingDone_fuseKept verified s u h
    | powerFail => exact execPowerFail_fuseKept s u h
    | supplyReset => exact execSupplyReset_fuseKept s u h
    | vaonRise v => exact execVaonRise_fuseKept v s u h
    | otpCheck => exact execOtpCheck_fuseKept s u h
    | debugUnlock t held => exact execDebugUnlock_fuseKept t held s u h
    | _ => cases hc

/-- A step is the command at the front of the queue, or the block idles. -/
theorem step_cases {s u : State} (h : step s = .next u) :
    (s.pending = [] ∧ u = s) ∨ ∃ c rest, s.pending = c :: rest ∧ exec c { s with pending := rest } = .next u := by
  unfold step at h
  split at h
  case h_1 hq => exact .inl ⟨hq, (Host.Outcome.next.inj h).symm⟩
  case h_2 c rest hq => exact .inr ⟨c, rest, hq, h⟩

theorem step_fusesKept {s u : State} (h : step s = .next u) : s.fusesKept u := by
  rcases step_cases h with ⟨-, rfl⟩ | ⟨c, rest, -, hexec⟩
  · exact State.fusesKept_refl u
  · exact (exec_fuseKept hexec).2

/-- Settles O7: `OtpDie.le` is transitive, and every command keeps every blown fuse. -/
theorem fusesStayBlown : Obligations.FusesStayBlown := by
  unfold Obligations.FusesStayBlown
  exact fun o s t ho h d => OtpDie.le_trans (ho d) (step_fusesKept h d)

/-! ### The beat count -/

@[simp] theorem State.rxPkt_clk (s : State) (rx : RxIn) (cls : Nat) {f : State → State}
    (hf : ∀ u : State, (f u).time.clk = u.time.clk) : (s.rxPkt rx cls f).time.clk = s.time.clk := by
  unfold State.rxPkt
  dsimp only
  (repeat' split) <;> simp [hf]

/-- The words that an SPI read gathers, one after the other. -/
theorem foldl_snd_clk {α β : Type} {g : α × State → β → α × State} (h : ∀ a x, (g a x).2.time.clk = a.2.time.clk) (l : List β)
    (a : α × State) : (l.foldl g a).2.time.clk = a.2.time.clk := by
  induction l generalizing a with
  | nil => rfl
  | cons x l ih => rw [List.foldl_cons, ih, h]

theorem execSpiRead_clk {p : Port} {addr len : Nat} {s u : State} (h : execSpiRead p addr len s = .next u) :
    u.time.clk = s.time.clk := by
  unfold execSpiRead at h
  split at h <;> obtain rfl := Host.Outcome.next.inj h
  · rfl
  · rw [State.modWin_time, foldl_snd_clk fun a w => by simp]

theorem execEpochCommit_clk {rx : RxIn} {dev epoch key : Nat} {s u : State} (h : execEpochCommit rx dev epoch key s = .next u) :
    u.time.clk = s.time.clk := by
  obtain rfl := Host.Outcome.next.inj h
  refine State.rxPkt_clk s rx 2 fun v => ?_
  dsimp only
  (repeat' split) <;> simp

theorem execFuseWriteDone_clk {ok : Bool} {s u : State} (h : execFuseWriteDone ok s = .next u) : u.time.clk = s.time.clk := by
  unfold execFuseWriteDone at h
  split at h <;> obtain rfl := Host.Outcome.next.inj h <;> simp

theorem execVoidingDone_clk {verified : Bool} {s u : State} (h : execVoidingDone verified s = .next u) :
    u.time.clk = s.time.clk := by
  unfold execVoidingDone at h
  dsimp only at h
  split at h
  · obtain rfl := Host.Outcome.next.inj h; rfl
  · split at h <;> obtain rfl := Host.Outcome.next.inj h
    · simp
    · split <;> simp

theorem execPowerFail_clk {s u : State} (h : execPowerFail s = .next u) : u.time.clk = s.time.clk := by
  obtain rfl := Host.Outcome.next.inj h
  (repeat' split) <;> simp

theorem execOtpCheck_clk {s u : State} (h : execOtpCheck s = .next u) : u.time.clk = s.time.clk := by
  unfold execOtpCheck at h
  split at h
  · obtain rfl := Host.Outcome.next.inj h; rfl
  · extract_lets ecc ring s₀ s₁ s₂ bad nvm s₃ nvm₃ host net cfg s₄ s₅ at h
    have h₁ : s₁.time.clk = s.time.clk := foldl_clk (fun _ _ => by simp) ecc s₀
    have h₂ : s₂.time.clk = s₁.time.clk := by unfold s₂; split <;> simp
    have h₅ : s₅.time.clk = s₂.time.clk := by unfold s₅; split <;> simp [s₄, s₃]
    clear_value s₅ s₂ s₁
    split at h <;> obtain rfl := Host.Outcome.next.inj h
    · exact h₂.trans h₁
    · simp [h₅, h₂, h₁]

theorem runTicket_clk {t : Tkt} {key : Nat} {s u : State} {c : TCheck} {body : State → State}
    (h : runTicket t key s c body = .next u) (hb : ∀ v : State, (body v).time.clk = v.time.clk) : u.time.clk = s.time.clk := by
  unfold runTicket at h
  dsimp only at h
  repeat' split at h
  all_goals cases h
  all_goals simp [hb]

theorem signedPart_clk {t : Tkt} {key : Nat} {s u : State} {b : Bool} {c : TCheck} {body : State → State}
    (h : signedPart t key b c s body = .next u) (hb : ∀ v : State, (body v).time.clk = v.time.clk) : u.time.clk = s.time.clk := by
  unfold signedPart at h
  dsimp only at h
  split at h
  · simpa using runTicket_clk h hb
  · exact runTicket_clk h hb

theorem execDebugUnlock_clk {t : Tkt} {held : Bool} {s u : State} (h : execDebugUnlock t held s = .next u) :
    u.time.clk = s.time.clk := by
  unfold execDebugUnlock at h
  refine signedPart_clk h fun v => ?_
  dsimp only
  split <;> simp

/-- Settles O3: only the named commands and packets move the beat count, and none the queue. -/
theorem queueAndClockKept : Obligations.QueueAndClockKept := by
  unfold Obligations.QueueAndClockKept
  refine fun c s u h => ⟨(exec_fuseKept h).1, ?_⟩
  cases hc : blowsOrMoves c with
  | false => exact .inl (exec_kept hc h).2.2
  | true =>
    cases c with
    | beatTick i => exact .inr (execBeatTick_clk i s u h)
    | roundTick i => exact .inl (execRoundTick_clk i s u h)
    | spiRead p addr len => exact .inl (execSpiRead_clk h)
    | epochCommit rx dev epoch key => exact .inl (execEpochCommit_clk h)
    | fuseWriteDone ok => exact .inl (execFuseWriteDone_clk h)
    | voidingDone verified => exact .inl (execVoidingDone_clk h)
    | powerFail => exact .inl (execPowerFail_clk h)
    | otpCheck => exact .inl (execOtpCheck_clk h)
    | debugUnlock t held => exact .inl (execDebugUnlock_clk h)
    | svcBtnResetEnd | shipEnd | spiWrite | startCtlRestart | clockAdopt | timePacket | supplyReset | vaonRise => exact .inr trivial
    | _ => cases hc

end Sys2Proof.Machine
end

section
/-!
NO COMMAND STOPS THE BLOCK (R340, log entry 6). A command answers the next state, or it is not well formed: the tickets by
`RunsAsTicket`, the other commands by the branches of their meanings, of which six compare their word with the row they stand for.
-/
namespace Sys2Proof.Machine

theorem next_of_ite {c : Prop} [Decidable c] {a b : Host.Outcome State Fault Refusal} (ha : ∃ u, a = .next u)
    (hb : ∃ u, b = .next u) : ∃ u, (if c then a else b) = .next u := by
  split <;> assumption

/-- The outcome of a command of well-formedness `wf`: a next state, or the refusal of one that is not well formed. -/
def NextOrIllFormed (wf : Bool) (o : Host.Outcome State Fault Refusal) : Prop :=
  (∃ u, o = .next u) ∨ (wf = false ∧ o = .refused .illFormed)

theorem NextOrIllFormed.ite {wf : Bool} {c : Prop} [Decidable c] {o : Host.Outcome State Fault Refusal} (hc : c → wf = false)
    (ho : ∃ u, o = .next u) : NextOrIllFormed wf (if c then .refused .illFormed else o) := by
  split
  case isTrue h => exact .inr ⟨hc h, rfl⟩
  case isFalse => exact .inl ho

/-! ### Tickets -/

theorem runTicket_next {t : Tkt} {k : Nat} (hkey : t.rowKey = k) (known : k ≠ 4096) (s : State) (c : TCheck)
    (body : State → State) : ∃ u, runTicket t k s c body = .next u := by
  obtain ⟨row, hrow⟩ := opRow_of_rowKey (hkey ▸ known)
  simp only [runTicket, hkey, hrow, ne_eq, not_true_eq_false, if_false]
  (repeat' split) <;> exact ⟨_, rfl⟩

theorem execUnknownOpcode_next {t : Tkt} (hkey : t.rowKey = 4096) (s : State) : ∃ u, execUnknownOpcode t s = .next u := by
  simp only [execUnknownOpcode, hkey, ne_eq, not_true_eq_false, if_false]
  exact next_of_ite ⟨_, rfl⟩ (next_of_ite ⟨_, rfl⟩ ⟨_, rfl⟩)

/-- A ticket of its own row goes. -/
theorem RunsAsTicket.next {t : Tkt} {k : Nat} {s : State} {o : Host.Outcome State Fault Refusal} (hkey : t.rowKey = k)
    (h : RunsAsTicket t k s o) : ∃ u, o = .next u := by
  cases h with
  | row known c body => exact runTicket_next hkey known s c body
  | signed known unlock c body => exact runTicket_next hkey known _ _ body
  | unknown hk => exact execUnknownOpcode_next (hkey.trans hk) s

/-- A ticket of another row is refused. -/
theorem RunsAsTicket.refused {t : Tkt} {k : Nat} {s : State} {o : Host.Outcome State Fault Refusal} (hkey : t.rowKey ≠ k)
    (h : RunsAsTicket t k s o) : o = .refused .illFormed := by
  cases h with
  | row _ c body => exact if_pos hkey
  | signed _ unlock c body => exact if_pos hkey
  | unknown hk => exact if_pos (hk ▸ hkey)

theorem wf_of_ticket {i : Instr} {t : Tkt} {k : Nat} (h : i.ticket = some (t, k)) : i.wf = (t.wf && decide (t.rowKey = k)) := by
  unfold Instr.wf
  rw [h]

theorem exec_ticket {i : Instr} {t : Tkt} {k : Nat} (h : i.ticket = some (t, k)) (s : State) :
    NextOrIllFormed i.wf (exec i s) := by
  by_cases hkey : t.rowKey = k
  · exact .inl ((exec_runsAsTicket h s).next hkey)
  · exact .inr ⟨by simp [wf_of_ticket h, hkey], (exec_runsAsTicket h s).refused hkey⟩

/-! ### The other commands -/

/-- A write of a register that has a row of its own is no REGISTER_WRITE. -/
theorem registerWrite_wf_of_other (path : Path) (off size v : Nat)
    (h : (off = 0x0214 ∧ path = .bar0) ∨ (off = 0x0024 ∧ 2 ≤ size) ∨ (0x4000 ≤ off ∧ off < 0x8000 ∧ size = 4)) :
    (Instr.registerWrite path off size v).wf = false := by
  rcases h with ⟨rfl, rfl⟩ | ⟨rfl, hsize⟩ | ⟨hlo, hhi, rfl⟩
  · simp [Instr.wf, Instr.ticket]
  · simp [Instr.wf, Instr.ticket, hsize]
  · simp [Instr.wf, Instr.ticket, hlo, hhi]

/-- A command that carries no ticket goes, unless its word belongs to another row. -/
theorem exec_noTicket {i : Instr} (h : i.ticket = none) (s : State) : NextOrIllFormed i.wf (exec i s) := by
  cases i
  case beatTick | dieSelfReport | beatStrobeLost | barrierArrival | packOn | svcBtnPress | svcBtnHold | stubWrite |
    pcieLinkDown | pcieHotReset | rtcTime0Read | rtcTime1Read | avsTargetVoltageRead | avsTransitionRateWrite |
    avsTransitionRateRead | avsReadRailCurrent | avsReadTemperature | avsResetVoltage | avsStatusRead | avsStatusWrite |
    avsVersionRead | avsUnsupported | avsCrcError | avsPortFault | laneDown | ringTicketPacket | ringStubPacket |
    ringAck | timePacket | cutPacket | presencePacket | headAnnounce | alarmReportReceive | ownershipRecord |
    claimResult | epochCommit | epochAck | heartbeatForward | tracePacket | wdPeriodEnd | rtcCompensationWindow |
    powerFail | forecastHeadroomRamp | forecastWindowOpen | forecastWindowClose | forecastScore | k281Received |
    linkHealPacket | belzapolRestart =>
    exact .inl ⟨_, rfl⟩
  case frameTick | roundTick | currentSample | stageFault | negativeLimit | zeroCurrentTrip | windowSample |
    phWearCommit | rotationPeriod | gangCommandReceive | gangReturnReceive | gateMonitorFault | refoscLost |
    hiccupGoodTime | feedRev | feedOv | hkPowerGood | hkExcursion | shipEffect | shipEnd | gaugeCommit | thermalSample |
    ageRoMeasure | chirpStart | warnProposal | mpAutoApply | meterTimerTick | meterPwmTrigger | staleCompletion |
    pcieLinkUp | spiRead | chainClkLoRead | rtcShadowRelease | startCtlRestart | bar0UnsupportedAccess |
    avsTargetVoltageWrite | ringTrainingTimeout | linkHeal | ringSplit | ringResend | claimDecision | ownerDead |
    lockoutEnd | debugHalt | debugRelease | rtcWakeExpiry | rtcCrystalStop | rtcCalendarEnd | rtcShiftEnd | tokenRefill
    | traceOvw | supplyReset | vaonRise | startupAonDone | selfTestDone =>
    exact .inl (next_of_ite ⟨_, rfl⟩ ⟨_, rfl⟩)
  case trackingSample | feedPresent | ticketFetch | dmaErr | generationAdopt | eventWrite | spiWrite | rcFieldRead |
    trainingComplete | coreWdExpiry | vrtcSwitch | otpCheck | rtcEdge =>
    exact .inl (next_of_ite ⟨_, rfl⟩ (next_of_ite ⟨_, rfl⟩ ⟨_, rfl⟩))
  case catchEnd | catchRearm | lendSteerOn | lendArrive | phLimitCrossing | senseWatchEnd | phaseStaticCheckEnd |
    phaseLiveCheckEnd | gangCommandMiss | gangHoldExpiry | laneMismatch | vote | trapeze | dieSelftestEnd | dieResyncEnd
    | dieObservationEnd | hiccupOffEnd | dischargeEnd | railReadmitRampEnd | riseFail | seqWaitEnd | seqStall |
    barrierTimeout | feedLost | feedReturn | chgTimeout | packRemoved | packOpenTimeEnd | chargerCheckEnd |
    svcBtnResetEnd | gaugeRestPoint | chirpToneStep | conversionComplete | stubStall | linkTrained | referenceChange |
    clockAdopt | forwardGap | forwardStubTimeout | ringTelemetryPacket | chainDeviceCheckEnd | claimVerifyDone |
    ownerRecordEffect | portCheckEnd | wdVerdict | hostRstRelease | fuseWriteDone | voidingDone | supplyMonitorTrip |
    imageLoad | ownerWaitEnd | sequenceStep | gangMemberSelftestEnd =>
    refine .inl ?_
    dsimp only [exec,
      execCatchEnd, execCatchRearm, execLendSteerOn, execLendArrive, execPhLimitCrossing, execSenseWatchEnd,
      execPhaseStaticCheckEnd, execPhaseLiveCheckEnd, execGangCommandMiss, execGangHoldExpiry, execLaneMismatch,
      execVote, execTrapeze, execDieSelftestEnd, execDieResyncEnd, execDieObservationEnd, execHiccupOffEnd,
      execDischargeEnd, execRailReadmitRampEnd, execRiseFail, execSeqWaitEnd, execSeqStall, execBarrierTimeout,
      execFeedLost, execFeedReturn, execChgTimeout, execPackRemoved, execPackOpenTimeEnd, execChargerCheckEnd,
      execSvcBtnResetEnd, execGaugeRestPoint, execChirpToneStep, execConversionComplete, execStubStall, execLinkTrained,
      execReferenceChange, execClockAdopt, execForwardGap, execForwardStubTimeout, execRingTelemetryPacket,
      execChainDeviceCheckEnd, execClaimVerifyDone, execOwnerRecordEffect, execPortCheckEnd, execWdVerdict,
      execHostRstRelease, execFuseWriteDone, execVoidingDone, execSupplyMonitorTrip, execImageLoad, execOwnerWaitEnd,
      execSequenceStep, execGangMemberSelftestEnd]
    (repeat' split) <;> exact ⟨_, rfl⟩
  case turnstileTicketTail c w entry =>
    exact .ite (fun hw => by simp [Instr.wf, Instr.ticket]; omega) (next_of_ite ⟨_, rfl⟩ ⟨_, rfl⟩)
  case turnstileStubHead c w entry =>
    exact .ite (fun hw => by simp [Instr.wf, Instr.ticket, hw]) (next_of_ite ⟨_, rfl⟩ ⟨_, rfl⟩)
  case turnstileEventHead c x =>
    exact .ite (fun hw => by simp [Instr.wf, Instr.ticket, hw]) (next_of_ite ⟨_, rfl⟩ ⟨_, rfl⟩)
  case hostCtlEnSet v =>
    exact .ite (fun hv => by simp [Instr.wf, Instr.ticket, bit, hv]) (next_of_ite ⟨_, rfl⟩ ⟨_, rfl⟩)
  case hostCtlEnClear v =>
    exact .ite (fun hv => by simp [Instr.wf, Instr.ticket, bit, hv]) (next_of_ite ⟨_, rfl⟩ ⟨_, rfl⟩)
  case registerWrite path off size v =>
    exact .ite (registerWrite_wf_of_other path off size v) (next_of_ite ⟨_, rfl⟩ (next_of_ite ⟨_, rfl⟩ ⟨_, rfl⟩))
  all_goals cases h

theorem exec_nextOrIllFormed (i : Instr) (s : State) : NextOrIllFormed i.wf (exec i s) := by
  cases h : i.ticket with
  | some x => exact exec_ticket h s
  | none => exact exec_noTicket h s

/-- Settles O4: every command answers the next state or is not well formed. -/
theorem commandsGo : Obligations.CommandsGo := by
  unfold Obligations.CommandsGo
  intro c s
  rcases exec_nextOrIllFormed c s with hnext | ⟨hwf, hrefused⟩
  · exact ⟨fun _ => hnext, .inl hnext⟩
  · exact ⟨fun h => absurd h (by simp [hwf]), .inr hrefused⟩

end Sys2Proof.Machine
end

section
/-!
ONLY THE OWNER COMMANDS (R340, R351). Every row of the catalogue that is the owner's makes the owner check of R340, third after the
generation and the form, so the ticket of another client ends there at the latest, and an answer changes nothing but the logs, the
ring's queue, the client's stubs and the record of who has spoken while deposed.
-/
namespace Sys2Proof.Machine

/-- The owner check that the row `k` makes in place of the table's mark: FORECAST_TRUST as a set is the owner's (R165). -/
def ownOverride (k : Nat) : Option Bool := if k = 0x121 then some true else none

/-- The outcome of a ticket of the row `k` is that of the checks of R340 with the table's owner check, or that of a part of a signed
ticket with it. -/
inductive RunsOwnerChecked (t : Tkt) (k : Nat) (s : State) : Host.Outcome State Fault Refusal → Prop where
  | row (c : TCheck) (body : State → State) (hown : c.own = ownOverride k) : RunsOwnerChecked t k s (runTicket t k s c body)
  | signed (unlock : Bool) (c : TCheck) (body : State → State) (hown : c.own = ownOverride k) :
      RunsOwnerChecked t k s (signedPart t k unlock c s body)

theorem execForecast_runsOwnerChecked (t : Tkt) (s : State) : RunsOwnerChecked t 0x100 s (execForecast t s) := by
  unfold execForecast
  cases t.rail with
  | none => exact .row _ _ rfl
  | some r => exact .row _ _ rfl

/-- Every row makes the table's owner check, but FORECAST_TRUST as a read and FUSE_WRITE, which have checks of their own. -/
theorem exec_runsOwnerChecked {i : Instr} {t : Tkt} {k : Nat} (h : i.ticket = some (t, k)) (hread : k ≠ 0x120)
    (hfuse : k ≠ 0xE00) (known : k ≠ 4096) (s : State) : RunsOwnerChecked t k s (exec i s) := by
  cases i
  all_goals cases h
  all_goals dsimp only [exec]
  case forecast => exact execForecast_runsOwnerChecked t s
  case forecastTrustRead => exact absurd rfl hread
  case fuseWrite => exact absurd rfl hfuse
  case unknownOpcode => exact absurd rfl known
  all_goals dsimp only [
    execVoteFloor, execSetTarget, execSetEnvelope, execForecastCancel, execForecastTrustSet,
    execTelemRead, execBulkRead, execMpRead, execImageWrite, execImageCommit, execOverlayWrite, execOverlayCommit,
    execOverlaySelect, execMpAccept, execMpReject, execMpReset, execSeqRun, execSeqSkip, execSeqAbort, execHkSwitch,
    execClearLatch, execBenchPhase, execBenchRail, execBenchControlDie, execBenchChainDevice, execReadmitPhase,
    execReadmitRail, execReadmitControlDie, execReadmitCharger, execReadmitGangMember, execReadmitChainDevice,
    execReadmitHostPort, execSwap, execThermClear, execClaimPart, execClaim, execHeartbeat, execHandover, execOwnerRead,
    execWdCheckin, execWdArm, execWdDisarm, execRtcSet, execRtcShift, execRtcWake, execRtcRead, execMeterStart, execMeterStop,
    execMeterRead, execMeterClear, execGaugeRead, execChgSet, execPackSwitchOpen, execPackSwitchRelease, execShipArm,
    execShipCancel, execGaugeSetSoc, execGaugeReset, execCntRead, execCntCtl, execTraceStreamStart, execTraceStreamStop,
    execAlarmClear, execAttest, execDebugUnlockPart, execDebugUnlock]
  case claimPart | claim | debugUnlockPart | debugUnlock => refine .signed _ _ _ ?_; rfl
  all_goals refine .row _ _ ?_
  all_goals rfl

/-- FORECAST_TRUST as a read is a row of opcode 0x12, which the table does not mark as the owner's. -/
theorem owner_false_of_trustRead {t : Tkt} {row : OpRow} (hkey : t.rowKey = 0x120) (hrow : opRow t.op = some row) :
    row.owner = false := by
  have hop : t.op = 0x12 := by
    unfold Tkt.rowKey at hkey
    dsimp only at hkey
    split at hkey
    case h_1 h => exact h
    case h_11 => split at hkey <;> omega
    all_goals (repeat' split at hkey) <;> omega
  rw [hop] at hrow
  obtain rfl := Option.some.inj hrow
  rfl

/-- An unknown opcode has no row. -/
theorem rowKey_ne_unknown {t : Tkt} {row : OpRow} (hrow : opRow t.op = some row) : t.rowKey ≠ 4096 := by
  unfold Tkt.rowKey
  dsimp only
  split
  case h_11 =>
    rw [if_pos (by simp [hrow])]
    intro hop
    rw [show t.op = 256 by omega] at hrow
    cases hrow
  all_goals (repeat' split) <;> omega

/-! ### The owner check -/

/-- A client that is not the owner fails the owner's check of R340 at the latest. -/
theorem firstFail_headChecks_notOwner {s : State} {t : Tkt} {row : OpRow} {c : TCheck} (howner : c.own.getD row.owner = true)
    (hnot : s.isOwner t = false) :
    ∃ r, firstFail (headChecks s t row c) = some r ∧ r.status ∈ [0x10, 0x21, 0x12, 0x11] := by
  simp only [headChecks, howner, hnot, Bool.not_false, Bool.and_true, Bool.true_and, failIf_true, List.cons_append]
  cases (!s.isFwd t && t.gen != (s.client t.client).gen) with
  | true => exact ⟨_, rfl, by simp⟩
  | false =>
    cases firstBad (headBad t row (c.nb.getD row.nb) (s.isFwd t) ++ payBad t row c.rng) with
    | some b => exact ⟨_, rfl, by simp [malformed]⟩
    | none =>
      cases s.own.deposed.contains t.client with
      | true => exact ⟨_, rfl, by simp⟩
      | false => exact ⟨_, rfl, by simp⟩

/-- The ticket of another client is answered, or waits its turn. -/
theorem runTicket_notOwner {s : State} {t : Tkt} {k : Nat} {row : OpRow} {c : TCheck} (body : State → State) (hkey : t.rowKey = k)
    (hrow : opRow t.op = some row) (howner : c.own.getD row.owner = true) (hnot : s.isOwner t = false) :
    ∃ r : Reply, r.status ∈ [0x10, 0x21, 0x12, 0x11] ∧
      runTicket t k s c body = .next (if s.ready t = true then s.takeTicket.reply t r else s) := by
  obtain ⟨r, hfail, hstatus⟩ := firstFail_headChecks_notOwner howner hnot
  refine ⟨r, hstatus, ?_⟩
  cases hready : s.ready t <;> simp [runTicket, hkey, hrow, hready, hfail]

/-! ### What an answer leaves -/

/-- `t` is `s` but for the host link, the logs, the ring and the record of who has spoken while deposed. -/
def SpeaksOnly (s t : State) : Prop :=
  t = { s with host := t.host, log := t.log, ring := t.ring, own := { s.own with depRound := t.own.depRound } }

theorem State.deposedSpeaks_own (s : State) (t : Tkt) :
    (s.deposedSpeaks t).own = { s.own with depRound := (s.deposedSpeaks t).own.depRound } := by
  unfold State.deposedSpeaks
  dsimp only
  split
  · rfl
  · simp

theorem State.reply_own (s : State) (t : Tkt) (r : Reply) :
    (s.reply t r).own = { s.own with depRound := (s.reply t r).own.depRound } := by
  unfold State.reply
  dsimp only
  rw [State.stub_own]
  split
  · rw [State.deposedSpeaks_own]
    (repeat' split) <;> simp
  · (repeat' split) <;> simp

theorem SpeaksOnly.refl (s : State) : SpeaksOnly s s := rfl

theorem SpeaksOnly.trans {s t u : State} (h : SpeaksOnly s t) (k : SpeaksOnly t u) : SpeaksOnly s u := by
  unfold SpeaksOnly at *
  rw [k, h]

theorem SpeaksOnly.reply (s : State) (t : Tkt) (r : Reply) : SpeaksOnly s (s.reply t r) := by
  unfold SpeaksOnly
  conv_lhs => rw [State.reply_eq, State.reply_own]

theorem SpeaksOnly.takeTicket (s : State) : SpeaksOnly s s.takeTicket := by
  unfold SpeaksOnly
  conv_lhs => rw [State.takeTicket_eq]
  simp

theorem SpeaksOnly.dropParts (s : State) (c : Nat) : SpeaksOnly s (s.dropParts c) := rfl

/-- The outcome of another client's ticket: an answer of the first checks, or nothing while it waits its turn. -/
def AnsweredNotOwner (t : Tkt) (s : State) (o : Host.Outcome State Fault Refusal) : Prop :=
  ∃ v, o = .next v ∧ SpeaksOnly s v ∧
    (s.ready t = true → ∃ (w : State) (r : Reply), v = w.reply t r ∧ r.status ∈ [0x10, 0x21, 0x12, 0x11])

theorem runTicket_answeredNotOwner {s : State} {t : Tkt} {k : Nat} {row : OpRow} {c : TCheck} (body : State → State)
    (hkey : t.rowKey = k) (hrow : opRow t.op = some row) (howner : c.own.getD row.owner = true) (hnot : s.isOwner t = false) :
    AnsweredNotOwner t s (runTicket t k s c body) := by
  obtain ⟨r, hstatus, hrun⟩ := runTicket_notOwner body hkey hrow howner hnot
  refine ⟨_, hrun, ?_, fun h => ⟨_, r, if_pos h, hstatus⟩⟩
  split
  · exact (SpeaksOnly.takeTicket s).trans (.reply _ t r)
  · exact .refl s

/-- Parts that are dropped before a ticket runs leave its turn and its sender as they were. -/
theorem AnsweredNotOwner.of_dropParts {t : Tkt} {s : State} {c : Nat} {o : Host.Outcome State Fault Refusal}
    (h : AnsweredNotOwner t (s.dropParts c) o) : AnsweredNotOwner t s o := by
  obtain ⟨v, ho, hv, hready⟩ := h
  exact ⟨v, ho, (SpeaksOnly.dropParts s c).trans hv, hready⟩

theorem signedPart_answeredNotOwner {s : State} {t : Tkt} {k : Nat} {row : OpRow} {c : TCheck} (unlock : Bool)
    (body : State → State) (hkey : t.rowKey = k) (hrow : opRow t.op = some row) (howner : c.own.getD row.owner = true)
    (hnot : s.isOwner t = false) : AnsweredNotOwner t s (signedPart t k unlock c s body) := by
  unfold signedPart
  dsimp only
  split
  · refine AnsweredNotOwner.of_dropParts (c := t.client) (runTicket_answeredNotOwner body hkey hrow ?_ ?_)
    · exact howner
    · exact hnot
  · refine runTicket_answeredNotOwner body hkey hrow ?_ hnot
    exact howner

theorem RunsOwnerChecked.notOwner {s : State} {t : Tkt} {k : Nat} {row : OpRow} {o : Host.Outcome State Fault Refusal}
    (h : RunsOwnerChecked t k s o) (hkey : t.rowKey = k) (hrow : opRow t.op = some row)
    (howner : (ownOverride k).getD row.owner = true) (hnot : s.isOwner t = false) : AnsweredNotOwner t s o := by
  cases h with
  | row c body hown => exact runTicket_answeredNotOwner body hkey hrow (hown ▸ howner) hnot
  | signed unlock c body hown => exact signedPart_answeredNotOwner unlock body hkey hrow (hown ▸ howner) hnot

/-- Settles O6: the owner check of R340 ends the ticket of any other client. -/
theorem onlyTheOwner : Obligations.OnlyTheOwner := by
  unfold Obligations.OnlyTheOwner
  intro i t k row s hi hkey hrow hown hnot
  have known : k ≠ 4096 := hkey ▸ rowKey_ne_unknown hrow
  rcases hown with ⟨howner, hfuse⟩ | rfl
  · have hread : k ≠ 0x120 := fun h => by simp [owner_false_of_trustRead (hkey.trans h) hrow] at howner
    refine (exec_runsOwnerChecked hi hread hfuse known s).notOwner hkey hrow ?_ hnot
    unfold ownOverride
    split
    · rfl
    · exact howner
  · exact (exec_runsOwnerChecked hi (by decide) (by decide) known s).notOwner hkey hrow rfl hnot

end Sys2Proof.Machine
end

section
/-!
THE SET POINT OF A RAIL (R76 to R78, R80). VSET is the request or the floor, whichever is higher, held inside the envelope; what is posted
for a rail's voltages changes its own record of them.
-/
namespace Sys2Proof.Machine

/-- What a rail is asked for: its request or its floor, whichever is higher (R76). -/
def State.want (s : State) (r : Rail) : Nat := max (s.vreqOf r) (s.railAt r).floor

@[simp] theorem State.railAt_blank_ne (s : State) {r q : Rail} (n : Nat) (h : q ≠ r) : (s.blank r n).railAt q = s.railAt q :=
  State.railAt_modRail_ne s _ h

theorem State.railAt_compose (s : State) (r : Rail) :
    ((s.compose r).railAt r).vset = clampN (s.vlo r) (s.vhi r) (s.want r) ∧
      ((s.compose r).railAt r).clamped = decide (clampN (s.vlo r) (s.vhi r) (s.want r) ≠ s.want r) := by
  unfold State.compose State.want
  dsimp only
  split <;> simp only [State.railAt_modRail, and_self]

theorem State.railAt_compose_ne (s : State) {r q : Rail} (h : q ≠ r) : (s.compose r).railAt q = s.railAt q := by
  unfold State.compose
  dsimp only
  split
  · exact State.railAt_modRail_ne s _ h
  · rw [State.railAt_modRail_ne _ _ h, State.railAt_blank_ne s _ h]

/-- Composing the set point of a rail changes the rails only. -/
theorem State.compose_eq (s : State) (r : Rail) : s.compose r = { s with rail := (s.compose r).rail } := by
  unfold State.compose
  dsimp only
  split <;> rfl

/-! ### The floors -/

/-- The largest of a list and a start value is no smaller than any of them, and is one of them. -/
theorem foldl_max_spec (l : List Nat) (a : Nat) :
    (a ≤ l.foldl max a ∧ ∀ x ∈ l, x ≤ l.foldl max a) ∧ (l.foldl max a = a ∨ l.foldl max a ∈ l) := by
  induction l generalizing a with
  | nil => simp
  | cons b l ih =>
    obtain ⟨⟨hstart, hall⟩, hmem⟩ := ih (max a b)
    rw [List.foldl_cons, List.mem_cons, List.forall_mem_cons]
    refine ⟨⟨by omega, by omega, hall⟩, ?_⟩
    rcases hmem with heq | hmem
    · omega
    · exact .inr (.inr hmem)

/-- The floor is the highest of the floors held, and one of them where it is not 0. -/
theorem RailSt.floor_spec (x : RailSt) :
    (∀ f ∈ x.floors, f.2 ≤ x.floor) ∧ (x.floor ≠ 0 → ∃ f ∈ x.floors, f.2 = x.floor) := by
  obtain ⟨⟨-, hall⟩, hmem⟩ := foldl_max_spec (x.floors.map Prod.snd) 0
  refine ⟨fun f hf => hall _ (List.mem_map_of_mem hf), fun h => ?_⟩
  exact List.mem_map.mp (hmem.resolve_left h)

theorem RailSt.mem_vote_other (x : RailSt) {c mv : Nat} {f : Nat × Nat} (h : f.1 ≠ c) : f ∈ x.vote c mv ↔ f ∈ x.floors := by
  have hne : f ≠ (c, mv) := fun he => h (congrArg Prod.fst he)
  unfold RailSt.vote
  dsimp only
  split <;> simp [h, hne]

theorem RailSt.mem_vote_self (x : RailSt) (c mv n : Nat) : (c, n) ∈ x.vote c mv ↔ n = mv ∧ mv ≠ 0 := by
  unfold RailSt.vote
  dsimp only
  split <;> simp_all

/-- Settles O58: VSET is the want clamped into the envelope, and each act writes its own fields of the rail. -/
theorem setPoints : Obligations.SetPoints := by
  unfold Obligations.SetPoints
  intro s r
  obtain ⟨hvset, hclamped⟩ := s.railAt_compose r
  refine ⟨⟨fun henv => ?_, ?_, fun q => s.railAt_compose_ne, s.compose_eq r⟩, fun h => by simp [State.vreqOf, h],
    fun h => by simp [State.vreqOf, h], ⟨(s.railAt r).floor_spec.1, fun h => by simp [RailSt.floor, h], (s.railAt r).floor_spec.2⟩,
    fun _ => rfl, fun _ => rfl, fun _ _ => rfl, fun _ _ => rfl, fun c mv => ⟨_, rfl, rfl, fun q h => ?_, ?_, fun f h => ?_, fun n => ?_⟩⟩
  · rw [hvset]
    unfold clampN State.want
    omega
  · rw [hclamped, hvset]
    exact decide_eq_true_iff
  · exact State.railAt_modRail_ne s _ h
  · rw [State.runAct, State.railAt_modRail]
  · rw [State.runAct, State.railAt_modRail]
    exact (s.railAt r).mem_vote_other h
  · rw [State.runAct, State.railAt_modRail]
    exact (s.railAt r).mem_vote_self c mv n

end Sys2Proof.Machine
end

section
/-!
THE ADDRESSED BUFFERS (log entry 5). A buffer in canonical form is an ascending list of the bytes that are not 0, so an address below the
first cell reads 0, and what is read at each cell fixes it.
-/
namespace Sys2Proof.Machine

@[simp] theorem Mem.read_nil (a : Nat) : Mem.read [] a = memDefault := rfl

theorem Mem.read_cons_self (a : Nat) (b : Byte) (m : Mem) : Mem.read ((a, b) :: m) a = b := if_pos rfl

theorem Mem.read_cons_of_lt {a x : Nat} (b : Byte) (m : Mem) (h : x < a) : Mem.read ((a, b) :: m) x = memDefault := by
  rw [Mem.read, if_neg h.ne', if_pos h]

theorem Mem.read_cons_of_gt {a x : Nat} (b : Byte) (m : Mem) (h : a < x) : Mem.read ((a, b) :: m) x = m.read x := by
  rw [Mem.read, if_neg h.ne, if_neg h.not_gt]

/-- Below the first address a buffer reads 0. -/
theorem Mem.read_of_above {m : Mem} {a x : Nat} (h : Mem.above a m) (hx : x ≤ a) : m.read x = memDefault := by
  cases m with
  | nil => rfl
  | cons c m => exact Mem.read_cons_of_lt c.2 m (hx.trans_lt (h c (List.mem_cons_self ..)))

/-- What a buffer reads after a byte is written. -/
theorem Mem.read_write {m : Mem} (hm : m.wf = true) (a x : Nat) (b : Byte) :
    (m.write a b).read x = if x = a then b else m.read x := by
  induction m with
  | nil => grind [Mem.write, Mem.read]
  | cons c m ih =>
    obtain ⟨y, v⟩ := c
    obtain ⟨-, habove, hwf⟩ := (Mem.wf_cons _ _).mp hm
    have hlow : x ≤ y → Mem.read m x = memDefault := Mem.read_of_above habove
    specialize ih hwf
    grind [Mem.write, Mem.read]

/-- What a buffer reads after bytes are written one after the other. -/
theorem Mem.read_writeList {m : Mem} (hm : m.wf = true) (a x : Nat) (l : List Nat) :
    (m.writeList a l).read x = if h : a ≤ x ∧ x < a + l.length then BitVec.ofNat 8 l[x - a] else m.read x := by
  induction l generalizing m a with
  | nil =>
    rw [dif_neg (by simp), Mem.writeList]
  | cons b l ih =>
    rw [Mem.writeList, ih (Mem.write_wf a _ hm), Mem.read_write hm]
    rcases lt_trichotomy x a with hlt | rfl | hgt
    · rw [dif_neg (by omega), if_neg hlt.ne, dif_neg (by omega)]
    · simp
    · obtain ⟨i, rfl⟩ := Nat.exists_eq_add_of_lt hgt
      have hix : a + (i + 1) - (a + 1) = i := by omega
      simp [Nat.add_assoc, Nat.add_comm 1, hix]

/-- Two buffers in canonical form that read alike are the same. -/
theorem Mem.ext_of_read {m n : Mem} (hm : m.wf = true) (hn : n.wf = true) (h : ∀ a, m.read a = n.read a) : m = n := by
  induction m generalizing n with
  | nil =>
    cases n with
    | nil => rfl
    | cons c n =>
      obtain ⟨hc, -, -⟩ := (Mem.wf_cons _ _).mp hn
      exact absurd (h c.1).symm (by rw [Mem.read_cons_self]; exact hc)
  | cons c m ih =>
    obtain ⟨hc, hca, hcm⟩ := (Mem.wf_cons _ _).mp hm
    cases n with
    | nil => exact absurd (h c.1) (by rw [Mem.read_cons_self]; exact hc)
    | cons d n =>
      obtain ⟨hd, hda, hdn⟩ := (Mem.wf_cons _ _).mp hn
      have haddr : c.1 = d.1 := by
        rcases lt_trichotomy c.1 d.1 with hlt | heq | hgt
        · have := h c.1
          rw [Mem.read_cons_self, Mem.read_cons_of_lt d.2 n hlt] at this
          exact absurd this hc
        · exact heq
        · have := h d.1
          rw [Mem.read_cons_self, Mem.read_cons_of_lt c.2 m hgt] at this
          exact absurd this.symm hd
      have hbyte : c.2 = d.2 := by
        have := h c.1
        rwa [Mem.read_cons_self, haddr, Mem.read_cons_self] at this
      have htail : m = n := ih hcm hdn fun a => by
        rcases Nat.lt_or_ge c.1 a with hlt | hge
        · have := h a
          rwa [Mem.read_cons_of_gt c.2 m hlt, Mem.read_cons_of_gt d.2 n (haddr ▸ hlt)] at this
        · rw [Mem.read_of_above hca hge, Mem.read_of_above hda (haddr ▸ hge)]
      rw [Prod.ext haddr hbyte, htail]

/-- Settles O59: a buffer in canonical form is fixed by what it reads at each cell. -/
theorem buffers : Obligations.Buffers := by
  unfold Obligations.Buffers
  refine ⟨fun m a b hm => ⟨?_, fun x hx => ?_⟩, fun m a l hm => ⟨fun i h => ?_, fun x hx => ?_⟩, fun m n => Mem.ext_of_read, Mem.read_nil⟩
  · rw [Mem.read_write hm, if_pos rfl]
  · rw [Mem.read_write hm, if_neg hx]
  · rw [Mem.read_writeList hm, dif_pos ⟨by omega, by omega⟩]
    simp
  · rw [Mem.read_writeList hm, dif_neg (by omega)]

end Sys2Proof.Machine
end

section
/-!
SEC-DED OVER A ROW OF FUSES (R437, R438). CHK is linear over the columns of the code, so a misread fuse of DATA shows its column as the
syndrome, one of CHK the bit of its own, and one of COMMIT none.
-/
namespace Sys2Proof.Machine

/-! ### CHK is linear -/

/-- What one bit of DATA adds to CHK. -/
def hsiaoStep (d c : Nat) (x : Nat × Nat) : Nat := if bit d x.1 then c ^^^ x.2 else c

theorem hsiao_eq_foldl (d : Nat) : hsiao d = ((List.range 64).zip hsiaoCols).foldl (hsiaoStep d) 0 := rfl

/-- The start of the fold is added to its end. -/
theorem foldl_hsiaoStep_start (d c : Nat) (l : List (Nat × Nat)) :
    l.foldl (hsiaoStep d) c = c ^^^ l.foldl (hsiaoStep d) 0 := by
  induction l generalizing c with
  | nil => simp
  | cons x l ih =>
    rw [List.foldl_cons, List.foldl_cons, ih, ih (hsiaoStep d 0 x)]
    unfold hsiaoStep
    split <;> simp [Nat.xor_assoc]

theorem bit_xor (a b i : Nat) : bit (a ^^^ b) i = (bit a i ^^ bit b i) := by
  simp [bit_eq_testBit]

theorem foldl_hsiaoStep_xor (a b : Nat) (l : List (Nat × Nat)) :
    l.foldl (hsiaoStep (a ^^^ b)) 0 = l.foldl (hsiaoStep a) 0 ^^^ l.foldl (hsiaoStep b) 0 := by
  induction l with
  | nil => simp
  | cons x l ih =>
    rw [List.foldl_cons, List.foldl_cons, List.foldl_cons, foldl_hsiaoStep_start, foldl_hsiaoStep_start a,
      foldl_hsiaoStep_start b, ih]
    simp only [hsiaoStep, bit_xor, Nat.zero_xor]
    cases bit a x.1 <;> cases bit b x.1 <;> simp [Nat.xor_assoc, Nat.xor_left_comm]

theorem hsiao_xor (a b : Nat) : hsiao (a ^^^ b) = hsiao a ^^^ hsiao b := by
  simp only [hsiao_eq_foldl, foldl_hsiaoStep_xor]

/-- CHK fits 8 bits. -/
theorem hsiao_lt (d : Nat) : hsiao d < 2 ^ 8 := by
  have hcols : ∀ x ∈ (List.range 64).zip hsiaoCols, x.2 < 2 ^ 8 := by decide +kernel
  have hfold : ∀ (l : List (Nat × Nat)) (c : Nat), c < 2 ^ 8 → (∀ x ∈ l, x.2 < 2 ^ 8) → l.foldl (hsiaoStep d) c < 2 ^ 8 := by
    intro l
    induction l with
    | nil => exact fun c hc _ => hc
    | cons x l ih =>
      intro c hc hl
      obtain ⟨hx, hrest⟩ := List.forall_mem_cons.mp hl
      refine ih _ ?_ hrest
      unfold hsiaoStep
      split
      · exact Nat.xor_lt_two_pow hc hx
      · exact hc
  exact hfold _ 0 (by decide) hcols

/-! ### The fuses of a row -/

theorem fusesOf_eq {d : Nat} (hd : d < 2 ^ 64) : fusesOf d = d + hsiao d * 2 ^ 64 + 255 * 2 ^ 72 := by
  have := hsiao_lt d
  unfold fusesOf fld
  omega

/-- The three fields of a programmed row. -/
theorem fusesOf_fields {d : Nat} (hd : d < 2 ^ 64) :
    fusesOf d % 2 ^ 64 = d ∧ fusesOf d / 2 ^ 64 % 256 = hsiao d ∧ fusesOf d / 2 ^ 72 = 255 := by
  have := hsiao_lt d
  rw [fusesOf_eq hd]
  omega

/-- What the syndrome makes of a row that has COMMIT fuses enough (R437). -/
def decodeRow (d syn : Nat) : RowRead :=
  if syn = 0 then .complete d false
  else match hsiaoCols.findIdx? (· == syn) with
    | some i => .complete (d ^^^ 2 ^ i) true
    | none => if popcount 8 syn = 1 then .complete d true else .torn

theorem readFuses_of_commit {f : Nat} (hcommit : 5 ≤ popcount 8 (f / 2 ^ 72)) (hvoid : f ≠ 2 ^ 80 - 1) :
    readFuses f = decodeRow (f % 2 ^ 64) (hsiao (f % 2 ^ 64) ^^^ (f / 2 ^ 64 % 256)) := by
  have hblank : f ≠ 0 := fun h => by
    rw [h] at hcommit
    exact absurd hcommit (by decide)
  exact (if_neg hblank).trans ((if_neg hvoid).trans (if_neg hcommit.not_gt))

theorem xor_mod_256 (a b : Nat) : (a ^^^ b) % 256 = a % 256 ^^^ b % 256 := Nat.xor_mod_two_pow (n := 8)

/-- A row read with the fuses `e` misread. -/
theorem readFuses_xor {d e : Nat} (hd : d < 2 ^ 64) (hcommit : 5 ≤ popcount 8 (255 ^^^ e / 2 ^ 72))
    (hvoid : fusesOf d ^^^ e ≠ 2 ^ 80 - 1) :
    readFuses (fusesOf d ^^^ e) = decodeRow (d ^^^ e % 2 ^ 64) (hsiao (e % 2 ^ 64) ^^^ (e / 2 ^ 64 % 256)) := by
  obtain ⟨hdata, hchk, hcom⟩ := fusesOf_fields hd
  have hcancel (a b c : Nat) : a ^^^ b ^^^ (a ^^^ c) = b ^^^ c := by
    rw [Nat.xor_comm a b, Nat.xor_assoc, ← Nat.xor_assoc a, Nat.xor_self, Nat.zero_xor]
  rw [readFuses_of_commit (by rwa [Nat.xor_div_two_pow, hcom]) hvoid, Nat.xor_mod_two_pow, hdata, Nat.xor_div_two_pow,
    xor_mod_256, hchk, hsiao_xor, hcancel]

/-- The misread fuse `i` of DATA shows the column `i`, and that column is no other's. -/
theorem decodeRow_column (d : Nat) {i : Nat} (hi : i < 64) : decodeRow d (hsiao (2 ^ i)) = .complete (d ^^^ 2 ^ i) true := by
  have hcol : ∀ i < 64, hsiao (2 ^ i) ≠ 0 ∧ hsiaoCols.findIdx? (· == hsiao (2 ^ i)) = some i := by decide +kernel
  rw [decodeRow, if_neg (hcol i hi).1, (hcol i hi).2]

/-- A single bit is no column, so the misread fuse is one of CHK. -/
theorem decodeRow_single (d : Nat) {k : Nat} (hk : k < 8) : decodeRow d (2 ^ k) = .complete d true := by
  have hbit : ∀ k < 8, hsiaoCols.findIdx? (· == 2 ^ k) = none ∧ popcount 8 (2 ^ k) = 1 := by decide +kernel
  rw [decodeRow, if_neg (by positivity), (hbit k hk).1]
  exact if_pos (hbit k hk).2

theorem decodeRow_zero (d : Nat) : decodeRow d 0 = .complete d false := rfl

/-- Settles O60: the syndrome of a misread fuse is its column, its own bit of CHK, or 0. -/
theorem secDed : Obligations.SecDed := by
  unfold Obligations.SecDed
  intro d hd hvoid
  refine ⟨?_, fun i hi hne => ?_, fun i hlo hhi => ?_⟩
  · have h := readFuses_xor (e := 0) hd (by decide) (by rwa [Nat.xor_zero])
    rwa [Nat.xor_zero, Nat.zero_mod, Nat.xor_zero] at h
  · rcases Nat.lt_or_ge i 64 with hdata | hchk
    · have hlow : 2 ^ i < 2 ^ 64 := Nat.pow_lt_pow_right (by decide) hdata
      have h := readFuses_xor (e := 2 ^ i) hd (by rw [Nat.div_eq_of_lt (by omega)]; decide) hne
      rwa [Nat.mod_eq_of_lt hlow, Nat.div_eq_of_lt hlow, Nat.zero_mod, Nat.xor_zero, decodeRow_column _ hdata, Nat.xor_assoc,
        Nat.xor_self, Nat.xor_zero] at h
    · obtain ⟨k, rfl⟩ := Nat.exists_eq_add_of_le hchk
      have hk : 2 ^ k < 256 := Nat.pow_lt_pow_right (n := 8) (by decide) (by omega)
      have h := readFuses_xor (e := 2 ^ (64 + k)) hd
        (by rw [Nat.div_eq_of_lt (by rw [Nat.pow_add]; omega)]; decide) hne
      rw [Nat.pow_add] at h ⊢
      rwa [Nat.mul_mod_right, Nat.mul_div_cancel_left _ (by decide), Nat.mod_eq_of_lt hk, Nat.xor_zero,
        show hsiao 0 = 0 from rfl, Nat.zero_xor, decodeRow_single d (by omega)] at h
  · obtain ⟨k, rfl⟩ := Nat.exists_eq_add_of_le hlo
    have hcom : ∀ k < 8, 5 ≤ popcount 8 (255 ^^^ 2 ^ k) ∧ 255 ^^^ 2 ^ k ≠ 255 := by decide +kernel
    obtain ⟨hcommit, hne⟩ := hcom k (by omega)
    have hdiv : 2 ^ (72 + k) / 2 ^ 72 = 2 ^ k := by rw [Nat.pow_add, Nat.mul_div_cancel_left _ (by decide)]
    have hdata : 2 ^ (72 + k) % 2 ^ 64 = 0 := by rw [show 72 + k = 64 + (8 + k) by omega, Nat.pow_add, Nat.mul_mod_right]
    have hchk : 2 ^ (72 + k) / 2 ^ 64 % 256 = 0 := by
      rw [show 72 + k = 64 + (8 + k) by omega, Nat.pow_add, Nat.mul_div_cancel_left _ (by decide), Nat.pow_add]
      exact Nat.mul_mod_right _ _
    have hvoid' : fusesOf d ^^^ 2 ^ (72 + k) ≠ 2 ^ 80 - 1 := fun he => by
      have := congrArg (· / 2 ^ 72) he
      simp only [Nat.xor_div_two_pow, (fusesOf_fields hd).2.2, hdiv] at this
      exact hne this
    rw [readFuses_xor hd (by rwa [hdiv]) hvoid', hdata, hchk, Nat.xor_zero]
    rfl

end Sys2Proof.Machine
end

section
/-!
WHAT ADMITTED TICKETS DO: the unit tickets. Each lemma passes the checks that a row adds (`runTicket_admits`) and names the effect.
-/
namespace Sys2Proof.Machine

/-- A check that finds nothing. -/
@[simp] theorem failIf_eq_none_iff {c : Bool} {r : Reply} : failIf c r = none ↔ c = false := by
  cases c <;> simp

section
variable {s : State} {t : Tkt}

/-! ### Voltage tickets (R76 to R78) -/

theorem exec_voteFloor {r : Rail} (h : s.admits t 0x000 {} = true) (hr : t.rail = some r)
    (hmv : t.le 16 2 = 0 ∨ (250 ≤ t.le 16 2 ∧ t.le 16 2 ≤ 3300))
    (hroom : t.le 16 2 = 0 ∨ (s.floorClients r).contains t.client = true ∨ (s.floorClients r).length < 32) :
    exec (.voteFloor t) s = .next ((s.takeTicket.post (t.nbBeat s.takeTicket) .beat (.setFloor r t.client (t.le 16 2))).ok t
      (b2n (decide (s.takeTicket.vhi r < t.le 16 2)))
      (fld ((((s.takeTicket.railAt r).vote t.client (t.le 16 2)).map Prod.snd).foldl max 0) 16 0
        + fld ((s.takeTicket.railAt r).vote t.client (t.le 16 2)).length 8 16)) := by
  simp only [exec, execVoteFloor, hr]
  refine runTicket_admits h (by simpa using hmv) rfl rfl ?_
  rcases hroom with hzero | hheld | hfree
  · simp [hzero]
  · simp [List.contains_iff_mem.mp hheld]
  · simp [hfree]

theorem exec_setTarget {r : Rail} (h : s.admits t 0x010 {} = true) (hr : t.rail = some r) (hlo : 250 ≤ t.le 16 2)
    (hhi : t.le 16 2 ≤ 3300) (havs : RailCfg.avsEn (s.rcfg r) = false) :
    exec (.setTarget t) s = .next ((s.takeTicket.post (t.nbBeat s.takeTicket) .beat (.setVreq r (t.le 16 2))).ok t) := by
  simp only [exec, execSetTarget, hr]
  exact runTicket_admits h (by simp [hlo, hhi]) rfl rfl (by simp [havs])

theorem exec_setEnvelope {r : Rail} (h : s.admits t 0x020 {} = true) (hr : t.rail = some r)
    (hlo : RailCfg.vminOwn (s.rcfg r) ≤ t.le 16 2) (hord : t.le 16 2 ≤ t.le 18 2) (hhi : t.le 18 2 ≤ RailCfg.vmaxOwn (s.rcfg r)) :
    exec (.setEnvelope t) s
      = .next ((s.takeTicket.post (t.nbBeat s.takeTicket) .beat (.setEnv r (t.le 16 2) (t.le 18 2))).ok t) := by
  simp only [exec, execSetEnvelope, hr]
  exact runTicket_admits h rfl (by simp [hlo, hhi]) (by simp [hord]) rfl

/-! ### Bench tickets (R68, R189, R214, R392) -/

theorem exec_benchPhase {p : Ph} (h : s.admits t 0x510 {} = true) (hp : t.phase = some p) (h16 : t.byte 16 = 0) (h17 : t.byte 17 = 0)
    (hstay : ∀ r : Rail, s.railOfPh p = some r → s.usable p = true → s.benchWaits p = false →
      RailCfg.nmin (s.rcfg r) < (s.stayingOf r).length) :
    exec (.benchPhase t) s = .next ((s.takeTicket.post (t.nbBeat s.takeTicket) .beat (.benchPhase p 6)).ok t) := by
  simp only [exec, execBenchPhase, hp]
  refine runTicket_admits h (by simp [h16, h17]) rfl rfl ?_
  cases hr : s.railOfPh p with
  | none => rfl
  | some r => 
    have := hstay r hr
    simp [failIf]
    grind

theorem exec_benchRail {r : Rail} (h : s.admits t 0x511 { free := true } = true) (hr : t.rail = some r) (h17 : t.byte 17 = 0)
    (hlead : s.followsGang r = false) (hme : s.ring.benchedMe = false) :
    exec (.benchRail t) s = .next ((s.takeTicket.post (t.nbBeat s.takeTicket) .beat (.benchRail r 0)).ok t) := by
  simp only [exec, execBenchRail, hr]
  exact runTicket_admits h (by simp [h17]) rfl (by simp [hlead]) (by simp [hme])

theorem exec_benchControlDie (h : s.admits t 0x512 {} = true) (h17 : t.byte 17 ≤ 1)
    (hst : s.arb.st[(dieOf t).ix.val] = .standby ∨ s.arb.st[(dieOf t).ix.val] = .benched) :
    exec (.benchControlDie t) s = .next ((s.takeTicket.post (t.nbBeat s.takeTicket) .beat (.benchDie (dieOf t) 6)).ok t) := by
  simp only [exec, execBenchControlDie]
  exact runTicket_admits h (by simp [h17]) rfl rfl (by rcases hst with hst | hst <;> simp [hst])

theorem exec_benchChainDevice (h : s.admits t 0x515 { free := true } = true) (h17 : t.byte 17 = 0)
    (hdev : t.dev = s.ring.num ∨ (s.devAt t.dev).known = true) :
    exec (.benchChainDevice t) s = .next ((s.takeTicket.ok t).post (t.nbBeat s.takeTicket) .beat (.benchDev t.dev)) := by
  simp only [exec, execBenchChainDevice]
  exact runTicket_admits h (by simp [h17]) rfl (by rcases hdev with hdev | hdev <;> simp [hdev]) rfl

/-! ### Readmit tickets (R17, R69, R138, R189, R213, R257, R363, R395) and SWAP (R190) -/

theorem exec_readmitPhase {p : Ph} (h : s.admits t 0x520 {} = true) (hp : t.phase = some p) (h16 : t.byte 16 = 0)
    (h17 : t.byte 17 = 0) (hst : (s.phAt p).st = .benched) (htest : (s.phAt p).test = none) :
    exec (.readmitPhase t) s = .next ((s.takeTicket.queued t).post (t.nbBeat s.takeTicket) .frame (.readmitPhase p t.ref)) := by
  simp only [exec, execReadmitPhase, hp]
  exact runTicket_admits h (by simp [h16, h17]) rfl (by simp [hst]) (by simp [htest])

theorem exec_readmitRail {r : Rail} (h : s.admits t 0x521 { free := true } = true) (hr : t.rail = some r) (h17 : t.byte 17 = 0)
    (hout : (s.railAt r).benched.isSome = true) (hlead : s.followsGang r = false) (hme : s.ring.benchedMe = false)
    (hramp : (s.railAt r).ramp = none) :
    exec (.readmitRail t) s = .next ((s.takeTicket.queued t).post (t.nbBeat s.takeTicket) .frame (.readmitRail r t.ref)) := by
  simp only [exec, execReadmitRail, hr]
  exact runTicket_admits h (by simp [h17]) rfl (by simp [hlead, hout]) (by simp [hme, hramp])

theorem exec_readmitControlDie (h : s.admits t 0x522 {} = true) (h17 : t.byte 17 ≤ 1)
    (hst : s.arb.st[(dieOf t).ix.val] = .benched) (hact : s.arb.active = some (dieOf t).other) (hvote : s.arb.voteQ = []) :
    exec (.readmitControlDie t) s
      = .next ((s.takeTicket.queued t).post (t.nbBeat s.takeTicket) .frame (.readmitDie (dieOf t) t.ref)) := by
  simp only [exec, execReadmitControlDie]
  exact runTicket_admits h (by simp [h17]) rfl (by simp [hst]) (by simp [hact, hvote])

theorem exec_readmitCharger (h : s.admits t 0x523 {} = true) (h17 : t.byte 17 = 0) (hout : s.chgBenched = true)
    (hpack : s.pack.missing = false) (hcheck : s.pack.check = none) :
    exec (.readmitCharger t) s = .next ((s.takeTicket.queued t).post (t.nbBeat s.takeTicket) .frame (.readmitCharger t.ref)) := by
  simp only [exec, execReadmitCharger]
  exact runTicket_admits h (by simp [h17]) rfl (by simp [hout]) (by simp [hpack, hcheck])

theorem exec_readmitGangMember {r : Rail} (h : s.admits t 0x524 { free := true } = true) (hr : t.rail = some r)
    (h17 : t.byte 17 = 0) (hrole : s.gang[r.val].role = .detached) (hcheck : s.gang[r.val].readmit = none)
    (hme : s.ring.benchedMe = false) :
    exec (.readmitGangMember t) s = .next ((s.takeTicket.queued t).post (t.nbBeat s.takeTicket) .frame (.readmitGang r t.ref)) := by
  simp only [exec, execReadmitGangMember, hr]
  exact runTicket_admits h (by simp [h17]) rfl (by simp [hrole]) (by simp [hme, hcheck])

theorem exec_readmitChainDevice (h : s.admits t 0x525 { free := true } = true) (h17 : t.byte 17 = 0)
    (hout : (s.devAt t.dev).benched = true) (hcheck : (s.devAt t.dev).check = none)
    (hseen : roundOf s.time.clk ≤ (s.devAt t.dev).seen + 1) :
    exec (.readmitChainDevice t) s
      = .next ((s.takeTicket.queued t).post (t.nbBeat s.takeTicket) .frame (.readmitDev t.dev t.ref)) := by
  simp only [exec, execReadmitChainDevice]
  exact runTicket_admits h (by simp [h17]) rfl (by simp [hout]) (by simp [hcheck, hseen])

theorem exec_readmitHostPort {k : OPort} (h : s.admits t 0x526 { free := true } = true) (hk : t.byte 17 = k.val)
    (hout : (s.own.ports[k.val]).benched = true) (hcheck : (s.own.ports[k.val]).check = none) (hme : s.ring.benchedMe = false) :
    exec (.readmitHostPort t) s = .next ((s.takeTicket.queued t).post (t.nbBeat s.takeTicket) .frame (.readmitPort k t.ref)) := by
  have hport : t.byte 17 % 4 = k.val := by omega
  simp only [exec, execReadmitHostPort, hport]
  exact runTicket_admits h (by simp [hk]; omega) rfl (by simp [hout]) (by simp [hme, hcheck])

theorem exec_swap (h : s.admits t 0x530 {} = true) (hstandby : s.standby.isSome = true) (hvote : s.arb.voteQ = []) :
    exec (.swap t) s = .next ((s.takeTicket.post (t.nbBeat s.takeTicket) .frame (.swap t.ref)).ok t) := by
  simp only [exec, execSwap]
  exact runTicket_admits h rfl rfl rfl (by simp [hstandby, hvote])

/-! ### Programmes and housekeeping supplies (R222, R223, R248) -/

theorem progOf_val (n : Prog) : progOf n.val = some n := dif_pos n.isLt

theorem exec_seqRun {n : Prog} (hn : t.byte 16 = n.val) (h : s.admits t 0x400 {} = true) (hdef : SeqProg.defd (s.progcfg n) = true)
    (himg : s.cfg.inForce.isSome = true) (hstep : 8 ≤ s.start.step) (hbusy : s.seqBusy n = false) (hchain : t.chain = false) :
    exec (.seqRun t) s = .next ((s.takeTicket.queued t).post (t.nbBeat s.takeTicket) .frame (.seqRun n (some t.ref) none)) := by
  simp only [exec, execSeqRun, hn, progOf_val]
  rw [runTicket_admits h (by simp) rfl (by simp [hdef, himg, hchain]) (by simp [hstep, hbusy]), hchain]
  rfl

theorem exec_seqRun_chain {n : Prog} (hn : t.byte 16 = n.val) (h : s.admits t 0x400 {} = true)
    (hdef : SeqProg.defd (s.progcfg n) = true) (himg : s.cfg.inForce.isSome = true) (hstep : 8 ≤ s.start.step)
    (hbusy : s.seqBusy n = false) (hchain : t.chain = true) (hscope : SeqProg.chain (s.progcfg n) = true) (hfwd : s.isFwd t = false) :
    exec (.seqRun t) s = .next ((s.takeTicket.chainPart t { status := 0x02 }
        (some (ceilDiv (max (s.takeTicket.time.clk + 8000) (t.nbBeat s.takeTicket)) 4000 * 4000))).post
      (ceilDiv (max (s.takeTicket.time.clk + 8000) (t.nbBeat s.takeTicket)) 4000 * 4000) .round (.seqRunChain n (some t.ref))) := by
  simp only [exec, execSeqRun, hn, progOf_val]
  rw [runTicket_admits h (by simp) rfl (by simp [hdef, himg, hscope]) (by simp [hstep, hbusy])]
  simp [hchain, hfwd, Tkt.nbBeat]

theorem seqNone_of_running {n : Prog} (hn : t.byte 16 = n.val) (hrun : s.seq[n.val].running = true) : s.seqNone t = false := by
  simp [State.seqNone, hn, progOf_val, hrun]

theorem exec_seqSkip {n : Prog} (hn : t.byte 16 = n.val) (h : s.admits t 0x410 {} = true) (hrun : s.seq[n.val].running = true) :
    exec (.seqSkip t) s
      = .next ((s.takeTicket.post (t.nbBeat s.takeTicket) .frame (.seqSkip n)).ok t 0 s.seq[n.val].step) := by
  simp only [exec, execSeqSkip, seqNone_of_running hn hrun, hn, progOf_val]
  exact runTicket_admits h (by simp) rfl rfl rfl

theorem exec_seqAbort {n : Prog} (hn : t.byte 16 = n.val) (h : s.admits t 0x420 {} = true) (hrun : s.seq[n.val].running = true) :
    exec (.seqAbort t) s = .next ((s.takeTicket.post (t.nbBeat s.takeTicket) .frame (.seqAbort n)).ok t) := by
  simp only [exec, execSeqAbort, seqNone_of_running hn hrun, hn, progOf_val]
  exact runTicket_admits h (by simp) rfl rfl rfl

theorem exec_hkSwitch {k : Hk} (hk : t.byte 16 = k.val) (h : s.admits t 0x430 {} = true) (h17 : t.byte 17 < 2)
    (hen : HkCfg.en (s.hkcfg k) = true) (himg : s.cfg.inForce.isSome = true) :
    exec (.hkSwitch t) s
      = .next ((s.takeTicket.post (t.nbBeat s.takeTicket) .round (.hkSwitch k (t.byte 17 == 1))).ok t) := by
  simp only [exec, execHkSwitch, hk, k.isLt, dif_pos]
  exact runTicket_admits h (by simp [h17]) rfl (by simp [hen, himg]) rfl

/-! ### Clear tickets (R198, R278, R402, Table 11.7) -/

theorem exec_clearLatch {r : Rail} (h : s.admits t 0x500 {} = true) (hr : t.rail = some r) (hsns : bit (t.byte 16) 6 = false) :
    exec (.clearLatch t) s
      = .next ((s.takeTicket.post (t.nbBeat s.takeTicket) .frame (.clearLatch r (t.byte 16) none false)).ok t) := by
  simp only [exec, execClearLatch, hr, hsns]
  exact runTicket_admits h rfl rfl rfl rfl

theorem exec_clearLatch_sense {r : Rail} (h : s.admits t 0x500 {} = true) (hr : t.rail = some r) (hsns : bit (t.byte 16) 6 = true)
    (hflt : (s.railAt r).snsFault = false) :
    exec (.clearLatch t) s
      = .next (s.takeTicket.post (t.nbBeat s.takeTicket) .frame (.clearLatch r (t.byte 16) (some t.ref) false)) := by
  simp only [exec, execClearLatch, hr, hsns, hflt]
  exact runTicket_admits h rfl rfl rfl rfl

theorem exec_clearLatch_watch {r : Rail} (h : s.admits t 0x500 {} = true) (hr : t.rail = some r) (hsns : bit (t.byte 16) 6 = true)
    (hflt : (s.railAt r).snsFault = true) (hwatch : s.watching r = false) :
    exec (.clearLatch t) s
      = .next ((s.takeTicket.queued t).post (t.nbBeat s.takeTicket) .frame (.clearLatch r (t.byte 16) (some t.ref) true)) := by
  simp only [exec, execClearLatch, hr, hsns, hflt, hwatch]
  exact runTicket_admits h rfl rfl rfl rfl

theorem exec_thermClear (h : s.admits t 0x540 {} = true) (h16 : t.byte 16 < 76 ∨ t.byte 16 = 255) :
    exec (.thermClear t) s = .next ((s.takeTicket.post (t.nbBeat s.takeTicket) .frame (.thermClear (t.byte 16))).ok t) := by
  simp only [exec, execThermClear]
  exact runTicket_admits h (by simpa using h16) rfl rfl rfl

theorem exec_meterClear (h : s.admits t 0x830 {} = true) :
    exec (.meterClear t) s = .next ((s.takeTicket.post (t.nbBeat s.takeTicket) .frame (.meterClear (t.byte 16))).ok t) := by
  simp only [exec, execMeterClear]
  exact runTicket_admits h rfl rfl rfl rfl

theorem exec_alarmClear (h : s.admits t 0xA30 {} = true) :
    exec (.alarmClear t) s = .next ((s.takeTicket.ok t).post (t.nbBeat s.takeTicket) .frame (.alarmClear (t.le 16 8))) := by
  simp only [exec, execAlarmClear]
  exact runTicket_admits h rfl rfl rfl rfl

/-! ### Margin tickets (R290, R291) -/

theorem exec_mpAccept {x : Proposal} (h : s.admits t 0x350 {} = true) (hnvm : nvmFault s = none)
    (hx : s.propAt (t.le 16 2) = some x) (hok : s.valueOk s.cfg.cfg x.kind x.target x.v1 x.v2 = true) :
    exec (.mpAccept t) s = .next ((s.takeTicket.post (t.nbBeat s.takeTicket) .round (.mpAccept (t.le 16 2))).ok t) := by
  simp only [exec, execMpAccept]
  exact runTicket_admits h rfl rfl (by simp [hx, hok]) (by simp [hnvm])

theorem exec_mpReject (h : s.admits t 0x360 {} = true) (hx : (s.propAt (t.le 16 2)).isSome = true) :
    exec (.mpReject t) s
      = .next ((s.takeTicket.modTherm fun x => { x with props := x.props.filter fun y => y.num != t.le 16 2 }).ok t) := by
  simp only [exec, execMpReject]
  exact runTicket_admits h rfl rfl (by simp [hx]) rfl

theorem exec_mpReset (h : s.admits t 0x370 {} = true) (hnvm : nvmFault s = none) :
    exec (.mpReset t) s
      = .next ((s.takeTicket.post (t.nbBeat s.takeTicket) .round (.mpReset t.rail (bit (t.byte 16) 0))).ok t) := by
  simp only [exec, execMpReset]
  exact runTicket_admits h rfl rfl rfl (by simp [hnvm])

end

/-- Settles O9: the checks that a voltage ticket's row adds pass, so it has its effect. -/
theorem voltageTickets : Obligations.VoltageTickets := by
  unfold Obligations.VoltageTickets
  intro s t r hr
  exact ⟨fun h => exec_voteFloor h hr, fun h => exec_setTarget h hr, fun h => exec_setEnvelope h hr⟩

/-- Settles O11: the checks that a BENCH row adds pass, so it has its effect. -/
theorem benchTickets : Obligations.BenchTickets := by
  unfold Obligations.BenchTickets
  intro s t
  refine ⟨fun p => exec_benchPhase, fun r => exec_benchRail, ?_, exec_benchChainDevice⟩
  rintro d h rfl
  exact exec_benchControlDie h

/-- Settles O12: the checks that a READMIT row or SWAP adds pass, so it has its effect. -/
theorem readmitTickets : Obligations.ReadmitTickets := by
  unfold Obligations.ReadmitTickets
  exact fun s t => ⟨fun p => exec_readmitPhase, fun r => exec_readmitRail, exec_readmitControlDie, exec_readmitCharger,
    fun r => exec_readmitGangMember, exec_readmitChainDevice, fun k => exec_readmitHostPort, exec_swap⟩

/-- Settles O13: the checks that a sequence row adds pass, so it has its effect. -/
theorem sequenceTickets : Obligations.SequenceTickets := by
  unfold Obligations.SequenceTickets
  refine fun s t => ⟨fun n hn => ⟨fun h hdef himg hstep hbusy => ⟨?_, ?_⟩, exec_seqSkip hn, exec_seqAbort hn⟩, fun k hk => exec_hkSwitch hk⟩
  · exact exec_seqRun hn h hdef himg hstep hbusy
  · exact exec_seqRun_chain hn h hdef himg hstep hbusy

/-- Settles O14: the checks that a clearing row adds pass, so it has its effect. -/
theorem clearTickets : Obligations.ClearTickets := by
  unfold Obligations.ClearTickets
  exact fun s t => ⟨fun r h hr => ⟨exec_clearLatch h hr, exec_clearLatch_sense h hr, exec_clearLatch_watch h hr⟩, exec_thermClear,
    exec_meterClear, exec_alarmClear⟩

/-- Settles O15: the checks that a margin row adds pass, so it has its effect. -/
theorem marginTickets : Obligations.MarginTickets := by
  unfold Obligations.MarginTickets
  refine fun s t => ⟨fun x => exec_mpAccept, fun h hx => ⟨_, exec_mpReject h hx, rfl, fun x => ?_⟩, exec_mpReset⟩
  simp [State.modTherm]

end Sys2Proof.Machine
end

section
/-!
FORECAST TICKETS (R146 to R151, R162, R165). A forecast that passes the checks of its row is filed as it stands, its scores aside.
-/
namespace Sys2Proof.Machine

/-- The lowest flag of a word of flags. -/
theorem bit_zero_flags (a : Bool) (n : Nat) : bit (b2n a + 2 * n) 0 = a := by
  cases a <;> simp [bit, b2n]

theorem bit_one_flags (a b : Bool) (n : Nat) : bit (b2n a + 2 * (b2n b + 2 * n)) 1 = b := by
  cases a <;> cases b <;> simp [bit, b2n] <;> omega

/-- A word of five flags read back: which bound acted. -/
theorem bit_five_flags (a b c d e : Bool) :
    bit (b2n a + 2 * b2n b + 4 * b2n c + 8 * b2n d + 16 * b2n e) 0 = a ∧
      bit (b2n a + 2 * b2n b + 4 * b2n c + 8 * b2n d + 16 * b2n e) 1 = b := by
  have hsplit : b2n a + 2 * b2n b + 4 * b2n c + 8 * b2n d + 16 * b2n e = b2n a + 2 * (b2n b + 2 * (b2n c + 2 * b2n d + 4 * b2n e)) := by
    omega
  rw [hsplit]
  exact ⟨bit_zero_flags _ _, bit_one_flags _ _ _⟩

/-- Sampling at TS changes the scores of a forecast only. -/
theorem Fc.ite_modSc_eq (c : Prop) [Decidable c] (f : Fc) (g : Cd → FcScore → FcScore) :
    (if c then f.modSc g else f) = { f with sc := (if c then f.modSc g else f).sc } := by
  split <;> rfl

section
variable {s : State} {t : Tkt} {r : Rail}

/-- An admitted FORECAST that its row's own checks let through. -/
theorem exec_forecast (hr : t.rail = some r) (h : s.admits t 0x100 {} = true) (hdi : sint 32 (t.le 20 4) ≠ 0)
    (hlim : (sint 32 (t.le 20 4)).natAbs ≤ 115200) (hlo : 4 ≤ t.le 24 2) (hhi : t.le 24 2 ≤ 1023)
    (hen : FcCfg.fcEn (s.fccfg r) = true) (hleads : s.leads r = true)
    (htime : s.fcTimeBad (resolve s.time.clk (t.le 16 4)) (min (t.le 24 2) (FcCfg.fcWmax (s.fccfg r))) = false)
    (hst : (s.railAt r).st = .regulate) (hrail : (s.fcPending r).length < 8)
    (hmine : ((s.fcPending r).filter fun f => f.client == t.client).length < 2)
    (hrate : countP (fun x => x.1 == t.client && x.2 == r.val) s.fc.filed < FcCfg.fcRate (s.fccfg r))
    (hroom : s.trustRoom t.client r.val = true) :
    let u := s.takeTicket
    let di := sint 32 (t.le 20 4)
    let lim : Int := 10 * s.ratingG r
    let uc := min (t.le 24 2) (FcCfg.fcWmax (s.fccfg r))
    ∃ (v : State) (ex : Nat), exec (.forecast t) s = .next (v.queued t ex) ∧ v = { u with fc := v.fc }
      ∧ bit ex 0 = decide (uc < t.le 24 2) ∧ bit ex 1 = decide (clampI (-lim) lim di ≠ di)
      ∧ v.fc.filed = u.fc.filed ++ [(t.client, r.val)]
      ∧ ∃ f : Fc, v.fc.fcs = u.fc.fcs ++ [f] ∧ f.client = t.client ∧ f.seq = t.seq ∧ f.rail = r.val
        ∧ f.tstep = resolve s.time.clk (t.le 16 4) ∧ f.u = uc ∧ f.di = clampI (-lim) lim di ∧ (f.di ≤ 0 → f.head = 0)
        ∧ f.filedAt = u.time.clk := by
  intro u di lim uc
  simp only [exec, execForecast, hr]
  refine ⟨_, _, runTicket_admits h (by simp [hdi, hlim, hlo, hhi]) (by simp [hen]) (by simp [hleads, htime])
    (by simp [hst, hrail, hmine, hrate, hroom]), rfl, (bit_five_flags _ _ _ _ _).1, (bit_five_flags _ _ _ _ _).2, rfl, _, rfl, ?_⟩
  rw [Fc.ite_modSc_eq]
  exact ⟨rfl, rfl, rfl, rfl, rfl, rfl, fun hneg => if_neg (not_lt.mpr hneg), rfl⟩

theorem exec_forecastCancel {f : Fc} (hr : t.rail = some r) (h : s.admits t 0x110 {} = true)
    (hf : (s.fc.fcs.find? fun (f : Fc) => f.client == t.client && f.seq == t.le 16 2 && f.rail == r.val) = some f)
    (hts : s.time.clk < f.ts) :
    exec (.forecastCancel t) s
      = .next ((s.takeTicket.post (t.nbBeat s.takeTicket) .beat (.cancelFc t.client (t.le 16 2) r)).ok t) := by
  simp only [exec, execForecastCancel, hr, hf]
  exact runTicket_admits h rfl rfl rfl (by simp [hts])

theorem exec_forecastTrustRead (hr : t.rail = some r) (h : s.admits t 0x120 { own := some (t.le 16 2 != t.client), nb := some false } = true)
    (hc : t.le 16 2 < 4096) (h18 : t.byte 18 = 0) (h19 : t.byte 19 = 0) :
    exec (.forecastTrustRead t) s = .next (s.takeTicket.ok t 0 (fld (s.takeTicket.trustOf (t.le 16 2) r.val) 8 0
      + fld (countP (fun f => f.client == t.le 16 2 && f.rail == r.val) s.takeTicket.fc.fcs) 8 8
      + fld (s.takeTicket.fcUsed (t.le 16 2) r.val) 16 16)) := by
  simp only [exec, execForecastTrustRead, hr]
  exact runTicket_admits h (by simp [hc, h18, h19]) rfl rfl rfl

theorem exec_forecastTrustSet (hr : t.rail = some r) (h : s.admits t 0x121 { own := some true } = true) (hc : t.le 16 2 < 4096)
    (hroom : s.trustRoom (t.le 16 2) r.val = true) :
    exec (.forecastTrustSet t) s
      = .next ((s.takeTicket.post (t.nbBeat s.takeTicket) .beat (.trustSet (t.le 16 2) r (t.byte 19))).ok t) := by
  simp only [exec, execForecastTrustSet, hr]
  exact runTicket_admits h (by simp [hc]) rfl rfl (by simp [hroom])

end

/-- Settles O10: the checks that a forecast row adds pass, so it has its effect. -/
theorem forecastTickets : Obligations.ForecastTickets := by
  unfold Obligations.ForecastTickets
  exact fun s t r hr => ⟨exec_forecast hr, fun f => exec_forecastCancel hr, exec_forecastTrustRead hr, exec_forecastTrustSet hr⟩

end Sys2Proof.Machine
end

section
/-!
READ TICKETS (R290, R295, R344, R413, R430, Table 9.6). A read is let through by the checks of its row and answers a word or bytes.
-/
namespace Sys2Proof.Machine

section
variable {s : State} {t : Tkt}

/-! ### TELEM_READ (R344) -/

/-- The checks that TELEM_READ adds pass for a selector of its table. -/
theorem telemRead_admits {body : State → State} (h : s.admits t 0x200 { free := true } = true)
    (hsub : subOk (t.byte 16) (t.byte 17) = true) (hsg : t.sg = true ∨ t.byte 16 < 6 ∨ 9 < t.byte 16) (hsel : t.byte 16 ≤ 10) :
    runTicket t 0x200 s { rng := [(1, !decide (6 ≤ t.byte 16 ∧ t.byte 16 ≤ 9) || t.sg), (16, decide (t.byte 16 ≤ 10)),
      (17, subOk (t.byte 16) (t.byte 17))], free := true } body = .next (body s.takeTicket) := by
  refine runTicket_admits h ?_ rfl rfl rfl
  rcases hsg with hsg | hsg | hsg <;> simp [hsub, hsel, hsg]

section
variable (h : s.admits t 0x200 { free := true } = true) (hsub : subOk (t.byte 16) (t.byte 17) = true)
  (hsg : t.sg = true ∨ t.byte 16 < 6 ∨ 9 < t.byte 16)
include h hsub hsg

theorem exec_telemRead_rail {r : Rail} (hr : t.rail = some r) :
    let u := s.takeTicket
    (t.byte 16 = 0 → exec (.telemRead t) s = .next (u.ok t 0 (u.railStat r))) ∧
    (t.byte 16 = 2 → exec (.telemRead t) s = .next (u.ok t 0 (u.supStat r))) ∧
    (t.byte 16 = 7 → exec (.telemRead t) s
      = .next (u.answer t 0 (leBytes 16 (u.railAt r).capW.word ++ leBytes 16 (u.railAt r).capF.word))) ∧
    (t.byte 16 = 8 → exec (.telemRead t) s = .next (u.answer t 0 (u.railAt r).floorWords)) ∧
    (t.byte 16 = 9 → exec (.telemRead t) s = .next (u.answer t 0 (u.railRecords r))) := by
  refine ⟨?_, ?_, ?_, ?_, ?_⟩
  all_goals
    intro hk
    simp only [exec, execTelemRead]
    rw [telemRead_admits h hsub hsg (by omega)]
    simp only [hk, hr]

theorem exec_telemRead_phase {p : Ph} (hp : t.phase = some p) :
    let u := s.takeTicket
    (t.byte 16 = 1 → exec (.telemRead t) s = .next (u.ok t 0 (u.phStat p + fld (u.phAt p).wear 32 32))) ∧
    (t.byte 16 = 9 → t.rail = none → exec (.telemRead t) s
      = .next (u.answer t 0 (leBytes 16 (u.pcfg p) ++ leBytes 4 (u.pool p)))) := by
  refine ⟨fun hk => ?_, fun hk hr => ?_⟩
  · simp only [exec, execTelemRead]
    rw [telemRead_admits h hsub hsg (by omega)]
    simp only [hk, hp]
  · simp only [exec, execTelemRead]
    rw [telemRead_admits h hsub hsg (by omega)]
    simp only [hk, hp, hr]

theorem exec_telemRead_device :
    let u := s.takeTicket
    (∀ n : Prog, t.byte 16 = 3 → t.byte 17 = n.val → exec (.telemRead t) s = .next (u.ok t 0 (u.seqStat n))) ∧
    (t.byte 16 = 4 → exec (.telemRead t) s = .next (u.ok t 0 (u.feedAt (if t.byte 17 = 0 then .a else .b)).word)) ∧
    (∀ x : Src, t.byte 16 = 5 → t.byte 17 = x.val → exec (.telemRead t) s = .next (u.ok t 0 (u.thermSrc x))) ∧
    (t.byte 16 = 6 → exec (.telemRead t) s = .next (u.answer t 0 (leBytes 16 u.thermStat))) ∧
    (t.byte 16 = 10 → exec (.telemRead t) s = .next (u.ok t 0 u.log.latches)) := by
  refine ⟨fun n hk hn => ?_, fun hk => ?_, fun x hk hx => ?_, fun hk => ?_, fun hk => ?_⟩
  all_goals
    simp only [exec, execTelemRead]
    rw [telemRead_admits h hsub hsg (by omega)]
    simp only [hk]
  · simp only [hn, progOf_val]
  · simp only [hx, x.isLt, dif_pos]

end

/-! ### BULK_READ (R345) -/

theorem exec_bulkRead (h : s.admits t 0x210 { perm := if t.byte 16 = 4 then some 140 else none, free := true } = true)
    (hk : t.byte 16 < 5) (hlo : 1 ≤ t.le 20 4) (hhi : t.le 20 4 ≤ 16777216) :
    let u := s.takeTicket
    let k := t.byte 16
    let cur := t.le 24 4
    let fin := min (t.le 20 4) (s.bulkWhole t k)
    let lo := max cur (u.ring.num * bulkSize k)
    let bs := u.bulkSlice k lo fin
    cur ≤ fin →
    (t.chain = false → exec (.bulkRead t) s = .next (u.answer t cur (((u.bulk k).take fin).drop cur))) ∧
    (t.chain = true → s.isFwd t = true → exec (.bulkRead t) s = .next (u.stub { ref := t.ref, value := fld bs.length 32 0 } bs)) ∧
    (t.chain = true → s.isFwd t = false → exec (.bulkRead t) s
      = .next ((u.fill (segDrop t.segs (lo - cur)) bs).chainPart t (fitReply (segSum t.segs) cur (fin - cur)) none (bulkSize k))) := by
  intro u k cur fin lo bs hcur
  refine ⟨fun hchain => ?_, fun hchain hfwd => ?_, fun hchain hfwd => ?_⟩
  all_goals
    simp only [exec, execBulkRead]
    rw [runTicket_admits h (by simp [hk, hlo]; exact le_min_iff.mp hcur) rfl (by simp [hhi]) rfl]
    simp only [hchain]
  · rfl
  · rw [hfwd]; rfl
  · rw [hfwd]; rfl

/-! ### The other reads -/

theorem exec_mpRead_all (h : s.admits t 0x220 { free := true } = true) (hn : t.le 16 2 = 65535) (hsg : t.sg = true) :
    exec (.mpRead t) s = .next (s.takeTicket.answer t 0 (s.takeTicket.therm.props.flatMap fun x => leBytes 8 x.word)) := by
  simp only [exec, execMpRead]
  rw [runTicket_admits h (by simp [hn, hsg]) rfl (by simp [hn]) rfl, if_pos hn]

/-- The proposals that MP_READ looks among: those of its target (R290). -/
def readsProposal (t : Tkt) (x : Proposal) : Bool :=
  x.num == t.le 16 2 && (match t.rail, t.phase with
    | some r, _ => x.kind != 2 && x.target == r.val
    | none, some p => x.kind == 2 && x.target == p.val
    | none, none => false)

theorem readsProposal_of_rail {r : Rail} (hr : t.rail = some r) :
    readsProposal t = fun y => y.num == t.le 16 2 && (y.kind != 2 && y.target == r.val) := by
  funext y
  simp only [readsProposal, hr]

theorem readsProposal_of_phase {p : Ph} (hr : t.rail = none) (hp : t.phase = some p) :
    readsProposal t = fun y => y.num == t.le 16 2 && (y.kind == 2 && y.target == p.val) := by
  funext y
  simp only [readsProposal, hr, hp]

/-- The word that MP_READ answers with a proposal, and the bare answer with none. -/
def proposalReply (u : State) (t : Tkt) : Option Proposal → State
  | some x => u.ok t 0 x.word
  | none => u.ok t

theorem execMpRead_eq : exec (.mpRead t) s = runTicket t 0x220 s
    { rng := [(1, t.le 16 2 != 65535 || t.sg)],
      pre := [failIf (t.le 16 2 != 65535 && !s.therm.props.any (readsProposal t)) badTarget], free := true } fun u =>
      if t.le 16 2 = 65535 then u.answer t 0 (u.therm.props.flatMap fun x => leBytes 8 x.word)
      else proposalReply u t (u.therm.props.find? (readsProposal t)) := rfl

theorem exec_mpRead_one {x : Proposal} (h : s.admits t 0x220 { free := true } = true) (hn : t.le 16 2 ≠ 65535)
    (hx : s.therm.props.find? (readsProposal t) = some x) : exec (.mpRead t) s = .next (s.takeTicket.ok t 0 x.word) := by
  have hany : s.therm.props.any (readsProposal t) = true :=
    List.any_of_mem (List.mem_of_find?_eq_some hx) (List.find?_some hx)
  rw [execMpRead_eq, runTicket_admits h (by simp [hn]) rfl (by rw [hany]; simp) rfl, if_neg hn]
  simp only [State.takeTicket_therm, hx, proposalReply]

theorem exec_gaugeRead (h : s.admits t 0x900 {} = true) :
    let u := s.takeTicket
    let k := t.byte 16
    (k = 0 → exec (.gaugeRead t) s = .next (u.ok t 0 u.pack.word)) ∧
    (k = 1 → t.sg = true → exec (.gaugeRead t) s
      = .next (u.answer t 0 ((u.pack.imp.toList.map fun w => (w.toList.map (leBytes 2)).flatten).flatten))) ∧
    (k = 2 → exec (.gaugeRead t) s = .next (u.ok t 0 (uword 64 (Q.divN u.pack.count 3600).round))) := by
  intro u k
  refine ⟨fun hk => ?_, fun hk hsg => ?_, fun hk => ?_⟩
  all_goals simp only [exec, execGaugeRead]
  · rw [runTicket_admits h (by simp [k, hk]) rfl rfl rfl, if_pos hk]
  · rw [runTicket_admits h (by simp [k, hk, hsg]) rfl rfl rfl, if_neg (by omega), if_pos hk]
  · rw [runTicket_admits h (by simp [k, hk]) rfl rfl rfl, if_neg (by omega), if_neg (by omega)]

theorem exec_meterRead (h : s.admits t 0x820 { free := true } = true) :
    let u := s.takeTicket
    let k := t.byte 16
    (∀ q : Fin 32, k = 0 → t.byte 17 = q.val → t.sg = true → exec (.meterRead t) s = .next (u.answer t 0 (u.seqWords q))) ∧
    (∀ c : Conv, k = 1 → t.byte 17 = c.ix.val → exec (.meterRead t) s = .next (u.ok t 0 (u.convAt c).word)) := by
  intro u k
  refine ⟨fun q hk hq hsg => ?_, fun c hk hc => ?_⟩
  all_goals simp only [exec, execMeterRead]
  · rw [runTicket_admits h (by simp [k, hk, hq, hsg]) rfl rfl rfl, if_neg (by omega)]
    simp only [hq, seqOf, q.isLt, dif_pos]
    rfl
  · have hlt : c.ix.val < 3 := c.ix.isLt
    rw [runTicket_admits h (by simp [k, hk, hc]) rfl rfl rfl, if_pos hk]
    have hword : s.takeTicket.conv.toArray.getD c.ix.val {} = s.takeTicket.convAt c := by simp [State.convAt]
    simp only [hc, hword]
    rfl

theorem exec_cntRead (h : s.admits t 0xA00 { free := true } = true) :
    let u := s.takeTicket
    let n := t.byte 19
    let l := u.cntRead (t.le 16 2) (t.byte 18) n
    0 < cntCount (t.le 16 2) → 1 ≤ n → n ≤ 8 → t.byte 18 + n ≤ cntCount (t.le 16 2) →
    (n ≤ 2 → exec (.cntRead t) s = .next (u.ok t 0 (fld (l.getD 0 0) 32 0 + fld (l.getD 1 0) 32 32))) ∧
    (2 < n → t.sg = true → exec (.cntRead t) s = .next (u.answer t 0 (l.flatMap (leBytes 4)))) := by
  intro u n l hblk hlo hhi hfit
  have hfirst : t.byte 18 < cntCount (t.le 16 2) := by omega
  refine ⟨fun hn => ?_, fun hn hsg => ?_⟩
  all_goals simp only [exec, execCntRead]
  · rw [runTicket_admits h (by simp; exact ⟨.inl hn, hblk, hfirst, hlo, hhi, hfit⟩) rfl rfl rfl, if_pos hn]
  · rw [runTicket_admits h (by simp; exact ⟨.inr hsg, hblk, hfirst, hlo, hhi, hfit⟩) rfl rfl rfl, if_neg (by omega)]

theorem exec_rtcRead (h : s.admits t 0x750 {} = true) :
    let u := s.takeTicket
    exec (.rtcRead t) s = .next (u.ok t 0 (fld (2000 + u.wd.cal.year) 16 0 + fld u.wd.cal.month 8 16 + fld u.wd.cal.day 8 24
      + fld u.wd.cal.hour 8 32 + fld u.wd.cal.min 8 40 + fld u.wd.cal.sec 8 48 + fld (u.wd.pre / 128) 8 56)) := by
  simp only [exec, execRtcRead]
  exact runTicket_admits h rfl rfl rfl rfl

theorem exec_ownerRead (h : s.admits t 0x630 {} = true) :
    let u := s.takeTicket
    exec (.ownerRead t) s = .next (u.ok t 0 (fld (if u.own.valid then u.own.port else 0xFF) 8 0 + fld u.own.epoch 32 32)) := by
  simp only [exec, execOwnerRead]
  exact runTicket_admits h rfl rfl rfl rfl

end

/-- Settles O16: the checks that a read's row adds pass, and its selector names the answer. -/
theorem readTickets : Obligations.ReadTickets := by
  unfold Obligations.ReadTickets
  intro s t
  refine ⟨fun h hsub hsg => ?_, exec_bulkRead, fun h => ⟨exec_mpRead_all h, fun x r hn hr hx => ?_, fun x p hn hr hp hx => ?_⟩,
    exec_gaugeRead, exec_meterRead, exec_cntRead, exec_rtcRead, exec_ownerRead⟩
  · obtain ⟨hseq, hrest⟩ := exec_telemRead_device h hsub hsg
    exact ⟨fun r => exec_telemRead_rail h hsub hsg, fun p => exec_telemRead_phase h hsub hsg, hseq, hrest⟩
  · exact exec_mpRead_one h hn (readsProposal_of_rail hr ▸ hx)
  · exact exec_mpRead_one h hn (readsProposal_of_phase hr hp ▸ hx)

end Sys2Proof.Machine
end

section
/-!
IMAGE, OWNERSHIP AND WATCHDOG TICKETS: each lemma passes the checks that a row adds and names the effect.
-/
namespace Sys2Proof.Machine

/-- Settles O1: `step` takes the queue apart. -/
theorem stepRunsTheFront : Obligations.StepRunsTheFront := by
  unfold Obligations.StepRunsTheFront
  exact ⟨fun _ _ _ => rfl, fun s h => by simp only [step, h]⟩

section
variable {s : State} {t : Tkt}

/-! ### Images and overlays (R349, R482, R487, R488) -/

/-- Where an IMAGE_WRITE leaves the end of the device's image: that of its own part of a bundle for a chain-wide one. -/
def imageEnd (s : State) (t : Tkt) : Nat :=
  if t.chain then
    (match bundleOwn (Mem.writeList s.nvm.bundle (t.le 20 4) (t.data.take (t.le 24 4))) (max s.nvm.bundleLen (t.le 20 4 + t.le 24 4)) s.ring.num with
      | some (_, n) => n
      | none => 0)
  else t.le 20 4 + t.le 24 4

/-- What IMAGE_WRITE does with its bytes (R482). -/
def imageStored (s u : State) (t : Tkt) : State :=
  let r : Reply := { status := 0x00, value := t.le 24 4 }
  if t.chain then
    let u := u.bundlePut (t.le 20 4) (t.data.take (t.le 24 4))
    if s.isFwd t then u.reply t r else u.chainPart t r
  else (u.imagePut (t.le 20 4) (t.data.take (t.le 24 4))).reply t r

theorem exec_imageWrite_eq : exec (.imageWrite t) s = runTicket t 0x300 s
    { rng := [(24, decide (1 ≤ t.le 24 4 ∧ t.le 24 4 ≤ segSum t.segs))]
      pre := [failIf (decide (1048576 < t.le 24 4)) { status := 0x20, value := 1048576 },
              failIf (s.poolOver (imageEnd s t)) { status := 0x20, value := 323584 }]
      post := [failIf (s.commitWaits true) busy, nvmFault s] } fun u => imageStored s u t := rfl

theorem exec_imageWrite (h : s.admits t 0x300 {} = true) (hlo : 1 ≤ t.le 24 4) (hseg : t.le 24 4 ≤ segSum t.segs)
    (hmax : t.le 24 4 ≤ 1048576) (hpool : s.poolOver (imageEnd s t) = false) (hcommit : s.commitWaits true = false)
    (hnvm : nvmFault s = none) : exec (.imageWrite t) s = .next (imageStored s s.takeTicket t) := by
  rw [exec_imageWrite_eq]
  exact runTicket_admits h (by simp [hlo, hseg]) rfl (by simp [hmax, hpool]) (by simp [hcommit, hnvm])

theorem exec_imageWrite_device (h : s.admits t 0x300 {} = true) (hlo : 1 ≤ t.le 24 4) (hseg : t.le 24 4 ≤ segSum t.segs)
    (hmax : t.le 24 4 ≤ 1048576) (hchain : t.chain = false) (hpool : s.poolOver (t.le 20 4 + t.le 24 4) = false)
    (hcommit : s.commitWaits true = false) (hnvm : nvmFault s = none) :
    exec (.imageWrite t) s = .next ((s.takeTicket.imagePut (t.le 20 4) (t.data.take (t.le 24 4))).reply t
      { status := 0x00, value := t.le 24 4 }) := by
  have hend : imageEnd s t = t.le 20 4 + t.le 24 4 := by simp [imageEnd, hchain]
  rw [exec_imageWrite h hlo hseg hmax (by rw [hend]; exact hpool) hcommit hnvm]
  simp only [imageStored, hchain, Bool.false_eq_true, if_false]

theorem exec_imageWrite_chain (h : s.admits t 0x300 {} = true) (hlo : 1 ≤ t.le 24 4) (hseg : t.le 24 4 ≤ segSum t.segs)
    (hmax : t.le 24 4 ≤ 1048576) (hchain : t.chain = true) (hpool : s.poolOver (imageEnd s t) = false)
    (hcommit : s.commitWaits true = false) (hnvm : nvmFault s = none) :
    let u := s.takeTicket.bundlePut (t.le 20 4) (t.data.take (t.le 24 4))
    (s.isFwd t = true → exec (.imageWrite t) s = .next (u.reply t { status := 0x00, value := t.le 24 4 })) ∧
    (s.isFwd t = false → exec (.imageWrite t) s = .next (u.chainPart t { status := 0x00, value := t.le 24 4 })) := by
  rw [exec_imageWrite h hlo hseg hmax hpool hcommit hnvm]
  exact ⟨fun hfwd => by simp only [imageStored, hchain, hfwd, if_true], fun hfwd => by simp only [imageStored, hchain, hfwd, if_true, Bool.false_eq_true, if_false]⟩

theorem exec_imageCommit (h : s.admits t 0x310 {} = true) (hcommit : s.commitWaits true = false) (hnvm : nvmFault s = none) :
    exec (.imageCommit t) s = .next ((s.takeTicket.queued t).post (t.nbBeat s.takeTicket) .round (.imageCommit t.ref)) := by
  simp only [exec, execImageCommit]
  exact runTicket_admits h rfl rfl rfl (by simp [hcommit, hnvm])

theorem exec_overlayWrite (h : s.admits t 0x320 {} = true) (hlo : 1 ≤ t.le 24 4) (hseg : t.le 24 4 ≤ segSum t.segs)
    (hfit : t.le 20 4 + t.le 24 4 ≤ 262144) (hcommit : s.commitWaits false = false) :
    let u := s.takeTicket
    exec (.overlayWrite t) s = .next (({ u with nvm := { u.nvm with
      staging := Mem.writeList u.nvm.staging (t.le 20 4) (t.data.take (t.le 24 4)) } } : State).ok t 0 (t.le 24 4)) := by
  simp only [exec, execOverlayWrite]
  exact runTicket_admits h (by simp [hlo, hseg]) rfl (by simp [hfit]) (by simp [hcommit])

theorem exec_overlayCommit (h : s.admits t 0x330 {} = true) (hn : t.byte 16 < 8) (hlen : t.le 20 4 ≤ 262144)
    (hforce : s.cfg.inForce.isSome = true) (hcommit : s.commitWaits false = false) (hnvm : nvmFault s = none) :
    exec (.overlayCommit t) s
      = .next ((s.takeTicket.queued t).post (t.nbBeat s.takeTicket) .round (.overlayCommit t.ref (t.byte 16) (t.le 20 4))) := by
  simp only [exec, execOverlayCommit]
  exact runTicket_admits h (by simp [hn]) rfl (by simp [hlen]) (by simp [hcommit, hnvm, hforce])

theorem exec_overlaySelect (h : s.admits t 0x340 {} = true) (hn : t.byte 16 < 8) (hstored : s.stored (t.byte 16) = true)
    (hbudget : s.overBudget { nb := s.selectBeat t, per := .round, act := .overlaySelect (t.byte 16) none } = none) :
    let u := s.takeTicket
    let n := t.byte 16
    let b := u.selectBeat t
    (t.chain = false → exec (.overlaySelect t) s = .next ((u.post (t.nbBeat u) .round (.overlaySelect n none)).ok t)) ∧
    (t.chain = true → s.isFwd t = false →
      (u.askedFor t = [] → exec (.overlaySelect t) s = .next ((u.post b .round (.overlaySelect n none)).ok t)) ∧
      (u.askedFor t ≠ [] → exec (.overlaySelect t) s
        = .next (({ u with cfg := { u.cfg with chainSel := u.cfg.chainSel ++ [(t.ref, t.raw, b)] } } : State).chainPart t { status := 0x00 }))) := by
  simp only [exec, execOverlaySelect]
  rw [runTicket_admits h (by simp [hn]) rfl (by simp [hstored]) (by simp [hbudget])]
  refine ⟨fun hchain => ?_, fun hchain hfwd => ⟨fun hasked => ?_, fun hasked => ?_⟩⟩
  · simp only [hchain]
    rfl
  · simp only [hchain, hfwd, hasked]
    rfl
  · simp only [hchain, hfwd, List.isEmpty_eq_false_iff.mpr hasked]
    rfl

/-! ### Ownership (R348, R355, R356, R360, R364) -/

/-- A part that fits drops none of the parts held. -/
theorem signedPart_fits {key : Nat} {unlock : Bool} {c : TCheck} {body : State → State} (hfit : s.partFits t unlock = true)
    (hkey : t.byte 17 ≤ 3) :
    signedPart t key unlock c s body = runTicket t key s { c with rng := [(16, true), (17, true)] } body := by
  simp [signedPart, hfit, hkey]

theorem exec_claimPart (h : s.admits t 0x600 {} = true) (hfit : s.partFits t false = true) (hkey : t.byte 17 ≤ 3) :
    exec (.claimPart t) s = .next ((s.takeTicket.holdPart t false).ok t) := by
  simp only [exec, execClaimPart]
  rw [signedPart_fits hfit hkey]
  exact runTicket_admits h rfl rfl rfl rfl

/-- The claim that part 3 makes of the four parts held (R355). -/
def claimMade (u : State) (t : Tkt) : Claim :=
  let l := ((u.holdPart t false).client t.client).parts
  let u := u.dropParts t.client
  let ref := u.claimRefusal u.ring.num t.client
  { client := t.client, gen := t.gen, seq := t.seq, dev := u.ring.num, key := t.byte 17, epoch := t.le 20 4
    port := match u.portOf u.ring.num t.client with
      | some k => k.val
      | none => 0
    frame := u.time.clk / 32 * 32, refusal := ref, verified := ref.isSome, ep5 := decide (t.le 20 4 = u.own.epoch + 1)
    xy := l.getD 0 0 * 2 ^ 256 + l.getD 1 0, rs := l.getD 2 0 * 2 ^ 256 + l.getD 3 0, nonce := t.le 24 8 }

/-- The state with that claim noted and the parts gone. -/
def claimNoted (u : State) (t : Tkt) : State :=
  let v := u.dropParts t.client
  { v with own := { v.own with claims := v.own.claims ++ [claimMade u t] } }

theorem exec_claim_eq : exec (.claim t) s = signedPart t 0x603 false { post := [nvmFault s] } s fun u =>
    if (claimMade u t).refusal.isSome then (claimNoted u t).sendClaim (claimMade u t) else claimNoted u t := rfl

theorem exec_claim (h : s.admits t 0x603 {} = true) (hfit : s.partFits t false = true) (hkey : t.byte 17 ≤ 3)
    (hnvm : nvmFault s = none) :
    let u := s.takeTicket
    ∃ (v : State) (c : Claim),
      v.own.claims = u.own.claims ++ [c] ∧ c.client = t.client ∧ c.seq = t.seq ∧ c.dev = u.ring.num ∧ c.key = t.byte 17 ∧ c.epoch = t.le 20 4
        ∧ c.frame = u.time.clk / 32 * 32 ∧ c.verified = c.refusal.isSome ∧ c.refusal = (u.dropParts t.client).claimRefusal u.ring.num t.client
        ∧ v = { u.dropParts t.client with own := { u.own with claims := v.own.claims } }
        ∧ exec (.claim t) s = .next (if c.refusal.isSome then v.sendClaim c else v) := by
  intro u
  rw [exec_claim_eq, signedPart_fits hfit hkey, runTicket_admits h rfl rfl rfl (by simp [hnvm])]
  exact ⟨claimNoted u t, claimMade u t, rfl, rfl, rfl, rfl, rfl, rfl, rfl, rfl, rfl, rfl, rfl⟩

theorem exec_heartbeat (h : s.admits t 0x610 {} = true) (hepoch : t.le 20 4 = s.own.epoch) :
    let u := s.takeTicket
    (u.own.keeper = u.ring.num → exec (.heartbeat t) s = .next ((u.countBeat (roundOf t.ts)).ok t)) ∧
    (u.own.keeper ≠ u.ring.num → exec (.heartbeat t) s
      = .next ((u.ctrl u.own.keeper 70 (fld u.ring.num 6 0 + fld (roundOf t.ts) 48 8)).ok t)) := by
  simp only [exec, execHeartbeat]
  rw [runTicket_admits h rfl (by simp [hepoch]) rfl rfl]
  exact ⟨fun hk => by rw [if_pos hk], fun hk => by rw [if_neg hk]⟩

/-- A handover that waits starts the record's effect at its port's client (R364). -/
theorem handGo_startEffect {k : OPort} {c d : Nat} (hpend : s.own.pend = none) (hq : s.own.handQ = some k.val)
    (hc : s.portClient k = some c) (hd : s.portDev k = some d) (hlast : s.own.epoch ≠ 2 ^ 32 - 1) :
    s.handGo = ({ s with own := { s.own with handQ := none } } : State).startEffect k.val c
      (if d = s.ring.num then (s.client c).gen else 256) (s.own.epoch + 1) d 4 none := by
  have hk : (⟨k.val % 4, by omega⟩ : OPort) = k := Fin.ext (Nat.mod_eq_of_lt k.isLt)
  unfold State.handGo
  split
  next p hnone hp =>
    obtain rfl : k.val = p := Option.some.inj (hq.symm.trans hp)
    simp only [hk]
    split
    next c' d' hc' hd' =>
      obtain rfl : c = c' := Option.some.inj (hc.symm.trans hc')
      obtain rfl : d = d' := Option.some.inj (hd.symm.trans hd')
      rw [Nat.mod_eq_of_lt k.isLt]
      exact if_neg hlast
    next hno => exact absurd hd (hno c d hc)
  next hno => exact absurd hq (hno k.val hpend)

section
variable {k : OPort} (h : s.admits t 0x620 {} = true) (hport : t.byte 16 = k.val) (hepoch : t.le 20 4 = s.own.epoch)
  (hcand : s.candidate k = true) (hother : ¬ (s.own.valid = true ∧ s.own.port = k.val)) (hfree : (s.own.ports[k.val]).benched = false)
  (hremain : (s.own.ports[k.val]).remain = 0) (hpend : s.own.pend = none) (hnvm : nvmFault s = none)
include h hport hepoch hcand hother hfree hremain hpend hnvm

/-- HANDOVER of an eligible port, as far as the epochs and the keeper decide it (R364). -/
theorem exec_handover :
    let u := s.takeTicket
    exec (.handover t) s = .next (
      if u.own.epoch = 2 ^ 32 - 1 then (u.exhausted 0).reply t { status := 0x31 }
      else (if u.own.keeper = u.ring.num then ({ u with own := { u.own with handQ := some k.val } } : State).handGo
        else u.ctrl u.own.keeper 67 (claimBody { client := t.client, gen := t.gen, seq := t.seq, port := k.val, dev := u.ring.num
                                                 epoch := u.own.epoch, handover := true })).ok t) := by
  have hlt : k.val < 4 := k.isLt
  simp only [exec, execHandover, hport, Nat.mod_eq_of_lt hlt]
  exact runTicket_admits h (by simp; omega) (by simp [hepoch]) (by simpa [hcand] using hother)
    (by simp [hfree, hremain, hpend, hnvm])

theorem exec_handover_exhausted (hlast : s.own.epoch = 2 ^ 32 - 1) :
    exec (.handover t) s = .next ((s.takeTicket.exhausted 0).reply t { status := 0x31 }) := by
  rw [exec_handover h hport hepoch hcand hother hfree hremain hpend hnvm, if_pos (by simpa using hlast)]

theorem exec_handover_away (hlast : s.own.epoch ≠ 2 ^ 32 - 1) (hkeeper : s.takeTicket.own.keeper ≠ s.takeTicket.ring.num) :
    let u := s.takeTicket
    exec (.handover t) s = .next ((u.ctrl u.own.keeper 67 (claimBody
      { client := t.client, gen := t.gen, seq := t.seq, port := k.val, dev := u.ring.num
        epoch := u.own.epoch, handover := true })).ok t) := by
  rw [exec_handover h hport hepoch hcand hother hfree hremain hpend hnvm, if_neg (by simpa using hlast), if_neg hkeeper]

theorem exec_handover_keeper (hlast : s.own.epoch ≠ 2 ^ 32 - 1) (hkeeper : s.takeTicket.own.keeper = s.takeTicket.ring.num) {c d : Nat}
    (hc : s.takeTicket.portClient k = some c) (hd : s.takeTicket.portDev k = some d) :
    let u := s.takeTicket
    exec (.handover t) s = .next ((({ u with own := { u.own with handQ := none } } : State).startEffect k.val c
      (if d = u.ring.num then (u.client c).gen else 256) (u.own.epoch + 1) d 4 none).ok t) := by
  intro u
  have hlast' : u.own.epoch ≠ 2 ^ 32 - 1 := by simpa [u] using hlast
  have hnone : u.own.pend = none := by simpa [u] using hpend
  rw [exec_handover h hport hepoch hcand hother hfree hremain hpend hnvm, if_neg hlast', if_pos hkeeper]
  rw [handGo_startEffect (s := { u with own := { u.own with handQ := some k.val } }) hnone rfl hc hd hlast']
  rfl

end

/-! ### Watchdogs and RTC (R418, R419, R431 to R433) -/

/-- The slot of a byte that numbers one. -/
@[simp] theorem slotOf_val {k : Slot} : slotOf k.val = k := Fin.ext (Nat.mod_eq_of_lt k.isLt)

section
variable {k : Slot} (hk : t.byte 16 = k.val)
include hk

theorem exec_wdArm (h : s.admits t 0x711 {} = true) (h17 : t.byte 17 = 1) (hper : t.le 18 2 ≠ 0) (hgrace : t.le 20 2 < 4096)
    (hbudget : s.overBudget { nb := t.nbBeat s, per := .round, act := .wdArm k (t.le 18 2) (t.le 20 2) } = none) :
    exec (.wdArm t) s = .next ((s.takeTicket.ok t).post (t.nbBeat s.takeTicket) .round (.wdArm k (t.le 18 2) (t.le 20 2))) := by
  simp only [exec, execWdArm, hk, slotOf_val]
  exact runTicket_admits h (by simp [h17, hper, hgrace]) rfl rfl (by simp [hbudget])

theorem exec_wdDisarm (h : s.admits t 0x710 {} = true) (hgrace : t.le 20 2 < 4096) :
    exec (.wdDisarm t) s = .next ((s.takeTicket.ok t).post (t.nbBeat s.takeTicket) .round (.wdDisarm k)) := by
  simp only [exec, execWdDisarm, hk, slotOf_val]
  exact runTicket_admits h (by simp [hgrace]) rfl rfl rfl

theorem exec_wdCheckin (h : s.admits t 0x700 {} = true) (harm : (s.wd.slots[k.val]).armed = true)
    (hmine : (s.wd.slots[k.val]).client = t.client) :
    let u := s.takeTicket
    let x := s.wd.slots[k.val]
    (x.beg ≤ t.ts → t.ts < x.beg + 4000 * x.period → exec (.wdCheckin t) s = .next ((u.modSlot k fun y => { y with good := true }).ok t)) ∧
    (x.beg + 4000 * x.period ≤ t.ts → exec (.wdCheckin t) s = .next (u.ok t)) ∧
    (t.ts < x.beg → ∃ v : State, exec (.wdCheckin t) s = .next (v.ok t) ∧ v = { u with wd := { u.wd with verdicts := v.wd.verdicts } }
      ∧ v.wd.verdicts.length = u.wd.verdicts.length ∧ ∀ i (h : i < u.wd.verdicts.length) (h' : i < v.wd.verdicts.length),
        v.wd.verdicts[i].good = (u.wd.verdicts[i].good
          || decide (u.wd.verdicts[i].slot = k.val ∧ u.wd.verdicts[i].beg ≤ t.ts ∧ t.ts < u.wd.verdicts[i].fin))) := by
  intro u x
  simp only [exec, execWdCheckin, hk, slotOf_val]
  rw [runTicket_admits h (by simp) (by simp [hmine]) (by simp [harm]) rfl]
  refine ⟨fun hbeg hend => ?_, fun hend => ?_, fun hbeg => ?_⟩
  · rw [if_pos hbeg, if_pos hend]
  · rw [if_pos (by simp only [x] at hend; omega), if_neg (by simp only [x] at hend; omega)]
  · rw [if_neg (by simp only [x] at hbeg; omega)]
    refine ⟨_, rfl, rfl, by simp [State.modWd, u], fun i hi hi' => ?_⟩
    simp only [State.modWd, List.getElem_map]
    split
    next hcond => simp only [u, decide_eq_true hcond, Bool.or_true]
    next hcond => simp only [u, decide_eq_false hcond, Bool.or_false]

end

theorem exec_rtcSet {c : Cal} (h : s.admits t 0x720 {} = true) (hy : t.le 16 2 = 2000 + c.year) (hyear : c.year < 200)
    (hmo : t.byte 18 = c.month) (hda : t.byte 19 = c.day) (hho : t.byte 20 = c.hour) (hmi : t.byte 21 = c.min) (hse : t.byte 22 = c.sec)
    (hmonth : 1 ≤ c.month ∧ c.month ≤ 12) (hday : 1 ≤ c.day ∧ c.day ≤ monthDays (2000 + c.year) c.month)
    (hhour : c.hour < 24) (hmin : c.min < 60) (hsec : c.sec < 60) :
    let u := s.takeTicket
    exec (.rtcSet t) s = .next ((u.ok t 0 (max (t.nbBeat u) (u.time.clk + 1))).post (t.nbBeat u) .beat (.rtcSet c)) := by
  intro u
  have hyr : 2000 + c.year - 2000 = c.year := by omega
  simp only [exec, execRtcSet, hy, hmo, hda, hho, hmi, hse, hyr]
  exact runTicket_admits h (by simp [hmonth, hday, hhour, hmin, hsec]; omega) rfl rfl rfl

theorem exec_rtcShift (h : s.admits t 0x730 {} = true) (hn : (sint 32 (t.le 16 4)).natAbs ≤ 32768) (hfree : s.wd.shifting = false) :
    exec (.rtcShift t) s = .next ((s.takeTicket.ok t).post (t.nbBeat s.takeTicket) .beat (.rtcShift (sint 32 (t.le 16 4)))) := by
  simp only [exec, execRtcShift]
  exact runTicket_admits h (by simp [hn]) rfl rfl (by simp [hfree])

theorem exec_rtcWake (h : s.admits t 0x740 {} = true) (hn : t.le 16 4 ≤ 5529600) :
    exec (.rtcWake t) s = .next ((s.takeTicket.ok t).post (t.nbBeat s.takeTicket) .round (.rtcWake (t.le 16 4))) := by
  simp only [exec, execRtcWake]
  exact runTicket_admits h (by simp [hn]) rfl rfl rfl

end

/-- Settles O17: the checks of each row pass; a chain-wide write reaches the device's own part of the bundle. -/
theorem imageTickets : Obligations.ImageTickets := by
  unfold Obligations.ImageTickets
  intro s t
  refine ⟨exec_imageWrite_device, ?_, exec_imageCommit, exec_overlayWrite, exec_overlayCommit, exec_overlaySelect⟩
  intro fin hfin h hlo hseg hmax hchain hpool
  refine exec_imageWrite_chain h hlo hseg hmax hchain ?_
  have hend : imageEnd s t = fin := (if_pos hchain).trans hfin
  rw [hend]
  exact hpool

/-- Settles O18: parts that fit are held, and the keeper decides where heartbeats and handovers go. -/
theorem ownershipTickets : Obligations.OwnershipTickets := by
  unfold Obligations.OwnershipTickets
  intro s t
  refine ⟨exec_claimPart, exec_claim, exec_heartbeat, fun k h hport hepoch hcand hother hfree hremain hpend hnvm => ⟨?_, ?_, ?_⟩⟩
  · exact exec_handover_exhausted h hport hepoch hcand hother hfree hremain hpend hnvm
  · exact fun c d hlast hkeeper => exec_handover_keeper h hport hepoch hcand hother hfree hremain hpend hnvm hlast hkeeper
  · exact exec_handover_away h hport hepoch hcand hother hfree hremain hpend hnvm

/-- Settles O19: a check-in looks at the running period and the pending verdicts; the others wait for their boundary. -/
theorem watchdogTickets : Obligations.WatchdogTickets := by
  unfold Obligations.WatchdogTickets
  intro s t
  refine ⟨fun k hk => ⟨exec_wdArm hk, exec_wdDisarm hk, exec_wdCheckin hk⟩, ?_, exec_rtcShift, exec_rtcWake⟩
  intro c h hy hyear hmo hda hho hmi hse hm1 hm2 hd1 hd2 hhour hmin hsec
  exact exec_rtcSet h hy hyear hmo hda hho hmi hse ⟨hm1, hm2⟩ ⟨hd1, hd2⟩ hhour hmin hsec

end Sys2Proof.Machine
end

section
/-!
METER, PACK AND SECURITY TICKETS: each lemma passes the checks that a row adds and names the effect.
-/
namespace Sys2Proof.Machine

section
variable {s : State} {t : Tkt}

/-! ### Meter, counters and the trace stream (R37, R410, R412, Table 11.7) -/

section
variable {q : Fin 32} (hq : t.byte 16 = q.val) (hown : 3 ≤ q.val)
include hq hown

theorem exec_meterStart (h : s.admits t 0x800 {} = true) (hdef : MeterSeqCfg.defd (s.mcfg q) = true)
    (hbudget : s.overBudget { nb := t.nbBeat s, per := .frame, act := .meterStart q.val } = none) :
    exec (.meterStart t) s = .next ((s.takeTicket.post (t.nbBeat s.takeTicket) .frame (.meterStart q.val)).ok t) := by
  simp only [exec, execMeterStart, hq, seqOf, dif_pos q.isLt]
  exact runTicket_admits h (by simp [hown]) rfl (by simp [hdef]) (by simp [hbudget])

theorem exec_meterStop (h : s.admits t 0x810 {} = true) :
    exec (.meterStop t) s = .next ((s.takeTicket.post (t.nbBeat s.takeTicket) .frame (.meterStop q.val)).ok t) := by
  simp only [exec, execMeterStop, hq]
  exact runTicket_admits h (by simp) (by simp [hown]) rfl rfl

end

theorem exec_cntCtl (h : s.admits t 0xA10 {} = true) (hblk : 0 < cntCount (t.le 16 2)) (hfirst : t.byte 18 < cntCount (t.le 16 2))
    (hlast : t.byte 19 < cntCount (t.le 16 2)) (hctl : t.byte 20 < 4) :
    exec (.cntCtl t) s = .next ((s.takeTicket.ok t).post (t.nbBeat s.takeTicket) .round
      (.cntCtl (t.le 16 2) (t.byte 18) (t.byte 19) (bit (t.byte 20) 0) (bit (t.byte 20) 1))) := by
  simp only [exec, execCntCtl]
  exact runTicket_admits h (by simp [hblk, hfirst, hlast, hctl]) rfl rfl rfl

theorem exec_traceStreamStart (h : s.admits t 0xA21 {} = true) (hsg : t.sg = true) (hfree : s.log.stream = none) :
    exec (.traceStreamStart t) s = .next ((s.takeTicket.queued t).setStream (some (t.ref, 0, 0, t.segs))) := by
  simp only [exec, execTraceStreamStart]
  exact runTicket_admits h (by simp [hsg]) rfl rfl (by simp [hfree])

theorem exec_traceStreamStop (h : s.admits t 0xA20 {} = true) (h16 : t.byte 16 = 0) :
    let u := s.takeTicket
    (u.log.stream = none → exec (.traceStreamStop t) s = .next (u.ok t)) ∧
    (∀ ref n off segs, u.log.stream = some (ref, n, off, segs) →
      let v : State := { u with log := { u.log with stream := none } }
      exec (.traceStreamStop t) s = .next (((v.postDev 0xA2 n).final ref 0x00 0 (fld n 32 0 + fld off 32 32)).ok t)) := by
  simp only [exec, execTraceStreamStop]
  rw [runTicket_admits h (by simp [h16]) rfl rfl rfl]
  exact ⟨fun hnone => by rw [hnone], fun ref n off segs hsome => by rw [hsome]⟩

/-! ### The pack (R261, R265, Table 9.6) -/

theorem exec_chgSet (h : s.admits t 0x910 {} = true) (hi : t.le 16 2 ≤ 80) :
    exec (.chgSet t) s = .next ((s.takeTicket.post (t.nbBeat s.takeTicket) .round (.chgSet (t.le 16 2))).ok t) := by
  simp only [exec, execChgSet]
  exact runTicket_admits h (by simp [hi]) rfl rfl rfl

/-- The pack does not carry the device through the loss of both feeds, so the switch may open. -/
theorem failIf_packCarries (h : ¬ (s.pack.psw = .closed ∧ s.bothBelowRes = true)) (r : Reply) :
    failIf (s.pack.psw == .closed && s.bothBelowRes) r = none := by
  rw [failIf_eq_none_iff, Bool.eq_false_iff]
  simpa using h

theorem exec_packSwitchOpen (h : s.admits t 0x920 { nb := some false } = true) (h16 : t.byte 16 < 2)
    (hcarry : ¬ (s.pack.psw = .closed ∧ s.bothBelowRes = true)) :
    exec (.packSwitchOpen t) s = .next ((s.takeTicket.pswOpen 2).ok t) := by
  simp only [exec, execPackSwitchOpen, failIf_packCarries hcarry]
  exact runTicket_admits h (by simp [h16]) rfl rfl rfl

theorem exec_packSwitchRelease (h : s.admits t 0x921 { nb := some false } = true) (h16 : t.byte 16 < 2) :
    exec (.packSwitchRelease t) s = .next ((s.takeTicket.pswRelease 6).ok t) := by
  simp only [exec, execPackSwitchRelease]
  exact runTicket_admits h (by simp [h16]) rfl rfl rfl

theorem exec_shipArm (h : s.admits t 0x930 {} = true) (hcarry : ¬ (s.pack.psw = .closed ∧ s.bothBelowRes = true)) :
    exec (.shipArm t) s = .next ((s.takeTicket.post (t.nbBeat s.takeTicket) .round (.shipArm (bit (t.byte 16) 1))).ok t) := by
  simp only [exec, execShipArm, failIf_packCarries hcarry]
  exact runTicket_admits h rfl rfl rfl rfl

theorem exec_shipCancel (h : s.admits t 0x931 {} = true) (hcarry : ¬ (s.pack.psw = .closed ∧ s.bothBelowRes = true)) :
    exec (.shipCancel t) s = .next ((s.takeTicket.post (t.nbBeat s.takeTicket) .round .shipCancel).ok t) := by
  simp only [exec, execShipCancel, failIf_packCarries hcarry]
  exact runTicket_admits h rfl rfl rfl rfl

theorem packOn_takeTicket : s.takeTicket.packOn = s.packOn := by
  rw [State.takeTicket_eq]
  rfl

theorem exec_gaugeSetSoc (h : s.admits t 0x940 {} = true) (h16 : t.byte 16 < 2) (hsoc : t.le 17 2 ≤ 1000) (hnvm : nvmFault s = none) :
    let u := s.takeTicket
    (s.packOn = false → exec (.gaugeSetSoc t) s = .next (u.ok t)) ∧
    (s.packOn = true → ∃ v : State, exec (.gaugeSetSoc t) s = .next (v.gaugeCommit.ok t)
      ∧ v = { u with pack := { u.pack with count := v.pack.count } } ∧ v.pack.count = Q.divN (Q.mul u.pack.full (Q.ofInt (t.le 17 2))) 1000) := by
  simp only [exec, execGaugeSetSoc]
  rw [runTicket_admits h (by simp [h16, hsoc]) rfl rfl (by simp [hnvm]), packOn_takeTicket]
  refine ⟨fun hoff => by rw [hoff]; rfl, fun hon => ?_⟩
  rw [hon]
  exact ⟨_, rfl, rfl, rfl⟩

theorem exec_gaugeReset (h : s.admits t 0x941 {} = true) (h16 : t.byte 16 < 2) (hnvm : nvmFault s = none) :
    let u := s.takeTicket
    (s.packOn = false → exec (.gaugeReset t) s = .next (u.ok t)) ∧
    (s.packOn = true → ∃ v : State, exec (.gaugeReset t) s = .next (v.gaugeCommit.ok t)
      ∧ v = { u with pack := { u.pack with fcc := v.pack.fcc, imp := v.pack.imp } } ∧ v.pack.fcc = PackCfg.capDes u.pkcfg
      ∧ ∀ (i : Fin 16) (j : Fin 8), (v.pack.imp[i.val])[j.val] = PackCfg.rInit u.pkcfg) := by
  simp only [exec, execGaugeReset]
  rw [runTicket_admits h (by simp [h16]) rfl rfl (by simp [hnvm]), packOn_takeTicket]
  refine ⟨fun hoff => by rw [hoff]; rfl, fun hon => ?_⟩
  rw [hon]
  exact ⟨_, rfl, rfl, rfl, fun i j => by simp [State.modPack]⟩

/-! ### Security (R340, R443, R456 to R458) -/

/-- Every die of the write already holds the DATA. -/
def fuseHeld (s : State) (t : Tkt) : Bool := (fuseDies (t.byte 16) (t.le 18 2)).all fun d => s.rowHas d (t.le 18 2) (t.le 20 8)

theorem fuseHeld_iff : fuseHeld s t = true ↔ ∀ d ∈ fuseDies (t.byte 16) (t.le 18 2), s.rowHas d (t.le 18 2) (t.le 20 8) = true :=
  List.all_eq_true

/-- Some die of the write holds something else in the row (R443). -/
def fuseClashes (s : State) (t : Tkt) : Bool :=
  (fuseDies (t.byte 16) (t.le 18 2)).any fun d => match (s.otpDie d).read (t.le 18 2) with
    | .complete x _ => x != t.le 20 8
    | .voided => true
    | _ => false

theorem fuseClashes_eq_false (h : ∀ d ∈ fuseDies (t.byte 16) (t.le 18 2),
    (s.otpDie d).read (t.le 18 2) = .blank ∨ (s.otpDie d).read (t.le 18 2) = .torn ∨ s.rowHas d (t.le 18 2) (t.le 20 8) = true) :
    fuseClashes s t = false := by
  unfold fuseClashes
  rw [List.any_eq_false]
  intro d hd
  rcases h d hd with hblank | htorn | hheld
  · simp [hblank]
  · simp [htorn]
  · simp only [State.rowHas, OtpDie.isComplete, OtpDie.data, Bool.and_eq_true, beq_iff_eq] at hheld
    cases hread : (s.otpDie d).read (t.le 18 2) <;> simp [hread] at hheld ⊢
    exact hheld

/-- A FUSE_WRITE that provisioning may send without an owner (R448). -/
def fuseProvisions (s : State) (t : Tkt) : Bool :=
  provisionRow (t.byte 16) (t.le 18 2) && (t.dev != s.ring.num || s.unprovisioned) && s.designated t.client

/-- What FUSE_WRITE does once its checks have passed (R443, R448). -/
def fuseStarted (s u : State) (t : Tkt) : State :=
  if fuseHeld s t then u.ok t
  else if t.byte 16 != 2 && t.le 18 2 == 0xEF && u.lockWrong (t.le 20 8) then u.reply t { status := 0x3F, extra := 0x0004 }
  else { u with nvm := { u.nvm with fuse := some { ref := t.ref, die := t.byte 16, row := t.le 18 2, data := t.le 20 8 } } }

theorem exec_fuseWrite_eq :
    let die := t.byte 16
    let r := t.le 18 2
    let data := t.le 20 8
    let end32 := 2 ^ 32 - 1
    exec (.fuseWrite t) s = runTicket t 0xE00 s
      { own := if fuseProvisions s t then some false else none
        rng := [(16, die < 3), (18, if die = 2 then pRow r else ctlRow r), (20, !(epochRow die r || cfgRow die r) || data != 0)]
        den := [failIf (neverWritten r) (denied 3), failIf (die != 2 && domainI r && s.lockBars r data) (denied 3),
                failIf (die == 2 && r == 0x41 && !s.unprovisioned) (denied 3), failIf (epochRow die r && !fuseHeld s t && s.noSlotLeft) (denied 3)]
        post := [failIf (epochRow die r && decide (s.own.epoch < end32)) busy, failIf (cfgRow die r && decide (s.nvm.cfgVer < end32)) busy,
                 failIf (!((s.feed[0]).present || (s.feed[1]).present) || decide (((s.dieMax 2).getD 0) > 500) || s.nvm.fuse.isSome || s.nvm.voiding.isSome || s.pwr.powerFail) busy,
                 failIf (fuseClashes s t) busy] } fun u => fuseStarted s u t := rfl

section
variable
  (h : s.admits t 0xE00 { own := if fuseProvisions s t then some false else none } = true) (hdie : t.byte 16 < 3)
  (hrow : (if t.byte 16 = 2 then pRow (t.le 18 2) else ctlRow (t.le 18 2)) = true) (hnever : neverWritten (t.le 18 2) = false)
  (hlock : t.byte 16 ≠ 2 → domainI (t.le 18 2) = true → s.lockBars (t.le 18 2) (t.le 20 8) = false)
  (hpol : t.byte 16 = 2 → t.le 18 2 = 0x41 → s.unprovisioned = true)
  (hepoch : epochRow (t.byte 16) (t.le 18 2) = true → t.le 20 8 ≠ 0 ∧ s.own.epoch = 2 ^ 32 - 1 ∧ (fuseHeld s t = true ∨ s.noSlotLeft = false))
  (hcfg : cfgRow (t.byte 16) (t.le 18 2) = true → t.le 20 8 ≠ 0 ∧ s.nvm.cfgVer = 2 ^ 32 - 1)
  (hfeed : (s.feed[0]).present = true ∨ (s.feed[1]).present = true) (htemp : (s.dieMax 2).getD 0 ≤ 500)
  (hfuse : s.nvm.fuse = none) (hvoid : s.nvm.voiding = none) (hpwr : s.pwr.powerFail = false)
include h hdie hrow hnever hlock hpol hepoch hcfg hfeed htemp hfuse hvoid hpwr

theorem exec_fuseWrite (hclash : fuseClashes s t = false) : exec (.fuseWrite t) s = .next (fuseStarted s s.takeTicket t) := by
  rw [exec_fuseWrite_eq]
  refine runTicket_admits h ?rng ?den rfl ?post
  case rng =>
    simp only [List.all_cons, List.all_nil, hrow, hdie]
    by_cases he : epochRow (t.byte 16) (t.le 18 2) = true
    · simp [(hepoch he).1]
    · by_cases hc : cfgRow (t.byte 16) (t.le 18 2) = true
      · simp [(hcfg hc).1]
      · simp [he, hc]
  case den =>
    have hslot : epochRow (t.byte 16) (t.le 18 2) = true → fuseHeld s t = false → s.noSlotLeft = false :=
      fun he hnot => (hepoch he).2.2.resolve_left (by simp [hnot])
    simpa [hnever] using ⟨hlock, hpol, hslot⟩
  case post =>
    have hlast : epochRow (t.byte 16) (t.le 18 2) = true → 2 ^ 32 - 1 ≤ s.own.epoch := fun he => (hepoch he).2.1.ge
    have hver : cfgRow (t.byte 16) (t.le 18 2) = true → 2 ^ 32 - 1 ≤ s.nvm.cfgVer := fun hc => (hcfg hc).2.ge
    have hpresent : (s.feed[0]).present = false → (s.feed[1]).present = true := fun hoff => hfeed.resolve_left (by simp [hoff])
    simpa [hclash, hfuse, hvoid, hpwr, htemp] using ⟨hlast, hver, hpresent⟩

/-- A row that holds the DATA already is left as it is. -/
theorem exec_fuseWrite_held (hheld : ∀ d ∈ fuseDies (t.byte 16) (t.le 18 2), s.rowHas d (t.le 18 2) (t.le 20 8) = true) :
    exec (.fuseWrite t) s = .next (s.takeTicket.ok t) := by
  rw [exec_fuseWrite h hdie hrow hnever hlock hpol hepoch hcfg hfeed htemp hfuse hvoid hpwr
    (fuseClashes_eq_false fun d hd => .inr (.inr (hheld d hd))), fuseStarted, if_pos (fuseHeld_iff.mpr hheld)]

theorem exec_fuseWrite_starts (hnot : ¬ ∀ d ∈ fuseDies (t.byte 16) (t.le 18 2), s.rowHas d (t.le 18 2) (t.le 20 8) = true)
    (hrows : ∀ d ∈ fuseDies (t.byte 16) (t.le 18 2),
      (s.otpDie d).read (t.le 18 2) = .blank ∨ (s.otpDie d).read (t.le 18 2) = .torn ∨ s.rowHas d (t.le 18 2) (t.le 20 8) = true)
    (hcrc : t.byte 16 ≠ 2 → t.le 18 2 = 0xEF → s.takeTicket.lockWrong (t.le 20 8) = false) :
    let u := s.takeTicket
    exec (.fuseWrite t) s = .next { u with nvm := { u.nvm with
      fuse := some { ref := t.ref, die := t.byte 16, row := t.le 18 2, data := t.le 20 8 } } } := by
  have hopen : (t.byte 16 != 2 && t.le 18 2 == 0xEF && s.takeTicket.lockWrong (t.le 20 8)) = false := by simpa using hcrc
  rw [exec_fuseWrite h hdie hrow hnever hlock hpol hepoch hcfg hfeed htemp hfuse hvoid hpwr (fuseClashes_eq_false hrows), fuseStarted,
    if_neg (mt fuseHeld_iff.mp hnot), hopen, if_neg Bool.false_ne_true]

end

theorem exec_attest (h : s.admits t 0xE10 {} = true) (hvoid : s.nvm.void = false) (hkeys : s.nvm.keySector = true) :
    let u := s.takeTicket
    exec (.attest t) s
      = .next (({ u with fresh := u.fresh + 1 } : State).answer t 0 ((Config.attestation (t.le 16 32) u.fresh).map fun b => b % 256)) := by
  simp only [exec, execAttest]
  exact runTicket_admits h rfl rfl rfl (by simp [hvoid, hkeys])

theorem exec_debugUnlockPart (h : s.admits t 0xE20 {} = true) (hfit : s.partFits t true = true) (hkey : t.byte 17 ≤ 3) :
    exec (.debugUnlockPart t) s = .next ((s.takeTicket.holdPart t true).ok t) := by
  simp only [exec, execDebugUnlockPart]
  rw [signedPart_fits hfit hkey]
  exact runTicket_admits h rfl rfl rfl rfl

/-- A row of an opcode without a chain form admits no chain ticket. -/
theorem State.admits_chain {key : Nat} {c : TCheck} {row : OpRow} (h : s.admits t key c = true) (hrow : opRow t.op = some row)
    (hno : row.chain = false) : t.chain = false := by
  simp only [State.admits, hrow, Bool.and_eq_true, firstFail_isNone, headChecks, List.all_append, List.all_cons] at h
  obtain ⟨_, ⟨⟨⟨_, hbad, _⟩, _⟩, _⟩, _⟩ := h
  simp only [Option.isNone_map, Option.isNone_iff_eq_none, firstBad, List.min?_eq_none_iff, List.append_eq_nil_iff, headBad] at hbad
  have hbyte1 := hbad.1.1.1.1.1.1.1.1
  by_contra hchain
  rw [hno] at hbyte1
  simp [hchain] at hbyte1

theorem opRow_debugUnlock (hkey : t.rowKey = 0xE23) : ∃ row, opRow t.op = some row ∧ row.chain = false := by
  have hop : t.op = 0xE2 := by
    unfold Tkt.rowKey at hkey
    dsimp only at hkey
    split at hkey
    case h_10 ho => exact ho
    all_goals (repeat' split at hkey) <;> omega
  rw [hop]
  exact ⟨_, rfl, rfl⟩

/-- A ticket that only the last of its row's checks refuses. -/
theorem runTicket_post_fails {key : Nat} {body : State → State} {rng : List (Nat × Bool)} {post : List (Option Reply)} {r : Reply}
    (h : s.admits t key {} = true) (hchain : t.chain = false) (hrng : rng.all Prod.snd = true) (hr : firstFail post = some r) :
    runTicket t key s { rng := rng, post := post } body = .next (s.takeTicket.reply t r) := by
  unfold State.admits at h
  unfold runTicket
  simp only [Bool.and_eq_true, decide_eq_true_eq, Bool.not_eq_true'] at h
  obtain ⟨⟨⟨hk, hready⟩, _⟩, hm⟩ := h
  rw [if_neg (by simp [hk]), hready]
  cases hop : opRow t.op with
  | none => simp [hop] at hm
  | some row =>
    simp only [hop, Bool.and_eq_true, Bool.not_eq_true', Option.isNone_iff_eq_none] at hm
    obtain ⟨⟨hhead, hhere⟩, htail⟩ := hm
    have hhead' : firstFail (headChecks s t row { rng := rng, post := post }) = none := by
      simpa only [headChecks, payBad_of_rng hrng] using hhead
    have htail' : firstFail (tailChecks s t key row { rng := rng, post := post }) = some r := by
      simp only [tailChecks, List.append_nil] at htail ⊢
      rw [firstFail_append, htail]
      exact hr
    rw [hchain] at hhere
    simp only [hhead', htail', hchain, hhere]
    rfl

/-- The order of a DEBUG_UNLOCK that fails to verify (R456). -/
def unlockBad (s : State) (t : Tkt) : Bool :=
  let l := ((s.holdPart t true).client t.client).parts
  (s.sigCheck [0x54, 0x58, 0x44, 0x55] (t.byte 17) (l.getD 0 0) (l.getD 1 0) (l.getD 2 0) (l.getD 3 0) (t.le 20 4) (t.le 24 8)).isSome
    || t.le 20 4 != s.own.epoch

/-- The VOID row is programmed before anything opens (R457). -/
def voidBlown (w : State) : State :=
  let d := w.draw (2 ^ 64)
  d.2.modOtp 2 fun o => if o.read 0x40 = .blank then o.blow (o.where_ 0x40) (fusesOf d.1) else o

/-- The voiding that DEBUG_UNLOCK starts. -/
def voidingOf (w : State) (t : Tkt) : State :=
  { voidBlown w with nvm := { (voidBlown w).nvm with voiding := some (some t.ref) } }

/-- What a good DEBUG_UNLOCK starts (R457). -/
def unlockStarted (u : State) (t : Tkt) : State :=
  let w := (u.dropParts t.client).queued t
  if w.nvm.void then (({ w with nvm := { w.nvm with debugOpen := true } } : State).final t.ref 0x00)
  else voidingOf w t

theorem exec_debugUnlock_eq (held : Bool) : exec (.debugUnlock t held) s = signedPart t 0xE23 true
    { post := [failIf (s.nvm.fuse.isSome || s.nvm.voiding.isSome) busy, failIf (unlockBad s t) (denied 4), failIf (!held) (denied 5), nvmFault s] } s
    fun u => unlockStarted u t := rfl

section
variable (h : s.admits t 0xE23 {} = true) (hfit : s.partFits t true = true) (hkey : t.byte 17 ≤ 3) (hnvm : nvmFault s = none)
  (hfuse : s.nvm.fuse = none) (hvoiding : s.nvm.voiding = none)
include h hfit hkey hnvm hfuse hvoiding

theorem exec_debugUnlock : exec (.debugUnlock t true) s
    = .next (if unlockBad s t then s.takeTicket.reply t (denied 4) else unlockStarted s.takeTicket t) := by
  have hrow : t.rowKey = 0xE23 := by
    simp only [State.admits, Bool.and_eq_true, decide_eq_true_eq] at h
    exact h.1.1.1
  rw [exec_debugUnlock_eq, signedPart_fits hfit hkey]
  cases hbad : unlockBad s t with
  | false => exact runTicket_admits h rfl rfl rfl (by simp [hfuse, hvoiding, hnvm])
  | true =>
    obtain ⟨row, hop, hno⟩ := opRow_debugUnlock hrow
    exact runTicket_post_fails h (State.admits_chain h hop hno) rfl (by simp [hfuse, hvoiding, firstFail, failIf])

end

theorem eq_zero_of_readFuses_blank {f : Nat} (h : readFuses f = .blank) : f = 0 := by
  by_contra hne
  unfold readFuses at h
  dsimp only at h
  rw [if_neg hne] at h
  repeat' split at h
  all_goals exact absurd h (by simp)

/-- A blank VOID row reads the fuses just blown. -/
theorem phys_voidBlown {w : State} (h : (w.otpDie 2).read 0x40 = .blank) :
    ((voidBlown w).otpDie 2).phys ((w.otpDie 2).where_ 0x40) = fusesOf (w.draw (2 ^ 64)).1 := by
  have hzero : (w.otpDie 2).phys ((w.otpDie 2).where_ 0x40) = 0 := eq_zero_of_readFuses_blank h
  rw [voidBlown, State.otpDie_modOtp, if_pos rfl]
  simp only [State.draw_otpDie, h, if_true]
  rw [OtpDie.phys_blow, if_pos rfl, hzero, Nat.zero_or]

theorem phys_voidingOf {w : State} (h : (w.otpDie 2).read 0x40 = .blank) :
    ((voidingOf w t).otpDie 2).phys ((w.otpDie 2).where_ 0x40) = fusesOf (w.draw (2 ^ 64)).1 := by
  rw [← phys_voidBlown h]
  rfl

theorem voidingOf_eq (w : State) :
    voidingOf w t = { w with nvm := { w.nvm with otp := (voidingOf w t).nvm.otp, voiding := (voidingOf w t).nvm.voiding }
                             fresh := w.fresh + 1 } := rfl

theorem exec_unknownOpcode (hkey : t.rowKey = 4096) (hready : s.ready t = true)
    (hgen : s.isFwd t = true ∨ t.gen = (s.client t.client).gen) :
    exec (.unknownOpcode t) s = .next (s.takeTicket.reply t (malformed 0)) := by
  have hcur : ¬ (s.isFwd t = false ∧ t.gen ≠ (s.client t.client).gen) := by
    rintro ⟨hfwd, hstale⟩
    rcases hgen with hgen | hgen
    · rw [hfwd] at hgen; exact absurd hgen (by decide)
    · exact hstale hgen
  simp only [exec, execUnknownOpcode]
  rw [if_neg (by simp [hkey]), if_neg (by simp [hready]), if_neg hcur]

end

/-- Settles O20: the checks of each row pass. -/
theorem meterTickets : Obligations.MeterTickets := by
  unfold Obligations.MeterTickets
  intro s t
  refine ⟨fun q hq hown => ⟨exec_meterStart hq hown, exec_meterStop hq hown⟩, exec_cntCtl, fun h hsg hfree => ?_, exec_traceStreamStop⟩
  exact ⟨_, exec_traceStreamStart h hsg hfree, rfl, rfl⟩

/-- Settles O21: the checks of each row pass. -/
theorem packTickets : Obligations.PackTickets := by
  unfold Obligations.PackTickets
  intro s t
  exact ⟨exec_chgSet, exec_packSwitchOpen, exec_packSwitchRelease, exec_shipArm, exec_shipCancel, exec_gaugeSetSoc, exec_gaugeReset⟩

/-- Settles O22: a row that holds the DATA is left, one that may take it is under way; the VOID row comes before the unlocking. -/
theorem securityTickets : Obligations.SecurityTickets := by
  unfold Obligations.SecurityTickets
  intro s t
  refine ⟨?_, exec_attest, exec_debugUnlockPart, ?_, exec_unknownOpcode⟩
  · intro h hdie hrow hnever hlock hpol hepoch hcfg hfeed htemp hfuse hvoid hpwr
    have hepoch' : epochRow (t.byte 16) (t.le 18 2) = true → t.le 20 8 ≠ 0 ∧ s.own.epoch = 2 ^ 32 - 1 ∧ (fuseHeld s t = true ∨ s.noSlotLeft = false) :=
      fun he => ⟨(hepoch he).1, (hepoch he).2.1, (hepoch he).2.2.imp_left fuseHeld_iff.mpr⟩
    exact ⟨exec_fuseWrite_held h hdie hrow hnever hlock hpol hepoch' hcfg hfeed htemp hfuse hvoid hpwr, fun hnot hrows hcrc =>
      ⟨_, exec_fuseWrite_starts h hdie hrow hnever hlock hpol hepoch' hcfg hfeed htemp hfuse hvoid hpwr hnot hrows hcrc, rfl, rfl⟩⟩
  · intro e h hfit hkey hnvm hfuse hvoiding hepoch he w
    have hbad : unlockBad s t = e.isSome := by
      subst he
      simp [unlockBad, hepoch]
    rw [exec_debugUnlock h hfit hkey hnvm hfuse hvoiding, hbad]
    refine ⟨fun hv => ?_, fun hv => ⟨voidingOf w t, ?_, rfl, rfl, phys_voidingOf, voidingOf_eq w⟩⟩
    · rw [unlockStarted, if_pos hv]
    · rw [unlockStarted, if_neg (Bool.eq_false_iff.mp hv)]

end Sys2Proof.Machine
end

section
/-!
WHAT RESET LEAVES: each accessor of the reset state reads the default.
-/
namespace Sys2Proof.Machine

theorem reset_phAt (p : Ph) : State.reset.phAt p = {} := by simp [State.reset, State.phAt]
theorem reset_phDie (p : Ph) (d : Cd) : State.reset.phDie d p = {} := by simp [State.reset, State.phDie]
theorem reset_railAt (r : Rail) : State.reset.railAt r = {} := by simp [State.reset, State.railAt]
theorem reset_gang (r : Rail) : State.reset.gang[r.val] = {} := by simp [State.reset]
theorem reset_seq (n : Prog) : State.reset.seq[n.val] = {} := by simp [State.reset]
theorem reset_feedAt (f : Feed) : State.reset.feedAt f = {} := by simp [State.reset, State.feedAt]
theorem reset_hk (k : Hk) : State.reset.hk[k.val] = {} := by simp [State.reset]
theorem reset_hiShadow (path : Path) : State.reset.time.hiShadow[path.ix.val] = 0 := by simp [State.reset]

/-- Settles O2: what each accessor reads at reset. -/
theorem resetValues : Obligations.ResetValues := by
  unfold Obligations.ResetValues
  intro s
  simp only [s, reset_phAt, reset_phDie, reset_railAt, reset_gang, reset_seq, reset_feedAt, reset_hk, reset_hiShadow]
  simp [State.reset, initCnts]

end Sys2Proof.Machine
end

section
/-!
THE DETECTORS OF A PHASE (R47, R54 to R58, Table 2.3).
-/
namespace Sys2Proof.Machine

/-- What counting leaves of a phase. -/
@[simp] theorem State.phAt_count (s : State) (blk e k : Nat) (p : Ph) : (s.count blk e k).phAt p = s.phAt p := by
  simp [State.phAt]

/-! ### Sampling leaves the arbiter -/

@[simp] theorem State.raiseCause_arb (s : State) (d : Cd) (p : Ph) (cause : Nat) : (s.raiseCause d p cause).arb = s.arb := by
  unfold State.raiseCause
  split
  · simp
  · split <;> simp

@[simp] theorem State.raiseRun_arb (s : State) (d : Cd) (p : Ph) (cause n run : Nat) : (s.raiseRun d p cause n run).arb = s.arb := by
  unfold State.raiseRun
  split
  · rfl
  · split
    · split <;> simp
    · simp

@[simp] theorem State.phSample_arb (s : State) (d : Cd) (p : Ph) (code : Nat) : (s.phSample d p code).arb = s.arb := by
  simp only [State.phSample, apply_ite State.arb, State.raiseRun_arb, State.raiseCause_arb, State.modPh_arb, State.modPhDie_arb, ite_self]

section
variable {s : State} {d : Cd} {p : Ph}

theorem exec_currentSample (hon : (s.phAt p).st ≠ .off) (mv uv : Nat) :
    let v := s.phSample d p (imonCode (1000 * mv + uv))
    exec (.currentSample d p mv uv) s = .next (if d = s.act then v.cycleEnd p else v) := by
  simp only [exec, execCurrentSample, if_neg hon, State.act, State.phSample_arb]
  rfl

theorem exec_stageFault (hon : (s.phAt p).st ≠ .off) : exec (.stageFault d p) s = .next (s.raiseCause d p 5) := by
  simp only [exec, execStageFault, if_neg hon]

/-- The first positive limit of a cycle on the active die: the high interval ends and the cycle counts (R54). -/
theorem exec_phLimitCrossing_first (hst : (s.phAt p).st = .active ∨ (s.phAt p).st = .test) (hd : d = s.act)
    (hfirst : (s.phAt p).limCyc = false) :
    let v := s.modPh p fun x => { x with ball := .low, cut := true, limitNow := true, limCyc := true, limRun := satAdd 8 x.limRun 1
                                         test := x.test.map fun t => { t with bad := true } }
    exec (.phLimitCrossing d p false) s
      = .next (if PhCfg.limEvt (s.pcfg p) ≤ satAdd 8 (s.phAt p).limRun 1 ∧ (s.phAt p).limRaised = false
          then ((v.count p.val 0 1).modPh p fun x => { x with limRaised := true }).postPh 0x02 p else v.count p.val 0 1) := by
  have hdrive : ¬ ((s.phAt p).st ≠ .active ∧ (s.phAt p).st ≠ .test ∧ (s.phAt p).st ≠ .idle) := fun ⟨ha, ht, _⟩ => hst.elim ha ht
  have hidle : ¬ (d ≠ s.act ∨ (s.phAt p).st = .idle) := by
    rintro (hne | hi)
    · exact hne hd
    · rcases hst with ha | ht
      · exact absurd (ha.symm.trans hi) (by decide)
      · exact absurd (ht.symm.trans hi) (by decide)
  intro v
  simp only [exec, execPhLimitCrossing]
  rw [if_neg hdrive, if_neg Bool.false_ne_true, if_neg hidle]
  simp only [hfirst, Bool.false_eq_true, if_false, State.phAt_count, State.phAt_modPh]
  have hcfg : (v.count p.val 0 1).pcfg p = s.pcfg p := by
    rw [State.count_eq]
    rfl
  simp only [v] at hcfg
  simp only [hcfg, apply_ite Host.Outcome.next]
  rfl

/-- The negative limit rests the phase, in a discharge too (R55, R212). -/
theorem exec_negativeLimit (hd : d = s.act) (hlim : PhCfg.ilimNeg (s.pcfg p) ≠ 0)
    (hst : (s.phAt p).st = .active ∨ (s.phAt p).st = .test
      ∨ (∃ r y, (s.phAt p).st = .off ∧ s.railOfPh p = some r ∧ (s.railAt r).disch = some y ∧ y.start.isSome = true)) :
    exec (.negativeLimit d p) s = .next (s.modPh p fun x => { x with ball := .mid, rest := true }) := by
  simp only [exec, execNegativeLimit]
  refine if_pos ⟨hlim, hd, ?_⟩
  rcases hst with ha | ht | ⟨r, y, hoff, hr, hy, hrun⟩
  · exact .inl ha
  · exact .inr (.inl ht)
  · exact .inr (.inr ⟨by simp [hr, hy, hrun], hoff⟩)

theorem exec_zeroCurrentTrip {r : Rail} (hst : (s.phAt p).st = .active ∨ (s.phAt p).st = .test) (hd : d = s.act)
    (hr : s.railOfPh p = some r)
    (hde : (PhCfg.deEn (s.pcfg p) = true ∧ (s.railAct r).light = true) ∨ (s.railAt r).st = .rampUp ∨ (s.railAt r).st = .rampDown) :
    exec (.zeroCurrentTrip d p) s = .next ((s.modPh p fun x => { x with ball := .mid, rest := true, deNow := true }).count p.val 2 1) := by
  have hrest : ((PhCfg.deEn (s.pcfg p) && (s.railAct r).light) || (s.railAt r).st == .rampUp || (s.railAt r).st == .rampDown) = true := by
    simpa [or_assoc] using hde
  have hdrive : ((s.phAt p).st == .active || (s.phAt p).st == .test) = true := by simpa using hst
  simp only [exec, execZeroCurrentTrip, hr, hrest, hdrive]
  simp [hd]

end

/-- Settles O23: one lemma for each detector. -/
theorem phaseDetectors : Obligations.PhaseDetectors := by
  unfold Obligations.PhaseDetectors
  intro s d p
  refine ⟨fun r y hoff hr hy hrun hd hlim => exec_negativeLimit hd hlim (.inr (.inr ⟨r, y, hoff, hr, hy, hrun⟩)), fun hon =>
    ⟨exec_currentSample hon, exec_stageFault hon, exec_phLimitCrossing_first, fun hst hd hlim => ?_, fun r => exec_zeroCurrentTrip⟩⟩
  exact exec_negativeLimit hd hlim (hst.imp_right .inl)

end Sys2Proof.Machine
end

section
/-!
WEAR, ROTATION, THE READMIT TEST OF A PHASE AND A LENDING MOVE (R67, R69, R70, R72, R124).
-/
namespace Sys2Proof.Machine

/-- The rail of a number that names one. -/
@[simp] theorem railOf_val (r : Rail) : railOf r.val = some r := by simp [railOf]

/-! ### What the operations of a phase leave of it -/

@[simp] theorem State.phAt_modPhDie (s : State) (d : Cd) (q : Ph) (f : PhDie → PhDie) (p : Ph) : (s.modPhDie d q f).phAt p = s.phAt p := rfl
@[simp] theorem State.phAt_trimZero (s : State) (q p : Ph) : (s.trimZero q).phAt p = s.phAt p := rfl
@[simp] theorem State.phAt_respacePh (s : State) (q p : Ph) : (s.respacePh q).phAt p = s.phAt p := by
  unfold State.respacePh
  split <;> rfl
@[simp] theorem State.phAt_steerTo (s : State) (q p : Ph) (r : Nat) : (s.steerTo q r).phAt p = s.phAt p := by
  unfold State.steerTo State.steer
  dsimp only
  split <;> rfl
@[simp] theorem State.phAt_trace (s : State) (kind d0 d1 d2 d3 : Nat) (p : Ph) : (s.trace kind d0 d1 d2 d3).phAt p = s.phAt p := by
  simp [State.phAt]
/-- The state with the beat count of the boundary at hand, which is what work at the boundary sees. -/
def State.atBnd (s : State) : State := { s with time := { s.time with clk := s.bnd } }

@[simp] theorem State.atBnd_clk (s : State) : s.atBnd.time.clk = s.bnd := rfl
@[simp] theorem State.atBnd_railAt (s : State) (r : Rail) : s.atBnd.railAt r = s.railAt r := rfl
@[simp] theorem State.atBnd_phAt (s : State) (p : Ph) : s.atBnd.phAt p = s.phAt p := rfl

/-- What a unit reads after work done at the boundary is what the work leaves. -/
@[simp] theorem State.phAt_atBoundary (s : State) (f : State → State) (p : Ph) : (s.atBoundary f).phAt p = (f s.atBnd).phAt p := rfl

/-- Work at a boundary sees the state at that boundary only. -/
theorem State.atBoundary_congr {s : State} {f g : State → State}
    (h : f s.atBnd = g s.atBnd) : s.atBoundary f = s.atBoundary g := by
  simp only [State.atBnd] at h
  simp only [State.atBoundary, h]

section
variable {s : State} {p : Ph}

/-! ### Wear and rotation (R67, R72) -/

theorem exec_phWearCommit (hram : s.noRram = false) (hb : s.bnd % 240000000 = 0) :
    exec .phWearCommit s = .next { s with nvm := { s.nvm with wearNvm := Vector.ofFn fun q : Fin 48 => (s.phAt q).wear } } := by
  simp only [exec, execPhWearCommit]
  exact if_neg (by simp [hram, hb])

/-- The swaps that a comparison of the carousel finds. -/
def rotations (s : State) : List (Nat × Nat × Nat) :=
  rails.filterMap fun r => if s.railEn r then (s.rotPair r).map fun x => (r.val, x.1.val, x.2.val) else none

theorem exec_rotationPeriod (hper : s.cfg.cfg.rotPeriod ≠ 0) (hb : s.bnd % (4000 * s.cfg.cfg.rotPeriod) = 0) :
    exec .rotationPeriod s = .next { s with lend := { s.lend with rotPend := rotations s } } := by
  simp only [exec, execRotationPeriod]
  exact if_neg (not_or.mpr ⟨hper, not_not_intro hb⟩)

theorem mem_rotations {r : Rail} {a b : Nat} :
    (r.val, a, b) ∈ rotations s ↔ s.railEn r = true ∧ (s.rotPair r).map (fun x => (x.1.val, x.2.val)) = some (a, b) := by
  simp only [rotations, List.mem_filterMap, Option.ite_none_right_eq_some, Option.map_eq_some_iff, Prod.mk.injEq]
  constructor
  · rintro ⟨q, _, hen, x, hx, hq, ha, hb⟩
    obtain rfl := Fin.ext hq
    exact ⟨hen, x, hx, ha, hb⟩
  · rintro ⟨hen, x, hx, ha, hb⟩
    exact ⟨r, List.mem_finRange r, hen, x, hx, rfl, ha, hb⟩

/-! ### The readmit test (R69, Table 2.5) -/

/-- A phase whose static check is passed goes into its live check, with the most worn phase of a full rail held out. -/
def liveStarted (s : State) (p : Ph) (t : PhTest) : State :=
  let hold := match s.railOfPh p with
    | some r => if RailCfg.nmax (s.rcfg r) ≤ (s.drivenOf r).length then s.mostWorn (s.activeOf r) else none
    | none => none
  let s := match hold with
    | some q => s.toIdle q
    | none => s
  let t' : PhTest := { t with live := true, start := s.time.clk, cycles := 0, held := hold.map Fin.val }
  (((s.blankAdd p).modPh p fun x => { x with st := .test, nextAt := none, idleFull := false, test := some t' }).trimZero p).respacePh p

/-- The steering outputs of a flex phase are driven to its rail, and the wait of Table 4.5 runs from here. -/
def steerStarted (s : State) (p : Ph) (t : PhTest) : State :=
  let s := s.steerTo p ((s.phAt p).asg.getD (s.home p))
  s.modPh p fun x => { x with test := some { t with steered := some s.time.clk } }

/-- What the end of the static check decides. -/
def staticEnded (s : State) (p : Ph) (t : PhTest) : State :=
  if s.staticOk p && s.steerLow p && t.steered.isNone then steerStarted s p t
  else if s.staticOk p then liveStarted s p t
  else s.failTest p 0

theorem staticEnded_fails {t : PhTest} (hbad : s.staticOk p = false) : staticEnded s p t = s.failTest p 0 := by
  simp [staticEnded, hbad]

theorem staticEnded_steers {t : PhTest} (hok : s.staticOk p = true) (hlow : s.steerLow p = true) (hnew : t.steered = none) :
    staticEnded s p t = steerStarted s p t := by
  simp [staticEnded, hok, hlow, hnew]

theorem staticEnded_goesLive {t : PhTest} (hok : s.staticOk p = true) (hsteer : s.steerLow p = false ∨ t.steered ≠ none) :
    staticEnded s p t = liveStarted s p t := by
  rcases hsteer with hlow | hset <;> simp [staticEnded, *]

section
variable {t : PhTest} (ht : (s.phAt p).test = some t)
include ht

theorem exec_phaseStaticCheckEnd (hlive : t.live = false) (hdue : s.staticDue p t = true) :
    exec (.phaseStaticCheckEnd p) s = .next (s.atBoundary fun u => staticEnded u p t) := by
  simp only [exec, execPhaseStaticCheckEnd, ht]
  exact if_neg (by simp [hlive, hdue])

theorem exec_phaseLiveCheckEnd (hlive : t.live = true) (hcyc : 64 ≤ t.cycles) :
    exec (.phaseLiveCheckEnd p) s = .next (if s.bnd % 32 ≠ 0 then s
      else s.atBoundary fun u => if t.bad then u.failTest p 0 else (u.toIdle p).testEnd p true 0) := by
  simp only [exec, execPhaseLiveCheckEnd, ht]
  by_cases hb : s.bnd % 32 = 0
  · rw [if_neg (by simp [hlive, hb]; omega), if_neg (by simp [hb])]
  · rw [if_pos (.inr (.inr hb)), if_pos hb]

end

/-- The static check is due 4 frames after its start, or once the steering wait is over. -/
theorem staticDue_of {t : PhTest} (h : (t.steered = none ∧ t.start + 128 ≤ s.bnd ∧ s.bnd % 32 = 0)
    ∨ ∃ b, t.steered = some b ∧ b + (RegionCfg.flxDt (s.phRegCfg p) + RegionCfg.flxOn (s.phRegCfg p)) ≤ s.bnd) :
    s.staticDue p t = true := by
  rcases h with ⟨hst, hstart, hframe⟩ | ⟨b, hst, hwait⟩
  · simp [State.staticDue, hst, hstart, hframe]
  · have hw : s.steerWait p = RegionCfg.flxDt (s.phRegCfg p) + RegionCfg.flxOn (s.phRegCfg p) := rfl
    simp [State.staticDue, hst, hw, hwait]

theorem phAt_steerStarted {t : PhTest} :
    (steerStarted s p t).phAt p = { s.phAt p with test := some { t with steered := some (s.steerTo p ((s.phAt p).asg.getD (s.home p))).time.clk } } := by
  simp [steerStarted]

theorem State.steerTo_time (r : Nat) : (s.steerTo p r).time = s.time := by
  unfold State.steerTo State.steer
  dsimp only
  split <;> rfl

@[simp] theorem State.toIdle_clk (q : Ph) : (s.toIdle q).time.clk = s.time.clk := (s.toIdle_keeps q).2.2

theorem phAt_liveStarted {t : PhTest} : ((liveStarted s p t).phAt p).st = .test
    ∧ ((liveStarted s p t).phAt p).test.any (fun y => y.live && decide (y.cycles = 0 ∧ y.start = s.time.clk)) = true := by
  unfold liveStarted
  dsimp only
  generalize (match s.railOfPh p with
    | some r => if RailCfg.nmax (s.rcfg r) ≤ (s.drivenOf r).length then s.mostWorn (s.activeOf r) else none
    | none => none) = hold
  cases hold <;> simp

/-! ### A lending move (R124, Table 4.3) -/

section
variable {m : Move} (hm : (s.phAt p).move = some m)
include hm

theorem exec_lendSteerOn : exec (.lendSteerOn p) s = .next (if m.atBeat + RegionCfg.flxDt (s.phRegCfg p) ≤ s.bnd
    then (s.steerTo p m.dst).modPh p fun x => { x with move := some { m with steered := true } } else s) := by
  simp only [exec, execLendSteerOn, hm]
  by_cases hb : m.atBeat + RegionCfg.flxDt (s.phRegCfg p) ≤ s.bnd
  · rw [if_neg hb.not_gt, if_pos hb]
  · rw [if_pos (Nat.lt_of_not_le hb), if_neg hb]

theorem exec_lendArrive_benched (hdue : s.benchDue p = true) : exec (.lendArrive p) s = .next s := by
  simp only [exec, execLendArrive, hm]
  exact if_pos (.inr (.inr hdue))

end

/-- What the end of a move does to its phase. -/
def moveArrived (s : State) (p : Ph) (m : Move) : State :=
  let s := s.modPh p fun x => { x with asg := some m.dst, move := none, lastMove := some s.time.clk }
  match railOf m.dst with
  | some r => if (s.railAt r).st = RailState.off then s.modPh p fun x => { x with st := PhState.off }
      else (((s.blankAdd p).modPh p fun x => { x with st := .active, nextAt := none, idleFull := false })).trimZero p
  | none => s

theorem exec_lendArrive {m : Move} (hm : (s.phAt p).move = some m) (hsteer : m.steered = true)
    (hbeat : m.atBeat + RegionCfg.flxDt (s.phRegCfg p) + RegionCfg.flxOn (s.phRegCfg p) ≤ s.bnd) (hdue : s.benchDue p = false) :
    exec (.lendArrive p) s = .next (s.atBoundary fun u =>
      (((moveArrived u p m).count 0x052 2 1).count 0x053 2 1).trace 0x01 p.val m.src m.dst) := by
  simp only [exec, execLendArrive, hm]
  exact if_neg (by simp [hsteer, hdue]; omega)

@[simp] theorem State.phAt_blankAdd {q : Ph} : (s.blankAdd q).phAt p = s.phAt p := by
  unfold State.blankAdd
  split <;> rfl

theorem phAt_moveArrived {m : Move} : ((moveArrived s p m).phAt p).asg = some m.dst ∧ ((moveArrived s p m).phAt p).move = none
    ∧ ((moveArrived s p m).phAt p).lastMove = some s.time.clk
    ∧ ∀ r : Rail, m.dst = r.val → ((moveArrived s p m).phAt p).st = if (s.railAt r).st = .off then .off else .active := by
  unfold moveArrived
  dsimp only
  cases hr : railOf m.dst with
  | none =>
    refine ⟨by simp, by simp, by simp, fun r hdst => ?_⟩
    rw [hdst, railOf_val] at hr
    exact absurd hr (by simp)
  | some q =>
    have hq (r : Rail) (hdst : m.dst = r.val) : r = q := by
      rw [hdst, railOf_val] at hr
      exact Option.some.inj hr
    have hrail : (s.modPh p fun x => { x with asg := some m.dst, move := none, lastMove := some s.time.clk }).railAt q = s.railAt q := rfl
    simp only [hrail]
    by_cases hoff : (s.railAt q).st = .off
    · rw [if_pos hoff]
      exact ⟨by simp, by simp, by simp, fun r hdst => by rw [hq r hdst, if_pos hoff]; simp⟩
    · rw [if_neg hoff]
      exact ⟨by simp, by simp, by simp, fun r hdst => by rw [hq r hdst, if_neg hoff]; simp⟩

end

/-- Settles O24: the counts and the pairs as they stand, the three ends of the static check, and the move by its beats. -/
theorem phaseTestsAndMoves : Obligations.PhaseTestsAndMoves := by
  unfold Obligations.PhaseTestsAndMoves
  refine ⟨fun s p => ⟨fun hram hb => ⟨_, exec_phWearCommit hram hb, rfl, fun q => by simp⟩,
    fun hper hb => ⟨_, exec_rotationPeriod hper hb, rfl, fun r a b => mem_rotations⟩, fun t ht hlive hdue => ?_, fun t => exec_phaseLiveCheckEnd⟩,
    fun s p m hm => ⟨exec_lendSteerOn hm, exec_lendArrive_benched hm, fun hsteer hbeat hdue => ⟨_, exec_lendArrive hm hsteer hbeat hdue, ?_⟩⟩⟩
  · rw [exec_phaseStaticCheckEnd ht hlive (staticDue_of hdue)]
    refine ⟨fun hbad => ?_, fun hok hlow hnew => ⟨_, rfl, ?_⟩, fun hok hsteer => ⟨_, rfl, ?_⟩⟩
    · rw [State.atBoundary_congr (g := fun u => u.failTest p 0) (staticEnded_fails (s := s.atBnd) hbad)]
    · rw [State.phAt_atBoundary, staticEnded_steers (s := s.atBnd) hok hlow hnew, phAt_steerStarted, State.steerTo_time]
      exact ⟨rfl, rfl⟩
    · rw [State.phAt_atBoundary, staticEnded_goesLive (s := s.atBnd) hok hsteer]
      exact phAt_liveStarted
  · obtain ⟨hasg, hmove, hlast, hst⟩ := phAt_moveArrived (s := s.atBnd) (p := p) (m := m)
    simp only [State.phAt_atBoundary, State.phAt_trace, State.phAt_count]
    exact ⟨hasg, hmove, hlast, hst⟩

end Sys2Proof.Machine
end

section
/-!
THE GANG LINKS (R91, R133 to R138, R379, R380).
-/
namespace Sys2Proof.Machine

/-- A fold whose steps leave what `f` reads leaves it. -/
theorem foldl_keeps_view {α β : Type} {g : State → α → State} {f : State → β} (h : ∀ s x, f (g s x) = f s) (l : List α) (s : State) :
    f (l.foldl g s) = f s := by
  induction l generalizing s with
  | nil => rfl
  | cons a l ih => rw [List.foldl_cons, ih, h]

@[simp] theorem State.gang_modGang_self (s : State) (r : Rail) (f : GangSt → GangSt) : (s.modGang r f).gang[r.val] = f s.gang[r.val] := upd_self _ _ _

/-! ### What leaves the gangs as they are -/

@[simp] theorem State.trimZero_gang (s : State) (p : Ph) : (s.trimZero p).gang = s.gang := rfl
@[simp] theorem State.respacePh_gang (s : State) (p : Ph) : (s.respacePh p).gang = s.gang := by
  unfold State.respacePh
  split <;> rfl
@[simp] theorem State.blankAdd_gang (s : State) (p : Ph) : (s.blankAdd p).gang = s.gang := by
  unfold State.blankAdd
  split <;> rfl
@[simp] theorem State.blankShed_gang (s : State) (p : Ph) : (s.blankShed p).gang = s.gang := by
  unfold State.blankShed
  split
  · split <;> rfl
  · rfl
@[simp] theorem State.toActive_gang (s : State) (p : Ph) : (s.toActive p).gang = s.gang := by simp [State.toActive]
@[simp] theorem State.toIdle_gang (s : State) (p : Ph) : (s.toIdle p).gang = s.gang := by simp [State.toIdle]
@[simp] theorem State.addPhases_gang (s : State) (r : Rail) (n : Nat) : (s.addPhases r n).gang = s.gang := by
  induction n generalizing s with
  | zero => rfl
  | succ n ih =>
    unfold State.addPhases
    split
    · rw [ih, State.toActive_gang]
    · rfl
@[simp] theorem State.gangTarget_gang (s : State) (r : Rail) (n : Nat) : (s.gangTarget r n).gang = s.gang := by
  unfold State.gangTarget
  dsimp only
  split
  · simp
  · refine foldl_keeps_view (f := State.gang) (fun u _ => ?_) _ _
    split
    · simp
    · rfl
@[simp] theorem State.respace_gang (s : State) (r : Rail) (extra : List Ph) : (s.respace r extra).gang = s.gang := by
  unfold State.respace
  extract_lets
  refine (foldl_keeps_view (f := State.gang) ?_ _ _).trans rfl
  exact fun _ _ => rfl
@[simp] theorem State.respaceFrame_gang (s : State) (r : Rail) : (s.respaceFrame r).gang = s.gang := by
  unfold State.respaceFrame
  split
  · simp
  · rfl

/-! ### Scheduling changes phases only -/

/-- `t` is `s` but for the phases. -/
def PhasesOnly (s t : State) : Prop := t = { s with ph := t.ph, phd := t.phd }

theorem PhasesOnly.refl (s : State) : PhasesOnly s s := rfl
theorem PhasesOnly.trans {s t u : State} (h : PhasesOnly s t) (k : PhasesOnly t u) : PhasesOnly s u := by
  unfold PhasesOnly at *
  rw [k, h]
theorem PhasesOnly.foldl {α : Type} {g : State → α → State} (h : ∀ s x, PhasesOnly s (g s x)) (l : List α) (s : State) :
    PhasesOnly s (l.foldl g s) := by
  induction l generalizing s with
  | nil => exact .refl s
  | cons a l ih => exact (h s a).trans (ih (g s a))
theorem PhasesOnly.rewrite (s : State) (f : Cd → Nat → Nat) (p : Ph) : PhasesOnly s (s.rewrite f p) := by
  unfold State.rewrite
  dsimp only
  split <;> rfl
theorem PhasesOnly.schedule (s : State) (r : Rail) (f : Cd → Nat → Nat) (uv : Bool) (p : Ph) : PhasesOnly s (s.schedule r f uv p) := by
  unfold State.schedule
  extract_lets
  split <;> rfl

/-! ### The frame packet's byte of a command (R381) -/

/-- What a command packet latches of a gang. -/
def latched (g : GangSt) : Int × Option Nat × Bool × Option Nat := (g.u, g.pend, g.got, g.holdFrom)

theorem latched_gangApply (s : State) (r : Rail) (l : List Nat) : latched (s.gangApply r l).gang[r.val] = latched s.gang[r.val] := by
  unfold State.gangApply
  dsimp only
  split <;> simp [latched]

theorem latched_gangPart (s : State) (r : Rail) (pkt : Nat) : latched (s.gangPart r pkt).gang[r.val] = latched s.gang[r.val] := by
  unfold State.gangPart
  extract_lets b v g
  split
  · simp [v, latched]
  · split
    · simp only [State.respaceFrame_gang, latched_gangApply]
      simp [v, latched]
    · simp [v, State.gangGap, latched]

theorem gangPart_eq (s : State) (r : Rail) {pkt : Nat} (h : bits pkt 15 0 % 32 ≠ 31) :
    s.gangPart r pkt = { s with gang := (s.gangPart r pkt).gang } := by
  unfold State.gangPart
  dsimp only
  rw [if_pos h]
  rfl

section
variable {s : State} {r : Rail}

/-- Passing a packet on changes a link only. -/
theorem gangPass_eq (e : Nat) (x : GangRx) : s.gangPass e x = { s with ring := { s.ring with links := (s.gangPass e x).ring.links } } := by
  unfold State.gangPass
  split <;> rfl

/-- The latching of a good command packet. -/
def commandLatched (s : State) (r : Rail) (pkt : Nat) : State :=
  let g := s.gang[r.val]
  let u := sint 24 (bits pkt 39 16)
  let s := s.modGang r fun g => { g with u := u, pend := some pkt, got := true, holdFrom := none }
  let s := s.count (0x050 + s.act.ix.val) 5 1
  let s := if g.role = .deputy then s.modRailDies r fun x => { x with u0 := u } else s
  s.gangPart r pkt

/-- The phases driven when the command arrives, before its byte completes a frame packet. -/
def commandOn (s : State) (r : Rail) (pkt : Nat) : List Ph :=
  let g := s.gang[r.val]
  let u := sint 24 (bits pkt 39 16)
  let s := s.modGang r fun g => { g with u := u, pend := some pkt, got := true, holdFrom := none }
  let s := s.count (0x050 + s.act.ix.val) 5 1
  (if g.role = .deputy then s.modRailDies r fun x => { x with u0 := u } else s).drivenOf r

/-- The edges of the beat follow the latched u, those of the phases that `on` names rewritten (R134). -/
def commandEdges (s : State) (r : Rail) (u : Int) (on : List Ph) : State :=
  let uv := (s.gangCatch r).1 == 1
  (s.drivenOf r).foldl (fun s p =>
    if s.catchDriven p uv then s
    else if on.contains p then s.rewrite (s.gangHi r p u) p
    else s.schedule r (s.gangHi r p u) uv p) s

theorem PhasesOnly.commandEdges (u : Int) (on : List Ph) : PhasesOnly s (commandEdges s r u on) := by
  refine .foldl (fun v p => ?_) _ _
  split
  · exact .refl v
  · split
    · exact .rewrite _ _ _
    · exact .schedule _ _ _ _ _

theorem latched_commandLatched (pkt : Nat) :
    latched (commandLatched s r pkt).gang[r.val] = (sint 24 (bits pkt 39 16), some pkt, true, none) := by
  unfold commandLatched
  dsimp only
  rw [latched_gangPart]
  split <;> simp [latched, State.modRailDies]

theorem commandLatched_eq {pkt : Nat} (h : bits pkt 15 0 % 32 ≠ 31) :
    let v := commandLatched s r pkt
    v = { s with gang := v.gang, log := v.log, raild := v.raild } := by
  unfold commandLatched
  dsimp only
  rw [gangPart_eq _ _ h]
  split
  · rw [State.count_eq]
    rfl
  · rw [State.count_eq]
    rfl

/-- A good command packet on a follower or deputy (R133, R380). -/
theorem exec_gangCommandReceive {m : GMem} {x : GangRx} (hg : s.ganged r = true)
    (hrole : s.gang[r.val].role = .deputy ∨ s.gang[r.val].role = .follower) (hentry : bit (s.gangEntry r false x) 5 = true)
    (hcrc : bits x.pkt 63 57 = gangCrc x.pkt) (hbeat : (bits x.pkt 15 0 + 1) % 65536 = s.time.clk % 65536) (hin : s.memberBenched r m = false) :
    let w := s.gangPass (s.gangEntry r false x) x
    exec (.gangCommandReceive r m x) s
      = .next (commandEdges (commandLatched w r x.pkt) r (sint 24 (bits x.pkt 39 16)) (commandOn w r x.pkt)) := by
  intro w
  obtain ⟨l, hl⟩ : ∃ l, w = { s with ring := { s.ring with links := l } } := ⟨_, gangPass_eq _ _⟩
  have hrole' : ¬ (w.gang[r.val].role ≠ .deputy ∧ w.gang[r.val].role ≠ .follower) := by
    rw [hl]
    exact fun ⟨hd, hf⟩ => hrole.elim hd hf
  have hg' : w.ganged r = true := by rw [hl]; exact hg
  have hin' : w.memberBenched r m = false := by rw [hl]; exact hin
  have hbeat' : (bits x.pkt 15 0 + 1) % 65536 = w.time.clk % 65536 := by rw [hl]; exact hbeat
  simp only [exec, execGangCommandReceive]
  refine if_neg ?_
  simp only [not_or]
  exact ⟨by simp [hentry], by simp [w, hg'], hrole', by simp [hcrc, hbeat', w], by simp [w, hin']⟩

/-- A good return packet at the leader or deputy (R135, R380). -/
theorem exec_gangReturnReceive {m : GMem} {x : GangRx} (hg : s.ganged r = true)
    (hrole : s.gang[r.val].role = .leader ∨ s.gang[r.val].role = .deputy) (hentry : bit (s.gangEntry r true x) 5 = true)
    (hcrc : bits x.pkt 63 57 = gangCrc x.pkt) (hage : (s.time.clk % 65536 + 65536 - bits x.pkt 15 0) % 65536 ≤ 2) (hme : m.val ≠ s.myIx r)
    (hsize : m.val < RailChain.size (s.rchain r)) (hin : s.memberBenched r m = false) :
    ∃ v : State, exec (.gangReturnReceive r m x) s = .next v ∧ v = { s.gangPass (s.gangEntry r true x) x with gang := v.gang }
      ∧ v.gang[r.val].isum[m.val] = sint 16 (bits x.pkt 31 16) ∧ v.gang[r.val].nact[m.val] = bits x.pkt 40 36
      ∧ (∀ n : GMem, n ≠ m → v.gang[r.val].isum[n.val] = s.gang[r.val].isum[n.val] ∧ v.gang[r.val].nact[n.val] = s.gang[r.val].nact[n.val]) := by
  obtain ⟨l, hl⟩ : ∃ l, s.gangPass (s.gangEntry r true x) x = { s with ring := { s.ring with links := l } } := ⟨_, gangPass_eq _ _⟩
  simp only [exec, execGangReturnReceive, hl]
  rw [if_neg]
  · refine ⟨_, rfl, rfl, by simp, by simp, fun n hn => ?_⟩
    have hne : m.val ≠ n.val := fun h => hn (Fin.ext h.symm)
    simp [hne]
  · have hrole' : ¬ (s.gang[r.val].role ≠ .leader ∧ s.gang[r.val].role ≠ .deputy) := fun ⟨hl, hd⟩ => hrole.elim hl hd
    simp only [not_or]
    exact ⟨by simp [hentry], fun hno => Bool.false_ne_true (hno.symm.trans hg), hrole', by simp [hcrc, hage], hme, hsize.not_ge,
      fun hout => Bool.false_ne_true (hin.symm.trans hout)⟩

theorem exec_gangReceive_passed (m : GMem) (x : GangRx) (ret : Bool) (hentry : bit (s.gangEntry r ret x) 5 = false) :
    exec (if ret then .gangReturnReceive r m x else .gangCommandReceive r m x) s = .next (s.gangPass (s.gangEntry r ret x) x) := by
  cases ret with
  | false => exact if_pos (.inl hentry)
  | true => exact if_pos (.inl hentry)

section
variable (hg : s.ganged r = true)
include hg

theorem exec_gangCommandMiss_deputy (hrole : s.gang[r.val].role = .deputy) (hmiss : RailChain.missN (s.rchain r) ≤ s.gang[r.val].misses) :
    exec (.gangCommandMiss r) s = .next (s.atBoundary fun u =>
      ((u.modGang r fun g => { g with role := .leader, noDep := true, miss := 0, retMiss := 0, gotRet := true, got := true }).fcTakeover r).biasSense) := by
  simp only [exec, execGangCommandMiss]
  rw [if_neg (by simp [hg]), hrole]
  exact if_neg hmiss.not_gt

theorem exec_gangCommandMiss_leader (hrole : s.gang[r.val].role = .leader) (hdep : s.gang[r.val].noDep = false)
    (hmiss : RailChain.missN (s.rchain r) ≤ s.gang[r.val].retMisses) :
    exec (.gangCommandMiss r) s = .next (s.atBoundary fun u => u.gangDetach r) := by
  simp only [exec, execGangCommandMiss]
  rw [if_neg (by simp [hg]), hrole]
  exact if_neg (by simp [hdep, hmiss])

theorem exec_gangCommandMiss_follower (hrole : s.gang[r.val].role = .follower) (hmiss : RailChain.missN (s.rchain r) ≤ s.gang[r.val].misses) :
    exec (.gangCommandMiss r) s = .next (s.modGang r fun g => { g with holdFrom := some (g.holdFrom.getD s.time.clk) }) := by
  simp only [exec, execGangCommandMiss]
  rw [if_neg (by simp [hg]), hrole]
  exact if_neg hmiss.not_gt

end

theorem exec_gangHoldExpiry {b : Nat} (hrole : s.gang[r.val].role = .follower) (hfrom : s.gang[r.val].holdFrom = some b)
    (hgot : s.gang[r.val].got = false) (hhold : b + RailChain.hold (s.rchain r) ≤ s.bnd) :
    exec (.gangHoldExpiry r) s = .next (s.atBoundary fun u => u.gangDetach r) := by
  simp only [exec, execGangHoldExpiry]
  rw [hrole, hfrom]
  exact if_neg (by simp [hgot, hhold])

theorem exec_gangMemberSelftestEnd {ref : TkRef} (href : s.gang[r.val].readmit = some ref) :
    ∃ v : State, exec (.gangMemberSelftestEnd r true) s = .next ((v.postRail 0x08 r 4 0x00).final ref 0x00)
      ∧ v = { s with gang := v.gang, rail := v.rail } ∧ (v.railAt r).benched = none ∧ v.gang[r.val].readmit = none
      ∧ v.gang[r.val].role = if RailChain.role (s.rchain r) ≤ 1 ∧ s.gang[r.val].noDep = true then .deputy else .follower := by
  simp only [exec, execGangMemberSelftestEnd]
  rw [href]
  exact ⟨_, rfl, rfl, by simp, by simp, by simp⟩

end

/-- Settles O25: a good command is latched and its edges follow, a good return is noted, and each role has its answer to misses. -/
theorem gangLinks : Obligations.GangLinks := by
  unfold Obligations.GangLinks
  intro s r hg g
  refine ⟨fun m x hrole hentry hcrc hbeat hin => ⟨_, exec_gangCommandReceive hg hrole hentry hcrc hbeat hin, ?_⟩,
    fun m x => exec_gangReturnReceive hg, exec_gangReceive_passed, exec_gangCommandMiss_deputy hg, exec_gangCommandMiss_leader hg,
    exec_gangCommandMiss_follower hg, fun b => exec_gangHoldExpiry, fun ref => exec_gangMemberSelftestEnd⟩
  generalize s.gangPass (s.gangEntry r false x) x = w
  have hedges := PhasesOnly.commandEdges (s := commandLatched w r x.pkt) (r := r) (sint 24 (bits x.pkt 39 16)) (commandOn w r x.pkt)
  generalize commandEdges (commandLatched w r x.pkt) r (sint 24 (bits x.pkt 39 16)) (commandOn w r x.pkt) = v at hedges
  have hlatched := latched_commandLatched (s := w) (r := r) x.pkt
  unfold PhasesOnly at hedges
  have hgang : v.gang = (commandLatched w r x.pkt).gang := (congrArg State.gang hedges :)
  simp only [latched, Prod.mk.injEq] at hlatched
  obtain ⟨hu, hpend, hgot, hhold⟩ := hlatched
  refine ⟨by rw [hgang]; exact hu, by rw [hgang]; exact hpend, by rw [hgang]; exact hgot, by rw [hgang]; exact hhold, fun hlast => ?_⟩
  rw [hedges]
  generalize v.ph = ph
  generalize v.phd = phd
  have hcmd := commandLatched_eq (s := w) (r := r) hlast
  dsimp only at hcmd
  rw [hcmd]

end Sys2Proof.Machine
end

section
/-!
THE ARBITER: EVIDENCE, VOTES, HANDOVERS AND READMISSION (R22, R26, R171 to R190).
-/
namespace Sys2Proof.Machine

/-! ### What leaves the arbiter as it is -/

@[simp] theorem State.fcEnd_arb (s : State) (f : Fc) (result q : Nat) (dm : Int) (tx : Option Int) : (s.fcEnd f result q dm tx).arb = s.arb := rfl
@[simp] theorem State.fcEndAll_arb (s : State) (r : Rail) (result : Nat) : (s.fcEndAll r result).arb = s.arb :=
  foldl_keeps_view (f := State.arb) (fun u f => State.fcEnd_arb u f _ _ _ _) _ _
@[simp] theorem State.testEnd_arb (s : State) (p : Ph) (pass : Bool) (why : Nat) : (s.testEnd p pass why).arb = s.arb := by
  unfold State.testEnd
  split
  · rfl
  · cases pass <;> simp
@[simp] theorem State.respacePh_arb (s : State) (p : Ph) : (s.respacePh p).arb = s.arb := by
  unfold State.respacePh
  split <;> rfl
@[simp] theorem State.blankAdd_arb (s : State) (p : Ph) : (s.blankAdd p).arb = s.arb := by
  unfold State.blankAdd
  split <;> rfl
@[simp] theorem State.blankShed_arb (s : State) (p : Ph) : (s.blankShed p).arb = s.arb := by
  unfold State.blankShed
  split
  · split <;> rfl
  · rfl
@[simp] theorem State.trimZero_arb (s : State) (p : Ph) : (s.trimZero p).arb = s.arb := rfl
@[simp] theorem State.toIdle_arb (s : State) (p : Ph) : (s.toIdle p).arb = s.arb := by simp [State.toIdle]
@[simp] theorem State.toActive_arb (s : State) (p : Ph) : (s.toActive p).arb = s.arb := by simp [State.toActive]
@[simp] theorem State.toOff_arb (s : State) (p : Ph) : (s.toOff p).arb = s.arb := by
  unfold State.toOff
  split <;> simp
@[simp] theorem State.failTest_arb (s : State) (p : Ph) (why : Nat) : (s.failTest p why).arb = s.arb := by
  unfold State.failTest
  split
  · rw [State.testEnd_arb]
    split <;> simp
  · rfl
@[simp] theorem State.modRailDies_arb (s : State) (r : Rail) (f : RailDie → RailDie) : (s.modRailDies r f).arb = s.arb := rfl
@[simp] theorem State.leaveRegulate_arb (s : State) (r : Rail) : (s.leaveRegulate r).arb = s.arb := by
  unfold State.leaveRegulate
  split
  · rfl
  · rw [State.modRailDies_arb, foldl_keeps_view (f := State.arb) (fun u p => State.failTest_arb u p 1), State.fcEndAll_arb]
@[simp] theorem State.setSt_arb (s : State) (r : Rail) (v : RailState) : (s.setSt r v).arb = s.arb := rfl
@[simp] theorem State.lightOff_arb (s : State) (r : Rail) : (s.lightOff r).arb = s.arb := rfl
@[simp] theorem State.enterOff_arb (s : State) (r : Rail) : (s.enterOff r).arb = s.arb := by
  unfold State.enterOff
  rw [State.lightOff_arb, State.setSt_arb, State.modRail_arb, foldl_keeps_view (f := State.arb) State.toOff_arb, State.leaveRegulate_arb]
@[simp] theorem State.setView_arb (s : State) (d : Cd) (p : Ph) (v : PhState) : (s.setView d p v).arb = s.arb := rfl
@[simp] theorem State.phFollow_arb (s : State) (d : Cd) (p : Ph) : (s.phFollow d p).arb = s.arb := by
  unfold State.phFollow
  split <;> simp
@[simp] theorem State.railFollow_arb (s : State) (d : Cd) (r : Rail) : (s.railFollow d r).arb = s.arb := by
  unfold State.railFollow
  dsimp only
  split
  · rfl
  · split <;> simp
@[simp] theorem State.biasSense_arb (s : State) : s.biasSense.arb = s.arb := by
  refine foldl_keeps_view (f := State.arb) ?_ _ _
  exact fun _ _ => rfl
@[simp] theorem State.snsUnmark_arb (s : State) (r : Rail) (d : Cd) : (s.snsUnmark r d).arb = s.arb := by
  unfold State.snsUnmark
  split <;> simp
@[simp] theorem State.snsUnmarkAll_arb (s : State) (d : Cd) : (s.snsUnmarkAll d).arb = s.arb :=
  foldl_keeps_view (f := State.arb) (fun u r => State.snsUnmark_arb u r d) _ _
@[simp] theorem State.convBench_arb (s : State) (c : Conv) : (s.convBench c).arb = s.arb := rfl

/-- What benching a die does to the arbiter (R175, R181, R187). -/
theorem State.benchDie_arb (s : State) (d : Cd) (cause : Nat) (hin : s.arb.st[d.ix.val] ≠ .benched) :
    (s.benchDie d cause).arb = { s.arb with st := s.arb.st.set d.ix .benched, bias := s.arb.bias.set d.ix false
                                            cause := s.arb.cause.set d.ix cause, voteQ := []
                                            engineMove := s.arb.engineMove || s.arb.engine == d } := by
  unfold State.benchDie
  rw [if_neg hin]
  simp only [State.postDie_arb, State.convBench_arb, State.snsUnmarkAll_arb]
  rw [foldl_keeps_view (f := State.arb) (fun u p => State.setView_arb u d p _)]
  simp

section
variable {s : State} {d o : Cd}

/-! ### Evidence (R22, R26, R173, R174, R180) -/

theorem set_ix_other {α : Type} (v : Vector α 2) (d : Cd) (x : α) : (v.set d.ix x)[d.other.ix.val] = v[d.other.ix.val] := by
  cases d <;> simp [Cd.ix, Cd.other]

theorem exec_dieSelfReport : ∃ v : State, exec (.dieSelfReport d) s = .next v ∧ v = { s with arb := { s.arb with selfPend := v.arb.selfPend } }
    ∧ v.arb.selfPend[d.ix.val] = true ∧ v.arb.selfPend[d.other.ix.val] = s.arb.selfPend[d.other.ix.val] :=
  ⟨_, rfl, rfl, by simp, set_ix_other _ _ _⟩

section
variable {p : Ph} {r : Rail} {t : LaneTimes} (hr : s.railOfPh p = some r) (ha : s.arb.active = some d)
include hr ha

theorem exec_laneMismatch_blanked
    (h : ((s.phAt p).st ≠ .active ∧ (s.phAt p).st ≠ .test) ∨ s.laneBlanked r = true ∨ (s.phAt p).cycSt ≠ (s.phAt p).st) :
    exec (.laneMismatch p t) s = .next (s.modPh p fun x => { x with laneRun := 0 }) := by
  simp only [exec, execLaneMismatch]
  rw [hr, ha]
  exact if_pos h

/-- What the count of consecutive differences decides (R173). -/
def laneCounted (s : State) (d : Cd) (p : Ph) (r : Rail) (n : Nat) : State :=
  let s := s.modPh p fun x => { x with laneRun := n }
  if n = 0 ∨ n < TwinCfg.laneN s.tcfg then s
  else if s.arb.st[d.other.ix.val] = .resync then { s with arb := { s.arb with obsBad := true } }
  else
    let s := s.modPh p fun x => { x with laneRun := 0 }
    { s with arb := { s.arb with dueVotes := s.arb.dueVotes ++ [{ phase := false, unit := r.val, lane := true }] } }

theorem exec_laneMismatch_judged (hst : (s.phAt p).st = .active ∨ (s.phAt p).st = .test) (hcyc : (s.phAt p).cycSt = (s.phAt p).st)
    (hblank : s.laneBlanked r = false) :
    exec (.laneMismatch p t) s = .next (laneCounted s d p r (if s.laneDiffers r t then min 3 ((s.phAt p).laneRun + 1) else 0)) := by
  have hjudged : ¬ (((s.phAt p).st ≠ .active ∧ (s.phAt p).st ≠ .test) ∨ s.laneBlanked r = true ∨ (s.phAt p).cycSt ≠ (s.phAt p).st) := by
    rintro (⟨hna, hnt⟩ | hb | hc)
    · exact hst.elim hna hnt
    · exact Bool.false_ne_true (hblank.symm.trans hb)
    · exact hc hcyc
  simp only [exec, execLaneMismatch, laneCounted, apply_ite Host.Outcome.next]
  rw [hr, ha]
  exact if_neg hjudged

end

theorem laneCounted_zero {p : Ph} {r : Rail} : laneCounted s d p r 0 = s.modPh p fun x => { x with laneRun := 0 } := by
  simp [laneCounted]

/-- Of two changes of a phase's lane count the second stands. -/
theorem modPh_laneRun (p : Ph) (n m : Nat) :
    (s.modPh p fun x => { x with laneRun := n }).modPh p (fun x => { x with laneRun := m }) = s.modPh p fun x => { x with laneRun := m } := by
  simp [State.modPh, upd]

theorem laneCounted_pos {p : Ph} {r : Rail} {n : Nat} (hn : n ≠ 0) (hsync : s.arb.st[d.other.ix.val] ≠ .resync) :
    laneCounted s d p r n = if n < TwinCfg.laneN s.tcfg then s.modPh p fun x => { x with laneRun := n }
      else { s.modPh p fun x => { x with laneRun := 0 } with
        arb := { s.arb with dueVotes := s.arb.dueVotes ++ [{ phase := false, unit := r.val, lane := true }] } } := by
  have hcfg : (s.modPh p fun x => { x with laneRun := n }).tcfg = s.tcfg := rfl
  simp only [laneCounted, hcfg, hn, false_or, State.modPh_arb, if_neg hsync, modPh_laneRun]

theorem exec_gateMonitorFault_new {lane : Nat} (hlane : lane < 80) (hact : s.arb.active.isSome = true) (hnew : lane ∉ s.arb.gateOff) :
    exec (.gateMonitorFault lane) s
      = .next (({ s with arb := { s.arb with gateOff := s.arb.gateOff ++ [lane] } } : State).postDie 0x17 2 lane) := by
  simp only [exec, execGateMonitorFault]
  exact if_neg (by simp [Option.isSome_iff_ne_none.mp hact, hnew, hlane])

theorem exec_gateMonitorFault_known {lane : Nat} (hold : lane ∈ s.arb.gateOff) : exec (.gateMonitorFault lane) s = .next s := by
  simp only [exec, execGateMonitorFault]
  exact if_pos (by simp [hold])

theorem exec_refoscLost (hpll : s.time.pllLocal[d.ix.val] = false) : exec (.refoscLost d) s
    = .next (({ s with time := { s.time with pllLocal := s.time.pllLocal.set d.ix true } } : State).postDie 0x18 d.ix.val 0) := by
  simp only [exec, execRefoscLost]
  exact if_neg (by simp [hpll])

/-- A die's loss of the beats moves it to its own. -/
def strobeOff (s : State) (d : Cd) : State :=
  if s.time.strobeOwn[d.ix.val] then s
  else ({ s with time := { s.time with strobeOwn := s.time.strobeOwn.set d.ix true } } : State).postDie 0x18 d.ix.val 1

theorem strobeOff_time : (strobeOff s d).time = { s.time with strobeOwn := s.time.strobeOwn.set d.ix true } := by
  unfold strobeOff
  split
  next hoff =>
    have hset : s.time.strobeOwn.set d.ix true = s.time.strobeOwn := by
      apply Vector.ext
      intro i hi
      rw [Vector.getElem_set]
      split
      next he => subst he; exact hoff.symm
      next => rfl
    rw [hset]
  next => simp

theorem exec_beatStrobeLost : ∃ v : State, exec .beatStrobeLost s = .next v ∧ v.time = { s.time with strobeOwn := #v[true, true] } := by
  refine ⟨strobeOff (strobeOff s .a) .b, rfl, ?_⟩
  have hboth : (s.time.strobeOwn.set Cd.a.ix true).set Cd.b.ix true = #v[true, true] := by
    apply Vector.ext
    intro i hi
    match i, hi with
    | 0, _ => simp [Cd.ix]
    | 1, _ => simp [Cd.ix]
  rw [strobeOff_time, strobeOff_time, hboth]

end

/-- Settles O26: one lemma for each piece of evidence. -/
theorem arbiterEvidence : Obligations.ArbiterEvidence := by
  unfold Obligations.ArbiterEvidence
  intro s d
  refine ⟨exec_dieSelfReport, fun p r t hr ha => ⟨exec_laneMismatch_blanked hr ha, fun hst hcyc hblank =>
    ⟨fun hsame => ?_, fun hdiff hsync => ?_⟩⟩,
    fun lane => exec_gateMonitorFault_new, fun lane => exec_gateMonitorFault_known, exec_refoscLost, exec_beatStrobeLost⟩
  · rw [exec_laneMismatch_judged hr ha hst hcyc hblank, hsame, if_neg Bool.false_ne_true, laneCounted_zero]
  · rw [exec_laneMismatch_judged hr ha hst hcyc hblank, hdiff, if_pos rfl, laneCounted_pos (by omega) hsync]

section
variable {s : State} {d o : Cd}

/-! ### The converters around a vote -/

/-- `t` is `s` but for the converters, the meter sequences, the log and the alarms' report. -/
def ConvsOnly (s t : State) : Prop := t = { s with conv := t.conv, mseq := t.mseq, log := t.log, ring := t.ring }

theorem ConvsOnly.refl (s : State) : ConvsOnly s s := rfl
theorem ConvsOnly.trans {s t u : State} (h : ConvsOnly s t) (k : ConvsOnly t u) : ConvsOnly s u := by
  unfold ConvsOnly at *
  rw [k, h]
theorem ConvsOnly.modConv (s : State) (c : Conv) (f : ConvSt → ConvSt) : ConvsOnly s (s.modConv c f) := rfl
theorem ConvsOnly.modMseq (s : State) (k : Fin 32) (f : MeterSeq → MeterSeq) : ConvsOnly s (s.modMseq k f) := rfl
theorem ConvsOnly.says {s t : State} (h : SaysOnly s t) : ConvsOnly s t := by rw [h]; rfl
theorem ConvsOnly.foldl {α : Type} {g : State → α → State} (h : ∀ s x, ConvsOnly s (g s x)) (l : List α) (s : State) :
    ConvsOnly s (l.foldl g s) := by
  induction l generalizing s with
  | nil => exact .refl s
  | cons a l ih => exact (h s a).trans (ih (g s a))
theorem ConvsOnly.arb {s t : State} (h : ConvsOnly s t) : t.arb = s.arb := by
  unfold ConvsOnly at h
  exact (congrArg State.arb h :)
theorem ConvsOnly.voteRail {s t : State} (h : ConvsOnly s t) (v : VoteReq) : t.voteRail v = s.voteRail v := by
  unfold ConvsOnly at h
  rw [h]
  rfl
theorem ConvsOnly.measBad {s t : State} (h : ConvsOnly s t) (e : Cd) (v : VoteReq) (mv : Q) : t.measBad e v mv = s.measBad e v mv := by
  unfold ConvsOnly at h
  rw [h]
  rfl
theorem ConvsOnly.dropUrgent (s : State) (c : Conv) : ConvsOnly s (s.dropUrgent c) :=
  (ConvsOnly.modConv s c _).trans (.says (.count _ _ _ _))
theorem ConvsOnly.overwrite (s : State) (c : Conv) : ConvsOnly s (s.overwrite c) := by
  unfold State.overwrite
  split
  · dsimp only
    split
    · exact (ConvsOnly.modConv s c _).trans (.says (.count _ _ _ _))
    · exact ((ConvsOnly.modConv s c _).trans (.says (.count _ _ _ _))).trans ((ConvsOnly.modConv _ c _).trans (.says (.emit _ _)))
  · exact .refl s
theorem ConvsOnly.convWrite (s : State) (c : Conv) (ch : Nat) (code : Int) : ConvsOnly s (s.convWrite c ch code) :=
  ((ConvsOnly.overwrite s c).trans (.modConv _ c _)).trans (.says (.count _ _ _ _))
theorem ConvsOnly.markNonsim (s : State) (k : Fin 32) (e : Nat) : ConvsOnly s (s.markNonsim k e) := by
  refine .foldl (fun u c => ?_) _ _
  dsimp only
  split
  · exact .modConv _ _ _
  · split
    · exact .modMseq _ _ _
    · exact .refl u
theorem ConvsOnly.voteAbort (s : State) : ConvsOnly s s.voteAbort := by
  unfold State.voteAbort
  dsimp only
  refine (ConvsOnly.modConv s .p fun x => { x with heldUntil := s.adcNow + 20 }).trans ?_
  generalize s.modConv .p (fun x => { x with heldUntil := s.adcNow + 20 }) = u
  split
  · exact .refl u
  · split
    · split
      · split
        · exact ((ConvsOnly.modConv u .p _).trans (.dropUrgent _ .p)).trans (.modMseq _ _ _)
        · exact (ConvsOnly.modConv u .p _).trans (.dropUrgent _ .p)
      · exact (ConvsOnly.modConv u .p _).trans (.dropUrgent _ .p)
    · split
      · split
        · split
          · exact (ConvsOnly.modConv u .p _).trans (.markNonsim _ _ _)
          · exact .modConv u .p _
        · exact .modConv u .p _
      · exact .modConv u .p _

/-! ### Votes (R175 to R178) -/

/-- The intent speaks against a die on the rail of a vote. -/
def voteBad (s : State) (v : VoteReq) (e : Cd) : Bool :=
  match s.voteRail v with
  | some r => s.intentBad r e
  | none => false

/-- A vote is taken from the queue and counted. -/
def voteStart (s : State) (d : Cd) (rest : List VoteReq) : State :=
  ({ s with arb := { s.arb with voteQ := rest, votes := satAdd 16 s.arb.votes 1, voteFrom := s.time.clk } } : State).count (0x052 + d.ix.val) 5 1

/-- The two conversions of a vote that the intent leaves open. -/
def voteConverted (s : State) (c1 c2 : Nat) : State := (s.voteAbort.convWrite .p 61 (convCode 61 c1)).convWrite .p 61 (convCode 61 c2)

theorem ConvsOnly.voteConverted (c1 c2 : Nat) : ConvsOnly s (voteConverted s c1 c2) :=
  ((ConvsOnly.voteAbort s).trans (.convWrite _ _ _ _)).trans (.convWrite _ _ _ _)

theorem voteStart_eq (d : Cd) (rest : List VoteReq) :
    voteStart s d rest = { s with arb := { s.arb with voteQ := rest, votes := satAdd 16 s.arb.votes 1, voteFrom := s.time.clk }
                                  log := (voteStart s d rest).log } := State.count_eq _ _ _ _

theorem voteBad_voteStart (d : Cd) (rest : List VoteReq) (v : VoteReq) (e : Cd) : voteBad (voteStart s d rest) v e = voteBad s v e := by
  rw [voteStart_eq]
  rfl

theorem measBad_voteStart (d : Cd) (rest : List VoteReq) (e : Cd) (v : VoteReq) (mv : Q) :
    (voteStart s d rest).measBad e v mv = s.measBad e v mv := by
  rw [voteStart_eq]
  rfl

theorem voteRail_voteStart (d : Cd) (rest : List VoteReq) (v : VoteReq) : (voteStart s d rest).voteRail v = s.voteRail v := by
  rw [voteStart_eq]
  rfl

/-- The mean of a vote's two conversions in mV. -/
def voteMv (c1 c2 : Nat) : Q := Q.norm ((c1 + c2 : Nat) * 4800) (2 * 16384)

/-- What speaks against a die: the intent where it tells the dies apart, else the measurement. -/
def voteAgainst (s : State) (v : VoteReq) (intent : Bool) (c1 c2 : Nat) (e : Cd) : Bool :=
  if intent then voteBad s v e else s.measBad e v (voteMv c1 c2)

/-- The state that a vote decides on. -/
def voteSeen (s : State) (d : Cd) (rest : List VoteReq) (intent : Bool) (c1 c2 : Nat) : State :=
  if intent then voteStart s d rest else voteConverted (voteStart s d rest) c1 c2

theorem exec_vote {v : VoteReq} {rest : List VoteReq} (c1 c2 : Nat) (hq : s.arb.voteQ = v :: rest) (ha : s.arb.active = some d)
    (ho : s.standby = some o) :
    let intent := voteBad s v d != voteBad s v o
    exec (.vote c1 c2) s = .next ((voteSeen s d rest intent c1 c2).voteDecide v o intent
      (voteAgainst s v intent c1 c2 d) (voteAgainst s v intent c1 c2 o)) := by
  intro intent
  have hexec : exec (.vote c1 c2) s = if (voteBad (voteStart s d rest) v d != voteBad (voteStart s d rest) v o) = true then
      .next ((voteStart s d rest).voteDecide v o true (voteBad (voteStart s d rest) v d) (voteBad (voteStart s d rest) v o))
      else .next ((voteConverted (voteStart s d rest) c1 c2).voteDecide v o false
        ((voteConverted (voteStart s d rest) c1 c2).measBad d v (voteMv c1 c2))
        ((voteConverted (voteStart s d rest) c1 c2).measBad o v (voteMv c1 c2))) := by
    show execVote c1 c2 s = _
    unfold execVote
    split
    next v' rest' d' o' hq' ha' ho' =>
      obtain ⟨rfl, rfl⟩ := List.cons.inj (hq.symm.trans hq')
      obtain rfl := Option.some.inj (ha.symm.trans ha')
      obtain rfl := Option.some.inj (ho.symm.trans ho')
      rfl
    next hno => exact absurd ho (hno v rest d o hq ha)
  rw [hexec]
  simp only [voteBad_voteStart, (ConvsOnly.voteConverted c1 c2).measBad, measBad_voteStart]
  cases hint : voteBad s v d != voteBad s v o with
  | true => simp [intent, hint, voteSeen, voteAgainst]
  | false => simp [intent, hint, voteSeen, voteAgainst]

theorem voteSeen_arb (rest : List VoteReq) (intent : Bool) (c1 c2 : Nat) :
    (voteSeen s d rest intent c1 c2).arb = { s.arb with voteQ := rest, votes := satAdd 16 s.arb.votes 1, voteFrom := s.time.clk } := by
  have hstart : (voteStart s d rest).arb = { s.arb with voteQ := rest, votes := satAdd 16 s.arb.votes 1, voteFrom := s.time.clk } := by
    rw [voteStart_eq]
  unfold voteSeen
  split
  · exact hstart
  · rw [(ConvsOnly.voteConverted c1 c2).arb, hstart]

theorem voteSeen_voteRail (rest : List VoteReq) (intent : Bool) (c1 c2 : Nat) (v : VoteReq) :
    (voteSeen s d rest intent c1 c2).voteRail v = s.voteRail v := by
  unfold voteSeen
  split
  · exact voteRail_voteStart _ _ _
  · rw [(ConvsOnly.voteConverted c1 c2).voteRail, voteRail_voteStart]

/-- The cause that a vote gives, and the number and the source that its trace carries (Table 6.3). -/
def voteCause (v : VoteReq) (intent : Bool) : Nat := if intent then 5 else if v.lane then 3 else 4
def voteUnit (v : VoteReq) : Nat := if v.phase then 64 + v.unit else v.unit

/-- The rails of a handover that a vote asks for. -/
def voteMask (s : State) (v : VoteReq) : Nat :=
  match s.voteRail v with
  | some r => 2 ^ r.val
  | none => 0

/-- An open vote leaves the active die and the count of votes (R178). -/
theorem voteOpen_arb (v : VoteReq) (failed : Bool) :
    (s.voteOpen v failed).arb.active = s.arb.active ∧ (s.voteOpen v failed).arb.votes = s.arb.votes := by
  unfold State.voteOpen
  cases failed
  · dsimp only
    (repeat' split) <;> simp
  · dsimp only
    (repeat' split) <;> simp

section
variable (v : VoteReq) (intent : Bool)

theorem voteDecide_standby : (s.voteDecide v o intent false true).arb
    = { s.arb with dueBench := s.arb.dueBench.set o.ix (some (voteCause v intent)), voteQ := [] } := by
  simp [State.voteDecide, voteCause]

theorem voteDecide_active : (s.voteDecide v o intent true false).arb
    = { s.arb with handover := some (voteCause v intent, voteCause v intent, voteMask s v), voteQ := [] } :=
  congrArg (fun a : ArbSt => { a with handover := some (voteCause v intent, voteCause v intent, voteMask s v), voteQ := [] })
    (s.trace_arb 0x07 (voteUnit v) (if intent then 1 else 2) 1 0)

theorem voteDecide_open (b : Bool) : s.voteDecide v o intent b b
    = (s.trace 0x07 (voteUnit v) (if intent then 1 else 2) (if b then 3 else 2)).voteOpen v b := by
  cases b <;> rfl

end

/-- Whatever a vote decides, the active die still drives and the vote is counted. -/
theorem voteDecide_kept (v : VoteReq) (intent ba bo : Bool) : (s.voteDecide v o intent ba bo).arb.active = s.arb.active
    ∧ (s.voteDecide v o intent ba bo).arb.votes = s.arb.votes := by
  match ba, bo with
  | false, true =>
    rw [voteDecide_standby]
    exact ⟨rfl, rfl⟩
  | true, false =>
    rw [voteDecide_active]
    exact ⟨rfl, rfl⟩
  | false, false =>
    rw [voteDecide_open]
    obtain ⟨hact, hvotes⟩ := voteOpen_arb (s := s.trace 0x07 (voteUnit v) (if intent then 1 else 2) 2) v false
    exact ⟨hact.trans (by simp), hvotes.trans (by simp)⟩
  | true, true =>
    rw [voteDecide_open]
    obtain ⟨hact, hvotes⟩ := voteOpen_arb (s := s.trace 0x07 (voteUnit v) (if intent then 1 else 2) 3) v true
    exact ⟨hact.trans (by simp), hvotes.trans (by simp)⟩

theorem vote_decides {v : VoteReq} {rest : List VoteReq} (c1 c2 : Nat) (hq : s.arb.voteQ = v :: rest) (ha : s.arb.active = some d)
    (ho : s.standby = some o) :
    let intent := voteBad s v d != voteBad s v o
    let against := voteAgainst s v intent c1 c2
    ∃ t : State, exec (.vote c1 c2) s = .next t ∧ t.arb.active = some d ∧ t.arb.votes = satAdd 16 s.arb.votes 1 ∧
      (against d = false → against o = true → t.arb.dueBench[o.ix.val] = some (voteCause v intent) ∧ t.arb.voteQ = []
        ∧ t.arb.handover = s.arb.handover) ∧
      (against d = true → against o = false → t.arb.voteQ = [] ∧ t.arb.dueBench = s.arb.dueBench
        ∧ t.arb.handover = some (voteCause v intent, voteCause v intent, voteMask s v)) ∧
      (against d = against o → t = ((voteSeen s d rest intent c1 c2).trace 0x07 (voteUnit v) (if intent then 1 else 2)
        (if against d then 3 else 2)).voteOpen v (against d)) := by
  intro intent against
  have hexec := exec_vote c1 c2 hq ha ho
  have hseen := voteSeen_arb (s := s) (d := d) rest intent c1 c2
  have hmask : voteMask (voteSeen s d rest intent c1 c2) v = voteMask s v := by simp only [voteMask, voteSeen_voteRail]
  obtain ⟨t, ht⟩ : ∃ t, t = (voteSeen s d rest intent c1 c2).voteDecide v o intent (against d) (against o) := ⟨_, rfl⟩
  obtain ⟨hact, hvotes⟩ := voteDecide_kept (s := voteSeen s d rest intent c1 c2) (o := o) v intent (against d) (against o)
  refine ⟨t, hexec.trans (congrArg Host.Outcome.next ht.symm), by rw [ht, hact, hseen, ha], by rw [ht, hvotes, hseen], ?_, ?_, ?_⟩
  · intro hd ho'
    rw [hd, ho'] at ht
    rw [ht, voteDecide_standby, hseen]
    exact ⟨by simp, rfl, rfl⟩
  · intro hd ho'
    rw [hd, ho'] at ht
    rw [ht, voteDecide_active, hseen, hmask]
    exact ⟨rfl, rfl, rfl⟩
  · intro h
    rw [ht, ← h, voteDecide_open]

/-! ### The handover (R185, R190) -/

theorem standby_eq_other (ha : s.arb.active = some d) (ho : s.standby = some o) : o = d.other := by
  unfold State.standby at ho
  rw [ha] at ho
  dsimp only at ho
  split at ho
  · exact (Option.some.inj ho).symm
  · exact absurd ho (by simp)

/-- Benching a die leaves what a handover has set. -/
theorem State.benchDie_arb_kept (s : State) (d : Cd) (cause : Nat) :
    (s.benchDie d cause).arb.st = s.arb.st.set d.ix .benched ∧ (s.benchDie d cause).arb.active = s.arb.active
      ∧ (s.benchDie d cause).arb.handover = s.arb.handover ∧ (s.benchDie d cause).arb.gateOff = s.arb.gateOff
      ∧ (s.benchDie d cause).arb.trapezes = s.arb.trapezes ∧ (s.benchDie d cause).arb.readmit = s.arb.readmit
      ∧ (s.benchDie d cause).arb.testEnd = s.arb.testEnd := by
  by_cases hin : s.arb.st[d.ix.val] = .benched
  · have hset : s.arb.st.set d.ix .benched = s.arb.st := by rw [← hin]; simp
    rw [hset, State.benchDie, if_pos hin]
    exact ⟨rfl, rfl, rfl, rfl, rfl, rfl, rfl⟩
  · rw [State.benchDie_arb s d cause hin]
    exact ⟨rfl, rfl, rfl, rfl, rfl, rfl, rfl⟩

/-- The handover as far as the dies: `o` drives, `d` stands by or is benched. -/
def handedOver (s : State) (d o : Cd) (cause : Nat) : State :=
  let s := s.snsUnmarkAll o
  let s := (s.setDie o .active).setBias o true
  let s := { s with arb := { s.arb with active := some o, handover := none, gateOff := [], trapezes := satAdd 16 s.arb.trapezes 1 } }
  if cause = 0 then (s.setDie d .standby) else s.benchDie d cause

theorem handedOver_arb (hne : o = d.other) (cause : Nat) :
    let a := (handedOver s d o cause).arb
    a.active = some o ∧ a.handover = none ∧ a.trapezes = satAdd 16 s.arb.trapezes 1 ∧ a.gateOff = [] ∧ a.st[o.ix.val] = .active
      ∧ a.st[d.ix.val] = if cause = 0 then .standby else .benched := by
  subst hne
  unfold handedOver
  dsimp only
  split
  · simp [set_ix_other]
  · simp [State.benchDie_arb_kept, set_ix_other]

theorem exec_trapeze {cause det mask : Nat} (hh : s.arb.handover = some (cause, det, mask)) (ha : s.arb.active = some d)
    (ho : s.standby = some o) :
    ∃ t : State, exec .trapeze s = .next t ∧ t.arb = (handedOver s d o cause).arb := by
  simp only [exec, execTrapeze]
  rw [hh, ha, ho]
  refine ⟨_, rfl, ?_⟩
  rw [State.postDie_arb, State.biasSense_arb, foldl_keeps_view (f := State.arb) (fun u r => State.railFollow_arb u o r)]
  refine (foldl_keeps_view (f := State.arb) (fun u p => ?_) _ _).trans rfl
  simp

/-! ### Readmission (R189, Table 6.9) -/

/-- The copy of the active die's registers leaves the arbiter and the time. -/
theorem State.resyncRails_view (s : State) (d : Cd) : (s.resyncRails d).arb = s.arb ∧ (s.resyncRails d).time = s.time := by
  have h : ((s.resyncRails d).arb, (s.resyncRails d).time) = (s.arb, s.time) := by
    unfold State.resyncRails
    extract_lets e
    refine foldl_keeps_view (f := fun u => (u.arb, u.time)) ?_ _ _
    exact fun _ _ => rfl
  exact Prod.mk.inj h
theorem State.resyncTrims_view (s : State) (d : Cd) : (s.resyncTrims d).arb = s.arb ∧ (s.resyncTrims d).time = s.time := by
  have h : ((s.resyncTrims d).arb, (s.resyncTrims d).time) = (s.arb, s.time) := by
    refine foldl_keeps_view (f := fun u => (u.arb, u.time)) ?_ _ _
    exact fun _ _ => rfl
  exact Prod.mk.inj h
theorem State.resyncCopy_time (s : State) (d : Cd) : (s.resyncCopy d).time = s.time := by
  unfold State.resyncCopy
  dsimp only
  rw [(State.resyncTrims_view _ _).2, (State.resyncRails_view _ _).2]
theorem State.resyncCopy_intentSeen (s : State) (d : Cd) :
    (s.resyncCopy d).arb.intentSeen = s.arb.intentSeen.set d.ix s.arb.intentSeq := by
  have harb : ((s.resyncRails d).resyncTrims d).arb = s.arb := (State.resyncTrims_view _ _).1.trans (State.resyncRails_view _ _).1
  simp only [State.resyncCopy, harb]

/-- The benches and votes that are due leave a self-test's end to the arbiter. -/
theorem raiseVote_readmit (v : VoteReq) : (s.raiseVote v).arb.readmit = s.arb.readmit ∧ (s.raiseVote v).arb.testEnd = s.arb.testEnd := by
  unfold State.raiseVote
  split <;> exact ⟨rfl, rfl⟩

/-- A due bench takes effect on a standby die only (R177). -/
def benchDueDie (s : State) (d : Cd) : State :=
  match s.arb.dueBench[d.ix.val] with
  | some c => if s.arb.st[d.ix.val] = .standby then s.benchDie d c else s
  | none => s

theorem benchDueDie_readmit (e : Cd) : (benchDueDie s e).arb.readmit = s.arb.readmit ∧ (benchDueDie s e).arb.testEnd = s.arb.testEnd := by
  unfold benchDueDie
  split
  · split
    · obtain ⟨_, _, _, _, _, hread, htest⟩ := s.benchDie_arb_kept e ‹Nat›
      exact ⟨hread, htest⟩
    · exact ⟨rfl, rfl⟩
  · exact ⟨rfl, rfl⟩

/-- The benches and the votes that are due at a beat boundary. -/
def dueDone (s : State) : State :=
  let u := benchDueDie (benchDueDie s .a) .b
  s.arb.dueVotes.foldl State.raiseVote ({ u with arb := { u.arb with dueBench := Vector.replicate 2 none, dueVotes := [] } } : State)

theorem dueDone_readmit : (dueDone s).arb.readmit = s.arb.readmit ∧ (dueDone s).arb.testEnd = s.arb.testEnd := by
  unfold dueDone
  dsimp only
  constructor
  · rw [foldl_keeps_view (f := fun v => v.arb.readmit) fun v x => (raiseVote_readmit (s := v) x).1]
    exact (benchDueDie_readmit .b).1.trans (benchDueDie_readmit .a).1
  · rw [foldl_keeps_view (f := fun v => v.arb.testEnd) fun v x => (raiseVote_readmit (s := v) x).2]
    exact (benchDueDie_readmit .b).2.trans (benchDueDie_readmit .a).2

/-- A passed self-test that ended within the last beat leads to RESYNC. -/
def selftestDone (s : State) : State :=
  match s.arb.readmit, s.arb.testEnd with
  | some (d, _, _), some true => (({ s with arb := { s.arb with testEnd := none } } : State).setDie d .resync)
  | _, _ => s

theorem arbBeat_eq : s.arbBeat = selftestDone (dueDone s) := rfl

/-- The copy is complete, and the observation starts at the next frame boundary. -/
def resynced (s : State) (d : Cd) (ref : TkRef) : State :=
  { s.resyncCopy d with arb := { (s.resyncCopy d).arb with readmit := some (d, ref, nextFrame (s.resyncCopy d).time.clk), obsBad := false } }

section
variable {ref : TkRef} {b : Nat} (hr : s.arb.readmit = some (d, ref, b))
include hr

theorem exec_dieSelftestEnd (pass : Bool) (hst : s.arb.st[d.ix.val] = .selftest) :
    exec (.dieSelftestEnd pass) s = .next { s with arb := { s.arb with testEnd := some pass } } := by
  simp only [exec, execDieSelftestEnd]
  rw [hr]
  exact if_neg (by simp [hst])

theorem exec_dieObservationEnd (hobs : 0 < b) (hend : b + 544 ≤ s.bnd) (hframe : s.bnd % 32 = 0) :
    exec .dieObservationEnd s = .next (s.atBoundary fun u => u.dieEnd d ref (!u.arb.obsBad)) := by
  simp only [exec, execDieObservationEnd]
  rw [hr]
  exact if_neg (by simp [hframe]; omega)

theorem dieTestFrame_failed (ht : s.arb.testEnd = some false) : s.dieTestFrame = s.dieEnd d ref false := by
  unfold State.dieTestFrame
  rw [hr, ht]

theorem exec_dieResyncEnd_failed (hzero : b = 0) (hst : s.arb.st[d.ix.val] = .resync) :
    exec (.dieResyncEnd false) s = .next { s with arb := { s.arb with testEnd := some false } } := by
  simp only [exec, execDieResyncEnd]
  rw [hr]
  exact (if_neg (by simp [hzero, hst])).trans (if_neg Bool.false_ne_true)

theorem exec_dieResyncEnd_copied (hzero : b = 0) (hst : s.arb.st[d.ix.val] = .resync) :
    ∃ v : State, exec (.dieResyncEnd true) s = .next v ∧ v.arb.readmit = some (d, ref, nextFrame s.time.clk) ∧ v.arb.obsBad = false
      ∧ v.arb.intentSeen[d.ix.val] = s.arb.intentSeq := by
  have hexec : exec (.dieResyncEnd true) s = .next (resynced s d ref) := by
    simp only [exec, execDieResyncEnd]
    rw [hr]
    exact (if_neg (by simp [hzero, hst])).trans (if_pos trivial)
  refine ⟨_, hexec, ?_, rfl, ?_⟩
  · simp only [resynced, State.resyncCopy_time]
  · simp [resynced, State.resyncCopy_intentSeen]

theorem arbBeat_resync (ht : s.arb.testEnd = some true) : s.arbBeat.arb.st[d.ix.val] = .resync ∧ s.arbBeat.arb.testEnd = none := by
  rw [arbBeat_eq]
  obtain ⟨hread, htest⟩ := dueDone_readmit (s := s)
  unfold selftestDone
  rw [hread, htest, hr, ht]
  simp

end

end

/-- Settles O27: what a vote decides from what speaks against each die, and the handover to the standby die. -/
theorem votesAndHandovers : Obligations.VotesAndHandovers := by
  unfold Obligations.VotesAndHandovers
  intro s d o ha ho
  refine ⟨fun v rest c1 c2 hq => vote_decides c1 c2 hq ha ho, fun cause det mask hh => ?_⟩
  · obtain ⟨t, ht, harb⟩ := exec_trapeze hh ha ho
    obtain ⟨hact, hhand, htrap, hgate, hnew, hold⟩ := handedOver_arb (s := s) (standby_eq_other ha ho) cause
    exact ⟨t, ht, by rw [harb, hact], by rw [harb, hhand], by rw [harb, htrap], by rw [harb, hgate], by simp only [harb]; exact hnew,
      by simp only [harb]; exact hold⟩

/-- Settles O28: each end of the self-test, the copy and the observation. -/
theorem dieReadmission : Obligations.DieReadmission := by
  unfold Obligations.DieReadmission
  intro s d ref b hr
  exact ⟨exec_dieSelftestEnd hr, fun hzero hst => ⟨exec_dieResyncEnd_failed hr hzero hst, exec_dieResyncEnd_copied hr hzero hst⟩,
    exec_dieObservationEnd hr, arbBeat_resync hr, dieTestFrame_failed hr⟩

end Sys2Proof.Machine
end

section
/-!
WHAT TIME DOES TO A RAIL, ITS CONVERTERS, CATCHES AND SENSE (R88 to R105, R197, R211 to R213).
-/
namespace Sys2Proof.Machine

section
variable {s : State} {d : Cd} {r : Rail}

/-! ### Hiccup, good time, discharge and the readmit ramp (R211 to R213) -/

theorem exec_hiccupOffEnd {b : Nat} (hb : (s.railAt r).hiccupEnd = some b) (hst : (s.railAt r).st = .hiccup) (hdue : b ≤ s.bnd) :
    exec (.hiccupOffEnd r) s = .next (s.atBoundary fun u => u.rampOn r) := by
  simp only [exec, execHiccupOffEnd]
  rw [hb]
  exact if_neg (by simp [hst, hdue])

/-- The attempts of an order, after its rail's good time (R211). -/
def goodTime (s : State) (r : Rail) (o : OrderRun) : OrderRun :=
  match s.orderAt o.idx with
  | some w =>
    if PbOrder.action w.word = 1 ∧ s.unitRail (PbOrder.scope w.word) o.unit = some r
        ∧ (s.railAt r).regFrom + 4000 * bits (PbOrder.param2 w.word) 15 8 ≤ s.bnd then { o with used := 0 } else o
  | none => o

theorem exec_hiccupGoodTime (hst : (s.railAt r).st = .regulate) :
    exec (.hiccupGoodTime r) s = .next { s with orders := s.orders.map (goodTime s r) } := by
  simp only [exec, execHiccupGoodTime]
  exact if_neg (by simp [hst])

theorem goodTime_used {o : OrderRun} {w : Order} (hw : s.orderAt o.idx = some w) : (goodTime s r o).used =
    if PbOrder.action w.word = 1 ∧ s.unitRail (PbOrder.scope w.word) o.unit = some r
      ∧ (s.railAt r).regFrom + 4000 * bits (PbOrder.param2 w.word) 15 8 ≤ s.bnd then 0 else o.used := by
  simp only [goodTime, hw]
  split <;> rfl

theorem exec_dischargeEnd {y : Disch} {b : Nat} (hy : (s.railAt r).disch = some y) (hb : y.start = some b) (hframe : s.bnd % 32 = 0)
    (hend : 2 ≤ y.run ∨ b + 32 * y.frames ≤ s.bnd) :
    exec (.dischargeEnd r) s = .next ((s.usableOf r).foldl (fun s p => s.modPh p PhaseSt.stop) (s.modRail r fun x => { x with disch := none })) := by
  simp only [exec, execDischargeEnd]
  rw [hy]
  dsimp only
  rw [hb]
  exact if_neg (by omega)

/-- Stopping phases changes phases only, and rests those it stops. -/
theorem foldl_stop_eq (l : List Ph) (u : State) :
    l.foldl (fun s p => s.modPh p PhaseSt.stop) u = { u with ph := (l.foldl (fun s p => s.modPh p PhaseSt.stop) u).ph } := by
  induction l generalizing u with
  | nil => rfl
  | cons a l ih =>
    rw [List.foldl_cons, ih]
    rfl

theorem foldl_stop_ball (l : List Ph) (u : State) (p : Ph) :
    ((l.foldl (fun s p => s.modPh p PhaseSt.stop) u).phAt p).ball = if p ∈ l then .mid else (u.phAt p).ball := by
  induction l generalizing u with
  | nil => simp
  | cons a l ih =>
    rw [List.foldl_cons, ih]
    by_cases hp : p = a
    · subst hp
      simp [PhaseSt.stop]
    · rw [State.phAt_modPh_ne _ _ hp]
      simp [hp]

section
variable {y : Ramp} (hy : (s.railAt r).ramp = some y)
include hy

theorem exec_railReadmitRampEnd_passed (hgood : 16 ≤ y.good) : exec (.railReadmitRampEnd r) s = .next (s.atBoundary fun u =>
    let v := u.modRail r fun x => { x with ramp := none, benched := none }
    (({ v with ring := { v.ring with outMe := false } } : State).final y.ref 0x00).postRail 0x08 r 1 0x00 0) := by
  simp only [exec, execRailReadmitRampEnd]
  rw [hy]
  exact if_pos hgood

theorem exec_railReadmitRampEnd_failed (hgood : y.good < 16) (hlimit : y.limit ≤ s.bnd) :
    exec (.railReadmitRampEnd r) s = .next (s.atBoundary fun u =>
      (((u.modRail r fun x => { x with ramp := none, cmdOn := false }).enterOff r).final y.ref 0x3F 0x0003).postRail 0x08 r 1 0x3F 0) := by
  simp only [exec, execRailReadmitRampEnd]
  rw [hy]
  exact (if_neg hgood.not_ge).trans (if_pos hlimit)

end

/-! ### The converters of a rail (R88, R89, R92, R101, R197) -/

/-- The code of a window sample stands in its half. -/
def windowStored (s : State) (d : Cd) (r : Rail) (half : Bool) (w : Int) : State :=
  s.modRailDie d r fun x =>
    { x with w1 := if half then x.w1 else w, w2 := if half then w else x.w2, wsat := x.wsat || decide (255 ≤ w.natAbs),
             ctch := x.ctch.map fun c => if half then { c with w2 := w } else { c with w1 := w } }

/-- The distance that the comparators judge: the tracking converter's once the window converter is saturated. -/
def windowDist (s : State) (d : Cd) (r : Rail) (w : Int) : Int :=
  let x := s.railAt r
  let y := s.railDie d r
  let trk : Int := if x.snsLocal then (Q.sub (Q.ofInt (8 * y.vLoc : Nat)) (s.dropOf d r)).round else 8 * (y.vRemote : Int)
  if decide (255 ≤ w.natAbs) then trk - (y.vref - x.vhead) else x.vhead + 4 * w

/-- The comparators of the die follow the sample. -/
def windowCompared (s : State) (d : Cd) (r : Rail) (w : Int) : State :=
  let x := s.railAt r
  let dv := windowDist s d r w
  let cfg := s.supcfg r
  let cr := fun (k : Nat) => match k with
    | 0 => crosses false (4 * SupCfg.warnLo cfg) w dv dv
    | 1 => crosses true (4 * SupCfg.warnHi cfg) w dv dv
    | 2 => crosses false (8 * SupCfg.fltLo cfg) w dv dv
    | _ => crosses true (8 * SupCfg.fltHi cfg) w dv dv
  s.modRailDie d r fun y => y.compare (evalMask x.st) (if x.st == .off || x.st == .hiccup then 8 else 0) x.blankW x.blankF cr dv (decide (255 ≤ w.natAbs))

theorem exec_windowSample (hen : s.railEn r = true) (half : Bool) (uv : Int) (low high : List Ph) :
    let w := (s.railDie d r).windowCode uv
    let u := windowStored s d r half w
    let v := windowCompared u d r w
    exec (.windowSample d r half uv low high) s = .next (((if d = v.act ∧ ((u.railAt r).st == .off || (u.railAt r).st == .hiccup) = false
      then v.compared r half (windowDist u d r w) (u.railAt r).blankW (u.railAt r).blankF else v).catchSample d r half w low high).gangRefresh r) := by
  simp only [exec, execWindowSample]
  exact if_neg (by simp [hen])

/-! Sampling leaves the arbiter. -/

@[simp] theorem State.qualify_arb (s : State) (r : Rail) (k : Nat) (half : Bool) (c : Cmp) : (s.qualify r k half c).arb = s.arb := by
  simp [State.qualify, apply_ite State.arb]
@[simp] theorem State.compared_arb (s : State) (r : Rail) (half : Bool) (dv : Int) (bw bf : Bool) : (s.compared r half dv bw bf).arb = s.arb := by
  simp [State.compared, apply_ite State.arb]
@[simp] theorem State.offCompare_arb (s : State) (d : Cd) (r : Rail) (code : Nat) : (s.offCompare d r code).arb = s.arb := by
  simp [State.offCompare, apply_ite State.arb]
@[simp] theorem State.compareSns_arb (s : State) (d : Cd) (r : Rail) : (s.compareSns d r).arb = s.arb := by
  simp [State.compareSns, apply_ite State.arb]
@[simp] theorem State.vlocSample_arb (s : State) (d : Cd) (r : Rail) (code : Nat) : (s.vlocSample d r code).arb = s.arb := by
  simp [State.vlocSample, apply_ite State.arb]

/-- The code of a tracking sample stands, and the comparison of the sense pair follows where it runs. -/
def trackStored (s : State) (d : Cd) (r : Rail) (remote : Bool) (code : Nat) : State :=
  if remote then
    let s := s.modRailDie d r fun x => { x with vRemote := code }
    if s.compares r then s.compareSns d r else s.modRailDie d r fun x => { x with snsRun := 0 }
  else s.vlocSample d r code

theorem trackStored_arb (remote : Bool) (code : Nat) : (trackStored s d r remote code).arb = s.arb := by
  simp [trackStored, apply_ite State.arb]

theorem exec_trackingSample (hen : s.railEn r = true) (remote : Bool) (uv : Nat) (hbeat : s.trackBeat remote = true) :
    let code := min ((uv + 500) / 1000) 4095
    let v := trackStored s d r remote code
    exec (.trackingSample d r remote uv) s = .next (if remote = (v.railAt r).snsLocal then v
      else if d = s.act then (v.offCompare d r code).offSample r code else v.offCompare d r code) := by
  intro code v
  have hact : (v.offCompare d r code).act = s.act := by simp only [State.act, State.offCompare_arb, v, trackStored_arb]
  rw [← hact, apply_ite Host.Outcome.next]
  simp only [exec, execTrackingSample]
  exact if_neg (by simp [hen, hbeat])

theorem exec_trackingSample_other (remote : Bool) (uv : Nat) (hbeat : s.trackBeat remote = false) :
    exec (.trackingSample d r remote uv) s = .next s := by
  simp only [exec, execTrackingSample]
  exact if_pos (.inr hbeat)

/-- Two changes of a rail as a die holds it are one. -/
theorem State.modRailDie_modRailDie (f g : RailDie → RailDie) : (s.modRailDie d r f).modRailDie d r g = s.modRailDie d r fun x => g (f x) := by
  simp [State.modRailDie, upd]

theorem trackStored_remote (code : Nat) :
    (s.compares r = true → trackStored s d r true code = (s.modRailDie d r fun x => { x with vRemote := code }).compareSns d r) ∧
    (s.compares r = false → trackStored s d r true code = s.modRailDie d r fun x => { x with vRemote := code, snsRun := 0 }) := by
  have hcmp : (s.modRailDie d r fun x => { x with vRemote := code }).compares r = s.compares r := rfl
  refine ⟨fun h => ?_, fun h => ?_⟩
  · simp [trackStored, hcmp, h]
  · simp only [trackStored, hcmp, h, if_true, Bool.false_eq_true, if_false, State.modRailDie_modRailDie]

/-! ### A catch and the sense watch (R95, R105) -/

/-- A catch ends, and the die may catch again 4 beats after the end of the beat (R95). -/
def catchEnded (s : State) (d : Cd) (r : Rail) : State :=
  s.modRailDie d r fun x => { x with ctch := none, rearm := some (s.time.clk + 5) }

theorem exec_catchEnd {c : CatchSt} (hc : (s.railDie d r).ctch = some c) (hdue : s.catchDue r c = true) :
    exec (.catchEnd d r) s = .next (if d = s.act then
      ((catchEnded s d r).modRail r fun x => { x with respace := true }).trace 0x02 r.val (b2n c.ov) (s.time.clk + 1 - c.start)
      else catchEnded s d r) := by
  have hact : (catchEnded s d r).act = s.act := rfl
  simp only [exec, execCatchEnd]
  rw [hc]
  refine (if_neg (by simp [hdue])).trans ?_
  by_cases hd : d = s.act
  · rw [if_pos hd]
    exact if_neg (not_not_intro hd)
  · rw [if_neg hd]
    exact if_pos hd

theorem exec_catchRearm {b : Nat} (hb : (s.railDie d r).rearm = some b) :
    exec (.catchRearm d r) s = .next (if b ≤ s.bnd then s.modRailDie d r fun x => { x with rearm := none } else s) := by
  simp only [exec, execCatchRearm, apply_ite Host.Outcome.next]
  rw [hb]

section
variable {w : Watch} (hw : (s.railAt r).watch = some w) (hframe : s.bnd % 32 = 0)
include hw hframe

theorem exec_senseWatchEnd_resumed (hgood : 16 ≤ w.good) : exec (.senseWatchEnd r) s = .next (s.atBoundary fun u =>
    let v := u.modRail r fun x => { x with watch := none, snsLocal := RailCfg.snsLocal (u.rcfg r), snsFault := false, snsPend := false }
    ((v.modRailDies r fun x => { x with snsRun := 0 }).postRail 0x09 r u.act.ix.val 2).final w.ref 0x00) := by
  simp only [exec, execSenseWatchEnd]
  rw [hw]
  exact (if_neg (by simp [hframe])).trans (if_pos hgood)

theorem exec_senseWatchEnd_given (hgood : w.good < 16) (hend : 64 ≤ w.frames) : exec (.senseWatchEnd r) s = .next (s.atBoundary fun u =>
    ((u.modRail r fun x => { x with watch := none }).postRail 0x09 r u.act.ix.val 3).final w.ref 0x3F 0x0003) := by
  simp only [exec, execSenseWatchEnd]
  rw [hw]
  exact (if_neg (by simp [hframe])).trans ((if_neg hgood.not_ge).trans (if_pos hend))

end

end

/-- Settles O29: one lemma for each instant. -/
theorem railTimes : Obligations.RailTimes := by
  unfold Obligations.RailTimes
  intro s r
  refine ⟨fun b => exec_hiccupOffEnd, fun hst => ⟨_, exec_hiccupGoodTime hst, rfl, by simp, fun i h h' w hw => ?_⟩,
    fun y b hy hb hframe hend => ⟨_, exec_dischargeEnd hy hb hframe hend, ?_, ?_, fun p => foldl_stop_ball _ _ p⟩,
    fun y hy => ⟨exec_railReadmitRampEnd_passed hy, exec_railReadmitRampEnd_failed hy⟩⟩
  · simp only [List.getElem_map]
    exact goodTime_used hw
  · rw [foldl_stop_eq]
    rfl
  · rw [foldl_stop_eq]
    simp [State.railAt]

/-- Settles O30: the code of each sample, where it stands, and what follows it. -/
theorem railSamples : Obligations.RailSamples := by
  unfold Obligations.RailSamples
  intro s d r hen
  refine ⟨fun half uv low high => ?_, fun remote uv hbeat => ?_, fun remote uv => exec_trackingSample_other remote uv⟩
  · obtain ⟨w, hw⟩ : ∃ w, w = (s.railDie d r).windowCode uv := ⟨_, rfl⟩
    refine ⟨_, windowCompared (windowStored s d r half w) d r w, windowDist (windowStored s d r half w) d r w, w, exec_windowSample hen half uv low high,
      hw, rfl, ?_, ?_, fun q => ?_, fun q hq => ?_, ?_⟩
    · simp [windowCompared, windowStored, RailDie.compare]
    · simp [windowCompared, windowStored, RailDie.compare]
    · rw [windowCompared, State.railDie_modRailDie_other, windowStored, State.railDie_modRailDie_other]
    · rw [windowCompared, State.railDie_modRailDie_ne _ _ _ hq, windowStored, State.railDie_modRailDie_ne _ _ _ hq]
    · have hact : (windowCompared (windowStored s d r half w) d r w).act = s.act := rfl
      have hrail : (windowStored s d r half w).railAt r = s.railAt r := rfl
      have hon : (((s.railAt r).st == .off || (s.railAt r).st == .hiccup) = false) = ((s.railAt r).st ≠ .off ∧ (s.railAt r).st ≠ .hiccup) := by
        simp
      simp only [← hw, hact, hrail, hon]
  · refine ⟨_, trackStored s d r remote (min ((uv + 500) / 1000) 4095), exec_trackingSample hen remote uv hbeat, rfl, ?_, ?_, ?_⟩
    · rintro rfl
      rfl
    · rintro rfl
      exact (trackStored_remote _).1
    · rintro rfl
      exact (trackStored_remote _).2

/-- Settles O31: the end of a catch, the rearming, and the two ends of the sense watch. -/
theorem catchAndSense : Obligations.CatchAndSense := by
  unfold Obligations.CatchAndSense
  intro s d r
  refine ⟨fun c hc hdue => ⟨catchEnded s d r, rfl, ?_, ?_, exec_catchEnd hc hdue⟩, fun b => exec_catchRearm,
    fun w hw hframe => ⟨exec_senseWatchEnd_resumed hw hframe, exec_senseWatchEnd_given hw hframe⟩⟩
  · simp [catchEnded]
  · simp [catchEnded]

end Sys2Proof.Machine
end

section
/-!
THE AVSBUS (R79, R80, R85 to R87), THE WINDOWS OF A FORECAST (R154, R155, R159), AND WHAT TIME DOES TO A PROGRAMME (R219, R221, R222).
-/
namespace Sys2Proof.Machine

section
variable {s : State} {port : Avs} {sel : Nat}

/-! ### AVSBus writes -/

theorem avsWrite_rails {l : List Rail} (hl : s.avsRails port sel = l) (hne : l ≠ []) (f : State → Rail → State) :
    s.avsWrite port sel f = (l.foldl f s).avsAck 0 := by
  unfold State.avsWrite
  rw [hl]
  cases l with
  | nil => exact absurd rfl hne
  | cons r l => rfl

theorem avsWrite_none (hl : s.avsRails port sel = []) (f : State → Rail → State) : s.avsWrite port sel f = s.avsAck 3 := by
  unfold State.avsWrite
  rw [hl]

theorem exec_avsTargetVoltageWrite {v : Nat} (hlo : 250 ≤ v) (hhi : v ≤ 3300) :
    exec (.avsTargetVoltageWrite port sel v) s = .next (s.avsWrite port sel fun u r => u.post 0 .beat (.avsVreq r v)) := by
  simp only [exec, execAvsTargetVoltageWrite]
  exact if_neg (by omega)

theorem exec_avsTargetVoltageWrite_outside {v : Nat} (h : v < 250 ∨ 3300 < v) :
    exec (.avsTargetVoltageWrite port sel v) s = .next (s.avsAck 3) := by
  simp only [exec, execAvsTargetVoltageWrite]
  exact if_pos h

/-- The clearing of alert bits, rail by rail. -/
def alertsCleared (u : State) (l : List Rail) (v : Nat) : State :=
  l.foldl (fun u r => u.modRail r fun x => { x with alert := x.alert &&& (0x7FFF - (v &&& 0x7FFF)) }) u

theorem alertsCleared_eq (u : State) (l : List Rail) (v : Nat) : alertsCleared u l v = { u with rail := (alertsCleared u l v).rail } := by
  unfold alertsCleared
  induction l generalizing u with
  | nil => rfl
  | cons a l ih =>
    rw [List.foldl_cons, ih]
    rfl

theorem alertsCleared_alert (u : State) (l : List Rail) (v : Nat) (r : Rail) : ((alertsCleared u l v).railAt r).alert
    = if r ∈ l then (u.railAt r).alert &&& (0x7FFF - (v &&& 0x7FFF)) else (u.railAt r).alert := by
  unfold alertsCleared
  induction l generalizing u with
  | nil => simp
  | cons a l ih =>
    rw [List.foldl_cons, ih]
    by_cases hr : r = a
    · subst hr
      by_cases hl : r ∈ l
      · simp [hl]
      · simp [hl]
    · rw [State.railAt_modRail_ne _ _ hr]
      simp [hr]

theorem exec_avsStatusWrite {l : List Rail} (hl : s.avsRails port sel = l) (hne : l ≠ []) (v : Nat) :
    exec (.avsStatusWrite port sel v) s = .next ((alertsCleared s l v).avsAck 0) :=
  congrArg Host.Outcome.next (avsWrite_rails hl hne _)

/-! ### AVSBus reads -/

/-- The bus after a read that is answered. -/
def busAnswer (u : State) (n : Nat) : State := { u with host := { u.host with bus := some (n % 65536), avsAck := some 0 } }

theorem avsRead_rail {r : Rail} {l : List Rail} (hsel : sel ≠ 15) (hl : s.avsRails port sel = r :: l) (f : State → Rail → Nat × State) :
    s.avsRead port sel f = busAnswer (f s r).2 (f s r).1 := by
  unfold State.avsRead
  rw [if_neg hsel, hl]
  rfl

theorem avsRead_broadcast (f : State → Rail → Nat × State) :
    s.avsRead port 15 f = { s with host := { s.host with avsAck := none, bus := none } } := if_pos rfl

/-- The hottest qualified stage of a rail's ACTIVE phases, in 0.25 °C. -/
def stageTemp (s : State) (r : Rail) : Option Int := maxTemp ((s.activeOf r).filterMap fun p => (s.therm.src[p.val + 24]'(by omega)).tq)

section
variable {r : Rail} {l : List Rail} (hsel : sel ≠ 15) (hl : s.avsRails port sel = r :: l)
include hsel hl

theorem exec_avsReads :
    exec (.avsTargetVoltageRead port sel) s = .next (busAnswer s (s.railAt r).vset) ∧
    exec (.avsTransitionRateRead port sel) s = .next (busAnswer s (fld (s.rateDn r) 8 0 + fld (s.rateUp r) 8 8)) ∧
    exec (.avsReadRailCurrent port sel) s = .next (busAnswer s (clampI 0 65535 (Q.mul (s.railAct r).ioutF (Q.ofInt 10)).round).toNat) ∧
    exec (.avsStatusRead port sel) s
      = .next (busAnswer s (fld (b2n (decide ((s.railAct r).slew = 4 * ((s.railAt r).vset : Int)))) 1 15 + fld (s.railAt r).alert 15 0)) ∧
    exec (.avsVersionRead port sel) s = .next (busAnswer s 0) :=
  ⟨congrArg _ (avsRead_rail hsel hl _), congrArg _ (avsRead_rail hsel hl _), congrArg _ (avsRead_rail hsel hl _),
    congrArg _ (avsRead_rail hsel hl _), congrArg _ (avsRead_rail hsel hl _)⟩

/-- The temperature word: a free value with no qualified stage (R87). -/
def tempWord (s : State) (r : Rail) : Nat × State :=
  match stageTemp s r with
  | some q => (uword 16 (roundNear (5 * q) 2), s)
  | none => s.draw 65536

omit hsel hl in
theorem exec_avsReadTemperature_eq : exec (.avsReadTemperature port sel) s = .next (s.avsRead port sel tempWord) := rfl

theorem exec_avsReadTemperature {q : Int} (hq : stageTemp s r = some q) :
    exec (.avsReadTemperature port sel) s = .next (busAnswer s (uword 16 (roundNear (5 * q) 2))) := by
  rw [exec_avsReadTemperature_eq, avsRead_rail hsel hl, tempWord, hq]

theorem exec_avsReadTemperature_none (hq : stageTemp s r = none) :
    ∃ n : Nat, exec (.avsReadTemperature port sel) s = .next (busAnswer { s with fresh := s.fresh + 1 } n) := by
  refine ⟨(s.draw 65536).1, ?_⟩
  rw [exec_avsReadTemperature_eq, avsRead_rail hsel hl, tempWord, hq]
  rfl

end
end

/-- Settles O32: the writes reach each rail named in order, and each read puts its word on the bus. -/
theorem avsBus : Obligations.AvsBus := by
  unfold Obligations.AvsBus
  refine ⟨fun s port sel v => ⟨fun l hl hne => ⟨fun hlo hhi => ?_, congrArg Host.Outcome.next (avsWrite_rails hl hne _),
      congrArg Host.Outcome.next (avsWrite_rails hl hne _), ?_⟩,
    fun hl => ⟨congrArg Host.Outcome.next (avsWrite_none hl _), congrArg Host.Outcome.next (avsWrite_none hl _)⟩, exec_avsTargetVoltageWrite_outside⟩,
    fun s port sel => ⟨fun r l hsel hl => ?_, congrArg Host.Outcome.next (avsRead_broadcast _), rfl, rfl, rfl⟩⟩
  · rw [exec_avsTargetVoltageWrite hlo hhi, avsWrite_rails hl hne]
  · exact ⟨_, exec_avsStatusWrite hl hne v, alertsCleared_eq s l v, alertsCleared_alert s l v⟩
  · obtain ⟨hv, hrate, hcur, hstat, hver⟩ := exec_avsReads hsel hl
    exact ⟨hv, hrate, hcur, fun q => exec_avsReadTemperature hsel hl, exec_avsReadTemperature_none hsel hl, hstat, hver⟩

/-! ### The windows of a forecast -/

section
variable {s : State} {c seq : Nat}

/-- What the opening of the window does to a forecast (R155). -/
def windowOpened (s : State) (f : Fc) : Fc :=
  let f := f.modSc fun d x => { x with ib := mean8 ((railOf f.rail).elim [] fun r => (s.railDie d r).iHist) }
  { f with live := f.live || (f.arms s.bnd && !f.curtailed) }

/-- The opening reaches the forecast that its event names, at its TS. -/
def windowEvent (s : State) (c seq : Nat) (f : Fc) : Fc :=
  if f.client = c ∧ f.seq = seq ∧ f.ended.isNone ∧ f.ts = s.bnd then windowOpened s f else f

theorem exec_forecastWindowOpen :
    exec (.forecastWindowOpen c seq) s = .next { s with fc := { s.fc with fcs := s.fc.fcs.map (windowEvent s c seq) } } := rfl

theorem windowOpened_ib (f : Fc) {r : Rail} (hr : f.rail = r.val) (d : Cd) : ((windowOpened s f).scOf d).ib = mean8 (s.railDie d r).iHist := by
  unfold windowOpened
  cases d <;> simp [Fc.modSc, Fc.scOf, hr, Cd.ix]

theorem windowOpened_eq (f : Fc) : windowOpened s f = { f with sc := (windowOpened s f).sc, live := f.live || (f.arms s.bnd && !f.curtailed) } := rfl

theorem windowEvent_ib (f : Fc) {r : Rail} (hr : f.rail = r.val) (d : Cd) : ((windowEvent s c seq f).scOf d).ib
    = if f.client = c ∧ f.seq = seq ∧ f.ended = none ∧ f.ts = s.bnd then mean8 (s.railDie d r).iHist else (f.scOf d).ib := by
  simp only [windowEvent, Option.isNone_iff_eq_none]
  split
  · exact windowOpened_ib f hr d
  · rfl

theorem windowEvent_eq (f : Fc) : windowEvent s c seq f = { f with sc := (windowEvent s c seq f).sc
                                                                   live := f.live || (decide (f.client = c ∧ f.seq = seq ∧ f.ended = none ∧ f.ts = s.bnd)
                                                                     && f.arms s.bnd && !f.curtailed) } := by
  simp only [windowEvent, Option.isNone_iff_eq_none]
  split
  next h =>
    rw [windowOpened_eq, decide_eq_true h, Bool.true_and]
  next h => simp [h]

theorem exec_forecastScore {f : Fc} (hf : (s.fc.fcs.find? fun (f : Fc) => f.client == c && f.seq == seq && f.ended.isNone) = some f) :
    exec (.forecastScore c seq) s = .next (s.atBoundary fun u => if f.scoreAt ≤ s.bnd then u.fcScoreOne f else u) := by
  have hf' : (s.atBnd.fc.fcs.find? fun (f : Fc) => f.client == c && f.seq == seq && f.ended.isNone) = some f := hf
  refine congrArg Host.Outcome.next (State.atBoundary_congr ?_)
  rw [hf']
  rfl

end

/-- Settles O33: each window's event changes the forecast it names and no other. -/
theorem forecastEvents : Obligations.ForecastEvents := by
  unfold Obligations.ForecastEvents
  intro s c seq
  refine ⟨⟨_, rfl, rfl, by simp, fun i h h' => ?_⟩, ⟨_, exec_forecastWindowOpen, rfl, by simp, fun i h h' r => ?_⟩,
    ⟨_, rfl, rfl, by simp, fun i h h' => by simp⟩, fun f => exec_forecastScore⟩
  · simp
  · simp only [List.getElem_map]
    exact fun hr => ⟨windowEvent_ib _ hr, windowEvent_eq _⟩

/-! ### What time does to a programme -/

section
variable {s : State} {n : Prog} {b : Nat}

theorem exec_riseFail {r : Rail} (hb : s.stepUntil n 1 (32 * SeqStep.arg (s.stepRec n)) = some b)
    (hr : railOf (SeqStep.unit (s.stepRec n)) = some r) :
    exec (.riseFail n) s = .next (if s.bnd < b ∨ s.risen r = true then s else s.atBoundary fun u => u.riseFailed n r) := by
  simp only [exec, execRiseFail, apply_ite Host.Outcome.next]
  rw [hb, hr]

theorem exec_seqWaitEnd (hb : s.stepUntil n 3 (32 * SeqStep.arg (s.stepRec n)) = some b) :
    exec (.seqWaitEnd n) s = .next (if s.bnd < b then s else s.modSeq n fun x => { x with done := some s.bnd }) := by
  simp only [exec, execSeqWaitEnd, apply_ite Host.Outcome.next]
  rw [hb]

theorem exec_seqStall {r : Rail} (hb : s.stepUntil n 2 (32 * SeqProg.stallT (s.progcfg n)) = some b)
    (hr : railOf (SeqStep.unit (s.stepRec n)) = some r) :
    exec (.seqStall n) s = .next (if s.bnd < b ∨ (s.seq[n.val]).stalled = true ∨ 2 ≤ (s.railAt r).offAt then s
      else s.atBoundary fun u => (u.modSeq n fun x => { x with stalled := true, stalls := satAdd 8 x.stalls 1 }).postRail 0x27 r) := by
  simp only [exec, execSeqStall, apply_ite Host.Outcome.next]
  rw [hb, hr]

theorem exec_barrierTimeout (hb : s.stepUntil n 5 (4000 * (SeqStep.arg (s.stepRec n) / 16)) = some b) (hdue : s.bnd ≥ b)
    (hstall : (s.seq[n.val]).stalled = false) (hmiss : s.barrierMiss n ≠ []) :
    exec (.barrierTimeout n) s = .next (s.atBoundary fun u =>
      (u.modSeq n fun x => { x with stalled := true, btos := satAdd 8 x.btos 1
                                    release := if u.firstRail 128 (SeqProg.start (u.progcfg n)) = 1 then some (nextRound u.time.clk) else none }).postDev 0x28
        ((s.barrierMiss n).min?.getD 0) (s.barrierMiss n).length) := by
  simp only [exec, execBarrierTimeout]
  rw [hb]
  exact if_neg (by simp [hstall, hmiss, hdue])

theorem exec_barrierArrival (rx : RxIn) (dev : Nat) (a : Arrival) : exec (.barrierArrival rx dev n a) s = .next (s.rxPkt rx 2 fun u =>
    let v := u.relay rx.via dev 71 (fld n.val 8 0 + fld a.beat 64 8 + fld a.bar 4 72)
    if (v.seq[n.val]).running = true ∧ ((v.seq[n.val]).arrived.any fun e => e.1 == a.bar && e.2.1 == dev) = false ∧ dev ≠ v.ring.num ∧ v.seqStays dev = true
        ∧ (v.seq[n.val]).left.contains dev = false
    then v.modSeq n fun x => { x with arrived := x.arrived ++ [(a.bar, dev, a.beat)], parts := if x.parts.contains dev then x.parts else x.parts ++ [dev] } else v) := by
  refine congrArg (fun f => Host.Outcome.next (s.rxPkt rx 2 f)) (funext fun u => ?_)
  dsimp only
  refine if_congr ?_ rfl rfl
  simp [and_assoc]

end

/-- Settles O34: one lemma for each instant. -/
theorem sequenceTimes : Obligations.SequenceTimes := by
  unfold Obligations.SequenceTimes
  intro s n b
  refine ⟨fun r => exec_riseFail, exec_seqWaitEnd, fun r => exec_seqStall, ?_, exec_barrierArrival⟩
  rintro miss hb hdue hstall rfl hmiss
  exact exec_barrierTimeout hb hdue hstall hmiss

end Sys2Proof.Machine
end

section
/-!
FEEDS, HOUSEKEEPING SUPPLIES, PACK, BUTTON AND RESETS (R229 to R271, R434, R463, R496, R497).
-/
namespace Sys2Proof.Machine

/-! ### The feeds (R229 to R248) -/

section
variable {s : State} {f : Feed}

theorem exec_feedLost_reverse (hon : (s.feedAt f).pairOn = true) : exec (.feedLost f .reverse) s
    = .next (s.feedDeclare f 0 fun x => { x with present := false, rev := true, revAt := some s.time.clk }) :=
  if_pos hon

theorem exec_feedLost_droop (hon : (s.feedAt f).pairOn = true) (hpref : s.prefFeed = some f) : exec (.feedLost f .droop) s
    = .next (s.feedDeclare f 3 fun x => { x with presentFrom := s.time.clk }) :=
  if_pos (by simp [hon, hpref])

/-- A feed that conducts in overvoltage, as it is seen (R229, R231). -/
def inOv (now : Nat) (x : FeedSt) : FeedSt := { x.seen now with present := false, ov := true, uv := false }

theorem exec_feedLost_overv : exec (.feedLost f .overv) s = .next (if (s.feedAt f).pairOn = false then s.setFeed f (inOv s.time.clk)
    else if (s.feedAt f.other).present = true then (s.feedDeclare f 2 (inOv s.time.clk)).postDev 0x33 f.ix.val
    else s.setFeed f fun y => y.seen s.time.clk) := by
  have h : exec (.feedLost f .overv) s = if ((s.feedAt f).pairOn && (s.feedAt f.other).present) = true
        then .next ((s.feedDeclare f 2 (inOv s.time.clk)).postDev 0x33 f.ix.val)
      else if (s.feedAt f).pairOn = true then .next (s.setFeed f fun y => y.seen s.time.clk) else .next (s.setFeed f (inOv s.time.clk)) := rfl
  rw [h]
  by_cases hon : (s.feedAt f).pairOn = true
  · by_cases hother : (s.feedAt f.other).present = true
    · simp [hon, hother]
    · simp [hon, hother]
  · simp [hon]

/-- A feed that is in its window again (R229). -/
def inWindow (now : Nat) (takes : Bool) (x : FeedSt) : FeedSt :=
  { x with present := true, presentFrom := now, uv := false, ov := false, rev := false, pairOn := x.pairOn || takes, lvlAt := some now }

theorem exec_feedPresent_held (hp : (s.feedAt f).present = false)
    (hrev : (s.feedAt f).revOn = true ∨ ∃ b, (s.feedAt f).revAt = some b ∧ s.time.clk < b + 4000) :
    exec (.feedPresent f) s = .next (s.setFeed f fun x => { x.seen s.time.clk with uv := false, ov := false }) := by
  refine (if_neg (by simp [hp])).trans (if_pos ?_)
  simpa only [Bool.or_eq_true, Option.any_eq_true, decide_eq_true_eq] using hrev

theorem exec_feedPresent (hp : (s.feedAt f).present = false) (hoff : (s.feedAt f).revOn = false)
    (hold : ∀ b, (s.feedAt f).revAt = some b → b + 4000 ≤ s.time.clk) : exec (.feedPresent f) s
      = .next { s.setFeed f (inWindow s.time.clk (s.feedTakes f)) with pwr := { s.pwr with everPresent := true, bothLost := false } } := by
  refine (if_neg (by simp [hp])).trans (if_neg ?_)
  simp only [hoff, Bool.false_or, Option.any_eq_true, decide_eq_true_eq, not_exists, not_and, not_lt]
  exact hold

theorem exec_feedReturn (hpref : s.prefFeed = some f) (hround : s.bnd % 4000 = 0) (hp : (s.feedAt f).present = true)
    (hoff : (s.feedAt f).pairOn = false) (hdue : (s.feedAt f).presentFrom + 4000 * FeedCfg.retT s.fdcfg ≤ s.bnd) (hheld : s.feedsHeld = false) :
    exec .feedReturn s = .next (s.atBoundary fun u =>
      ((u.setFeed f.other fun x => { x with pairOn := false }).setFeed f fun x => { x with pairOn := true }).postDev 0x31) := by
  simp only [exec, execFeedReturn]
  rw [hpref]
  exact if_neg (by simp [hround, hp, hoff, hdue, hheld])

/-- A pair found reversed (R234). -/
def reversed (now : Nat) (x : FeedSt) : FeedSt :=
  { x with present := false, pairOn := false, rev := true, revAt := some now, revOn := true, uv := true, ov := false, lvlAt := some now }

theorem exec_feedRev : exec (.feedRev f) s = .next (if (s.feedAt f).pairOn = true then
      (s.feedDeclare f 0 (reversed s.time.clk)).postDev 0x32 f.ix.val
    else ((s.setFeed f (reversed s.time.clk)).postDev 0x32 f.ix.val).bothLostCheck) := by
  rw [apply_ite Host.Outcome.next]
  rfl

theorem exec_hkPowerGood {k : Hk} {good : Bool} (hon : (s.hk[k.val]).on = true) (hnot : (s.hk[k.val]).good = false)
    (hend : good = true ∨ ((s.hk[k.val]).ended = false ∧ (s.hk[k.val]).since + 1000 * 2 ^ HkCfg.ss (s.hkcfg k) ≤ s.bnd)) :
    exec (.hkPowerGood k good) s = .next (if good then s.modHk k fun x => { x with good := good, ended := true }
      else (s.modHk k fun x => { x with good := good, ended := true }).postDev 0x3C k.val) := by
  refine if_neg ?_
  rintro (h | h | ⟨hg, he⟩)
  · exact absurd hon (by simp [h])
  · exact absurd h (by simp [hnot])
  · rcases hend with h | ⟨hne, hdue⟩
    · exact absurd h (by simp [hg])
    · rcases he with h | h
      · exact absurd h (by simp [hne])
      · omega

end

/-! ### The pack (R253 to R271) -/

section
variable {s : State}

theorem exec_packOn (hpsw : s.pack.psw = .armed) (hon : s.packOn = true) (hrev : s.pack.revPosted = false) :
    exec .packOn s = .next ((s.modPack fun x => { x with psw := .closed }).postDev 0x46) :=
  congrArg Host.Outcome.next (if_pos ⟨hpsw, hon, hrev⟩)

theorem exec_packOpenTimeEnd {b : Nat} (hb : s.pack.openEnd = some b) : exec .packOpenTimeEnd s
    = .next (if s.bnd < b then s else (s.modPack fun x => { x with openEnd := none }).pswRelease 2) := by
  simp only [exec, execPackOpenTimeEnd]
  rw [hb, apply_ite Host.Outcome.next]

theorem exec_chgTimeout {n : Nat} (hstage : (s.pack.chg = .precharge ∧ n = 240000000 * PackCfg.preT s.pkcfg)
      ∨ ((s.pack.chg = .fast ∨ s.pack.chg = .cv) ∧ n = 1200000000 * PackCfg.fastT s.pkcfg))
    (hpost : s.pack.toutPosted = false) (hdue : s.pack.stageFrom + n ≤ s.bnd) :
    exec .chgTimeout s = .next (s.atBoundary fun u => (u.modPack fun x => { x with toutPosted := true, toutStage := true }).postDev 0x42) := by
  simp only [exec, execChgTimeout]
  rcases hstage with ⟨h, rfl⟩ | ⟨h | h, rfl⟩
  all_goals
    rw [h]
    exact if_neg (by simp [hpost, hdue])

theorem exec_packRemoved (hstage : s.pack.chg = .precharge ∨ s.pack.chg = .fast ∨ s.pack.chg = .cv) :
    exec .packRemoved s = .next (((s.chgTo .removed).modPack fun x => { x with stopPend := false }).postDev 0x44) := by
  simp only [exec, execPackRemoved]
  rcases hstage with h | h | h
  all_goals rw [h]

theorem State.chgTo_chg (s : State) (c : ChgState) : (s.chgTo c).pack.chg = c := by
  unfold State.chgTo
  split
  next h => exact h
  next => simp [State.modPack]

/-- Of the pack, the charger's change of state leaves all but the charger's part. -/
theorem State.chgTo_pack (s : State) (c : ChgState) :
    (s.chgTo c).pack.hold = s.pack.hold ∧ (s.chgTo c).pack.psw = s.pack.psw ∧ (s.chgTo c).pack.check = s.pack.check := by
  unfold State.chgTo
  split
  next => exact ⟨rfl, rfl, rfl⟩
  next => simp [State.modPack]

/-- The charger as its check ends passed (R257). -/
def checkPassed (s : State) : State := (s.modPack fun x => { x with check := none, leaveOff := true }).chgTo .off

theorem exec_chargerCheckEnd {ref : TkRef} (href : s.pack.check = some ref) (hend : 16 ≤ s.pack.checkN) : exec .chargerCheckEnd s
    = if s.pack.checkBad then .next (((s.modPack fun x => { x with check := none }).final ref 0x3F 0x0003).postDev 0x08 3 0x3F)
      else .next (((checkPassed s).final ref 0x00).postDev 0x08 3 0x00) := by
  simp only [exec, execChargerCheckEnd]
  rw [href]
  exact if_neg (not_lt.mpr hend)

/-- The gauge at a rest point with a reading of the mean voltage (R267, R268). -/
def restPoint (old : Nat) (x : Nat × Bool × State) : Host.Outcome State Fault Refusal :=
  match x with
  | (soc, skip, s) =>
    let s := s.modPack fun x => { x with unsure := false }
    if skip then .next (s.gaugeCommit.postDev 0x4B 0 1)
    else
      let s := s.fccLearn soc
      let s := s.modPack fun x =>
        { x with count := Q.divN (Q.mul x.full (Q.ofInt soc)) 1000, rests := (soc, x.moved) :: x.rests.filter fun e => e.1 != soc }
      .next (s.gaugeCommit.postDev 0x4B (argI ((soc : Int) - old)) 0)

theorem exec_gaugeRestPoint {v : Q} (hon : s.packOn = true) (hrest : s.pack.restN ≠ 0) (hmod : s.pack.restN % 1200000 = 0)
    (hhas : s.pack.missing = false) (hv : s.pack.vMean = some v) :
    exec .gaugeRestPoint s = restPoint s.pack.soc (s.ocvSoc (Q.divN v (max 1 s.cells))) := by
  refine (if_neg (by simp [hon, hrest, hmod, hhas])).trans ?_
  rw [hv]
  rfl

theorem exec_gaugeCommit (hon : s.packOn = true) (hbeat : s.bnd % 240000000 = 0) : exec .gaugeCommit s = .next (if s.noRram = true then s
    else s.modPack fun x => { x with nvm := some (x.count, x.fcc, x.cycles), nvmImp := x.imp }) :=
  if_pos ⟨hon, hbeat⟩

end

/-! ### Button, ship mode and resets (R264, R265, R463, R497) -/

/-- The switch is open once it has been opened; a hold of the button stands. -/
theorem State.pswOpen_pack (s : State) (c : Nat) : (s.pswOpen c).pack.psw = .open_ ∧ (s.pswOpen c).pack.hold = s.pack.hold := by
  unfold State.pswOpen
  dsimp only
  split
  all_goals simp [State.modPack]

theorem State.pswOpen_feed (s : State) (c : Nat) : (s.pswOpen c).feed = s.feed := by
  unfold State.pswOpen
  dsimp only
  split
  all_goals simp [State.modPack]

theorem State.chgTo_feed (s : State) (c : ChgState) : (s.chgTo c).feed = s.feed := by
  unfold State.chgTo
  split
  all_goals simp [State.modPack]

/-- Both pairs off, the switch open and the charger off: what eight seconds of hold turn off at once (R264). -/
def heldOff (s : State) : State :=
  let u := s.modPack fun x => { x with hold := some s.time.clk }
  let u := [Feed.a, Feed.b].foldl (fun (s : State) f => s.setFeed f fun x => { x with pairOn := false }) u
  let u := u.pswOpen 0
  if u.chgBenched then u else u.chgTo .off

theorem exec_svcBtnHold (s : State) : exec .svcBtnHold s = .next { heldOff s with
    sched := (heldOff s).sched ++ [{ nb := 0, per := .beat, act := .cutRails }], pwr := { (heldOff s).pwr with supEn := false, hostRst := none } } :=
  rfl

theorem heldOff_pack (s : State) : (heldOff s).pack.hold = some s.time.clk ∧ (heldOff s).pack.psw = .open_ := by
  have hopen : ∀ u : State, u.pack.hold = some s.time.clk → (u.pswOpen 0).pack.hold = some s.time.clk ∧ (u.pswOpen 0).pack.psw = .open_ :=
    fun u hu => ⟨(u.pswOpen_pack 0).2.trans hu, (u.pswOpen_pack 0).1⟩
  unfold heldOff
  extract_lets u1 u2 u3
  have hu3 := hopen u2 rfl
  obtain ⟨hhold, hpsw, -⟩ := u3.chgTo_pack .off
  split
  · exact hu3
  · exact ⟨hhold.trans hu3.1, hpsw.trans hu3.2⟩

theorem heldOff_pairOn (s : State) (f : Feed) : ((heldOff s).feedAt f).pairOn = false := by
  unfold heldOff
  extract_lets u1 u2 u3
  have hu3 : (u3.feedAt f).pairOn = false := by
    unfold State.feedAt u3
    rw [State.pswOpen_feed]
    cases f
    · exact (congrArg FeedSt.pairOn (State.feedAt_setFeed_other _ .b _)).trans (congrArg FeedSt.pairOn (State.feedAt_setFeed _ .a _))
    · exact congrArg FeedSt.pairOn (State.feedAt_setFeed _ .b _)
  split
  · exact hu3
  · unfold State.feedAt
    rw [State.chgTo_feed]
    exact hu3

/-- Only the non-volatile memory and the free values differ: what programming fuses does. -/
def NvmOnly (s t : State) : Prop := t = { s with nvm := t.nvm, fresh := t.fresh }

theorem NvmOnly.refl (s : State) : NvmOnly s s := rfl
theorem NvmOnly.trans {s t u : State} (h : NvmOnly s t) (k : NvmOnly t u) : NvmOnly s u := by
  unfold NvmOnly at *
  rw [k, h]
theorem NvmOnly.programRow (s : State) (d : Fin 3) (r data : Nat) (ok : Bool) : NvmOnly s (s.programRow d r data ok).2 := by
  unfold State.programRow
  dsimp only
  split
  · split
    all_goals rfl
  · split
    · split
      all_goals rfl
    · rfl
  · rfl
theorem NvmOnly.programAll (s : State) (l : List (Fin 3)) (r data : Nat) (ok : Bool) : NvmOnly s (s.programAll l r data ok).2 := by
  suffices h : ∀ a : Option Nat × State, NvmOnly a.2 (l.foldl (fun (a : Option Nat × State) d =>
      if a.1.isSome then a else if a.2.rowHas d r data then a else a.2.programRow d r data ok) a).2 from h (none, s)
  intro a
  induction l generalizing a with
  | nil => exact .refl _
  | cons d l ih =>
    refine .trans ?_ (ih _)
    dsimp only
    split
    · exact .refl _
    · split
      · exact .refl _
      · exact .programRow _ _ _ _ _
theorem NvmOnly.tearEntry (s : State) (d : Fin 3) (r data : Nat) : NvmOnly s (s.tearEntry d r data) := by
  unfold State.tearEntry
  dsimp only
  split
  all_goals rfl
theorem NvmOnly.tearFuse (s : State) : NvmOnly s s.tearFuse := by
  unfold State.tearFuse
  split
  · exact .refl s
  · extract_lets l n e t u
    have ht : NvmOnly s t := .trans (t := e.2) rfl (.programAll _ _ _ _ _)
    have hu : NvmOnly t u := by
      unfold u
      split
      · exact .refl t
      · split
        · exact .tearEntry _ _ _ _
        · exact .programAll _ _ _ _ _
    exact (ht.trans hu).trans rfl

/-- A reset starts from the state with a fuse write torn and the open commit closed or undone (R444, R451). -/
def resetFrom (s : State) : State :=
  let d := s.tearFuse.draw 2
  if s.tearFuse.log.prev.isSome ∧ d.1 = 0 then d.2.uncommit else d.2

theorem resetFrom_eq (s : State) :
    resetFrom s = { s with nvm := (resetFrom s).nvm, fresh := (resetFrom s).fresh, log := (resetFrom s).log, therm := (resetFrom s).therm } := by
  have htear : s.tearFuse = { s with nvm := s.tearFuse.nvm, fresh := s.tearFuse.fresh } := NvmOnly.tearFuse s
  unfold resetFrom
  dsimp only
  rw [htear]
  split
  · unfold State.uncommit
    split
    all_goals rfl
  · rfl

theorem PackSt.kept_hold (x : PackSt) : x.kept.hold = none := by
  unfold PackSt.kept
  dsimp only
  split
  all_goals rfl

/-- What a reset takes from the state before it, of start-up, ring, supplies and pack (R463). -/
theorem State.resetTo_of (s : State) (cause step : Nat) :
    (s.resetTo cause step).start.cause = cause ∧ (s.resetTo cause step).start.step = step ∧ (s.resetTo cause step).ring.num = s.ring.num
      ∧ (s.resetTo cause step).cfg.inForce = none ∧ (s.resetTo cause step).pack.hold = none :=
  ⟨rfl, rfl, (congrArg (fun u : State => u.ring.num) (resetFrom_eq s) :), rfl, PackSt.kept_hold _⟩

theorem exec_svcBtnResetEnd {s : State} {b : Nat} (hb : s.pack.hold = some b) (hdue : b + 7840000 ≤ s.time.clk) :
    exec .svcBtnResetEnd s = if s.anyFeed then .next { s.resetTo 2 3 with pwr := { (s.resetTo 2 3).pwr with supEn := true } }
      else .next { s.resetTo 2 0 with pwr := { (s.resetTo 2 0).pwr with vaonOk := false, supEn := false } } := by
  simp only [exec, execSvcBtnResetEnd]
  rw [hb]
  exact if_neg (not_lt.mpr hdue)

/-! ### The statements -/

/-- Settles O35: each loss, return and report of a feed or a supply is one branch of its instruction. -/
theorem feedEvents : Obligations.FeedEvents := by
  unfold Obligations.FeedEvents
  intro s f
  refine ⟨exec_feedLost_reverse, (apply_ite Host.Outcome.next _ _ _).symm, exec_feedLost_overv, exec_feedLost_droop, fun x => rfl, exec_feedPresent_held,
    fun hp hoff hold => ⟨_, exec_feedPresent hp hoff hold, rfl, s.feedAt_setFeed_other f _, ?_, ?_⟩,
    exec_feedReturn, exec_feedRev, fun hp => if_neg (by simp [hp]), fun k good hon hnot hend => exec_hkPowerGood hon hnot hend,
    fun k above => (apply_ite Host.Outcome.next _ _ _).symm⟩
  all_goals
    have hat : ∀ p : PwrSt, ({ s.setFeed f (inWindow s.time.clk (s.feedTakes f)) with pwr := p } : State).feedAt f
      = (inWindow s.time.clk (s.feedTakes f) (s.feedAt f)).settle := fun p => s.feedAt_setFeed f _
    rw [hat]
    rfl

/-- Settles O36: the pack switch, the charger and the gauge, each instant by its own branch. -/
theorem packEvents : Obligations.PackEvents := by
  unfold Obligations.PackEvents
  intro s
  refine ⟨exec_packOn, fun b hb => exec_packOpenTimeEnd hb, fun n => exec_chgTimeout,
    fun h => ⟨s.chgTo .removed, s.chgTo_chg _, exec_packRemoved h⟩, fun ref href hend => ⟨fun hbad => ?_, fun hgood => ?_⟩,
    fun v soc u hon hrest hmod hhas hv => ⟨fun h => ?_, fun h => ?_⟩, exec_gaugeCommit⟩
  · exact (exec_chargerCheckEnd href hend).trans (if_pos hbad)
  · refine ⟨checkPassed s, State.chgTo_chg _ _, (State.chgTo_pack _ _).2.2, ?_⟩
    exact (exec_chargerCheckEnd href hend).trans (if_neg (by simp [hgood]))
  · rw [exec_gaugeRestPoint hon hrest hmod hhas hv, h]
    rfl
  · rw [exec_gaugeRestPoint hon hrest hmod hhas hv, h]
    simp only [restPoint, Bool.false_eq_true, if_false, State.modPack]

/-- Settles O37: what the hold turns off, and each reset through what it keeps (R463). -/
theorem buttonAndShip : Obligations.ButtonAndShip := by
  unfold Obligations.ButtonAndShip
  intro s
  obtain ⟨hhold, hpsw⟩ := heldOff_pack s
  refine ⟨rfl, ⟨_, exec_svcBtnHold s, hhold, hpsw, heldOff_pairOn s .a, heldOff_pairOn s .b, rfl, rfl, List.mem_append_right _ (List.mem_singleton_self _)⟩,
    fun b hb hdue => ?_, fun h => if_pos h, fun h => ⟨_, if_pos h, ?_⟩, fun h => ⟨_, if_pos h, ?_⟩⟩
  · cases hfeed : s.anyFeed
    · obtain ⟨hcause, hstep, hnum, himage, hkept⟩ := s.resetTo_of 2 0
      exact ⟨_, (exec_svcBtnResetEnd hb hdue).trans (if_neg (by simp [hfeed])), hcause, hstep, rfl, hkept, hnum, himage⟩
    · obtain ⟨hcause, hstep, hnum, himage, hkept⟩ := s.resetTo_of 2 3
      exact ⟨_, (exec_svcBtnResetEnd hb hdue).trans (if_pos hfeed), hcause, hstep, rfl, hkept, hnum, himage⟩
  · obtain ⟨hcause, hstep, hnum, himage, -⟩ := s.resetTo_of 3 1
    exact ⟨hcause, hstep, hnum, himage⟩
  · obtain ⟨hcause, hstep, hnum, himage, -⟩ := s.resetTo_of 5 3
    exact ⟨hcause, hstep, hnum, himage⟩

end Sys2Proof.Machine
end

section
/-!
THE HOST LINK: TURNSTILES, GENERATIONS, HELD STUBS AND THE LINK (R309 to R335, R405, R409, R463).
-/
namespace Sys2Proof.Machine

/-! ### One client's entry -/

/-- The change of one client's entries in a list of them. -/
def changeClient (c : Nat) (f : Client → Client) (l : List Client) : List Client := l.map fun x => if x.id = c then f x else x

theorem find?_changeClient {c : Nat} {f : Client → Client} (hid : ∀ x, (f x).id = x.id) (l : List Client) :
    (changeClient c f l).find? (fun x => x.id == c) = (l.find? fun x => x.id == c).map f := by
  induction l with
  | nil => rfl
  | cons a l ih =>
    by_cases ha : a.id = c
    · simp [changeClient, ha, hid]
    · simpa [changeClient, ha] using ih

/-- What a change of a client's entry leaves of that client: the change keeps who it is. -/
theorem State.client_modClient (s : State) (c : Nat) (f : Client → Client) (hid : ∀ x, (f x).id = x.id) :
    (s.modClient c f).client c = f (s.client c) := by
  unfold State.client State.modClient
  dsimp only
  split
  next hany =>
    rw [show (s.host.clients.map fun x => if x.id = c then f x else x) = changeClient c f s.host.clients from rfl, find?_changeClient hid]
    obtain ⟨x, hx⟩ := Option.isSome_iff_exists.mp (List.find?_isSome.mpr (List.any_eq_true.mp hany))
    rw [hx]
    rfl
  next hnone =>
    have hfind : s.host.clients.find? (fun x => x.id == c) = none := by simpa using hnone
    simp [List.find?_append, hfind, hid]

section
variable {s u : State} {c w entry : Nat}

/-! ### Turnstiles and generations (R316 to R324) -/

theorem State.turnstile_taken (hr : s.inRange c = true) (hu : u = (s.count 0x055 0 1).meetEntry c entry (some (bits w 23 16)))
    (hrsvd : bits w 29 24 = 0) (hkind : bits w 31 30 ≠ 3) (hgood : (u.client c).bad = false) (hgen : (u.client c).entryGen = bits w 23 16)
    (body : State → State) : s.turnstile c w entry body = body u := by
  subst hu
  simp [State.turnstile, hr, hrsvd, hkind, hgood, hgen]

theorem State.turnstile_out (hr : s.inRange c = false) (body : State → State) :
    s.turnstile c w entry body = (s.count 0x055 0 1).badTs c (bits w 31 30) := by
  simp [State.turnstile, hr]

theorem State.ticketTail_within (hpend : (u.client c).genPend = none)
    (hfit : (bits w 15 0 + 2 ^ 16 - (u.client c).tktHead) % 2 ^ 16 ≤ (u.client c).tktSize) : u.ticketTail c w
      = u.modClient c fun y => { y with tktTail := bits w 15 0, tsAt := y.tsAt ++ [(bits w 15 0, u.time.clk)], noFetch := false } :=
  (if_neg (by simpa [hpend] using hfit)).trans (if_neg (by simp [hpend]))

theorem State.stubHeadWrite_within (hpend : (u.client c).genPend = none)
    (hfit : (bits w 15 0 + 2 ^ 16 - (u.client c).stubHead) % 2 ^ 16 ≤ ((u.client c).stubTail + 2 ^ 16 - (u.client c).stubHead) % 2 ^ 16) :
    u.stubHeadWrite c w = u.modClient c fun y => { y with stubHead := bits w 15 0, noFetch := false } :=
  (if_neg (by simpa [hpend] using hfit)).trans (if_neg (by simp [hpend]))

/-- The event head of an owner with an event ring moves within what is outstanding (R318, R329). -/
theorem State.eventHead_within (hown : u.ownerHere c = true) (hgen : u.own.gen = bits w 23 16) (hring : isWindow c = false)
    (hfit : (bits w 15 0 + 2 ^ 16 - (u.evIdx c).1) % 2 ^ 16 ≤ ((u.evIdx c).2 + 2 ^ 16 - (u.evIdx c).1) % 2 ^ 16) :
    u.eventHead c w = { u.modClient c (fun y => { y with noFetch := false }) with
      host := { (u.modClient c fun y => { y with noFetch := false }).host with evHead := bits w 15 0 } } :=
  (if_neg (by simpa [hown, hgen] using hfit)).trans (if_neg (by simp [hring]))

/-- A client's entry at the adoption of its new generation (R322). -/
def adopted (gen now : Nat) (x : Client) : Client :=
  { x with gen := gen, genPend := none, tktHead := 0, tktTail := x.tailPend.getD 0, stubHead := 0, stubTail := 0, held := [], parts := []
           tsAt := match x.tailPend with
             | some t => [(t, now)]
             | none => []
           tailPend := none }

theorem State.intentIf_own (s : State) (b : Bool) : (s.intentIf b).own = s.own := by
  unfold State.intentIf
  split
  all_goals rfl

theorem exec_generationAdopt {gen : Nat} (hpend : (s.client c).genPend = some gen) (hown : s.own.valid = false) :
    exec (.generationAdopt c gen) s = .next ((s.endClient c).modClient c (adopted gen (s.endClient c).time.clk)) := by
  have hvalid : ((s.endClient c).modClient c (adopted gen (s.endClient c).time.clk)).own.valid = false := by
    rw [State.modClient_own, State.endClient, State.intentIf_own]
    exact hown
  exact (if_neg (not_not_intro hpend)).trans (if_neg fun h => absurd (hvalid.symm.trans h.1) Bool.false_ne_true)

theorem exec_staleCompletion {gen n : Nat} (h : (s.client c).gen ≠ gen ∨ (s.client c).genPend ≠ none) :
    exec (.staleCompletion c gen n) s = .next { s with host := { s.host with stale := satAdd 16 s.host.stale n } } :=
  if_neg fun ⟨hgen, hpend⟩ => h.elim (fun h => h hgen) fun h => h hpend

end

/-! ### HOST_CTL, the link and the trace (R309, R312, R335, R405, R409, R463) -/

section
variable {s : State} {v : Nat}

theorem exec_hostCtlEnSet_refused (hup : s.bar0Up = true) (hv : v % 2 = 1) (hen : s.host.en = false) (href : s.enRefused = true) :
    exec (.hostCtlEnSet v) s = .next { s with host := { s.host with evtEn := bit v 1, stopPend := false, refused := true } } := by
  refine ((if_neg (by omega)).trans (if_neg (by simp [hup]))).trans ?_
  simp [hen, href]

theorem exec_hostCtlEnSet_new (hup : s.bar0Up = true) (hv : v % 2 = 1) (hen : s.host.en = false) (href : s.enRefused = false) :
    exec (.hostCtlEnSet v) s = .next (State.announce
      { s with host := { s.host with evtEn := bit v 1, en := true, stopPend := false, refused := s.host.refused && !bit v 2 }
               ring := { s.ring with almAll := if s.ring.num ∈ s.ring.almAll then s.ring.almAll else s.ring.almAll ++ [s.ring.num] } }) := by
  refine ((if_neg (by omega)).trans (if_neg (by simp [hup]))).trans ?_
  simp [hen, href]

theorem exec_hostCtlEnSet_again (hup : s.bar0Up = true) (hv : v % 2 = 1) (hen : s.host.en = true) : exec (.hostCtlEnSet v) s
    = .next { s with host := { s.host with evtEn := bit v 1, stopPend := false, refused := s.host.refused && !bit v 2 } } := by
  refine ((if_neg (by omega)).trans (if_neg (by simp [hup]))).trans ?_
  simp [hen]

theorem exec_hostCtlEnClear (hup : s.bar0Up = true) (hv : v % 2 = 0) : exec (.hostCtlEnClear v) s
    = .next { s with host := { s.host with evtEn := bit v 1, stopPend := s.host.en, refused := s.host.refused && !bit v 2 } } :=
  (if_neg (by omega)).trans (if_neg (by simp [hup]))

theorem exec_pcieLinkDown (h : s.linkTrained = true) : exec .pcieLinkDown s
    = .next (({ s.headPortErr with host := { s.headPortErr.host with speed := 0 } } : State).postDev 0x70 s.headPortErr.ring.num) :=
  congrArg Host.Outcome.next (if_neg (by simp [h]))

theorem exec_pcieLinkUp {x : PcieUp} (hstep : 4 ≤ s.start.step) (hmin : 1 ≤ x.speed) (hmax : x.speed ≤ 3) (hisl : s.host.islA = true) :
    exec (.pcieLinkUp x) s = .next (((({ s with
      host := { s.host with speed := x.speed, msixEn := x.msixEn, fMask := x.fMask, d3 := x.d3, uncErr := false } } : State)).count 0x055 7 1).postDev
        0x71 s.ring.num x.speed) :=
  (if_neg (by simp only [hisl, Bool.true_eq_false, or_false]; omega)).trans (by rw [State.count_eq])

/-- A hot reset leaves the entries of the SPI windows and drops the others from the cache (R463). -/
theorem hotReset_clients (l : List Client) :
    ∀ x ∈ l.map (fun x => if isWindow x.id then x else { x with cached := false, msgVec := false }), isWindow x.id = false → x.cached = false := by
  intro x hx hw
  obtain ⟨y, -, rfl⟩ := List.mem_map.mp hx
  split at hw
  next h => exact absurd hw (by simp [h])
  next h => rw [if_neg h]

end

/-! ### Two entries of one client -/

/-- A state with two entries of client 0, of which the first holds a stub longer than 1,000 rounds. -/
def twinEntries : State := { time := { clk := 4000000 }, host := { clients := [{ id := 0, held := [{ ref := { client := 0, gen := 0, seq := 0 }, status := 0 }] }, { id := 0 }] } }

/-- How many stubs each entry of the outcome's clients holds. -/
def heldCounts : Host.Outcome State Fault Refusal → List Nat
  | .next u => u.host.clients.map fun x => x.held.length
  | _ => []

/-- Only the entry that holds the stub is marked. -/
theorem heldCounts_stubStall : heldCounts (exec (.stubStall 0) twinEntries) = [1, 0] := by
  decide +kernel

/-! ### The statements -/

/-- Settles O38: a turnstile write within its entry reaches the body of its KIND, and the body's own checks pass. -/
theorem turnstiles : Obligations.Turnstiles := by
  unfold Obligations.Turnstiles
  intro s c w entry hpath
  refine ⟨fun u hr hu hrsvd hgood hgen => ⟨fun hkind hpend hfit => ?_, fun hkind hpend hfit => ?_⟩,
    fun u hr hu hrsvd hkind hgood hgen hown hogen hring hfit => ?_, fun hr hkind => ?_, fun gen hpend hown => ?_, fun gen n => exec_staleCompletion⟩
  · rw [exec_turnstileTicketTail hpath entry hkind, State.turnstile_taken hr hu hrsvd (by omega) hgood hgen, State.ticketTail_within hpend hfit]
  · rw [exec_turnstileStubHead hpath entry hkind, State.turnstile_taken hr hu hrsvd (by omega) hgood hgen, State.stubHeadWrite_within hpend hfit]
  · rw [exec_turnstileEventHead hpath entry hkind, State.turnstile_taken hr hu hrsvd (by omega) hgood hgen,
      State.eventHead_within hown hogen hring hfit]
  · rw [exec_turnstileTicketTail hpath entry hkind, State.turnstile_out hr, hkind]
  · refine ⟨_, exec_generationAdopt hpend hown, ?_⟩
    rw [State.client_modClient _ _ (adopted _ _) fun _ => rfl]
    exact ⟨rfl, rfl, rfl, rfl, rfl, rfl, rfl⟩

/-- Refutes O39: the clause of a stub held for 1,000 rounds gives every entry of the client the held list of the first one. With two entries
of one client, which no state of the device has but the statement does not exclude, the second one's list stays as it is. -/
theorem not_fetchAndAnswer : ¬ Obligations.FetchAndAnswer := by
  unfold Obligations.FetchAndAnswer
  intro h
  obtain ⟨-, -, -, -, -, hstall, -⟩ := h twinEntries 0
  have hboth := congrArg heldCounts (hstall { ref := { client := 0, gen := 0, seq := 0 }, status := 0 } [] [] rfl (by simp) rfl (by decide) (by simp))
  rw [heldCounts_stubStall] at hboth
  revert hboth
  decide +kernel

/-- Settles O40: HOST_CTL, the link's changes, the hot reset and the two periodic reports, each by its own branch. -/
theorem hostLink : Obligations.HostLink := by
  unfold Obligations.HostLink
  intro s v
  refine ⟨fun hup hv => ⟨exec_hostCtlEnSet_refused hup hv, exec_hostCtlEnSet_new hup hv, exec_hostCtlEnSet_again hup hv⟩, exec_hostCtlEnClear,
    exec_pcieLinkDown, fun x => exec_pcieLinkUp, ⟨_, rfl, rfl, rfl, rfl, rfl, rfl, rfl, rfl, rfl, rfl, rfl, rfl, rfl, rfl, rfl, rfl, rfl,
      hotReset_clients s.host.clients⟩, fun hdue => if_neg (not_lt.mpr hdue), fun hdue => if_neg (not_lt.mpr hdue)⟩

end Sys2Proof.Machine
end

section
/-!
THE METER'S AND THE SENSORS' INSTANTS (R275 to R305).
-/
namespace Sys2Proof.Machine

/-! ### Timers, edges and conversion results (R294 to R305) -/

section
variable {s : State} {c : Conv} {ch : Nat} {code code2 : Int}

theorem exec_meterTimerTick {n : Tmr} (hper : MeterTmr.per (s.cfg.cfg.meterTmr[n.val]) ≠ 0)
    (hbeat : ((s.time.clk : Int) - MeterTmr.ofs (s.cfg.cfg.meterTmr[n.val])) % MeterTmr.per (s.cfg.cfg.meterTmr[n.val]) = 0) :
    exec (.meterTimerTick n) s = .next (mseqs.foldl (fun (u : State) (k : Fin 32) =>
      if 2 < k.val ∧ (u.mseq[k.val]).takes = true ∧ MeterSeqCfg.tsrc (u.mcfg k) = n.val then u.triggerAll k else u) s).convStarts :=
  if_neg (by simp [hper, hbeat])

theorem exec_meterTimerTick_off {n : Tmr} (hper : MeterTmr.per (s.cfg.cfg.meterTmr[n.val]) = 0) : exec (.meterTimerTick n) s = .next s :=
  if_pos (Or.inl hper)

/-- An edge at one sequence: it triggers the sequence once more than DEC edges have been seen (R297). -/
def edgeAt (c : Conv) (p : Ph) (falling : Bool) (u : State) (k : Fin 32) : State :=
  let cfg := u.mcfg k
  if 2 < k.val ∧ (u.mseq[k.val]).takes = true ∧ MeterSeqCfg.tsrc cfg = 8 ∧ MeterSeqCfg.phase cfg = p.val ∧ MeterSeqCfg.edge cfg = falling ∧ c ∈ u.passConvs k then
    if MeterSeqCfg.dec cfg < (u.mseq[k.val]).dec[c.ix.val] + 1 then (u.modMseq k fun q => { q with dec := q.dec.set c.ix.val 0 }).trigger k c
    else u.modMseq k fun q => { q with dec := q.dec.set c.ix.val ((u.mseq[k.val]).dec[c.ix.val] + 1) }
  else u

theorem exec_meterPwmTrigger {p : Ph} {falling : Bool} (hst : (s.phAt p).st = .active ∨ (s.phAt p).st = .test) :
    exec (.meterPwmTrigger c p falling) s = .next (mseqs.foldl (edgeAt c p falling) s).convStarts := by
  refine (if_neg fun h => hst.elim h.1 h.2).trans ?_
  refine congrArg (fun g => Host.Outcome.next (mseqs.foldl g s).convStarts) (funext fun u => funext fun k => ?_)
  exact if_congr (by simp) rfl rfl

/-- Two changes of a converter that agree on what it holds are the same change. -/
theorem State.modConv_congr {f g : ConvSt → ConvSt} (h : f (s.convAt c) = g (s.convAt c)) : s.modConv c f = s.modConv c g := by
  unfold State.modConv upd
  exact congrArg (fun x => ({ s with conv := s.conv.set c.ix.val x } : State)) h

@[simp] theorem State.convAt_count (s : State) (blk e k : Nat) (c : Conv) : (s.count blk e k).convAt c = s.convAt c := by
  rw [State.count_eq]
  rfl

@[simp] theorem State.convAt_postDie (s : State) (code d a0 a1 a2 : Nat) (c : Conv) : (s.postDie code d a0 a1 a2).convAt c = s.convAt c := by
  rw [State.postDie_eq]
  rfl

/-- A stalled result that is overwritten is gone; the pass being converted stands. -/
theorem State.convAt_overwrite (s : State) (c : Conv) :
    ((s.overwrite c).convAt c).run = (s.convAt c).run ∧ ((s.overwrite c).convAt c).stalled = none := by
  unfold State.overwrite
  dsimp only
  split
  · split
    all_goals simp
  next h => exact ⟨rfl, by simpa using h⟩

theorem State.convAt_convWrite (s : State) (c : Conv) (ch : Nat) (code : Int) :
    ((s.convWrite c ch code).convAt c).run = (s.convAt c).run ∧ ((s.convWrite c ch code).convAt c).data = code
      ∧ ((s.convWrite c ch code).convAt c).stalled = none := by
  obtain ⟨hrun, hstall⟩ := s.convAt_overwrite c
  simp [State.convWrite, hrun, hstall]

/-- What a result with no pass under way leaves in the converter: a reference of channels 120 to 122 stands in its place (R303). -/
def refStored (ch : Nat) (code : Int) (x : ConvSt) : ConvSt :=
  if h : 120 ≤ ch ∧ ch ≤ 122 then
    { x with refs := x.refs.set (ch - 120) code (by omega), plan := x.plan.erase (ch - 44), due := x.due.erase (ch - 44) }
  else x

theorem exec_conversionComplete_idle (stalled : Bool) (hrun : (s.convAt c).run = none) : exec (.conversionComplete c ch code code2 stalled) s
    = .next ((s.convWrite c ch (convCode ch code)).modConv c (refStored ch (convCode ch code))).convStarts := by
  have h : ((s.convWrite c ch (convCode ch code)).convAt c).run = none := (s.convAt_convWrite c ch _).1.trans hrun
  simp only [exec, execConversionComplete]
  rw [h]
  rfl

theorem refStored_other (hch : ch < 120) : refStored ch code = id :=
  funext fun _ => dif_neg (by omega)

theorem convCode_ref (i : Fin 3) : convCode (120 + i.val) code = clampI 0 16383 code := by
  refine if_neg ?_
  have h : ∀ i : Fin 3, ¬ chSigned (120 + i.val) = true := by decide
  exact h i

theorem refStored_ref (i : Fin 3) (x : ConvSt) : refStored (120 + i.val) code x = { x with
    refs := (refStored (120 + i.val) code x).refs, plan := (refStored (120 + i.val) code x).plan, due := (refStored (120 + i.val) code x).due } := by
  unfold refStored
  split
  all_goals rfl

theorem refStored_refs (i : Fin 3) (x : ConvSt) : (refStored (120 + i.val) code x).refs[i.val] = code := by
  rw [refStored, dif_pos (by omega)]
  simp

/-- The state at the end of a pass's entry, with its second channel's result (R305). -/
def secondResult (c : Conv) (p : Pass) (code2 : Int) (u : State) : State :=
  if MeterEnt.ch2 (passEnt p) = 0x7F then u else u.convWrite c (MeterEnt.ch2 (passEnt p)) (convCode (MeterEnt.ch2 (passEnt p)) code2)

/-- A result whose move is stalled (R307). -/
def stallResult (c : Conv) (p : Pass) (code code2 : Int) (w : State) : State :=
  w.modConv c fun x => { x with stalled := some { pass := p, code := code, code2 := code2, beat := w.time.clk } }

theorem exec_conversionComplete {p : Pass} (stalled : Bool) (hrun : (s.convAt c).run = some p) (hch : passCh p = ch) :
    exec (.conversionComplete c ch code code2 stalled) s =
      (let w := secondResult c p code2 ((s.convWrite c ch (convCode ch code)).modConv c fun x => { x with run := none })
       .next ((if (stalled && c == .p) = true then stallResult c p (convCode ch code) (convCode (MeterEnt.ch2 (passEnt p)) code2) w else w).entryDone c p
         (convCode ch code) (convCode (MeterEnt.ch2 (passEnt p)) code2) (stalled && c == .p)).convStarts) := by
  have h : ((s.convWrite c ch (convCode ch code)).convAt c).run = some p := (s.convAt_convWrite c ch _).1.trans hrun
  simp only [exec, execConversionComplete]
  rw [h]
  exact if_pos hch

end

/-! ### Thermal samples and the oscillators of a die (R275 to R287) -/

section
variable {s : State} {k : Src} {q : Int}

/-- A source's sample is converted and its slot taken (R275). -/
def sampleTaken (s : State) (k : Src) : State :=
  (({ s with fresh := s.fresh + 1 } : State).convWrite (s.srcConv k) (srcCh k) ((s.draw 16384).1 : Nat)).slotTaken k

/-- The sample stands as the source's latest (R275). -/
def sampleShifted (s : State) (k : Src) (q : Int) : State :=
  let u := sampleTaken s k
  let near := (u.thresholds k).any fun t => decide ((q - t).natAbs ≤ 20)
  (u.modSrc k fun x => { x with s0 := some q, s1 := x.s0, s2 := x.s1, near := near && !x.suspect }).modTherm fun x =>
    { x with pkgNew := x.pkgNew || decide (k.val < 24) }

/-- The check of the source's kind: a stage, an NTC, or none (R276 to R278). -/
def kindCheck (k : Src) (q : Int) (v : State) : State :=
  match stagePh k with
  | some p => v.tfltCheck p q
  | none => if h : 72 ≤ k.val then v.ntcCheck ⟨k.val - 72, by omega⟩ q else v

/-- The source does not qualify: its sensor is SUSPECT, or its NTC out of range. -/
def unqualified (k : Src) (u : State) : Bool :=
  (u.therm.src[k.val]).suspect || (if h : 72 ≤ k.val then u.pwr.ntcRange[k.val - 72]'(by omega) else false)

theorem exec_thermalSample (hen : s.srcEn k = true) (hplan : (s.convAt (s.srcConv k)).plan.contains k.val = true) : exec (.thermalSample k q) s
    = .next (let u := (kindCheck k q (sampleShifted s k q)).crossCheck k q
        if unqualified k u = true then u else u.qualifySrc k q) :=
  if_neg (by simp [hen, List.contains_iff_mem.mp hplan])

theorem exec_thermalSample_not (h : s.srcEn k = false ∨ (s.convAt (s.srcConv k)).plan.contains k.val = false) : exec (.thermalSample k q) s = .next s :=
  if_pos (by rcases h with h | h <;> simp only [h, Bool.not_false, Bool.true_or, Bool.or_true])

theorem sampleTaken_therm : (sampleTaken s k).therm = s.therm :=
  (congrArg State.therm (ConvsOnly.convWrite ({ s with fresh := s.fresh + 1 } : State) (s.srcConv k) (srcCh k) ((s.draw 16384).1 : Nat)) :)

theorem sampleShifted_eq : sampleShifted s k q = { sampleTaken s k with therm := (sampleShifted s k q).therm } := rfl

theorem sampleShifted_src : (sampleShifted s k q).therm.src[k.val].s0 = some q ∧ (sampleShifted s k q).therm.src[k.val].s1 = s.therm.src[k.val].s0
    ∧ (sampleShifted s k q).therm.src[k.val].s2 = s.therm.src[k.val].s1 := by
  simp [sampleShifted, State.modTherm, sampleTaken_therm]

theorem stagePh_lt {p : Ph} (h : stagePh k = some p) : k.val < 72 := by
  unfold stagePh at h
  split at h
  next hk => exact hk.2
  next => contradiction

theorem stagePh_ntc (h : 72 ≤ k.val) : stagePh k = none := dif_neg (by omega)

theorem unqualified_sensor (h : k.val < 72) (u : State) : unqualified k u = (u.therm.src[k.val]).suspect := by
  rw [unqualified, dif_neg (by omega), Bool.or_false]

theorem unqualified_ntc {n : Fin 4} (h : k.val = 72 + n.val) (u : State) :
    unqualified k u = ((u.therm.src[k.val]).suspect || u.pwr.ntcRange[n.val]) := by
  rw [unqualified, dif_pos (by omega)]
  simp only [h, Nat.add_sub_cancel_left]

theorem kindCheck_stage {p : Ph} (h : stagePh k = some p) (v : State) : kindCheck k q v = v.tfltCheck p q := by rw [kindCheck, h]

theorem kindCheck_none (h : stagePh k = none) (hlt : k.val < 72) (v : State) : kindCheck k q v = v := by
  rw [kindCheck, h]
  exact dif_neg (by omega)

theorem kindCheck_ntc {n : Fin 4} (h : k.val = 72 + n.val) (v : State) : kindCheck k q v = v.ntcCheck n q := by
  rw [kindCheck, stagePh_ntc (by omega)]
  refine (dif_pos (by omega)).trans ?_
  congr 1
  exact Fin.ext (by simp [h])

/-- The drifts of a die's oscillators (R287). -/
def roMeasured (d : Cd) (l : List Int) (s : State) : State :=
  s.modTherm fun x => { x with ro := x.ro.set d.ix.val (Vector.ofFn fun i => l.getD i.val 0) }

theorem exec_ageRoMeasure {d : Cd} {l : List Int} (hbeat : s.bnd % 4000000 = 0) : exec (.ageRoMeasure d l) s
    = .next (if ∃ i : Fin 4, 30 < l.getD i.val 0 then (roMeasured d l s).postDie 0x56 d.ix.val else roMeasured d l s) := by
  refine (if_neg (not_not_intro hbeat)).trans (congrArg Host.Outcome.next (if_congr ?_ rfl rfl))
  simp [Vector.any_eq_true, Fin.exists_iff]

end

/-! ### The statement -/

/-- Settles O41: each result of a timer, an edge, a converter or a sensor by the branch of its instruction. -/
theorem meterAndThermalInstants : Obligations.MeterAndThermalInstants := by
  unfold Obligations.MeterAndThermalInstants
  refine ⟨fun s => ⟨fun n => exec_meterTimerTick, fun n => exec_meterTimerTick_off, fun c p falling => exec_meterPwmTrigger, fun c ch code code2 hch hrun => ?_,
    fun c i code code2 hrun => ?_, fun c p ch code code2 stalled hrun hch => ?_, fun c ch code => (s.convAt_convWrite c ch code).2⟩, fun s => ⟨fun k q hen hplan => ?_,
    fun k q => exec_thermalSample_not, fun d l hbeat => ⟨roMeasured d l s, rfl, fun i => ?_, ?_, exec_ageRoMeasure hbeat⟩⟩⟩
  · rw [exec_conversionComplete_idle false hrun, refStored_other hch]
  · refine ⟨_, (exec_conversionComplete_idle false hrun).trans (by rw [convCode_ref]), ?_, ?_⟩
    · refine State.modConv_congr ?_
      rw [State.convAt_modConv]
      exact refStored_ref i _
    · rw [State.convAt_modConv]
      exact refStored_refs i _
  · rw [exec_conversionComplete stalled hrun hch]
    have hmove : ((stalled && c == .p) = true) = (stalled = true ∧ c = .p) := by simp
    simp only [hmove]
    rfl
  · refine ⟨sampleShifted s k q, sampleShifted_src.1, sampleShifted_src.2.1, sampleShifted_src.2.2, sampleShifted_eq, fun p hp => ?_, fun hno hlt => ?_, fun n hn => ?_⟩
    · rw [exec_thermalSample hen hplan, kindCheck_stage hp]
      simp only [unqualified_sensor (stagePh_lt hp)]
    · rw [exec_thermalSample hen hplan, kindCheck_none hno hlt]
      simp only [unqualified_sensor hlt]
    · rw [exec_thermalSample hen hplan, kindCheck_ntc hn]
      simp only [unqualified_ntc hn, Bool.or_eq_true]
  · simp [roMeasured, State.modTherm]
  · exact set_ix_other s.therm.ro d _

end Sys2Proof.Machine
end

section
/-!
THE MARGIN PLAN'S INSTANTS (R288, R290 to R293).
-/
namespace Sys2Proof.Machine

section
variable {s : State} {r : Rail}

theorem exec_warnProposal (hen : MpCfg.mpEn (s.mpcfg r) = true) (hrail : s.railEn r = true) (hdue : 86400000 ≤ (s.railAt r).regBeats) :
    exec (.warnProposal r) s = .next ((s.modRail r fun x => { x with regBeats := 0, peakLo := 0, peakHi := 0 }).propose 0 r.val
      ((s.railAt r).peakLo + MpCfg.wMargin (s.mpcfg r) : Nat) ((s.railAt r).peakHi + MpCfg.wMargin (s.mpcfg r) : Nat)
      (decide (MpCfg.wMin (s.mpcfg r) ≤ (s.railAt r).peakLo + MpCfg.wMargin (s.mpcfg r) ∧ (s.railAt r).peakLo + MpCfg.wMargin (s.mpcfg r) ≤ MpCfg.wMax (s.mpcfg r))
        && decide (MpCfg.wMin (s.mpcfg r) ≤ (s.railAt r).peakHi + MpCfg.wMargin (s.mpcfg r) ∧ (s.railAt r).peakHi + MpCfg.wMargin (s.mpcfg r) ≤ MpCfg.wMax (s.mpcfg r)))) :=
  if_neg (by simp [hen, hrail, hdue])

/-- The automatic application at a boundary, after an overlay that is due there (R291, R293). -/
def autoAtBoundary (u : State) : State := if u.ovlDue then u.modTherm fun t => { t with autoPend := true } else u.autoApply

theorem exec_mpAutoApply (hround : s.bnd % 4000 = 0) : exec .mpAutoApply s = .next (s.atBoundary autoAtBoundary) :=
  if_neg (not_not_intro hround)

theorem exec_mpAutoApply_wait (hround : s.bnd % 4000 = 0) (hovl : s.atBnd.ovlDue = true) :
    exec .mpAutoApply s = .next (s.modTherm fun t => { t with autoPend := true }) := by
  rw [exec_mpAutoApply hround, State.atBoundary_congr (f := autoAtBoundary) (g := fun u => u.modTherm fun t => { t with autoPend := true }) (if_pos hovl)]
  rfl

theorem autoAtBoundary_of (hovl : s.atBnd.ovlDue = false) : autoAtBoundary s.atBnd = s.atBnd.autoApply := if_neg (by simp [hovl])

theorem State.autoPick_outside {u : State} (h : ∀ x ∈ u.therm.props, x.inside = false) : u.autoPick = none := by
  unfold State.autoPick
  split
  · rfl
  · exact List.find?_eq_none.mpr fun x hx => by simp [h x hx]

theorem exec_mpAutoApply_outside (hround : s.bnd % 4000 = 0) (hovl : s.atBnd.ovlDue = false) (h : ∀ x ∈ s.therm.props, x.inside = false) :
    exec .mpAutoApply s = .next s := by
  have hpick : s.atBnd.autoPick = none := State.autoPick_outside h
  have hstay : autoAtBoundary s.atBnd = id s.atBnd := by
    rw [autoAtBoundary_of hovl, State.autoApply, hpick]
    rfl
  rw [exec_mpAutoApply hround, State.atBoundary_congr hstay]
  rfl

theorem State.autoPick_first {u : State} {x : Proposal} {l : List Proposal} {q : Rail} (hin : u.cfg.inForce ≠ none)
    (hgap : u.gapOver = true) (hprops : u.therm.props = x :: l) (hinside : x.inside = true) (hq : railOf (u.propRail x) = some q)
    (hauto : MpCfg.auto (u.mpcfg q) = true) (hen : MpCfg.mpEn (u.mpcfg q) = true) (hok : u.valueOk u.cfg.cfg x.kind x.target x.v1 x.v2 = true)
    (hkind : x.kind ≠ 2) : u.autoPick = some x := by
  unfold State.autoPick
  rw [if_neg (by simp [hgap, hin]), hprops]
  exact List.find?_cons_of_pos (by simp [hinside, hq, hauto, hen, hok, hkind])

theorem State.gapOver_atBnd (h : ∀ b : Int, s.therm.lastAuto = some b → b + 14400000000 * (ThermCfg.revGap s.thcfg : Int) ≤ s.bnd) :
    s.atBnd.gapOver = true := by
  unfold State.gapOver
  rw [Option.all_eq_true]
  exact fun b hb => decide_eq_true (h b hb)

theorem exec_mpAutoApply_first {x : Proposal} {l : List Proposal} {q : Rail} (hround : s.bnd % 4000 = 0) (hovl : s.atBnd.ovlDue = false)
    (hin : s.cfg.inForce ≠ none) (hgap : ∀ b : Int, s.therm.lastAuto = some b → b + 14400000000 * (ThermCfg.revGap s.thcfg : Int) ≤ s.bnd)
    (hprops : s.therm.props = x :: l) (hinside : x.inside = true) (hq : railOf (s.propRail x) = some q)
    (hauto : MpCfg.auto (s.mpcfg q) = true) (hen : MpCfg.mpEn (s.mpcfg q) = true) (hok : s.valueOk s.cfg.cfg x.kind x.target x.v1 x.v2 = true)
    (hkind : x.kind ≠ 2) :
    exec .mpAutoApply s = .next (s.atBoundary fun u => (u.mpApply x).modTherm fun t => { t with lastAuto := some (s.bnd : Int) }) := by
  have hpick : s.atBnd.autoPick = some x := State.autoPick_first hin (State.gapOver_atBnd hgap) hprops hinside hq hauto hen hok hkind
  have happly : autoAtBoundary s.atBnd = (s.atBnd.mpApply x).modTherm fun t => { t with lastAuto := some (s.bnd : Int) } := by
    rw [autoAtBoundary_of hovl, State.autoApply, hpick]
    rfl
  rw [exec_mpAutoApply hround,
    State.atBoundary_congr (g := fun u => (u.mpApply x).modTherm fun t => { t with lastAuto := some (s.bnd : Int) }) happly]

/-- A chirp as it starts (R288). -/
def chirpNew (s : State) (r : Rail) : ChirpSt :=
  { die := s.arb.active, sns := (s.railAt r).snsLocal, start := s.bnd, i0 := (s.railAct r).ioutF, n0 := (s.drivenOf r).length }

theorem exec_chirpStart (hround : s.bnd % 4000 = 0) (hrail : s.railEn r = true) (hen : MpCfg.chirpEn (s.mpcfg r) = true) (hfirst : s.therm.chirpAt[r.val] = none)
    (hst : (s.railAt r).st = .regulate) (hlow : (s.railAct r).light = true ∨ 4 ≤ s.therm.iLow[r.val]) (hfc : s.fcOf r = [])
    (ha : (s.railDie .a r).ctch = none) (hb : (s.railDie .b r).ctch = none) (hleft : (s.railAt r).left % 4 = 0) (hnone : s.therm.chirps[r.val] = none) :
    exec (.chirpStart r) s = .next (s.modTherm fun t =>
      { t with chirps := t.chirps.set r.val (some (chirpNew s r)), chirpAt := t.chirpAt.set r.val (some (s.bnd : Int)) }).intent :=
  if_pos (by simp [hround, hrail, hen, hfirst, hst, hlow, hfc, ha, hb, hleft, hnone])

/-- The capacitance summed over the two lowest tones (R288). -/
def toneSum (x : ChirpSt) (c : Nat) : Nat := if x.tone < 2 then x.cAcc + c else x.cAcc

theorem exec_chirpToneStep {x : ChirpSt} {c esr : Nat} (hx : s.therm.chirps[r.val] = some x) (hdue : x.start + 16000 ≤ s.bnd) :
    exec (.chirpToneStep r c esr) s = if x.tone < 7 then
        .next (s.modTherm fun t => { t with chirps := t.chirps.set r.val (some { x with tone := x.tone + 1, start := s.bnd, cAcc := toneSum x c }) })
      else .next (s.chirpDone r (toneSum x c / 2) esr) := by
  simp only [exec, execChirpToneStep]
  rw [hx]
  exact if_neg (not_lt.mpr hdue)

end

/-- Settles O42: the warning pair, the automatic application at its boundary and the tones of a chirp, each by its branch. -/
theorem marginInstants : Obligations.MarginInstants := by
  unfold Obligations.MarginInstants
  intro s r
  exact ⟨exec_warnProposal, fun hround => ⟨exec_mpAutoApply_wait hround, fun hovl => ⟨exec_mpAutoApply_outside hround hovl, fun x l q => exec_mpAutoApply_first hround hovl⟩⟩,
    fun hround hrail hen hfirst hst hlow hfc ha hb hleft hnone =>
      ⟨chirpNew s r, rfl, rfl, rfl, exec_chirpStart hround hrail hen hfirst hst hlow hfc ha hb hleft hnone⟩,
    fun x c esr hx hdue => ⟨fun h => (exec_chirpToneStep hx hdue).trans (if_pos h), fun h => (exec_chirpToneStep hx hdue).trans (if_neg (not_lt.mpr h))⟩⟩

end Sys2Proof.Machine
end

section
/-!
THE RING'S LINKS AND ITS CLOCK (R371 to R391, R468).
-/
namespace Sys2Proof.Machine

/-! ### The links -/

@[simp] theorem State.linkAt_modLink (s : State) (p : Side) (f : LinkSt → LinkSt) : (s.modLink p f).linkAt p = f (s.linkAt p) := upd_self _ _ _

@[simp] theorem State.linkAt_modLink_other (s : State) (p : Side) (f : LinkSt → LinkSt) : (s.modLink p f).linkAt p.other = s.linkAt p.other := by
  cases p <;> simp [State.linkAt, State.modLink, Side.other, Side.ix, upd]

section
variable {s : State} {p : Side}

/-- A link whose training has succeeded (R371, R391). -/
def linkUpNow (hop : Nat) (x : LinkSt) : LinkSt :=
  if x.st = .wrapped then { x with hop := hop, rxDown := false, k281 := 0, missed := 0, crcFrame := 0, retrained := true, cleanRounds := 0, crcRound := true }
  else { x with st := .up, hop := hop, rxDown := false, k281 := 0, missed := 0, crcFrame := 0, wrapPend := false, unAlarm := [], unTicket := []
                waitAlarm := false, waitTicket := false, rxAlarm := 0, rxTicket := 0, ackAlarm := 0, ackTicket := 0, debt := 0 }

section
variable {t : LinkTrain} {num hop : Nat}

theorem exec_linkTrained (h : s.trainCause p t num hop = none) : exec (.linkTrained p t num hop) s = .next (s.modLink p (linkUpNow hop)) := by
  simp only [exec, execLinkTrained]
  rw [h]
  rfl

theorem exec_linkTrained_failed {cause : Nat} (h : s.trainCause p t num hop = some cause) : exec (.linkTrained p t num hop) s
    = .next ((s.modLink p fun x => { x with st := if x.st = .wrapped then .wrapped else .down, retrained := false }).postDev 0x6F p.ix.val cause) := by
  simp only [exec, execLinkTrained]
  rw [h]

theorem trainCause_eq_none : s.trainCause p t num hop = none
    ↔ t.sync = true ∧ t.twice = false ∧ num ≠ s.ring.num ∧ mayJoin s.ring.num p num = true ∧ hop ≤ 512 := by
  unfold State.trainCause
  split
  next hsync => simp_all
  next hsync =>
    split
    next hnum =>
      refine iff_of_false (by simp) fun ⟨_, htwice, hne, hjoin, _⟩ => ?_
      simp [htwice, hne, hjoin] at hnum
    next hnum =>
      simp only [Bool.not_eq_true', Bool.not_eq_false, Bool.or_eq_true, beq_iff_eq, not_or] at hsync hnum
      simp [hsync, hnum]

end

theorem exec_linkHeal (hst : (s.linkAt p).st = .wrapped) (hret : (s.linkAt p).retrained = true) (hclean : 16 ≤ (s.linkAt p).cleanRounds)
    (hround : s.bnd % 4000 = 0) : exec (.linkHeal p) s = .next (s.atBoundary fun u =>
        let u := (u.modLink p fun x => { x with st := .up, retrained := false, wrapPend := false }).mend u.ring.num p
        (u.postDev 0x69 p.ix.val).ctrl 64 74 (fld u.ring.num 6 0 + fld p.ix.val 1 8)) :=
  if_pos ⟨hst, hret, hclean, hround⟩

theorem exec_ringSplit (hl : s.unreachable ≠ []) (hkeeper : s.own.keeper = s.ring.num) (hcut : 2 ≤ s.cutLinks.length)
    (hpost : s.ring.splitPosted = false) : exec .ringSplit s = .next (({ s with ring := { s.ring with splitPosted := true } } : State).postChain 0x6A
      ((s.unreachable.map fun d => 2 ^ d).sum % 2 ^ 32) ((s.unreachable.map fun d => 2 ^ d).sum / 2 ^ 32)) :=
  if_neg (by simp [hl, hkeeper, not_lt.mpr hcut, hpost])

/-- What the second ACK of the ticket class does not cover (R376). -/
def notCovered (s : State) (p : Side) : List RingPkt := (s.linkAt p).unTicket.dropWhile fun k => decide (k.tries < 2)

/-- The packets to send again, before the resends are counted (R376). -/
def resending (s : State) (p : Side) : State :=
  let again := notCovered s p
  let fresh := fun (q : List RingPkt) => (q.takeWhile fun k => decide (k.tries < 2)) ++ again.map fun k => { k with tries := 0 : RingPkt }
  let u := s.modLink p fun x => { x with unTicket := fresh x.unTicket }
  { u with ring := { u.ring with tx := (again.map fun k => { k with tries := 3, via := some p : RingPkt }) ++ u.ring.tx, resent := satAdd 8 u.ring.resent again.length } }

theorem exec_ringResend (h : notCovered s p ≠ []) :
    exec (.ringResend p true) s = .next ((resending s p).count (0x056 + p.ix.val) 3 (notCovered s p).length) :=
  if_neg h

end

/-! ### The clock of the ring (R384 to R386, R468) -/

section
variable {s : State}

theorem exec_trainingComplete {n : Nat} (h : (s.time.counting = false ∧ s.time.startPend = false) ∨ s.start.solo = true) (hn : n ≤ 63) :
    exec (.trainingComplete n) s = if (s.time.counting || s.time.startPend) = false ∧ (s.joinChain n).root = s.ring.num then
        .next { s.joinChain n with time := { (s.joinChain n).time with startPend := true } } else .next (s.joinChain n) := by
  refine if_neg ?_
  rintro (⟨hrun, hsolo⟩ | h')
  · rcases h with ⟨hc, hp⟩ | h
    · simp [hc, hp] at hrun
    · simp [h] at hsolo
  · omega

theorem joinChain_known (n : Nat) (d : Fin 64) : ((s.joinChain n).ring.devs[d.val]).known = decide (d.val ≤ n) := by
  simp [State.joinChain]

theorem exec_ringTrainingTimeout (hcount : s.time.counting = false) (hpend : s.time.startPend = false) (hstep : s.start.step = 5)
    (hdue : s.start.enter5 + 800000 ≤ s.bnd) : exec .ringTrainingTimeout s
      = .next ((({ s with time := { s.time with startPend := true }, start := { s.start with solo := true }, ring := { s.ring with ndev := 0 }, own := { s.own with keeper := s.ring.num } } : State)).postDev 0x6F
        (if s.linkUp .east then 1 else 0) 2) :=
  if_neg (by simp [hcount, hpend, hstep, hdue])

/-- A TIME packet, taken (R384, R385). -/
def timeTaken (rx : RxIn) (dev count late : Nat) (s : State) : State :=
  let s := s.relay rx.via dev 72 count
  if dev = s.ring.num then s
  else if !s.time.counting then
    let s : State := { s with own := { s.own with keeper := dev } }
    let s := s.rebase (count + late)
    let hs := s.heads
    let side := s.refSide
    { s with time := { s.time with counting := true, startPend := false }
             start := { s.start with step := if s.start.step = 5 ∧ s.start.barker = false then 6 else s.start.step }
             ring := { s.ring with aligned := true, almAll := hs, refEast := side == .east } }
  else if s.start.solo then { s with time := { s.time with timeSeen := some count }, own := { s.own with keeper := dev } }
  else s

/-- A good packet changes the link's counts and the log only. -/
theorem State.rxPkt_id_eq (s : State) (rx : RxIn) (cls : Nat) (h : rx.ok = true) :
    s.rxPkt rx cls id = { s with ring := { s.ring with links := (s.rxPkt rx cls id).ring.links }, log := (s.rxPkt rx cls id).log } := by
  unfold State.rxPkt
  dsimp only
  generalize (if cls = 2 then (s.linkAt rx.via).waitAlarm else decide (cls < 2) && (s.linkAt rx.via).waitTicket) = w
  rw [if_neg (by simp [h])]
  split
  · rfl
  · rw [State.count_eq]
    rfl

theorem State.relay_eq (s : State) (via : Side) (src code body : Nat) :
    s.relay via src code body = { s with ring := { s.ring with tx := (s.relay via src code body).ring.tx } } := by
  unfold State.relay
  split
  all_goals rfl

section
variable {rx : RxIn} {dev count late : Nat} {u : State}

theorem exec_timePacket (hok : rx.ok = true) (hu : s.rxPkt rx 2 id = u) (hclass : rx.again = true ∨ (s.linkAt rx.via).waitAlarm = false) :
    exec (.timePacket rx dev count late) s = .next (timeTaken rx dev count late u) := by
  subst hu
  exact congrArg Host.Outcome.next (State.rxPkt_good (timeTaken rx dev count late) hok hclass)

theorem rxPkt_relay_kept (hok : rx.ok = true) (hu : s.rxPkt rx 2 id = u) : (u.relay rx.via dev 72 count).ring.num = s.ring.num
    ∧ (u.relay rx.via dev 72 count).time = s.time ∧ (u.relay rx.via dev 72 count).start = s.start := by
  rw [State.relay_eq, ← hu, State.rxPkt_id_eq _ _ _ hok]
  exact ⟨rfl, rfl, rfl⟩

theorem timeTaken_first (hok : rx.ok = true) (hu : s.rxPkt rx 2 id = u) (hdev : dev ≠ s.ring.num) (hcount : s.time.counting = false) :
    (timeTaken rx dev count late u).time.clk = count + late ∧ (timeTaken rx dev count late u).time.counting = true
      ∧ (timeTaken rx dev count late u).ring.aligned = true
      ∧ (timeTaken rx dev count late u).start.step = (if s.start.step = 5 ∧ s.start.barker = false then 6 else s.start.step) := by
  obtain ⟨hnum, htime, hstart⟩ := rxPkt_relay_kept (dev := dev) (count := count) hok hu
  unfold timeTaken
  dsimp only
  rw [if_neg (by rw [hnum]; exact hdev), if_pos (by simp [htime, hcount]), ← hstart]
  exact ⟨rfl, rfl, rfl, rfl⟩

theorem timeTaken_counting (hok : rx.ok = true) (hu : s.rxPkt rx 2 id = u) (hdev : dev ≠ s.ring.num) (hcount : s.time.counting = true) :
    timeTaken rx dev count late u = if s.start.solo = true then { u.relay rx.via dev 72 count with
        time := { (u.relay rx.via dev 72 count).time with timeSeen := some count }, own := { (u.relay rx.via dev 72 count).own with keeper := dev } }
      else u.relay rx.via dev 72 count := by
  obtain ⟨hnum, htime, hstart⟩ := rxPkt_relay_kept (dev := dev) (count := count) hok hu
  unfold timeTaken
  dsimp only
  rw [if_neg (by rw [hnum]; exact hdev), if_neg (by simp [htime, hcount]), hstart]

end

/-- A device that counted alone after the step of its count, before the work of the boundary (R385). -/
def clockStepped (s : State) (c : Nat) : State :=
  let s := s.rebase (c + 4000 - 1)
  let side := s.refSide
  { s with
    time := { s.time with timeSeen := none, gridOwn := false }
    start := { s.start with solo := false }
    ring := { s.ring with aligned := true, refEast := side == Side.east } }

/-- The frame that the step cuts is held, and the cycle grids re-anchor (R385). -/
def frameCut (old : Nat) (s : State) : State :=
  let s := (s.frameOverrun (!s.dieOut .a) (!s.dieOut .b)).reAnchor (-(old % 4000 * 3200 : Nat)) false
  { s with ovr := { s.ovr with frameHeld := true } }

/-- The step ends SOLO and sets ALIGNED; the counts of overruns and the dies stand. -/
theorem clockStepped_of (s : State) (c : Nat) : (clockStepped s c).atBnd.start.solo = false ∧ (clockStepped s c).atBnd.ring.aligned = true
    ∧ (clockStepped s c).atBnd.ovr = s.ovr ∧ (clockStepped s c).atBnd.arb.st = s.arb.st := ⟨rfl, rfl, rfl, rfl⟩

theorem exec_clockAdopt {c : Nat} (hsolo : s.start.solo = true) (hseen : s.time.timeSeen = some c) : exec .clockAdopt s
    = .next ((clockStepped s c).atBoundary fun u => (frameCut s.bnd u).postDev 0x6E (s.bnd % 2 ^ 32) (s.bnd / 2 ^ 32) ((c + 4000) % 2 ^ 32)) := by
  simp only [exec, execClockAdopt]
  rw [hsolo, hseen]
  rfl

theorem PhasesOnly.reAnchor (s : State) (k : Int) (moved : Bool) : PhasesOnly s (s.reAnchor k moved) := by
  refine PhasesOnly.foldl (fun u p => ?_) _ _
  split
  · rfl
  · exact .refl u

theorem SaysOnly.ite {s t u : State} {c : Prop} [Decidable c] (h : SaysOnly s t) (k : SaysOnly s u) : SaysOnly s (if c then t else u) := by
  split
  · exact h
  · exact k

theorem SaysOnly.frameOverrun (s : State) (la lb : Bool) : SaysOnly
    (if (!la && !lb) = true then s else { s with ovr := { s.ovr with frame := satAdd 16 s.ovr.frame 1, frameFlag := true } }) (s.frameOverrun la lb) := by
  have hpost : ∀ (u : State) (blk die : Nat), SaysOnly u ((u.count blk 1 1).postDev 0x00 1 die) := fun u blk die => (SaysOnly.count u blk 1 1).trans (SaysOnly.emit _ _)
  unfold State.frameOverrun
  split
  · exact .refl s
  · dsimp only
    generalize ({ s with ovr := { s.ovr with frame := satAdd 16 s.ovr.frame 1, frameFlag := true } } : State) = u
    have ha : SaysOnly u (if la = true then (u.count 0x052 1 1).postDev 0x00 1 0 else u) := .ite (hpost _ _ _) (.refl u)
    exact ha.trans (.ite (hpost _ _ _) (.refl _))

/-- A frame overrun is reported, and counted when a die is in service (R39, R43). -/
theorem State.frameOverrun_of (s : State) (la lb : Bool) : (s.frameOverrun la lb).time = s.time
    ∧ (s.frameOverrun la lb).ring.aligned = s.ring.aligned ∧ (s.frameOverrun la lb).start = s.start
    ∧ (la = true ∨ lb = true → (s.frameOverrun la lb).ovr.frame = satAdd 16 s.ovr.frame 1 ∧ (s.frameOverrun la lb).ovr.frameFlag = true) := by
  have h := SaysOnly.frameOverrun s la lb
  unfold SaysOnly at h
  rw [h]
  refine ⟨?_, ?_, ?_, fun hdie => ?_⟩
  · split
    all_goals rfl
  · split
    all_goals rfl
  · split
    all_goals rfl
  · rw [if_neg (by rcases hdie with hdie | hdie <;> simp [hdie])]
    exact ⟨rfl, rfl⟩

/-- What the cut frame leaves: the clock and start-up stand, and a die in service makes it an overrun. -/
theorem frameCut_of (old : Nat) (u : State) : (frameCut old u).time = u.time ∧ (frameCut old u).ring.aligned = u.ring.aligned
    ∧ (frameCut old u).start = u.start ∧ (frameCut old u).ovr.frameHeld = true
    ∧ (u.dieOut .a = false ∨ u.dieOut .b = false → (frameCut old u).ovr.frame = satAdd 16 u.ovr.frame 1 ∧ (frameCut old u).ovr.frameFlag = true) := by
  obtain ⟨htime, hal, hstart, hovr⟩ := u.frameOverrun_of (!u.dieOut .a) (!u.dieOut .b)
  have hgrid := PhasesOnly.reAnchor (u.frameOverrun (!u.dieOut .a) (!u.dieOut .b)) (-(old % 4000 * 3200 : Nat)) false
  unfold PhasesOnly at hgrid
  have hcut : frameCut old u = { ((u.frameOverrun (!u.dieOut .a) (!u.dieOut .b)).reAnchor (-(old % 4000 * 3200 : Nat)) false) with
    ovr := { ((u.frameOverrun (!u.dieOut .a) (!u.dieOut .b)).reAnchor (-(old % 4000 * 3200 : Nat)) false).ovr with frameHeld := true } } := rfl
  rw [hcut, hgrid]
  exact ⟨htime, hal, hstart, rfl, fun h => hovr (by simpa using h)⟩

/-- But for the clock, work at a boundary leaves what the work leaves. -/
theorem State.atBoundary_of (s : State) (f : State → State) : (s.atBoundary f).start = (f s.atBnd).start ∧ (s.atBoundary f).ring = (f s.atBnd).ring
    ∧ (s.atBoundary f).ovr = (f s.atBnd).ovr ∧ (s.atBoundary f).time.clk = s.time.clk := ⟨rfl, rfl, rfl, rfl⟩

/-- Work at a boundary in two parts, of which the first leaves the clock. -/
theorem State.atBoundary_atBoundary {f g : State → State} (h : (f s.atBnd).time = s.atBnd.time) :
    (s.atBoundary f).atBoundary g = s.atBoundary fun u => g (f u) := by
  have htime : (s.atBoundary f).time = s.time := congrArg (fun t : TimeSt => { t with clk := s.time.clk }) h
  have hbnd : (s.atBoundary f).atBnd = f s.atBnd :=
    calc (s.atBoundary f).atBnd = { f s.atBnd with time := s.atBnd.time } :=
          congrArg (fun t : TimeSt => { f s.atBnd with time := { t with clk := if t.startPend then 0 else t.clk + 1 } }) htime
      _ = f s.atBnd := by rw [← h]
  calc (s.atBoundary f).atBoundary g
      = { g (s.atBoundary f).atBnd with time := { (g (s.atBoundary f).atBnd).time with clk := (s.atBoundary f).time.clk } } := rfl
    _ = s.atBoundary fun u => g (f u) := by
      rw [hbnd, htime]
      rfl

theorem exec_referenceChange (hkeeper : s.own.keeper ≠ s.ring.num) (hrun : s.time.clockStopped = false) : exec .referenceChange s
    = if s.linkUp (if s.ring.refEast then Side.east else .west).other then .next { s with ring := { s.ring with refEast := !s.ring.refEast } }
      else .next (({ s with time := { s.time with clockStopped := true, gridOwn := true }, ring := { s.ring with aligned := false } } : State).postDev 0x6D) :=
  (if_neg hkeeper).trans (if_neg (by simp [hrun]))

end

/-! ### The statements -/

/-- Settles O43: training, cuts, heals and resends change the link they name; each by its own branch. -/
theorem ringLinks : Obligations.RingLinks := by
  unfold Obligations.RingLinks
  intro s p
  refine ⟨fun t num hop h hst => ⟨_, exec_linkTrained h, rfl, ?_⟩, fun t num hop h hst => ⟨_, exec_linkTrained h, ?_⟩, fun t num hop cause => exec_linkTrained_failed,
    fun t num hop => trainCause_eq_none, rfl, rfl, exec_linkHeal, ?_, fun a l h => ⟨resending s p, ?_, ?_, ?_⟩⟩
  · simp [linkUpNow, hst]
  · simp [linkUpNow, hst]
  · rintro l rfl
    exact exec_ringSplit
  · have hl : notCovered s p = a :: l := h
    rw [exec_ringResend (by simp [hl]), hl, List.length_cons]
  · exact congrArg (fun q : List RingPkt => satAdd 8 s.ring.resent q.length) h
  · exact congrArg (fun q : List RingPkt => (q.map fun k => { k with tries := 3, via := some p : RingPkt }) ++ s.ring.tx) h

/-- Settles O44: the chain clock starts, is adopted, or steps at the boundary after the packet; each instant by its own branch. -/
theorem ringClock : Obligations.RingClock := by
  unfold Obligations.RingClock
  intro s
  refine ⟨fun n h hn => ?_, exec_ringTrainingTimeout, fun rx dev count late u hok hu hclass hdev => ⟨fun hcount => ?_, fun hcount hsolo => ?_, fun hcount hsolo => ?_⟩,
    fun c hsolo hseen => ?_, fun hkeeper hrun => ⟨fun hup => ?_, fun hup => ?_⟩⟩
  · rw [exec_trainingComplete h hn]
    split
    next hstart =>
      obtain ⟨hoff, hroot⟩ := hstart
      simp only [Bool.or_eq_false_iff] at hoff
      refine ⟨_, rfl, rfl, joinChain_known n, fun _ _ _ => rfl, ?_⟩
      rintro (hc | hp | hne)
      · exact absurd hc (by simp [hoff.1])
      · exact absurd hp (by simp [hoff.2])
      · exact absurd hroot hne
    next hstart => exact ⟨_, rfl, rfl, joinChain_known n, fun hc hp hroot => absurd ⟨by simp [hc, hp], hroot⟩ hstart, fun _ => rfl⟩
  · exact ⟨_, exec_timePacket hok hu hclass, timeTaken_first hok hu hdev hcount⟩
  · rw [exec_timePacket hok hu hclass, timeTaken_counting hok hu hdev hcount, if_neg (by simp [hsolo])]
  · exact ⟨_, rfl, (exec_timePacket hok hu hclass).trans (by rw [timeTaken_counting hok hu hdev hcount, if_pos hsolo])⟩
  · obtain ⟨htime, hal, hstart, hheld, hovr⟩ := frameCut_of s.bnd (clockStepped s c).atBnd
    obtain ⟨hended, haligned, hcounts, hdies⟩ := clockStepped_of s c
    obtain ⟨hs, hr, ho, hc⟩ := (clockStepped s c).atBoundary_of (frameCut s.bnd)
    have hclk : (clockStepped s c).time.clk = c + 4000 - 1 := rfl
    refine ⟨(clockStepped s c).atBoundary (frameCut s.bnd), ?_, hc.trans (by omega), (congrArg StartSt.solo (hs.trans hstart)).trans hended,
      (congrArg RingSt.aligned hr).trans (hal.trans haligned), (congrArg OvrSt.frameHeld ho).trans hheld, fun h => ?_⟩
    · rw [exec_clockAdopt hsolo hseen, State.atBoundary_atBoundary htime]
    · rw [ho, ← hcounts]
      refine hovr ?_
      unfold State.dieOut at h ⊢
      rw [hdies]
      exact h
  · exact (exec_referenceChange hkeeper hrun).trans (if_pos hup)
  · exact (exec_referenceChange hkeeper hrun).trans (if_neg (by simp [hup]))

end Sys2Proof.Machine
end

section
/-!
PACKETS OF THE RING AND WHAT THEY REPORT (R321, R329, R375 to R378, R387 to R395).
-/
namespace Sys2Proof.Machine

/-! ### The other devices -/

theorem State.devAt_modDev {s : State} {n : Nat} (h : n < 64) (f : DevSt → DevSt) : (s.modDev n f).devAt n = f (s.devAt n) := by
  simp only [State.devAt, State.modDev, h, dif_pos]
  exact upd_self _ _ _

theorem State.modDev_congr {s : State} {n : Nat} {f g : DevSt → DevSt} (h : f (s.devAt n) = g (s.devAt n)) : s.modDev n f = s.modDev n g := by
  unfold State.modDev State.devAt upd at *
  split
  next hn =>
    rw [dif_pos hn] at h
    exact congrArg (fun x => ({ s with ring := { s.ring with devs := s.ring.devs.set n x hn } } : State)) h
  next => rfl

/-- A change of what is held of a device leaves the rest of the state. -/
theorem State.modDev_eq (s : State) (n : Nat) (f : DevSt → DevSt) :
    s.modDev n f = { s with ring := { s.ring with devs := (s.modDev n f).ring.devs } } := by
  unfold State.modDev
  split
  all_goals rfl

/-! ### Who a packet is for -/

section
variable {s u : State} {rx : RxIn}

/-- A good packet for this device, or for all (R375). -/
theorem State.rxFor_here {k : RingPkt} {f : State → State} (hok : rx.ok = true)
    (hw : rx.again = true ∨ (if k.kind = 2 then (s.linkAt rx.via).waitAlarm else decide (k.kind < 2) && (s.linkAt rx.via).waitTicket) = false)
    (hu : s.rxPkt rx k.kind id = u) (hdst : rx.dst = none ∨ rx.dst = some s.ring.num) : s.rxFor rx k f = f u := by
  have hnum : u.ring.num = s.ring.num := by rw [← hu, State.rxPkt_id_eq _ _ _ hok]
  unfold State.rxFor
  rw [State.rxPkt_good _ hok hw, hu]
  rcases hdst with h | h
  · rw [h]
  · rw [h]
    exact if_pos hnum.symm

/-- A good packet for another device is passed on (R375). -/
theorem State.rxFor_other {k : RingPkt} {f : State → State} {d : Nat} (hok : rx.ok = true)
    (hw : rx.again = true ∨ (if k.kind = 2 then (s.linkAt rx.via).waitAlarm else decide (k.kind < 2) && (s.linkAt rx.via).waitTicket) = false)
    (hu : s.rxPkt rx k.kind id = u) (hdst : rx.dst = some d) (hd : d ≠ s.ring.num) :
    s.rxFor rx k f = u.send { k with dst := d, via := some rx.via.other } := by
  have hnum : u.ring.num = s.ring.num := by rw [← hu, State.rxPkt_id_eq _ _ _ hok]
  unfold State.rxFor
  rw [State.rxPkt_good _ hok hw, hu, hdst]
  exact if_neg (by rw [hnum]; exact hd)

/-! ### Packets (R321, R375 to R391) -/

/-- What a packet that fails its CRC leaves, before it is counted (R375). -/
def discarded (p : Side) (s : State) : State :=
  let u := s.modLink p fun x =>
    let n := x.crcFrame + 1
    { x with crcFrame := n, crcRound := true, rxDown := x.rxDown || decide (8 ≤ n), wrapPend := x.wrapPend || decide (8 ≤ n)
             retrained := x.retrained && decide (n < 8)
             waitAlarm := x.waitAlarm || 2 == 2, waitTicket := x.waitTicket || decide (2 < 2) }
  { u with ring := { u.ring with crc := satAdd 16 u.ring.crc 1 } }

theorem exec_cutPacket_bad (hbad : rx.ok = false) (dev : Nat) (p : Side) :
    exec (.cutPacket rx dev p) s = .next ((discarded rx.via s).count (0x056 + rx.via.ix.val) 2 1) :=
  congrArg Host.Outcome.next (if_pos (by simp [hbad]))

theorem discarded_linkAt (p : Side) : ((discarded p s).linkAt p).waitAlarm = true ∧ ((discarded p s).linkAt p).crcRound = true := by
  have h : (discarded p s).linkAt p = (s.modLink p fun x =>
    let n := x.crcFrame + 1
    { x with crcFrame := n, crcRound := true, rxDown := x.rxDown || decide (8 ≤ n), wrapPend := x.wrapPend || decide (8 ≤ n)
             retrained := x.retrained && decide (n < 8)
             waitAlarm := x.waitAlarm || 2 == 2, waitTicket := x.waitTicket || decide (2 < 2) }).linkAt p := rfl
  rw [h, State.linkAt_modLink]
  simp

theorem rxPkt_alarm (hok : rx.ok = true) (hw : rx.again = true ∨ (s.linkAt rx.via).waitAlarm = false) : s.rxPkt rx 2 id
    = (s.modLink rx.via fun x => { x with rxAlarm := wrapAdd 16 x.rxAlarm 1, waitAlarm := false }).count (0x056 + rx.via.ix.val) 1 1 :=
  (if_neg (by simp [hok])).trans (if_neg (by rcases hw with h | h <;> simp [h]))

/-- A cut is noted once and passed on (R388). -/
def cutNoted (via : Side) (dev : Nat) (p : Side) (s : State) : State :=
  let s := s.relay via dev 73 (fld dev 6 0 + fld p.ix.val 1 8)
  if s.ring.cuts.contains (dev, p) then s else { s with ring := { s.ring with cuts := s.ring.cuts ++ [(dev, p)] } }

theorem exec_cutPacket {dev : Nat} {p : Side} (hok : rx.ok = true) (hw : rx.again = true ∨ (s.linkAt rx.via).waitAlarm = false)
    (hu : s.rxPkt rx 2 id = u) : exec (.cutPacket rx dev p) s = .next (cutNoted rx.via dev p u) := by
  subst hu
  exact congrArg Host.Outcome.next (State.rxPkt_good (cutNoted rx.via dev p) hok hw)

/-- An ACK releases what it covers (R376). -/
def acked (via : Side) (alarms tickets : Nat) (s : State) : State :=
  let l := s.linkAt via
  let na := (alarms % 2 ^ 16 + 2 ^ 16 - l.ackAlarm) % 2 ^ 16
  let nt := (tickets % 2 ^ 16 + 2 ^ 16 - l.ackTicket) % 2 ^ 16
  let older := fun (k : RingPkt) => { k with tries := min 2 (k.tries + 1) : RingPkt }
  let gone := (l.unAlarm.take na ++ l.unTicket.take nt).map fun k => { k with tries := 3, via := some via : RingPkt }
  let s := s.modLink via fun x =>
    { x with unAlarm := (x.unAlarm.drop na).map older, unTicket := (x.unTicket.drop nt).map older
             ackAlarm := alarms % 2 ^ 16, ackTicket := tickets % 2 ^ 16 }
  { s with ring := { s.ring with tx := gone.foldl (fun q k => q.erase k) s.ring.tx } }

theorem acked_linkAt (p : Side) (alarms tickets : Nat) : ((acked p alarms tickets s).linkAt p).ackAlarm = alarms % 2 ^ 16
    ∧ ((acked p alarms tickets s).linkAt p).ackTicket = tickets % 2 ^ 16
    ∧ ((acked p alarms tickets s).linkAt p).unAlarm.length = (s.linkAt p).unAlarm.length - (alarms % 2 ^ 16 + 2 ^ 16 - (s.linkAt p).ackAlarm) % 2 ^ 16 := by
  have h : (acked p alarms tickets s).linkAt p = _ := s.linkAt_modLink p _
  rw [h]
  exact ⟨rfl, rfl, by rw [List.length_map, List.length_drop]⟩

/-- A ticket packet, taken: passed on, or held until its turn in the head's count (R377, R378). -/
def ticketTaken (via : Side) (src raw : Nat) (s : State) : State :=
  let dst := s.tktDst { raw := raw }
  if dst ≠ s.ring.num then s.send { kind := 0, src := src, dst := dst, body := raw, via := some via.other }
  else
    let d := s.devAt src
    let n := bits raw 95 83
    let ahead := (n + 2 ^ 13 - d.fwdRx) % 2 ^ 13
    if 2 ^ 12 ≤ ahead ∨ d.fwdHold.any (fun e => e.1 == n) then s
    else
      let s := s.modDev src fun x => { x with fwdHold := x.fwdHold ++ [(n, raw, s.time.clk)] }
      State.drain src ((s.devAt src).fwdHold.length) s

theorem ticketTaken_next {src raw : Nat} (hdst : u.tktDst { raw := raw } = u.ring.num) (hhold : (u.devAt src).fwdHold = [])
    (hn : bits raw 95 83 = (u.devAt src).fwdRx) : ticketTaken rx.via src raw u
      = State.drain src 1 (u.modDev src fun x => { x with fwdHold := [(bits raw 95 83, raw, u.time.clk)] }) := by
  have hahead : ((u.devAt src).fwdRx + 2 ^ 13 - (u.devAt src).fwdRx) % 2 ^ 13 = 0 := by omega
  have hadd : (u.modDev src fun x => { x with fwdHold := x.fwdHold ++ [(bits raw 95 83, raw, u.time.clk)] })
      = u.modDev src fun x => { x with fwdHold := [(bits raw 95 83, raw, u.time.clk)] } := State.modDev_congr (by rw [hhold, List.nil_append])
  unfold ticketTaken
  dsimp only
  rw [if_neg (not_not_intro hdst), if_neg (by rw [hn, hahead, hhold]; simp), hadd]
  by_cases hsrc : src < 64
  · rw [State.devAt_modDev hsrc]
    rfl
  · rw [show (u.modDev src fun x => { x with fwdHold := [(bits raw 95 83, raw, u.time.clk)] }) = u from dif_neg hsrc, hhold]
    simp [State.drain, hhold]

/-- A stub packet, taken: passed on, discarded as a second copy, or written by the head that forwarded the ticket (R321, R375, R389). -/
def stubTaken (via : Side) (src : Nat) (i : StubIn) (s : State) : State :=
  let x := stubOf i.raw
  match s.stubHead x.ref.client with
  | some h => s.send { kind := 1, src := src, dst := h, body := i.raw, data := i.data, via := some via.other }
  | none =>
    match (s.devAt src).fwdOut.find? fun e => e.ref == x.ref with
    | none => s
    | some e =>
      if e.atBeat = 2 ^ 64 ∧ x.status = 0x02 then s
      else
        let s := (s.answered src x.ref (x.status == 0x02)).claimDone x.ref
        if s.ring.chainOut.any fun c => c.ref == x.ref then s.chainAnswer x.ref src x i.data else s.headStub e x i.data

theorem stubTaken_written {src : Nat} {i : StubIn} {x : Stub} {e : FwdEnt} (hx : stubOf i.raw = x) (hhead : u.stubHead x.ref.client = none)
    (hout : (u.devAt src).fwdOut = [e]) (href : e.ref = x.ref) (hlive : e.atBeat < 2 ^ 64) (hchain : u.ring.chainOut = []) :
    stubTaken rx.via src i u = ((u.answered src x.ref (x.status == 0x02)).claimDone x.ref).headStub e x i.data := by
  subst hx
  have hfree : ((u.answered src (stubOf i.raw).ref ((stubOf i.raw).status == 0x02)).claimDone (stubOf i.raw).ref).ring.chainOut = [] := by
    rw [State.claimDone, State.answered, State.modDev_eq]
    exact hchain
  unfold stubTaken
  dsimp only
  rw [hhead, hout]
  have hfind : List.find? (fun f : FwdEnt => f.ref == (stubOf i.raw).ref) [e] = some e := List.find?_cons_of_pos (by simp [href])
  rw [hfind]
  refine (if_neg fun h => by omega).trans ?_
  rw [hfree]
  exact if_neg (by simp)

theorem State.headStub_plain (e : FwdEnt) (x : Stub) : s.headStub e x [] = s.stub x := if_pos rfl

theorem State.headStub_fits {e : FwdEnt} {x : Stub} {data : List Nat} (hne : data ≠ []) (hfit : data.length ≤ segSum e.segs) :
    s.headStub e x data = (s.fill e.segs data).stub { x with status := 0x00, value := data.length % 2 ^ 32 } := by
  unfold State.headStub
  rw [if_neg hne]
  simp [fitReply, hfit, fld]

theorem State.headStub_short {e : FwdEnt} {x : Stub} {data : List Nat} (hne : data ≠ []) (hshort : segSum e.segs < data.length) :
    s.headStub e x data = (s.fill e.segs data).stub
      { x with status := 0x01, value := segSum e.segs % 2 ^ 32 + (e.cur + segSum e.segs) % 2 ^ 32 * 2 ^ 32 } := by
  unfold State.headStub
  rw [if_neg hne]
  simp [fitReply, not_le.mpr hshort, fld]

theorem stubTaken_passed {src h : Nat} {i : StubIn} (hhead : u.stubHead (stubOf i.raw).ref.client = some h) : stubTaken rx.via src i u
    = u.send { kind := 1, src := src, dst := h, body := i.raw, data := i.data, via := some rx.via.other } := by
  unfold stubTaken
  dsimp only
  rw [hhead]

theorem stubTaken_second {src : Nat} {i : StubIn} (hhead : u.stubHead (stubOf i.raw).ref.client = none)
    (hout : ∀ e ∈ (u.devAt src).fwdOut, e.ref ≠ (stubOf i.raw).ref) : stubTaken rx.via src i u = u := by
  have hfind : (u.devAt src).fwdOut.find? (fun e => e.ref == (stubOf i.raw).ref) = none := List.find?_eq_none.mpr fun e he => by simp [hout e he]
  unfold stubTaken
  dsimp only
  rw [hhead, hfind]

theorem rxPkt_num {cls : Nat} (hok : rx.ok = true) (hu : s.rxPkt rx cls id = u) : u.ring.num = s.ring.num := by
  rw [← hu, State.rxPkt_id_eq _ _ _ hok]

theorem rxPkt_kept {cls : Nat} (hok : rx.ok = true) (hu : s.rxPkt rx cls id = u) : u.ring.num = s.ring.num ∧ u.host = s.host ∧ u.time = s.time := by
  rw [← hu, State.rxPkt_id_eq _ _ _ hok]
  exact ⟨rfl, rfl, rfl⟩

theorem exec_ringStubPacket {src : Nat} {i : StubIn} (hok : rx.ok = true) (hw : rx.again = true ∨ (s.linkAt rx.via).waitTicket = false)
    (hu : s.rxPkt rx 1 id = u) : exec (.ringStubPacket rx src i) s = .next (stubTaken rx.via src i u) := by
  subst hu
  exact congrArg Host.Outcome.next (State.rxPkt_good (stubTaken rx.via src i) hok hw)

theorem exec_ringTicketPacket {src raw : Nat} (hok : rx.ok = true) (hw : rx.again = true ∨ (s.linkAt rx.via).waitTicket = false)
    (hu : s.rxPkt rx 0 id = u) : exec (.ringTicketPacket rx src raw) s = .next (ticketTaken rx.via src raw u) := by
  subst hu
  exact congrArg Host.Outcome.next (State.rxPkt_good (ticketTaken rx.via src raw) hok hw)

end

/-! ### What the ring gives up on (R378, R393, R395) -/

section
variable {s : State} {dev : Nat}

/-- A gap in a head's count is passed over (R378). -/
def gapPassed (s : State) (dev k : Nat) : State :=
  let s := s.modDev dev fun x => { x with fwdRx := wrapAdd 13 x.fwdRx k }
  { s with ring := { s.ring with gap := satAdd 8 s.ring.gap 1 } }

theorem exec_forwardGap {n raw b : Nat} (hhold : (s.devAt dev).fwdHold = [(n, raw, b)]) (hdue : b + 4000 ≤ s.time.clk) :
    exec (.forwardGap dev) s = .next (State.drain dev 1 (gapPassed s dev ((n + 2 ^ 13 - (s.devAt dev).fwdRx) % 2 ^ 13))) := by
  simp only [exec, execForwardGap]
  rw [hhold]
  exact if_neg (by simp [hdue])

theorem gapPassed_fwdRx {n : Nat} (hdev : dev < 64) (hn : n < 2 ^ 13) (hrx : (s.devAt dev).fwdRx < 2 ^ 13) :
    ((gapPassed s dev ((n + 2 ^ 13 - (s.devAt dev).fwdRx) % 2 ^ 13)).devAt dev).fwdRx = n := by
  have h : (gapPassed s dev ((n + 2 ^ 13 - (s.devAt dev).fwdRx) % 2 ^ 13)).devAt dev = _ := State.devAt_modDev hdev _
  rw [h]
  unfold wrapAdd
  dsimp only
  omega

theorem gapPassed_gap (k : Nat) : (gapPassed s dev k).ring.gap = satAdd 8 s.ring.gap 1 := by
  unfold gapPassed
  rw [State.modDev_eq]

theorem State.answered_chainOut (ref : TkRef) (queued : Bool) : (s.answered dev ref queued).ring.chainOut = s.ring.chainOut := by
  unfold State.answered
  rw [State.modDev_eq]

theorem exec_forwardStubTimeout {e : FwdEnt} (hout : (s.devAt dev).fwdOut = [e]) (hdue : e.atBeat + 4000000 ≤ s.time.clk)
    (hchain : s.ring.chainOut = []) :
    exec (.forwardStubTimeout dev) s = .next ((s.answered dev e.ref false).stub { ref := e.ref, status := 0x3F, extra := 0x0001 }) := by
  have hfind : List.find? (fun f : FwdEnt => decide (f.atBeat + 4000000 ≤ s.time.clk)) [e] = some e := List.find?_cons_of_pos (by simp [hdue])
  have hfree : ((s.answered dev e.ref false).ring.chainOut.any fun c => c.ref == e.ref) = false := by rw [State.answered_chainOut, hchain]; rfl
  simp only [exec, execForwardStubTimeout]
  rw [hout, hfind]
  exact congrArg Host.Outcome.next (if_neg (by simp [hfree]))

/-- A device's check is over (R393). -/
def checkOver (s : State) (dev : Nat) : State := s.modDev dev fun x => { x with check := none, checkN := 0, checkBad := false }

theorem exec_chainDeviceCheckEnd {ref : TkRef} (href : (s.devAt dev).check = some ref) : exec (.chainDeviceCheckEnd dev) s
    = if (s.devAt dev).checkBad = false ∧ ((s.devAt dev).checkN < 16 ∨ s.bnd % 4000 ≠ 0) then .next s
      else if (s.devAt dev).checkBad then .next ((checkOver s dev).final ref 0x3F 0x0003)
      else .next (((checkOver s dev).modDev dev fun x => { x with benched := false, dead := false, missing := 0 }).final ref 0x00) := by
  simp only [exec, execChainDeviceCheckEnd]
  rw [href]
  rfl

end

/-! ### What the ring reports (R237, R387, R401, R410) -/

section
variable {s u : State} {rx : RxIn} {dev : Nat}

/-- The keeper notes a device's presence (R392). -/
def presenceNoted (dev : Nat) (pr : Presence) (s : State) : State :=
  if s.own.keeper ≠ s.ring.num ∨ dev = s.ring.num then s
  else
    let r := roundOf s.time.clk
    let say := (s.devAt dev).benched && (s.devAt dev).speaksRound != some r
    let s := s.modDev dev fun x =>
      { x with known := true, seen := r, missing := 0, arb := pr.arb, head := pr.head, barker := pr.barker, step8 := pr.step8, epochRows := pr.rstRows
               presBad := !pr.aligned || pr.crcBad, slots := pr.slots, svc := pr.svc, speaksRound := if say then some r else x.speaksRound }
    if say then s.postChain 0x6C dev else s

/-- A head's range is noted, and a head of a lower number with an overlapping one ends this device's service (R387). -/
def rangeNoted (via : Side) (dev first count : Nat) (s : State) : State :=
  let s := s.relay via dev 65 (fld dev 6 0 + fld first 12 8 + fld count 12 20)
  if dev = s.ring.num then s
  else
    let r := roundOf s.time.clk
    let d := s.devAt dev
    let fresh := d.range.isNone || decide (d.rangeRound + 1 < r)
    let s := s.modDev dev fun x => { x with range := some (first, count), rangeRound := r }
    let s := if fresh && !s.ring.almAll.contains dev then { s with ring := { s.ring with almAll := s.ring.almAll ++ [dev] } } else s
    if s.host.en ∧ dev < s.ring.num ∧ first < s.host.first + s.host.cnt ∧ s.host.first < first + count then
      { s with host := { s.host with en := false, refused := true } }
    else s

theorem exec_headAnnounce {first n : Nat} (hok : rx.ok = true) (hw : rx.again = true ∨ (s.linkAt rx.via).waitAlarm = false)
    (hu : s.rxPkt rx 2 id = u) : exec (.headAnnounce rx dev first n) s = .next (rangeNoted rx.via dev first n u) := by
  subst hu
  exact congrArg Host.Outcome.next (State.rxPkt_good (rangeNoted rx.via dev first n) hok hw)

/-- A streamed trace entry goes into its head's ticket's segments (R410). -/
def traceTaken (dev : Nat) (e : TraceEnt) (s : State) : State :=
  match (s.devAt dev).stream with
  | none => s
  | some (ref, off, segs) =>
    let tot := segSum segs
    let s := match segAddr segs off with
      | some a => s.hostWrite a e.bytes
      | none => s
    s.modDev dev fun x => { x with stream := some (ref, if tot = 0 then 0 else (off + 16) % tot, segs) }

/-- A streamed trace entry's packet (R410). -/
def tracePkt (dev : Nat) (e : TraceEnt) : RingPkt := { kind := 4, src := dev, body := leNat e.bytes }

theorem exec_tracePacket (e : TraceEnt) : exec (.tracePacket rx dev e) s = .next (s.rxFor rx (tracePkt dev e) (traceTaken dev e)) := rfl

theorem exec_presencePacket {pr : Presence} (hok : rx.ok = true) (hw : rx.again = true ∨ (s.linkAt rx.via).waitAlarm = false)
    (hu : s.rxPkt rx 2 id = u) (hdst : rx.dst = none ∨ rx.dst = some s.ring.num) : exec (.presencePacket rx dev pr) s = .next (presenceNoted dev pr u) :=
  congrArg Host.Outcome.next (State.rxFor_here (k := { kind := 2, src := dev, code := 64, body := presenceBody pr dev }) (f := presenceNoted dev pr) hok hw hu hdst)

theorem presenceNoted_of {pr : Presence} (hdev : dev < 64) (hkeeper : u.own.keeper = u.ring.num) (hself : dev ≠ u.ring.num)
    (hbench : (u.devAt dev).benched = false) : ((presenceNoted dev pr u).devAt dev).known = true
      ∧ ((presenceNoted dev pr u).devAt dev).seen = roundOf u.time.clk ∧ ((presenceNoted dev pr u).devAt dev).missing = 0
      ∧ ((presenceNoted dev pr u).devAt dev).arb = pr.arb ∧ ((presenceNoted dev pr u).devAt dev).step8 = pr.step8 := by
  unfold presenceNoted
  rw [if_neg (by simp [hkeeper, hself])]
  simp only [hbench, Bool.false_and, Bool.false_eq_true, if_false]
  rw [State.devAt_modDev hdev]
  exact ⟨rfl, rfl, rfl, rfl, rfl⟩

/-- A device's range as it is noted, before an overlap is judged. -/
def rangeSet (via : Side) (dev first count : Nat) (s : State) : State :=
  let s := s.relay via dev 65 (fld dev 6 0 + fld first 12 8 + fld count 12 20)
  let r := roundOf s.time.clk
  let d := s.devAt dev
  let fresh := d.range.isNone || decide (d.rangeRound + 1 < r)
  let s := s.modDev dev fun x => { x with range := some (first, count), rangeRound := r }
  if fresh && !s.ring.almAll.contains dev then { s with ring := { s.ring with almAll := s.ring.almAll ++ [dev] } } else s

theorem rangeNoted_eq {via : Side} {first n : Nat} (hself : dev ≠ u.ring.num) : rangeNoted via dev first n u
    = if (rangeSet via dev first n u).host.en ∧ dev < (rangeSet via dev first n u).ring.num
          ∧ first < (rangeSet via dev first n u).host.first + (rangeSet via dev first n u).host.cnt ∧ (rangeSet via dev first n u).host.first < first + n then
        { rangeSet via dev first n u with host := { (rangeSet via dev first n u).host with en := false, refused := true } }
      else rangeSet via dev first n u := by
  have hnum : (u.relay via dev 65 (fld dev 6 0 + fld first 12 8 + fld n 12 20)).ring.num = u.ring.num := by rw [State.relay_eq]
  exact if_neg (by rw [hnum]; exact hself)

theorem rangeSet_of (via : Side) (first n : Nat) (hdev : dev < 64) : ((rangeSet via dev first n u).devAt dev).range = some (first, n)
    ∧ ((rangeSet via dev first n u).devAt dev).rangeRound = roundOf u.time.clk ∧ (rangeSet via dev first n u).host = u.host
    ∧ (rangeSet via dev first n u).ring.num = u.ring.num := by
  unfold rangeSet
  generalize hv : u.relay via dev 65 (fld dev 6 0 + fld first 12 8 + fld n 12 20) = v
  have hkept : v.host = u.host ∧ v.ring.num = u.ring.num ∧ v.time = u.time := by
    rw [← hv, State.relay_eq]
    exact ⟨rfl, rfl, rfl⟩
  extract_lets v' r d fresh w
  have hw : (w.devAt dev).range = some (first, n) ∧ (w.devAt dev).rangeRound = roundOf u.time.clk ∧ w.host = u.host ∧ w.ring.num = u.ring.num := by
    refine ⟨?_, ?_, ?_, ?_⟩
    · exact congrArg DevSt.range (State.devAt_modDev hdev _)
    · exact (congrArg DevSt.rangeRound (State.devAt_modDev hdev _)).trans (congrArg (fun t : TimeSt => roundOf t.clk) hkept.2.2)
    · exact (congrArg State.host (State.modDev_eq v dev _)).trans hkept.1
    · exact (congrArg (fun z : State => z.ring.num) (State.modDev_eq v dev _)).trans hkept.2.1
  split
  · exact hw
  · exact hw

end

/-! ### The statements -/

/-- Settles O45: a packet's CRC first, then what each class does with a good one. -/
theorem ringPackets : Obligations.RingPackets := by
  unfold Obligations.RingPackets
  intro s rx
  refine ⟨fun hbad dev p => ⟨discarded rx.via s, exec_cutPacket_bad hbad dev p, rfl, discarded_linkAt _⟩, fun u hok hw hu => ⟨hu.symm.trans (rxPkt_alarm hok hw), fun dev p => ?_, fun dev p => ?_, fun alarms tickets => ?_⟩,
    fun u src raw hok hw hu => ⟨fun hdst => ?_, fun hdst hahead => ?_, fun hdst hhold hn _ => ?_⟩, fun u src i x hok hw hu hx => ⟨fun h hhead => ?_, fun hhead hout => ?_,
      fun e v hhead hout href hlive hchain hv => ⟨fun hdata => ?_, fun hdata hfit => ?_, fun hdata hshort => ?_⟩⟩⟩
  · exact (exec_cutPacket hok hw hu).trans (congrArg Host.Outcome.next (if_congr (by simp) rfl rfl))
  · subst hu
    exact congrArg Host.Outcome.next (State.rxPkt_good (fun u => (u.relay rx.via dev 74 (fld dev 6 0 + fld p.ix.val 1 8)).mend dev p) hok hw)
  · subst hu
    exact ⟨_, congrArg Host.Outcome.next (State.rxPkt_good (acked rx.via alarms tickets) hok hw), acked_linkAt rx.via alarms tickets⟩
  · rw [exec_ringTicketPacket hok hw hu, ticketTaken, if_pos (by rw [rxPkt_num hok hu]; exact hdst)]
  · rw [exec_ringTicketPacket hok hw hu, ticketTaken, if_neg (by rw [rxPkt_num hok hu]; exact not_not_intro hdst)]
    exact congrArg Host.Outcome.next (if_pos (Or.inl hahead))
  · rw [exec_ringTicketPacket hok hw hu, ticketTaken_next (hdst.trans (rxPkt_num hok hu).symm) hhold hn]
  · subst hx
    rw [exec_ringStubPacket hok hw hu, stubTaken_passed hhead]
  · subst hx
    rw [exec_ringStubPacket hok hw hu, stubTaken_second hhead hout]
  · rw [exec_ringStubPacket hok hw hu, stubTaken_written hx hhead hout href hlive hchain, hv, hdata, State.headStub_plain]
  · rw [exec_ringStubPacket hok hw hu, stubTaken_written hx hhead hout href hlive hchain, hv, State.headStub_fits hdata hfit]
  · rw [exec_ringStubPacket hok hw hu, stubTaken_written hx hhead hout href hlive hchain, hv, State.headStub_short hdata hshort]

/-- Settles O46: what the ring gives up on, and what a good packet for this device or another one leaves. -/
theorem ringReports : Obligations.RingReports := by
  unfold Obligations.RingReports
  intro s dev hdev
  refine ⟨fun n raw b hhold hdue hn hrx => ⟨_, exec_forwardGap hhold hdue, gapPassed_fwdRx hdev hn hrx, gapPassed_gap _⟩, fun e => exec_forwardStubTimeout,
    fun ref href => ⟨fun hbad => ?_, fun hgood hn hround => ?_, fun hgood hwait => (exec_chainDeviceCheckEnd href).trans (if_pos ⟨hgood, hwait⟩)⟩,
    fun rx u hok hw hu hself => ⟨fun pr hdst hkeeper hbench => ?_, fun first n hen => ?_, fun first n hen hlow hbeg hend => ?_, fun kind a hdst => ?_, fun kind d a hdst hd => ?_⟩,
    fun rx u hok hu ga ia gb ib => ⟨fun hdst => ?_, fun w hdst hjoin hroom => ?_, fun d hdst hd => ⟨?_, fun w => ?_⟩⟩,
    fun rx u hok hu e => ⟨fun d hdst hd => ?_, fun hdst hstream => ?_, fun ref off a segs hdst hstream haddr hsum => ?_⟩⟩
  · exact (exec_chainDeviceCheckEnd href).trans ((if_neg (by simp [hbad])).trans (if_pos hbad))
  · refine ⟨(checkOver s dev).modDev dev fun x => { x with benched := false, dead := false, missing := 0 }, ?_, ?_⟩
    · exact (exec_chainDeviceCheckEnd href).trans ((if_neg (by simp [hround, hn])).trans (if_neg (by simp [hgood])))
    · rw [State.devAt_modDev hdev, checkOver, State.devAt_modDev hdev]
      exact ⟨rfl, rfl, rfl⟩
  · have hkept : u.own = s.own ∧ u.ring.num = s.ring.num := by
      rw [← hu, State.rxPkt_id_eq _ _ _ hok]
      exact ⟨rfl, rfl⟩
    exact ⟨_, exec_presencePacket hok hw hu hdst, presenceNoted_of hdev (by rw [hkept.1, hkept.2, hkeeper]) (by rw [hkept.2]; exact hself) hbench⟩
  · obtain ⟨hnum, hhost, htime⟩ := rxPkt_kept hok hu
    obtain ⟨hrange, hround, hkept, -⟩ := rangeSet_of (u := u) rx.via first n hdev
    have hnoted : rangeNoted rx.via dev first n u = rangeSet rx.via dev first n u :=
      (rangeNoted_eq (by rw [hnum]; exact hself)).trans (if_neg (by simp [hkept, hhost, hen]))
    exact ⟨_, (exec_headAnnounce hok hw hu).trans (by rw [hnoted]), hrange, by rw [hround, htime]⟩
  · obtain ⟨hnum, hhost, -⟩ := rxPkt_kept hok hu
    obtain ⟨-, -, hkept, hself'⟩ := rangeSet_of (u := u) rx.via first n hdev
    refine ⟨_, exec_headAnnounce hok hw hu, ?_⟩
    rw [rangeNoted_eq (by rw [hnum]; exact hself), if_pos (by rw [hkept, hself', hnum, hhost]; exact ⟨hen, hlow, hbeg, hend⟩)]
    exact ⟨rfl, rfl⟩
  · exact congrArg Host.Outcome.next (State.rxFor_here (f := fun s => s.takeReport dev kind a.count) hok hw hu hdst)
  · exact congrArg Host.Outcome.next (State.rxFor_other (f := fun s => s.takeReport dev kind a.count) hok hw hu hdst hd)
  · exact congrArg Host.Outcome.next (State.rxFor_here (k := chainPkt dev ga ia gb ib) (f := fun s => s.chainTake dev ga ia gb ib) hok (Or.inr rfl) hu hdst)
  · refine congrArg Host.Outcome.next ((State.rxFor_here (k := eventPkt dev w) (f := fun s => s.eventTake w) hok (Or.inr rfl) hu hdst).trans ?_)
    unfold State.eventTake
    dsimp only
    rw [hjoin]
    exact if_pos hroom
  · exact congrArg Host.Outcome.next (State.rxFor_other (k := chainPkt dev ga ia gb ib) (f := fun s => s.chainTake dev ga ia gb ib) hok (Or.inr rfl) hu hdst hd)
  · exact congrArg Host.Outcome.next (State.rxFor_other (k := eventPkt dev w) (f := fun s => s.eventTake w) hok (Or.inr rfl) hu hdst hd)
  · rw [exec_tracePacket, State.rxFor_other (k := tracePkt dev e) hok (Or.inr rfl) hu hdst hd]
    rfl
  · rw [exec_tracePacket, State.rxFor_here (k := tracePkt dev e) hok (Or.inr rfl) hu hdst, traceTaken, hstream]
  · rw [exec_tracePacket, State.rxFor_here (k := tracePkt dev e) hok (Or.inr rfl) hu hdst, traceTaken, hstream]
    dsimp only
    rw [haddr, if_neg hsum]

end Sys2Proof.Machine
end

section
/-!
OWNERSHIP: ITS PACKETS AND ITS INSTANTS (R352 to R366, R377, R389 to R393).
-/
namespace Sys2Proof.Machine

/-! ### What leaves the record in force -/

/-- The device's copy of the ownership record, and that it is benched. -/
def recordView (s : State) : OwnSt × Bool := (s.own, s.ring.benchedMe)

@[simp] theorem recordView_count (s : State) (blk e k : Nat) : recordView (s.count blk e k) = recordView s := by
  rw [State.count_eq]
  rfl
theorem recordView_says {s t : State} (h : SaysOnly s t) : recordView t = recordView s := by
  unfold SaysOnly at h
  rw [h]
  rfl
@[simp] theorem recordView_stub (s : State) (st : Stub) (data : List Nat) : recordView (s.stub st data) = recordView s := by
  unfold State.stub
  dsimp only
  generalize hu : (if st.status = 0x02 then (s.count 0x054 1 1).count 0x054 2 1 else s.count 0x054 1 1) = u
  have hview : recordView u = recordView s := by
    rw [← hu]
    split
    all_goals simp
  split
  · exact hview
  · split
    · rw [recordView_count]
      exact hview
    · exact hview
@[simp] theorem recordView_final (s : State) (ref : TkRef) (status extra value : Nat) : recordView (s.final ref status extra value) = recordView s :=
  recordView_stub _ _ _
@[simp] theorem recordView_fcEndAll (s : State) (r : Rail) (result : Nat) : recordView (s.fcEndAll r result) = recordView s := by
  refine foldl_keeps_view (f := recordView) ?_ _ _
  exact fun _ _ => rfl
@[simp] theorem recordView_postPh (s : State) (code : Nat) (p : Ph) (a0 a1 a2 : Nat) : recordView (s.postPh code p a0 a1 a2) = recordView s :=
  recordView_says (SaysOnly.emit _ _)
@[simp] theorem recordView_postRail (s : State) (code : Nat) (r : Rail) (a0 a1 a2 : Nat) : recordView (s.postRail code r a0 a1 a2) = recordView s :=
  recordView_says (SaysOnly.emit _ _)
@[simp] theorem recordView_testEnd (s : State) (p : Ph) (pass : Bool) (why : Nat) : recordView (s.testEnd p pass why) = recordView s := by
  unfold State.testEnd
  split
  · rfl
  · rw [recordView_postPh]
    split
    all_goals exact recordView_final _ _ _ _ _
@[simp] theorem recordView_respacePh (s : State) (p : Ph) : recordView (s.respacePh p) = recordView s := by
  unfold State.respacePh
  split
  all_goals rfl
@[simp] theorem recordView_failTest (s : State) (p : Ph) (why : Nat) : recordView (s.failTest p why) = recordView s := by
  unfold State.failTest
  split
  · rw [recordView_testEnd]
    split
    · exact recordView_respacePh s p
    · rfl
  · rfl
@[simp] theorem recordView_leaveRegulate (s : State) (r : Rail) : recordView (s.leaveRegulate r) = recordView s := by
  unfold State.leaveRegulate
  split
  · rfl
  · refine (foldl_keeps_view (f := recordView) (fun u p => recordView_failTest u p 1) _ _).trans ?_
    simp
@[simp] theorem recordView_blankShed (s : State) (p : Ph) : recordView (s.blankShed p) = recordView s := by
  unfold State.blankShed
  split
  · split
    all_goals rfl
  · rfl
@[simp] theorem recordView_toOff (s : State) (p : Ph) : recordView (s.toOff p) = recordView s := by
  unfold State.toOff
  split
  · rfl
  · exact recordView_blankShed s p
@[simp] theorem recordView_modRail (s : State) (r : Rail) (f : RailSt → RailSt) : recordView (s.modRail r f) = recordView s := rfl
@[simp] theorem recordView_modGang (s : State) (r : Rail) (f : GangSt → GangSt) : recordView (s.modGang r f) = recordView s := rfl
@[simp] theorem recordView_setSt (s : State) (r : Rail) (v : RailState) : recordView (s.setSt r v) = recordView s := rfl
@[simp] theorem recordView_lightOff (s : State) (r : Rail) : recordView (s.lightOff r) = recordView s := rfl
@[simp] theorem recordView_enterOff (s : State) (r : Rail) : recordView (s.enterOff r) = recordView s := by
  unfold State.enterOff
  rw [recordView_lightOff, recordView_setSt, recordView_modRail, foldl_keeps_view (f := recordView) recordView_toOff, recordView_leaveRegulate]
@[simp] theorem recordView_biasSense (s : State) : recordView s.biasSense = recordView s := by
  refine foldl_keeps_view (f := recordView) ?_ _ _
  exact fun _ _ => rfl
@[simp] theorem recordView_gangDetach (s : State) (r : Rail) : recordView (s.gangDetach r) = recordView s := by
  unfold State.gangDetach
  dsimp only
  split
  · rfl
  · rw [recordView_biasSense, recordView_modRail, recordView_postRail, recordView_modGang, recordView_enterOff]
@[simp] theorem recordView_detachAll (s : State) : recordView s.detachAll = recordView s := foldl_keeps_view recordView_gangDetach _ _
@[simp] theorem recordView_discardFor (s : State) (client : Nat) (ownerOnly : Bool) : recordView (s.discardFor client ownerOnly) = recordView s := by
  unfold State.discardFor
  extract_lets hit gone host u v
  have hv : recordView v = recordView s := foldl_keeps_view (f := recordView) (fun u f => recordView_stub u _ _) gone u
  split
  all_goals exact hv

/-! ### Records, epochs and claims of the ring (R352 to R360, R389, R393) -/

theorem foldl_relay_eq (via : Side) (src : Nat) (l : List (Nat × Nat)) (s : State) : l.foldl (fun (s : State) p => s.relay via src p.1 p.2) s
    = { s with ring := { s.ring with tx := (l.foldl (fun (s : State) p => s.relay via src p.1 p.2) s).ring.tx } } := by
  induction l generalizing s with
  | nil => rfl
  | cons a l ih =>
    rw [List.foldl_cons, ih, State.relay_eq]

section
variable {s u : State} {rx : RxIn}

/-- A record as it is passed on (R352). -/
def recordPassed (via : Side) (o : OwnRec) (s : State) : State := (recordPkts o).foldl (fun (s : State) p => s.relay via o.keeper p.1 p.2) s

/-- An ownership record, taken (R352, R357, R393). -/
def recordTaken (via : Side) (o : OwnRec) (s : State) : State :=
  let s := recordPassed via o s
  if o.keeper = s.ring.num ∨ (s.devAt o.keeper).benched = true then s
  else if s.own.keeper = s.ring.num ∧ s.ring.num < o.keeper ∧ o.benched.contains s.ring.num = false then
    { s with own := { s.own with epoch := max s.own.epoch o.epoch, epochNvm := max s.own.epochNvm o.epoch } }
  else s.takeRecord o

theorem exec_ownershipRecord {o : OwnRec} (hok : rx.ok = true) (hw : rx.again = true ∨ (s.linkAt rx.via).waitAlarm = false)
    (hu : s.rxPkt rx 2 id = u) : exec (.ownershipRecord rx o) s = .next (recordTaken rx.via o u) := by
  subst hu
  exact congrArg Host.Outcome.next (State.rxPkt_good (recordTaken rx.via o) hok hw)

theorem recordPassed_of (via : Side) (o : OwnRec) : (recordPassed via o u).own = u.own ∧ (recordPassed via o u).ring.num = u.ring.num
    ∧ ∀ n, (recordPassed via o u).devAt n = u.devAt n := by
  have h : recordPassed via o u = { u with ring := { u.ring with tx := (recordPassed via o u).ring.tx } } := foldl_relay_eq via o.keeper _ u
  rw [h]
  exact ⟨rfl, rfl, fun n => rfl⟩

/-- The keeper's record as the device's copy, before what the loss of ownership and a bench bring (R352). -/
def recordCopied (s : State) (o : OwnRec) : State :=
  let epoch := max s.own.epoch o.epoch
  let changed := o.valid && (!s.own.valid || s.own.client != o.client || s.own.epoch != o.epoch)
  let gen := if !changed then s.own.gen else if o.gen < 256 then o.gen else (s.client o.client).gen
  let f := fun (k : Fin 4) => ({ (s.own.ports[k.val]) with
    fails := (o.fails.getD k.val (0, 0, 0)).1, level := (o.fails.getD k.val (0, 0, 0)).2.1
    remain := (o.fails.getD k.val (0, 0, 0)).2.2, benched := o.portsOut.contains k.val } : PortSt)
  let ref := match o.pend, o.pendSeq with
    | some q, some n => some ({ client := q.2.1, gen := q.2.2.1, seq := n } : TkRef)
    | _, _ => none
  let own : OwnSt := { s.own with
    keeper := o.keeper, valid := o.valid, port := o.port, client := o.client, gen := gen, ownDev := o.dev, epoch := epoch
    epochNvm := max s.own.epochNvm o.epoch, deposed := o.deposed, pend := o.pend, noRec := 0, recSeen := true, ports := Vector.ofFn f
    silent := 0, genEnd := s.own.genEnd && !changed, pendDev := o.pendDev, pendHand := o.pendHand, pendKey := o.pendKey
    pendRef := ref, cand := o.cand, endPosted := o.endPosted }
  let g := fun (d : Fin 64) => ({ (s.ring.devs[d.val]) with benched := o.benched.contains d.val } : DevSt)
  { s with own := own, ring := { s.ring with devs := Vector.ofFn g, benchedMe := o.benched.contains s.ring.num } }

theorem recordTaken_other {via : Side} {o : OwnRec} (hkeeper : o.keeper ≠ u.ring.num) (hbench : (u.devAt o.keeper).benched = false)
    (hnot : u.own.keeper ≠ u.ring.num) : recordTaken via o u = (recordPassed via o u).takeRecord o := by
  obtain ⟨hown, hnum, hdev⟩ := recordPassed_of (u := u) via o
  exact (if_neg (by simp [hnum, hdev, hkeeper, hbench])).trans (if_neg (by simp [hown, hnum, hnot]))

/-- A keeper that a higher-numbered one does not list as benched takes the higher epoch alone (R352, R393). -/
theorem recordTaken_keeper {via : Side} {o : OwnRec} (hkeeper : o.keeper ≠ u.ring.num) (hbench : (u.devAt o.keeper).benched = false)
    (his : u.own.keeper = u.ring.num) (hhigher : u.ring.num < o.keeper) (hlisted : u.ring.num ∉ o.benched) : recordTaken via o u
      = { recordPassed via o u with own := { (recordPassed via o u).own with
          epoch := max (recordPassed via o u).own.epoch o.epoch, epochNvm := max (recordPassed via o u).own.epochNvm o.epoch } } := by
  obtain ⟨hown, hnum, hdev⟩ := recordPassed_of (u := u) via o
  exact (if_neg (by simp [hnum, hdev, hkeeper, hbench])).trans (if_pos (by simp [hown, hnum, his, hhigher, hlisted]))

/-- The ownership part of a record taken (R352). -/
theorem State.takeRecord_of (o : OwnRec) : (s.takeRecord o).own.keeper = o.keeper ∧ (s.takeRecord o).own.valid = o.valid ∧ (s.takeRecord o).own.port = o.port
    ∧ (s.takeRecord o).own.client = o.client ∧ (s.takeRecord o).own.epoch = max s.own.epoch o.epoch ∧ (s.takeRecord o).own.ownDev = o.dev
    ∧ (s.takeRecord o).own.noRec = 0 ∧ (s.takeRecord o).ring.benchedMe = o.benched.contains s.ring.num
    ∧ ∀ k : OPort, ((s.takeRecord o).own.ports[k.val]).benched = o.portsOut.contains k.val := by
  suffices h : recordView (s.takeRecord o) = recordView (recordCopied s o) by
    obtain ⟨hown, hme⟩ := Prod.mk.inj h
    rw [hown, hme]
    exact ⟨rfl, rfl, rfl, rfl, rfl, rfl, rfl, rfl, fun k => by simp [recordCopied]⟩
  have htake : s.takeRecord o = (let u := (recordCopied s o).commitPorts
      let v := if (s.own.valid && (!o.valid || s.own.client != o.client)) = true then u.discardFor s.own.client (!o.deposed.contains s.own.client) else u
      if (o.benched.contains s.ring.num && !s.ring.benchedMe) = true then v.detachAll else v) := rfl
  rw [htake]
  extract_lets u v
  have hu : recordView u = recordView (recordCopied s o) := by
    unfold u State.commitPorts
    dsimp only
    split
    all_goals rfl
  have hv : recordView v = recordView (recordCopied s o) := by
    unfold v
    split
    · rw [recordView_discardFor, hu]
    · exact hu
  split
  · rw [recordView_detachAll, hv]
  · exact hv

theorem rxPkt_own {cls : Nat} (hok : rx.ok = true) (hu : s.rxPkt rx cls id = u) : u.own = s.own ∧ u.noRram = s.noRram := by
  rw [← hu, State.rxPkt_id_eq _ _ _ hok]
  exact ⟨rfl, rfl⟩

/-- An epoch to commit, passed on (R357). -/
def epochPassed (via : Side) (dev epoch key : Nat) (s : State) : State := s.relay via dev 68 (fld dev 6 0 + fld epoch 32 8 + fld key 3 40)

/-- An epoch committed on the keeper's word (R357, R389, R452, R455). -/
def epochTaken (via : Side) (dev epoch key : Nat) (s : State) : State :=
  let s := epochPassed via dev epoch key s
  if dev = s.ring.num || s.noRram then s
  else
    let again := decide (epoch = 0 ∧ s.own.epochNvm = 0)
    let s := s.commitEpoch epoch
    let s := if again then s
      else if epoch = 0 then ({ s with own := { s.own with epoch := 0 } } : State).revokeWon
      else if key < 4 then { s with nvm := { s.nvm with won := s.nvm.won ||| 2 ^ key } } else s
    s.ctrl dev 69 (fld s.ring.num 6 0 + fld epoch 32 8)

theorem exec_epochCommit {dev epoch key : Nat} (hok : rx.ok = true) (hw : rx.again = true ∨ (s.linkAt rx.via).waitAlarm = false)
    (hu : s.rxPkt rx 2 id = u) : exec (.epochCommit rx dev epoch key) s = .next (epochTaken rx.via dev epoch key u) := by
  subst hu
  exact congrArg Host.Outcome.next (State.rxPkt_good (epochTaken rx.via dev epoch key) hok hw)

theorem epochPassed_of (via : Side) (dev epoch key : Nat) : (epochPassed via dev epoch key u).ring.num = u.ring.num
    ∧ (epochPassed via dev epoch key u).noRram = u.noRram ∧ (epochPassed via dev epoch key u).nvm = u.nvm := by
  unfold epochPassed
  rw [State.relay_eq]
  exact ⟨rfl, rfl, rfl⟩

/-- An epoch with the slot of its claim marked WON (R357, R455). -/
def epochWon (epoch key : Nat) (s : State) : State :=
  { s.commitEpoch epoch with nvm := { (s.commitEpoch epoch).nvm with won := (s.commitEpoch epoch).nvm.won ||| 2 ^ key } }

theorem State.commitCount_eq (s : State) (k : Nat) : s.commitCount k = { s with log := (s.commitCount k).log } := by
  unfold State.commitCount
  rw [State.count_eq, State.count_eq s]

theorem State.commitEpoch_num (s : State) (e : Nat) : (s.commitEpoch e).ring.num = s.ring.num := by
  unfold State.commitEpoch
  split
  · rfl
  · rw [State.commitCount_eq]

theorem epochTaken_won {dev epoch key : Nat} (hdev : dev ≠ u.ring.num) (hram : u.noRram = false) (hepoch : epoch ≠ 0) (hkey : key < 4) :
    epochTaken rx.via dev epoch key u = (epochWon epoch key (epochPassed rx.via dev epoch key u)).ctrl dev 69 (fld u.ring.num 6 0 + fld epoch 32 8) := by
  obtain ⟨hnum, hkept, -⟩ := epochPassed_of (u := u) rx.via dev epoch key
  have hwon : (epochWon epoch key (epochPassed rx.via dev epoch key u)).ring.num = u.ring.num := by rw [epochWon, State.commitEpoch_num, hnum]
  unfold epochTaken
  dsimp only
  rw [if_neg (by simp [hnum, hkept, hdev, hram]), if_neg (by simp [hepoch]), if_neg hepoch, if_pos hkey]
  exact congrArg (fun n => (epochWon epoch key (epochPassed rx.via dev epoch key u)).ctrl dev 69 (fld n 6 0 + fld epoch 32 8)) hwon

theorem epochWon_of {epoch key : Nat} (hram : u.noRram = false) : (epochWon epoch key u).own.epochNvm = epoch ∧ (epochWon epoch key u).nvm.won = u.nvm.won ||| 2 ^ key := by
  have hcommit : u.commitEpoch epoch = ({ u with own := { u.own with epochNvm := epoch } } : State).commitCount 1 := if_neg (by simp [hram])
  unfold epochWon
  rw [hcommit, State.commitCount_eq]
  exact ⟨rfl, rfl⟩

/-- An acknowledgement is noted once (R357, R389). -/
def ackTaken (dev : Nat) (s : State) : State :=
  if s.own.acks.contains dev then s else { s with own := { s.own with acks := s.own.acks ++ [dev] } }

/-- The packet of the owner's heartbeat, or of the end of its generation. -/
def beatPkt (dev round : Nat) (ended : Bool) : RingPkt := { kind := 2, src := dev, code := 70, body := fld dev 6 0 + fld round 48 8 + fld (b2n ended) 1 56 }

/-- The owner's heartbeat, or the end of its generation, at the keeper (R360, R361). -/
def beatTaken (dev round : Nat) (ended : Bool) (s : State) : State :=
  if s.own.keeper ≠ s.ring.num ∨ (s.devAt dev).benched = true ∨ s.own.valid = false ∨ s.own.ownDev ≠ dev then s
  else if ended then { s with own := { s.own with genEnd := true } }
  else s.countBeat round

theorem exec_heartbeatForward (dev round : Nat) (ended : Bool) :
    exec (.heartbeatForward rx dev round ended) s = .next (s.rxFor rx (beatPkt dev round ended) (beatTaken dev round ended)) := rfl

theorem beatTaken_of {dev round : Nat} {ended : Bool} (hkeeper : u.own.keeper = u.ring.num) (hbench : (u.devAt dev).benched = false) (hvalid : u.own.valid = true)
    (hdev : u.own.ownDev = dev) : beatTaken dev round ended u = if ended then { u with own := { u.own with genEnd := true } } else u.countBeat round :=
  if_neg (by simp [hkeeper, hbench, hvalid, hdev])

/-- A claim as its result tells it (R355). -/
def claimOf (cl : ClaimMsg) : Claim :=
  { client := cl.client, gen := cl.gen, seq := cl.seq, port := cl.port, dev := cl.dev, key := cl.key, epoch := cl.epoch
    frame := cl.frame, fail := cl.fail, refusal := cl.refusal, verified := true, ep5 := true }

/-- A claim's result at the keeper (R355, R363, R364, R389, R393). -/
def claimTaken (cl : ClaimMsg) (s : State) : State :=
  if s.own.keeper ≠ s.ring.num ∨ (s.devAt cl.dev).benched = true then s
  else if cl.readmit then (if h : cl.port < 4 then s.modPort ⟨cl.port, h⟩ fun x => { x with benched := false } else s)
  else if cl.handover then ({ s with own := { s.own with handQ := some cl.port } } : State).handGo
  else if s.own.claims.any (fun x => x.client == cl.client && x.seq == cl.seq && x.dev == cl.dev)
      || s.own.pendRef == some { client := cl.client, gen := cl.gen, seq := cl.seq } then s
  else { s with own := { s.own with claims := s.own.claims ++ [claimOf cl] } }

theorem claimTaken_claim {cl : ClaimMsg} (hkeeper : u.own.keeper = u.ring.num) (hbench : (u.devAt cl.dev).benched = false) (hread : cl.readmit = false)
    (hhand : cl.handover = false) : claimTaken cl u = if (u.own.claims.any (fun x => x.client == cl.client && x.seq == cl.seq && x.dev == cl.dev)
        || u.own.pendRef == some { client := cl.client, gen := cl.gen, seq := cl.seq }) = true then u
      else { u with own := { u.own with claims := u.own.claims ++ [claimOf cl] } } :=
  (if_neg (by simp [hkeeper, hbench])).trans ((if_neg (by simp [hread])).trans (if_neg (by simp [hhand])))

/-- The packet of a claim's result. -/
def claimPkt (cl : ClaimMsg) : RingPkt := { kind := 2, src := cl.dev, code := 67, body := claimBody cl }

theorem exec_claimResult (cl : ClaimMsg) : exec (.claimResult rx cl) s = .next (s.rxFor rx (claimPkt cl) (claimTaken cl)) := rfl

end

/-! ### The keeper's instants (R353 to R365) -/

section
variable {s : State}

/-- A claim whose verification has ended (R354). -/
def verified (s : State) (x : Claim) : Claim :=
  { x with verified := true, fail :=
    match s.sigCheck [0x54, 0x58, 0x43, 0x4C] x.key (x.xy / 2 ^ 256) (x.xy % 2 ^ 256) (x.rs / 2 ^ 256) (x.rs % 2 ^ 256) x.epoch x.nonce with
    | some k => some k
    | none => if x.ep5 then none else some 5 }

theorem exec_claimVerifyDone {x : Claim} (hclaims : s.own.claims = [x]) (hdev : x.dev = s.ring.num) (hnot : x.verified = false) :
    exec (.claimVerifyDone x.client) s = .next (({ s with own := { s.own with claims := [verified s x] } } : State).sendClaim (verified s x)) := by
  have hfind : List.find? (fun y : Claim => y.client == x.client && y.dev == s.ring.num && !y.verified) [x] = some x :=
    List.find?_cons_of_pos (by simp [hdev, hnot])
  have hmap : ([x].map fun z => if z = x then verified s x else z) = [verified s x] := by simp
  simp only [exec, execClaimVerifyDone]
  rw [hclaims, hfind]
  exact congrArg (fun l => Host.Outcome.next (({ s with own := { s.own with claims := l } } : State).sendClaim (verified s x))) hmap

theorem exec_claimDecision (hkeeper : s.own.keeper = s.ring.num) (hmatch : s.own.mismatch = false) (hround : s.bnd % 4000 = 0) :
    exec .claimDecision s = .next (s.atBoundary fun u =>
      (u.dueClaims).foldl State.decideClaim { u with own := { u.own with claims := u.own.claims.filter fun c => !u.dueClaims.contains c } }) :=
  if_neg (by simp [hkeeper, hmatch, hround])

/-- The pending record takes effect at a boundary (R357, R364). -/
def recordEffect (port client gen epoch : Nat) (s : State) : State :=
  let hand := s.own.pendHand
  let ref := s.own.pendRef
  let dev := s.own.pendDev
  let g := if gen < 256 then gen else if dev = s.ring.num then (s.client client).gen else 256
  let s := s.newOwner port client g epoch dev hand
  let s := match ref with
    | some r => s.claimStub r dev 0x00 0 epoch
    | none => s
  ((s.postChain 0x78 (port + 256 * b2n hand) client epoch).sendRecord).handGo

theorem exec_ownerRecordEffect {port client gen epoch : Nat} (hpend : s.own.pend = some (port, client, gen, epoch)) (hkeeper : s.own.keeper = s.ring.num)
    (hround : s.bnd % 4000 = 0) (hfrom : s.own.pendFrom < s.bnd) (hacks : ∀ d ∈ s.inChain, d ∈ s.own.acks) (hepoch : epoch ≤ s.own.epochNvm) :
    exec .ownerRecordEffect s = .next (s.atBoundary (recordEffect port client gen epoch)) := by
  simp only [exec, execOwnerRecordEffect]
  rw [hpend]
  refine if_neg ?_
  simp only [hkeeper, hround, not_le.mpr hfrom, not_lt.mpr hepoch, ne_eq, not_true_eq_false, false_or, or_false, Bool.not_eq_true', List.all_eq_false]
  rintro ⟨d, hd, hnot⟩
  exact hnot (by simpa using hacks d hd)

theorem foldl_ctrl_own (l : List (Nat × Nat)) (s : State) : (l.foldl (fun (s : State) p => s.ctrl 64 p.1 p.2) s).own = s.own := by
  refine foldl_keeps_view (f := State.own) ?_ l s
  exact fun _ _ => rfl

@[simp] theorem State.sendRecord_own (s : State) : s.sendRecord.own = s.own := foldl_ctrl_own _ s

/-- With no owner in force, a new one takes the record, its port readmitted (R357, R358). -/
theorem State.newOwner_own {port : Nat} (client gen epoch dev : Nat) (hand : Bool) (hnone : s.own.valid = false) (hport : port < 4) :
    (s.newOwner port client gen epoch dev hand).own.valid = true ∧ (s.newOwner port client gen epoch dev hand).own.port = port
      ∧ (s.newOwner port client gen epoch dev hand).own.client = client ∧ (s.newOwner port client gen epoch dev hand).own.gen = gen
      ∧ (s.newOwner port client gen epoch dev hand).own.epoch = epoch ∧ (s.newOwner port client gen epoch dev hand).own.pend = none
      ∧ (s.newOwner port client gen epoch dev hand).own.handQ = s.own.handQ := by
  unfold State.newOwner
  dsimp only
  rw [if_neg (by simp [hnone]), dif_pos hport]
  exact ⟨rfl, rfl, rfl, rfl, rfl, rfl, rfl⟩

theorem State.handGo_idle {u : State} (hpend : u.own.pend = none) (hq : u.own.handQ = none) : u.handGo = u := by
  unfold State.handGo
  rw [hpend, hq]

/-- The effect of a handover or claim with no stub to give and no handover waiting. -/
theorem recordEffect_own {port client gen epoch : Nat} (hgen : gen < 256) (href : s.own.pendRef = none)
    (hpend : (s.newOwner port client gen epoch s.own.pendDev s.own.pendHand).own.pend = none)
    (hq : (s.newOwner port client gen epoch s.own.pendDev s.own.pendHand).own.handQ = none) :
    (recordEffect port client gen epoch s).own = (s.newOwner port client gen epoch s.own.pendDev s.own.pendHand).own := by
  unfold recordEffect
  dsimp only
  rw [href, if_pos hgen, State.handGo_idle]
  · rw [State.sendRecord_own, State.postChain_own]
  · rw [State.sendRecord_own, State.postChain_own, hpend]
  · rw [State.sendRecord_own, State.postChain_own, hq]

/-- The owner is silent, or its generation has ended: there is no owner (R361, R362). -/
def ownerGone (s : State) : State :=
  let p := s.own.port
  let gen := s.own.genEnd
  let s := s.depose
  let s := { s with own := { s.own with valid := false, silent := 0, genEnd := false, beatSeen := false } }
  (s.postChain 0x79 p (b2n gen)).sendRecord

theorem exec_ownerDead (hkeeper : s.own.keeper = s.ring.num) (hvalid : s.own.valid = true) (hround : s.bnd % 4000 = 0)
    (hdead : OwnCfg.deadT s.owcfg ≤ s.own.silent ∨ s.own.genEnd = true) : exec .ownerDead s = .next (s.atBoundary ownerGone) :=
  if_neg (by rcases hdead with h | h <;> simp [hkeeper, hvalid, hround, h])

@[simp] theorem State.discardFor_own (s : State) (client : Nat) (ownerOnly : Bool) : (s.discardFor client ownerOnly).own = s.own :=
  congrArg Prod.fst (recordView_discardFor s client ownerOnly)

/-- The owner noted as deposed and its port benched, before its tickets are discarded (R362). -/
def deposedNow (s : State) (hport : s.own.port < 4) : State :=
  ({ s with own := { s.own with deposed := if s.own.deposed.contains s.own.client then s.own.deposed else s.own.deposed ++ [s.own.client] } } : State).modPort
    ⟨s.own.port, hport⟩ fun x => { x with benched := true }

theorem State.depose_own (hport : s.own.port < 4) : s.own.client ∈ s.depose.own.deposed ∧ ∀ k : OPort, k.val = s.own.port → (s.depose.own.ports[k.val]).benched = true := by
  have hdep : s.depose.own = (deposedNow s hport).own := by
    have hat : s.own.ports.toArray[s.own.port]? = some (s.own.ports[s.own.port]) := by simp [hport]
    unfold State.depose
    dsimp only
    rw [State.discardFor_own, hat]
    exact congrArg State.own (dif_pos hport)
  rw [hdep]
  refine ⟨?_, ?_⟩
  · by_cases hin : s.own.client ∈ s.own.deposed
    · simp [deposedNow, State.modPort, hin]
    · simp [deposedNow, State.modPort, hin]
  · rintro ⟨k, hk⟩ rfl
    simp [deposedNow, State.modPort, upd]

theorem ownerGone_own (hport : s.own.port < 4) : (ownerGone s).own.valid = false ∧ s.own.client ∈ (ownerGone s).own.deposed
    ∧ ∀ k : OPort, k.val = s.own.port → ((ownerGone s).own.ports[k.val]).benched = true := by
  have hown : (ownerGone s).own = { s.depose.own with valid := false, silent := 0, genEnd := false, beatSeen := false } := by
    unfold ownerGone
    dsimp only
    rw [State.sendRecord_own, State.postChain_own]
  obtain ⟨hdep, hports⟩ := State.depose_own hport
  rw [hown]
  exact ⟨rfl, hdep, hports⟩

theorem exec_lockoutEnd {port : OPort} (hlast : (s.own.ports[port.val]).remain = 1) (hround : s.bnd % 4000 = 0) : exec (.lockoutEnd port) s
    = if s.own.portsAt = s.bnd then .next s else .next (s.modPort port fun x => { x with remain := 0 }).commitPorts :=
  if_congr (by simp [hlast, hround]) rfl rfl

theorem State.modPort_congr {k : OPort} {f g : PortSt → PortSt} (h : f (s.own.ports[k.val]) = g (s.own.ports[k.val])) : s.modPort k f = s.modPort k g := by
  unfold State.modPort upd
  exact congrArg (fun x => ({ s with own := { s.own with ports := s.own.ports.set k.val x } } : State)) h

section
variable {port : OPort} {ref : TkRef}

theorem exec_portCheckEnd_failed (hcheck : (s.own.ports[port.val]).check = some ref) (hbad : (s.own.ports[port.val]).checkBad = true) :
    exec (.portCheckEnd port) s
      = .next ((s.modPort port fun x => { x with check := none, checkN := 0, checkBad := false, benched := x.benched }).final ref 0x3F 0x0003) := by
  have hport : (s.modPort port fun x => { x with check := none, checkN := 0, checkBad := false, benched := x.benched && x.checkBad })
      = s.modPort port fun x => { x with check := none, checkN := 0, checkBad := false, benched := x.benched } :=
    State.modPort_congr (by rw [hbad, Bool.and_true])
  simp only [exec, execPortCheckEnd]
  rw [hcheck]
  refine (if_neg (by simp [hbad])).trans ?_
  exact (if_pos hbad).trans (by rw [hport])

theorem exec_portCheckEnd_passed (hcheck : (s.own.ports[port.val]).check = some ref) (hgood : (s.own.ports[port.val]).checkBad = false)
    (hn : 16 ≤ (s.own.ports[port.val]).checkN) (hkeeper : s.own.keeper = s.ring.num) : exec (.portCheckEnd port) s
      = .next ((s.modPort port fun x => { x with check := none, checkN := 0, checkBad := false, benched := false }).final ref 0x00) := by
  have hport : (s.modPort port fun x => { x with check := none, checkN := 0, checkBad := false, benched := x.benched && x.checkBad })
      = s.modPort port fun x => { x with check := none, checkN := 0, checkBad := false, benched := false } :=
    State.modPort_congr (by rw [hgood, Bool.and_false])
  simp only [exec, execPortCheckEnd]
  rw [hcheck]
  refine (if_neg (by omega)).trans ((if_neg (by simp [hgood])).trans ?_)
  exact congrArg (fun u : State => Host.Outcome.next (u.final ref 0x00)) ((if_pos hkeeper).trans hport)

end

end

/-! ### The statements -/

/-- Settles O47: each packet is passed on and taken by its own rule, by a device that it names or by every one. -/
theorem ownershipPackets : Obligations.OwnershipPackets := by
  unfold Obligations.OwnershipPackets
  intro s u rx hok hw hu
  have hnum := rxPkt_num hok hu
  obtain ⟨hown, hram⟩ := rxPkt_own hok hu
  refine ⟨fun o hkeeper hbench => ⟨fun hnot => ?_, fun his hhigher hlisted => ?_⟩, fun dev epoch key hdev hepoch hkey => ⟨fun hfree => ?_, fun hfull => ?_⟩,
    fun hdst => ⟨fun dev => ?_, fun round hkeeper hbench hvalid => ⟨?_, ?_⟩, fun cl hkeeper hbench hread hhand => ⟨fun hdup => ?_, fun hnew hpend => ?_⟩⟩, fun cl d hdst hd => ?_⟩
  · refine ⟨_, exec_ownershipRecord hok hw hu, ?_⟩
    obtain ⟨hpo, hpn, hpd⟩ := recordPassed_of (u := u) rx.via o
    obtain ⟨h1, h2, h3, h4, h5, h6, h7, h8, h9⟩ := State.takeRecord_of (s := recordPassed rx.via o u) o
    rw [recordTaken_other (by rw [hnum]; exact hkeeper) hbench (by rw [hown, hnum]; exact hnot)]
    exact ⟨h1, h2, h3, h4, by rw [h5, hpo, hown], h6, h7, by rw [h8, hpn, hnum], h9⟩
  · refine ⟨_, exec_ownershipRecord hok hw hu, ?_⟩
    rw [recordTaken_keeper (by rw [hnum]; exact hkeeper) hbench (by rw [hown, hnum]; exact his) (by rw [hnum]; exact hhigher) (by rw [hnum]; exact hlisted)]
    exact congrArg (fun x : OwnSt => { x with epoch := max x.epoch o.epoch, epochNvm := max x.epochNvm o.epoch }) ((recordPassed_of (u := u) rx.via o).1.trans hown)
  · obtain ⟨-, hkept, hnvm⟩ := epochPassed_of (u := u) rx.via dev epoch key
    obtain ⟨he, hwon⟩ := epochWon_of (u := epochPassed rx.via dev epoch key u) (epoch := epoch) (key := key) (by rw [hkept, hram, hfree])
    refine ⟨_, (exec_epochCommit hok hw hu).trans (congrArg Host.Outcome.next ?_), he, by rw [hwon, hnvm]⟩
    rw [epochTaken_won (by rw [hnum]; exact hdev) (by rw [hram, hfree]) hepoch hkey, hnum]
  · obtain ⟨-, hkept, -⟩ := epochPassed_of (u := u) rx.via dev epoch key
    exact (exec_epochCommit hok hw hu).trans (congrArg Host.Outcome.next (if_pos (by rw [hkept, hram, hfull, Bool.or_true])))
  · refine congrArg Host.Outcome.next ((State.rxFor_here (k := { kind := 2, src := dev, code := 69, body := fld dev 6 0 + fld s.own.epochNvm 32 8 })
      (f := ackTaken dev) hok hw hu hdst).trans ?_)
    exact if_congr (by simp) rfl rfl
  · rw [exec_heartbeatForward, State.rxFor_here (k := beatPkt s.own.ownDev round true) hok hw hu hdst, beatTaken_of (by rw [hown, hnum]; exact hkeeper) hbench (by rw [hown]; exact hvalid) (by rw [hown])]
    rfl
  · rw [exec_heartbeatForward, State.rxFor_here (k := beatPkt s.own.ownDev round false) hok hw hu hdst, beatTaken_of (by rw [hown, hnum]; exact hkeeper) hbench (by rw [hown]; exact hvalid) (by rw [hown])]
    rfl
  · rw [exec_claimResult, State.rxFor_here (k := claimPkt cl) hok hw hu hdst, claimTaken_claim (by rw [hown, hnum]; exact hkeeper) hbench hread hhand]
    refine congrArg Host.Outcome.next (if_pos ?_)
    obtain ⟨x, hx, hsame⟩ := hdup
    exact Bool.or_eq_true_iff.mpr (Or.inl (List.any_eq_true.mpr ⟨x, hx, by simp [hsame]⟩))
  · refine ⟨claimOf cl, rfl, rfl, rfl, rfl, rfl, ?_⟩
    rw [exec_claimResult, State.rxFor_here (k := claimPkt cl) hok hw hu hdst, claimTaken_claim (by rw [hown, hnum]; exact hkeeper) hbench hread hhand]
    refine congrArg Host.Outcome.next (if_neg ?_)
    simp only [Bool.or_eq_true, List.any_eq_true, Bool.and_eq_true, beq_iff_eq, not_or, not_exists, not_and]
    exact ⟨fun x hx h1 h2 => hnew x hx ⟨h1.1, h1.2, h2⟩, hpend⟩
  · rw [exec_claimResult, State.rxFor_other (k := claimPkt cl) hok hw hu hdst hd]
    rfl

/-- Settles O48: each of the keeper's instants by the branch of its instruction. -/
theorem ownershipInstants : Obligations.OwnershipInstants := by
  unfold Obligations.OwnershipInstants
  intro s
  refine ⟨?_, exec_claimDecision, fun port client gen epoch hpend hkeeper hround hfrom hacks hepoch hport hnone hgen href hq => ?_,
    fun hkeeper hvalid hround hdead hport => ⟨_, exec_ownerDead hkeeper hvalid hround hdead, ownerGone_own (s := s.atBnd) hport⟩,
    fun port hlast hround => ⟨fun hnot => ?_, fun hdone => ?_⟩, fun port ref hcheck => ⟨exec_portCheckEnd_failed hcheck, exec_portCheckEnd_passed hcheck⟩⟩
  · rintro c x hclaims rfl hdev hnot -
    exact ⟨verified s x, rfl, exec_claimVerifyDone hclaims hdev hnot⟩
  · obtain ⟨hv, hp, hc, hg, he, hn, hh⟩ := State.newOwner_own (s := s.atBnd) client gen epoch s.own.pendDev s.own.pendHand hnone hport
    refine ⟨_, exec_ownerRecordEffect hpend hkeeper hround hfrom hacks hepoch, ?_⟩
    have hown : (s.atBoundary (recordEffect port client gen epoch)).own = (s.atBnd.newOwner port client gen epoch s.own.pendDev s.own.pendHand).own :=
      recordEffect_own (s := s.atBnd) hgen href hn (hh.trans hq)
    rw [hown]
    exact ⟨hv, hp, hc, hg, he, hn⟩
  · exact (exec_lockoutEnd hlast hround).trans (if_neg hnot)
  · exact (exec_lockoutEnd hlast hround).trans (if_pos hdone)

end Sys2Proof.Machine
end

section
/-!
WATCHDOGS, THE RTC, FUSES AND THE LOSS OF POWER (R421 to R435, R443 to R461).
-/
namespace Sys2Proof.Machine

section
variable {s : State}

/-! ### Watchdogs (R421 to R426) -/

theorem exec_wdPeriodEnd {k : Slot} (harm : (s.wd.slots[k.val]).armed = true) (hend : (s.wd.slots[k.val]).beg + 4000 * (s.wd.slots[k.val]).period ≤ s.bnd) :
    exec (.wdPeriodEnd k) s = .next ((s.modWd fun w => { w with verdicts := w.verdicts ++ [{
        slot := k.val, beg := (s.wd.slots[k.val]).beg, fin := (s.wd.slots[k.val]).beg + 4000 * (s.wd.slots[k.val]).period
        client := (s.wd.slots[k.val]).client, good := (s.wd.slots[k.val]).good }] }).modSlot k fun y =>
          { y with beg := (s.wd.slots[k.val]).beg + 4000 * (s.wd.slots[k.val]).period, good := false }) :=
  congrArg Host.Outcome.next (if_pos ⟨harm, hend⟩)

theorem exec_wdPeriodEnd_off {k : Slot} (harm : (s.wd.slots[k.val]).armed = false) : exec (.wdPeriodEnd k) s = .next s :=
  congrArg Host.Outcome.next (if_neg fun h => absurd h.1 (by simp [harm]))

/-- A verdict is given (R421). -/
def verdictGiven (k : Slot) (v : Verdict) (left : List Verdict) (u : State) : State :=
  let w := (u.modWd fun x => { x with verdicts := left }).modSlot k fun x => { x with missed := !v.good }
  (if v.good then w else w.postDev 0x80 k.val v.client).verdictOrders k.val (!v.good)

theorem exec_wdVerdict {k : Slot} {v : Verdict} (hv : s.wd.verdicts = [v]) (hslot : v.slot = k.val) (hround : s.bnd % 4000 = 0)
    (hrun : s.engineStopped = false) (hfin : v.fin ≤ s.bnd) (hleft : v.left = 0) :
    exec (.wdVerdict k) s = .next (s.atBoundary (verdictGiven k v [])) := by
  have hfind : List.find? (fun v : Verdict => v.slot == k.val) [v] = some v := List.find?_cons_of_pos (by simp [hslot])
  have hgone : s.atBnd.wd.verdicts.erase v = [] := by
    have h : s.atBnd.wd.verdicts = [v] := hv
    simp [h]
  simp only [exec, execWdVerdict]
  rw [hv, hfind]
  refine (if_neg (by simp [hround, hrun, hfin, hleft])).trans (congrArg Host.Outcome.next ?_)
  exact State.atBoundary_congr (f := fun u => verdictGiven k v (u.wd.verdicts.erase v) u) (congrArg (fun l => verdictGiven k v l s.atBnd) hgone)

theorem exec_hostRstRelease {b : Nat} (hb : s.pwr.hostRst = some b) :
    exec .hostRstRelease s = .next (if s.bnd < b then s else { s with pwr := { s.pwr with hostRst := none } }) := by
  simp only [exec, execHostRstRelease]
  rw [hb, apply_ite Host.Outcome.next]

section
variable {d : Cd}

theorem exec_coreWdExpiry (hgrace : s.wd.grace[d.ix.val] = none) : exec (.coreWdExpiry d) s = if s.wd.halted[d.ix.val] = true then .next (s.postDie 0x82 d.ix.val)
    else .next ((s.modWd fun w => { w with restart := w.restart.set d.ix.val true d.ix.isLt }).postDie 0x81 d.ix.val) := by
  have hset : s.wd.grace.set d.ix.val none d.ix.isLt = s.wd.grace := by rw [← hgrace, Vector.set_getElem_self]
  have hsame : (s.modWd fun w => { w with grace := w.grace.set d.ix.val none d.ix.isLt }) = s :=
    congrArg (fun g => ({ s with wd := { s.wd with grace := g } } : State)) hset
  have hexec : exec (.coreWdExpiry d) s = if (s.wd.grace[d.ix.val]).any (fun b => decide (s.time.clk < b)) = true then .next s
      else (fun u : State => if u.wd.halted[d.ix.val] = true then .next (u.postDie 0x82 d.ix.val)
        else .next ((u.modWd fun w => { w with restart := w.restart.set d.ix.val true d.ix.isLt }).postDie 0x81 d.ix.val))
        (s.modWd fun w => { w with grace := w.grace.set d.ix.val none d.ix.isLt }) := rfl
  rw [hexec, if_neg (by simp [hgrace]), hsame]

theorem exec_coreWdExpiry_grace {b : Nat} (hgrace : s.wd.grace[d.ix.val] = some b) (hb : s.time.clk < b) : exec (.coreWdExpiry d) s = .next s :=
  if_pos (by rw [hgrace]; simp [hb])

end

/-! ### The RTC (R427 to R435) -/

theorem exec_rtcEdge_set (hset : s.wd.setPend = true) : exec .rtcEdge s
    = .next ((s.modWd fun w => { w with stopped := false, compDone := (w.compDone + 1) % 2097152, setPend := false, pre := 0, wakeN := 0, shiftPend := []
                                        withhold := w.withhold + w.drops, shifting := w.shifting || decide (0 < w.drops) }).prescale s.wd.adds) := by
  refine (if_pos hset).trans ?_
  simp only [State.modWd, hset, if_true]

theorem exec_rtcEdge_withheld (hset : s.wd.setPend = false) (hhold : 0 < s.wd.withhold + s.wd.drops) : exec .rtcEdge s
    = .next ((s.modWd fun w => { w with stopped := false, compDone := (w.compDone + 1) % 2097152, shiftPend := [], withhold := w.withhold + w.drops - 1
                                        shifting := w.shifting || decide (0 < w.drops) }).prescale s.wd.adds) := by
  refine (if_neg (by simp [hset])).trans ((if_pos hhold).trans ?_)
  simp only [State.modWd, hset, Bool.false_eq_true, if_false]

theorem exec_rtcEdge_count (hset : s.wd.setPend = false) (hhold : s.wd.withhold = 0) (hdrops : s.wd.drops = 0) : exec .rtcEdge s
    = .next ((s.modWd fun w => { w with stopped := false, compDone := (w.compDone + 1) % 2097152, shiftPend := [] }).prescale
        (1 + rtcStep s.wd.comp s.wd.compDone + s.wd.adds).toNat) := by
  refine (if_neg (by simp [hset])).trans ((if_neg (by simp [State.modWd, hhold, hdrops])).trans ?_)
  simp [State.modWd, hset, hhold, hdrops]

theorem clampI_within {lo hi : Int} (h : lo ≤ hi) (x : Int) : lo ≤ clampI lo hi x ∧ clampI lo hi x ≤ hi := by
  unfold clampI
  omega

theorem exec_vrtcSwitch_lost {u : State} (h : s.vbakUp = (false, u)) : exec (.vrtcSwitch true) s = .next u.loseVrtc := by
  simp only [exec, execVrtcSwitch, if_true, h, Bool.not_false]

theorem exec_vrtcSwitch {b : Bool} {u : State} (h : (b = false ∧ u = s) ∨ (b = true ∧ s.vbakUp = (true, u))) :
    exec (.vrtcSwitch b) s = .next (if u.running = true then (u.modWd fun w => { w with supply := b }).postDev 0x84 (b2n b)
      else u.modWd fun w => { w with supply := b, rtcPosted := some b }) := by
  rcases h with ⟨rfl, rfl⟩ | ⟨rfl, h⟩
  · rw [apply_ite Host.Outcome.next]
    rfl
  · simp only [exec, execVrtcSwitch, if_true, h, Bool.not_true, Bool.false_eq_true, if_false]
    rw [apply_ite Host.Outcome.next]
    rfl

theorem vbakUp_running {b : Bool} {u : State} (h : s.vbakUp = (b, u)) : u.running = s.running := by
  unfold State.vbakUp at h
  dsimp only at h
  split at h
  · rw [← (Prod.mk.inj h).2]
  · rw [← (Prod.mk.inj h).2]
    rfl

/-! ### Fuses and the loss of power (R443, R444, R451, R457) -/

/-- The stub of an ended fuse write: OK, or FAULT 4 with the row that fell short. -/
def fuseStubOf (w : FuseWr) : Option Nat → Stub
  | none => { ref := w.ref, status := 0x00 }
  | some k => { ref := w.ref, status := 0x3F, extra := 0x0004, value := k }

theorem exec_fuseWriteDone {w : FuseWr} {ok : Bool} {u : State} {r : Option Nat} (hw : s.nvm.fuse = some w)
    (hp : s.programAll (fuseDies w.die w.row) w.row w.data ok = (r, u)) :
    exec (.fuseWriteDone ok) s = .next { u with nvm := { u.nvm with fuse := none, fuseStub := some (fuseStubOf w r) } } := by
  simp only [exec, execFuseWriteDone, hw, hp]
  cases r with
  | none => rfl
  | some => rfl

/-- The secrets are void and debug access is open (R457). -/
def debugOpened (s : State) : State := { s.voidSecrets.voided with nvm := { s.voidSecrets.voided.nvm with debugOpen := true } }

theorem State.voided_nvm (s : State) : s.voided.nvm = { s.nvm with void := true, voiding := none } := by
  unfold State.voided
  rw [State.postDev_nvm, State.commitCount_eq]

theorem debugOpened_of (s : State) : (debugOpened s).nvm.debugOpen = true ∧ (debugOpened s).nvm.void = true ∧ (debugOpened s).nvm.voiding = none := by
  unfold debugOpened
  rw [State.voided_nvm]
  exact ⟨rfl, rfl, rfl⟩

theorem State.tearFuse_fuse (s : State) : s.tearFuse.nvm.fuse = none := by
  unfold State.tearFuse
  split
  next h => exact h
  next => rfl

/-- The loss of power: the fuse write under way is torn, and the open commit is closed or undone (R451, R461). -/
def powerFailed (s : State) : State :=
  let s : State := { s.tearFuse with pwr := { s.tearFuse.pwr with powerFail := true } }
  let d := s.draw 2
  if s.log.prev.isNone then s else if d.1 = 0 then d.2.uncommit else { d.2 with log := { d.2.log with prev := none } }

theorem State.uncommit_of (s : State) : s.uncommit.pwr = s.pwr ∧ s.uncommit.nvm.fuse = s.nvm.fuse ∧ s.uncommit.log.prev = none := by
  unfold State.uncommit
  split
  next => exact ⟨rfl, rfl, rfl⟩
  next h => exact ⟨rfl, rfl, h⟩

theorem powerFailed_of (s : State) : (powerFailed s).pwr.powerFail = true ∧ (powerFailed s).nvm.fuse = none ∧ (powerFailed s).log.prev = none := by
  have hfuse := s.tearFuse_fuse
  unfold powerFailed
  extract_lets torn pwr u d
  obtain ⟨hpwr, hkept, hprev⟩ := d.2.uncommit_of
  split
  next h => exact ⟨rfl, hfuse, by simpa using h⟩
  next =>
    split
    · exact ⟨congrArg PwrSt.powerFail hpwr, hkept.trans hfuse, hprev⟩
    · exact ⟨rfl, hfuse, rfl⟩

end

/-! ### The statements -/

/-- Settles O49: periods, verdicts, HOST_RST and the core watchdogs, each by its branch. -/
theorem watchdogInstants : Obligations.WatchdogInstants := by
  unfold Obligations.WatchdogInstants
  intro s
  refine ⟨fun k => ⟨exec_wdPeriodEnd, exec_wdPeriodEnd_off⟩, fun k v => exec_wdVerdict, fun b => exec_hostRstRelease, fun d => ⟨fun hgrace hhalt => ⟨_, (exec_coreWdExpiry hgrace).trans (if_neg (by simp [hhalt])), rfl, ?_⟩,
    fun hgrace hhalt => (exec_coreWdExpiry hgrace).trans (if_pos hhalt), fun b => exec_coreWdExpiry_grace, rfl, fun h => if_pos h, fun h => if_neg (by simp [h]), fun h => if_pos h⟩⟩
  simp [State.modWd]

/-- Settles O50: an edge, the compensation's window, the calendar's end, the crystal, the supply and the shadows, each by its branch. -/
theorem rtcInstants : Obligations.RtcInstants := by
  unfold Obligations.RtcInstants
  intro s
  refine ⟨exec_rtcEdge_set, exec_rtcEdge_withheld, exec_rtcEdge_count, fun h => if_neg (by simp [h]), ⟨_, rfl, rfl, (clampI_within (by decide) _).1, (clampI_within (by decide) _).2, rfl⟩,
    fun hend hnot => if_pos ⟨hend, hnot⟩, fun h => if_neg (by simp [h]), fun h => if_pos h, fun hw hn hs => if_neg (by simp [hw, hn, hs]), fun u => exec_vrtcSwitch_lost, fun b u h => ?_,
    fun path => ⟨_, rfl, rfl, rfl, rfl, rfl, rfl, rfl, rfl⟩, fun path => rfl, fun path hf hdue => if_pos (by simp [hf, hdue])⟩
  have hrun : u.running = s.running := by
    rcases h with ⟨-, rfl⟩ | ⟨-, h⟩
    · rfl
    · exact vbakUp_running h
  rw [exec_vrtcSwitch h, hrun]

/-- Settles O51: the end of a fuse write by its result, the voiding by its verification, and the loss of power by what it tears. -/
theorem fuseInstants : Obligations.FuseInstants := by
  unfold Obligations.FuseInstants
  intro s
  refine ⟨fun w ok u hw => ⟨exec_fuseWriteDone hw, fun k => exec_fuseWriteDone hw⟩, fun ref href => ⟨?_, debugOpened s, ?_, debugOpened_of s⟩, fun hnone => ⟨debugOpened s, ?_, debugOpened_of s⟩,
    ⟨powerFailed s, rfl, powerFailed_of s⟩⟩
  · simp only [exec, execVoidingDone]
    rw [href]
    rfl
  · simp only [exec, execVoidingDone]
    rw [href]
    rfl
  · simp only [exec, execVoidingDone]
    rw [hnone]
    rfl

end Sys2Proof.Machine
end

section
/-!
THE TICKS (R27 to R30). A beat tick starts the next beat; the frame and the round tick do their work at the boundary at hand only, and
leave the count to the beat tick.
-/
namespace Sys2Proof.Machine

/-- Settles O55: each tick by its boundary. -/
theorem ticks : Obligations.Ticks := by
  unfold Obligations.Ticks
  intro s
  refine ⟨fun i => ⟨_, rfl, execBeatTick_clk i s _ rfl, rfl⟩, fun i hframe => ⟨_, if_pos hframe, State.atBoundary_clk _ _, rfl⟩, fun i hframe => if_neg hframe,
    fun i hround => ⟨_, if_pos hround, State.atBoundary_clk _ _, rfl⟩, fun i hround => if_neg hround⟩

end Sys2Proof.Machine
end

section
/-!
REGISTER AND SPI ACCESSES (R32, R310, R331, R505 to R508). A read puts the part of the register's word on the bus, after the path's
shadows moved, and over BAR0 clears the fields it covers; an SPI read of one aligned word gathers that word alone.
-/
namespace Sys2Proof.Machine
variable {s : State}

/-! ### Register reads -/

/-- What a read leaves: the word of `u` on the bus of `t`, and over BAR0 the fields that the read clears. -/
def readAnswer (path : Path) (off size : Nat) (u t : State) : State :=
  let v : State := t.setBus (part (u.busWord path (off / 4 * 4)) off size)
  if path = .bar0 then v.clearRc off size else v

theorem State.reg_clkLo (s : State) (path : Path) : s.reg path 0x0110 = if s.time.counting then s.time.clk % 2 ^ 32 else 0 := if_neg (by simp)

theorem State.readShadow_none (path : Path) {off : Nat} (h : off ≠ 0x0110 ∧ off ≠ 0x0520 ∧ off / 4 ≠ 0x0524 / 4) : s.readShadow path off = s := by
  simp [State.readShadow, h]

theorem exec_rcFieldRead {path : Path} {off size : Nat} (hup : s.pathUp path = true) (hok : accessOk off size = true) :
    exec (.rcFieldRead path off size) s = .next (readAnswer path off size (if off = 0x0520 then s.readShadow path off else s) (s.readShadow path off)) :=
  (if_neg (by simp [hup])).trans (if_neg (by simp [hok]))

theorem exec_rcFieldRead_plain {path : Path} {off size : Nat} (hup : s.pathUp path = true) (hok : accessOk off size = true)
    (h : off ≠ 0x0110 ∧ off ≠ 0x0520 ∧ off / 4 ≠ 0x0524 / 4) : exec (.rcFieldRead path off size) s = .next (readAnswer path off size s s) := by
  rw [exec_rcFieldRead hup hok, if_neg h.2.1, State.readShadow_none path h]

theorem State.busWord_turnstile {c : Nat} (hc : c < 4096) (hin : s.inRange c = true) :
    s.busWord .bar0 (0x4000 + 4 * c) = fld (s.client c).tktHead 16 0 + fld (s.client c).stubTail 16 16 := by
  have hix : (0x4000 + 4 * c - 0x4000) / 4 = c := by omega
  unfold State.busWord
  rw [if_neg (by omega), if_neg (by simp), if_neg (by omega), if_neg (by omega), if_neg (by omega), if_pos ⟨by omega, by omega, by rw [hix]; exact hin⟩, hix]

theorem part_word {w off : Nat} (hoff : off % 4 = 0) (hw : w < 2 ^ 32) : part w off 4 = w := by
  unfold part
  rw [hoff]
  omega

theorem fld_halves_lt (a b : Nat) : fld a 16 0 + fld b 16 16 < 2 ^ 32 := by
  unfold fld
  omega

theorem fld_halves_low (a b : Nat) : (fld a 16 0 + fld b 16 16) % 2 ^ 16 = a % 2 ^ 16 := by
  unfold fld
  omega

theorem readAnswer_bus (path : Path) (off size : Nat) (u t : State) :
    (readAnswer path off size u t).host.bus = some (part (u.busWord path (off / 4 * 4)) off size) := by
  unfold readAnswer
  split
  · rfl
  · rfl

theorem exec_turnstileRead {c : Nat} (hup : s.pathUp .bar0 = true) (hc : c < 4096) (hin : s.inRange c = true) :
    ∃ t : State, exec (.rcFieldRead .bar0 (0x4000 + 4 * c) 4) s = .next t ∧ t.host.bus = some (fld (s.client c).tktHead 16 0 + fld (s.client c).stubTail 16 16) := by
  refine ⟨_, exec_rcFieldRead_plain hup ?_ (by omega), (readAnswer_bus _ _ _ _ _).trans ?_⟩
  · have : (0x4000 + 4 * c) % 4 = 0 := by omega
    simp [accessOk, this]
  · have hword : (0x4000 + 4 * c) / 4 * 4 = 0x4000 + 4 * c := by omega
    rw [hword, State.busWord_turnstile hc hin, part_word (by omega) (fld_halves_lt _ _)]

theorem exec_staleRead (hup : s.pathUp .bar0 = true) :
    exec (.rcFieldRead .bar0 0x0218 2) s = .next { s with host := { s.host with bus := some (s.host.stale % 2 ^ 16), busUr := false, stale := 0 } } := by
  have hreg : s.busWord .bar0 0x0218 = fld s.host.stale 16 0 + fld s.host.badTs 16 16 := (if_pos (by decide)).trans (if_neg (by simp))
  have hword : part (s.busWord .bar0 0x0218) 0x0218 2 = s.host.stale % 2 ^ 16 := by
    rw [hreg, ← fld_halves_low s.host.stale s.host.badTs]
    simp [part]
  refine (exec_rcFieldRead_plain hup rfl (by decide)).trans (congrArg Host.Outcome.next ?_)
  exact congrArg (fun w : Nat => ((s.setBus w).clearRc 0x0218 2)) hword

/-! ### Register writes and the restart (R474) -/

theorem exec_registerWrite {path : Path} {off size v : Nat} (hup : s.pathUp path = true) (hwf : Instr.wf (.registerWrite path off size v) = true) :
    exec (.registerWrite path off size v) s
      = if accessOk off size = false then .next (if path = .bar0 then s.unsupported else s) else .next (s.regWrite path off size v) := by
  refine (if_neg ?_).trans (if_neg (by simp [hup]))
  simp [Instr.wf, Instr.ticket] at hwf
  obtain ⟨⟨⟨-, hctl⟩, hrestart⟩, hturn⟩ := hwf
  rintro (⟨hoff, hpath⟩ | h | h)
  · exact hctl.elim (· hoff) (· hpath)
  · omega
  · omega

theorem exec_startCtlRestart {path : Path} {v : Nat} (hup : s.pathUp path = true) (hpath : path = .bar0 ∨ s.ring.num = 0) :
    exec (.startCtlRestart path v) s = .next (s.startCtl v) := if_pos ⟨hup, hpath⟩

/-! ### The SPI (R506 to R508) -/

theorem exec_spiWrite {p : Port} {addr crc : Nat} {data : List Nat} (hup : s.pathUp (spiPath p) = true) (hnum : s.ring.num = 0) (hlen : data.length ≤ 2048) :
    exec (.spiWrite p addr data crc) s = if crc8 ([0x01, addr / 256, addr] ++ data) ≠ crc then .next (s.spiBad p) else .next (s.spiApply p (addr % 65536) data) :=
  if_neg (by simp [hup, hnum]; omega)

theorem wordsOf_one {w : Nat} (hw : w % 4 = 0) : wordsOf w 4 = [w] := by
  have hcount : (w + 4 + 3) / 4 - w / 4 = 1 := by omega
  have hword : w / 4 * 4 = w := by omega
  simp [wordsOf, hcount, hword]

theorem runPart_one (w : Nat) : runPart w 4 w = (w, 4) := by simp [runPart]

theorem State.spiWord_plain {p : Port} {w : Nat} (hlt : w < 0x1000) (hclk : w ≠ 0x0110) (h0 : w ≠ 0x0520) (h1 : w ≠ 0x0524) :
    s.spiWord p w w = (s.reg (spiPath p) w, s) := by
  simp [State.spiWord, hlt, hclk, h0, h1]

theorem exec_spiRead_word {p : Port} {w : Nat} (hup : s.pathUp (spiPath p) = true) (hw : w % 4 = 0) (hlt : w < 0x1000) (hclk : w ≠ 0x0110) (h0 : w ≠ 0x0520) (h1 : w ≠ 0x0524) :
    exec (.spiRead p w 4) s = .next (s.modWin (spiClient p) fun x =>
      { x with out := leBytes 4 (s.reg (spiPath p) w) ++ [crc8 ([0x02, w / 256, w % 256] ++ leBytes 4 (s.reg (spiPath p) w))] }) := by
  have haddr : w % 65536 = w := by omega
  refine (if_neg (by simp [hup])).trans ?_
  simp [haddr, wordsOf_one hw, runPart_one, State.spiWord_plain hlt hclk h0 h1]

theorem State.winOf_modWin (s : State) (p : Port) (f : SpiWin → SpiWin) : (s.modWin (spiClient p) f).winOf (spiClient p) = f (s.winOf (spiClient p)) := by
  cases p with
  | a => exact upd_self s.host.win 0 f
  | b => exact upd_self s.host.win 1 f

/-! ### The statements -/

/-- Settles O53: reads by the path's shadow, writes by the access, the restart by the state it acts in. -/
theorem registerAccess : Obligations.RegisterAccess := by
  unfold Obligations.RegisterAccess
  intro s path hup
  refine ⟨?_, fun off size hok => ⟨fun hclk h0 h1 => exec_rcFieldRead_plain hup hok ⟨hclk, h0, h1⟩, fun hoff => ?_, fun hoff => ⟨_, rfl, ?_⟩, fun hoff => ⟨_, rfl, ?_⟩⟩,
    fun c hpath hc hin => ?_, fun hpath => ?_, fun off size hpath hbad => if_pos ⟨hpath ▸ hup, hbad⟩, fun off size v hwf => ⟨fun hok => ?_, fun hbad hpath => ?_⟩,
    fun v hpath => ⟨fun hgo hkey hstate => ?_, fun hbarker himg => ?_⟩⟩
  · exact (if_pos hup).trans (congrArg (fun w => Host.Outcome.next ((s.captureClk path).setBus w)) (s.reg_clkLo path))
  · subst hoff
    exact exec_rcFieldRead hup hok
  · subst hoff
    exact exec_rcFieldRead hup hok
  · have hne : off ≠ 0x0110 ∧ off ≠ 0x0520 := by omega
    refine (exec_rcFieldRead hup hok).trans ?_
    rw [if_neg hne.2]
    simp only [State.readShadow, if_neg hne.1, if_neg hne.2, if_pos hoff]
    rfl
  · subst hpath
    exact exec_turnstileRead hup hc hin
  · subst hpath
    exact exec_staleRead hup
  · exact (exec_registerWrite hup hwf).trans (if_neg (by simp [hok]))
  · exact (exec_registerWrite hup hwf).trans ((if_pos hbad).trans (congrArg Host.Outcome.next (if_pos hpath)))
  · obtain ⟨hcause, hstep, hnum, -, -⟩ := s.resetTo_of 4 3
    exact ⟨s.resetTo 4 3, (exec_startCtlRestart hup hpath).trans (congrArg Host.Outcome.next (if_pos ⟨hgo, hkey, hstate⟩)), hcause, hstep, rfl, hnum⟩
  · exact (exec_startCtlRestart hup hpath).trans (congrArg Host.Outcome.next (if_neg (by simp [hbarker, himg])))

/-- Settles O54: a write by its CRC-8 and the device, a read of one aligned word by the words it gathers. -/
theorem spiAccess : Obligations.SpiAccess := by
  unfold Obligations.SpiAccess
  intro s p addr data crc hup
  refine ⟨fun hnum hlen hcrc => (exec_spiWrite hup hnum hlen).trans (if_neg (not_not.mpr hcrc)), fun hnum hlen hcrc => (exec_spiWrite hup hnum hlen).trans (if_pos hcrc),
    fun hnum => if_pos (.inl hnum), fun w hw hlt hclk h0 h1 => ⟨_, exec_spiRead_word hup hw hlt hclk h0 h1, rfl, ?_⟩⟩
  exact congrArg SpiWin.out (s.winOf_modWin p _)

end Sys2Proof.Machine
end

section
/-!
START-UP (R445, R462 to R472, R497, R502). One equation a step; what the posts, the bench of a die and the barker state leave of the
start-up record is stated once.
-/
namespace Sys2Proof.Machine
variable {s : State}

/-! ### What the operations leave of the start-up record, the host link and the count -/

/-- The start-up record, the host link and the clock. -/
def State.startView (s : State) : StartSt × HostSt × TimeSt := (s.start, s.host, s.time)

theorem State.snsUnmark_startView (s : State) (r : Rail) (d : Cd) : (s.snsUnmark r d).startView = s.startView := by
  unfold State.snsUnmark
  split
  · simp [State.startView]
  · rfl

theorem State.snsUnmarkAll_startView (s : State) (d : Cd) : (s.snsUnmarkAll d).startView = s.startView :=
  foldl_keeps_view (f := State.startView) (fun u r => State.snsUnmark_startView u r d) _ _

theorem State.postDie_startView (s : State) (code d a0 a1 a2 : Nat) : (s.postDie code d a0 a1 a2).startView = s.startView := by simp [State.startView]

theorem State.benchDie_startView (s : State) (d : Cd) (cause : Nat) : (s.benchDie d cause).startView = s.startView := by
  have hconv (u : State) (c : Conv) : (u.convBench c).startView = u.startView := rfl
  have hview (u : State) (p : Ph) : (u.setView d p (u.phAt p).st).startView = u.startView := rfl
  unfold State.benchDie
  split
  · rfl
  · simp only [State.postDie_startView, hconv, State.snsUnmarkAll_startView]
    exact foldl_keeps_view (f := State.startView) hview _ _

theorem State.hkAllOff_startView (s : State) : s.hkAllOff.startView = s.startView := by
  unfold State.hkAllOff
  refine foldl_keeps_view (f := State.startView) ?_ _ _
  exact fun _ _ => rfl

theorem State.postDev_startView (s : State) (code a0 a1 a2 : Nat) : (s.postDev code a0 a1 a2).startView = s.startView := by simp [State.startView]

theorem State.enterBarker_startView (s : State) : s.enterBarker.startView = ({ s.start with barker := true }, s.host, s.time) := by
  have hload (u : State) : u.meterLoad.startView = u.startView := by dsimp only [State.meterLoad, State.startView]
  unfold State.enterBarker
  split
  next h =>
    have hstart : ({ s.start with barker := true } : StartSt) = s.start := by rw [← h]
    rw [hstart]
    rfl
  next =>
    dsimp only
    rw [State.postDev_startView, hload, State.hkAllOff_startView]
    rfl

/-! ### VAON and the always-on block (R463, R465) -/

theorem State.rtcFault_start (s : State) : s.rtcFault.start = s.start := by
  unfold State.rtcFault
  split
  · simp
  · rfl

theorem State.loseVrtc_start (s : State) : s.loseVrtc.start = s.start := State.rtcFault_start _

/-- The state that VAON's rise starts from: ship mode's state at its end, else that of a reset. -/
def vaonFrom (i : VaonIn) (s : State) : State :=
  let s := if s.start.step == 1 && s.start.cause == 3 then s.modStart (fun x => { x with step := 0 }) else s.resetTo (if i.kept then 1 else 0) 0
  if i.kept then s else s.loseVrtc

theorem vaonFrom_cause (i : VaonIn) (s : State) :
    (vaonFrom i s).start.cause = if s.start.step = 1 ∧ s.start.cause = 3 then 3 else if i.kept then 1 else 0 := by
  unfold vaonFrom
  extract_lets u
  have hcause : u.start.cause = if s.start.step = 1 ∧ s.start.cause = 3 then 3 else if i.kept then 1 else 0 := by
    by_cases hship : s.start.step = 1 ∧ s.start.cause = 3
    · have hu : u = s.modStart fun x => { x with step := 0 } := if_pos (by simp [hship])
      rw [hu, if_pos hship]
      exact hship.2
    · have hu : u = s.resetTo (if i.kept then 1 else 0) 0 := if_neg (by simpa using hship)
      rw [hu, if_neg hship]
      rfl
  rw [← hcause]
  split
  · rfl
  · rw [State.loseVrtc_start]

theorem exec_vaonRise {i : VaonIn} (h : s.pwr.vaonOk = false ∨ s.start.step < 2) :
    exec (.vaonRise i) s = .next { vaonFrom i s with
      pwr := { (vaonFrom i s).pwr with vaonOk := true, supEn := true, cid := i.cid % 64, testEn := i.testEn }
      start := { (vaonFrom i s).start with step := 2 } } := by
  refine if_neg ?_
  rintro ⟨hok, hstep⟩
  rcases h with h | h
  · simp [h] at hok
  · omega

/-- The state after the always-on block's own checks: what was lost is cleared, and a stopped crystal leaves no time. -/
def aonChecked (mem xtal : Bool) (s : State) : State :=
  let s := if !mem || s.start.cause == 0 then s.retainedLost else s
  let s := s.modWd fun w => { w with rstCnt := max w.rstCnt w.rstNvm, stopped := !xtal }
  if xtal then s else (s.modWd fun w => { w with faultPend := true, valid := false, cal := {}, pre := 0, ended := false })

/-- The reports of the RTC's supply and fault that wait for start-up. -/
def rtcReported (s : State) : State :=
  let s := match s.wd.rtcPosted with
    | some b => s.postDev 0x84 (b2n b)
    | none => s
  if s.wd.faultPend then s.postDev 0x85 else s

theorem exec_startupAonDone {mem xtal : Bool} (h : s.start.step = 2) :
    exec (.startupAonDone mem xtal) s = .next (((rtcReported (aonChecked mem xtal s).gaugeResume).modWd fun w =>
      { w with rtcPosted := none, faultPend := false }).modStart fun x => { x with step := 3, aonLost := !mem || x.cause == 0 }) :=
  if_neg (not_not.mpr h)

theorem aonChecked_of (mem xtal : Bool) (s : State) :
    (aonChecked mem xtal s).start = s.start ∧ (aonChecked mem xtal s).wd.stopped = !xtal
      ∧ (mem = true → s.start.cause ≠ 0 → (aonChecked mem xtal s).wd.rstCnt = max s.wd.rstCnt s.wd.rstNvm)
      ∧ (xtal = false → (aonChecked mem xtal s).wd.valid = false ∧ (aonChecked mem xtal s).wd.cal = {}) := by
  unfold aonChecked
  extract_lets u v
  have hstart : v.start = s.start := by
    unfold v u
    split
    · rfl
    · rfl
  have hcnt (hmem : mem = true) (hcause : s.start.cause ≠ 0) : v.wd.rstCnt = max s.wd.rstCnt s.wd.rstNvm := by
    unfold v u
    rw [if_neg (by simp [hmem, hcause])]
    rfl
  cases xtal with
  | true => exact ⟨hstart, rfl, hcnt, nofun⟩
  | false => exact ⟨hstart, rfl, hcnt, fun _ => ⟨rfl, rfl⟩⟩

theorem gaugeResume_kept (s : State) : s.gaugeResume.start = s.start ∧ s.gaugeResume.wd = s.wd := by
  unfold State.gaugeResume
  split
  · exact ⟨rfl, rfl⟩
  · exact ⟨rfl, rfl⟩

theorem rtcReported_kept (s : State) : (rtcReported s).start = s.start ∧ (rtcReported s).wd = s.wd := by
  unfold rtcReported
  extract_lets u
  have hu : u.start = s.start ∧ u.wd = s.wd := by
    unfold u
    split
    · simp
    · exact ⟨rfl, rfl⟩
  split
  · simpa using hu
  · exact hu

/-! ### The OTP check (R445, R466) -/

theorem eccPosts_eq (l : List (Nat × Nat)) (s : State) :
    ∃ ring log, l.foldl (fun (s : State) e => s.postDie 0x8B e.1 e.2) s = { s with ring := ring, log := log } ∧ ring.num = s.ring.num := by
  induction l generalizing s with
  | nil => exact ⟨s.ring, s.log, rfl, rfl⟩
  | cons e l ih =>
    obtain ⟨ring, log, heq, hnum⟩ := ih (s.postDie 0x8B e.1 e.2)
    refine ⟨ring, log, heq.trans ?_, hnum.trans ?_⟩
    · rw [State.postDie_eq]
    · rw [State.postDie_ring]

/-- The check of rows that hold no void order: an unsound OTP under the hold policy keeps both dies in reset, a sound one goes on with its safety net. -/
theorem otpCheck_of (hstep : s.start.step = 3) (hreset : s.nvm.inReset = false) (hvoid : s.voidRow = false) :
    (s.integrityBad = true → s.holdPolicy = true → ∃ v : State, execOtpCheck s = .next v ∧ v.nvm.inReset = true ∧ v.nvm.result = 2 ∧ v.start.step = 3)
      ∧ (s.integrityBad = false → ∃ v : State, execOtpCheck s = .next v ∧ v.start.step = 4 ∧ v.ring.num = s.pwr.cid % 64 ∧ v.nvm.inReset = false ∧ v.nvm.result < 2
        ∧ v.cfg.netOrders = s.netOtp ∧ v.host.islA = true ∧ v.host.islB = true) := by
  unfold execOtpCheck
  rw [if_neg (by simp [hstep, hreset])]
  extract_lets ecc ring₀ s₀ s₁ s₂ bad nvm s₃ nvm₃ net host cfg s₄ s₅
  obtain ⟨ring, log, hs₁, hnum⟩ := eccPosts_eq ecc s₀
  have hread : ({ s₀ with ring := ring, log := log } : State).voidRow = false := hvoid
  have hs₂ : s₂ = { s₀ with ring := ring, log := log } := by
    unfold s₂ s₁
    rw [hs₁]
    exact if_neg (by simp [hread])
  clear_value s₂
  subst hs₂
  refine ⟨fun hbad hhold => ?_, fun hsound => ?_⟩
  · have hb : bad = true := hbad
    have hh : s₃.holdPolicy = true := hhold
    have hres : s₃.nvm.result = 2 := if_pos hb
    rw [if_pos (by simp [hb, hh])]
    exact ⟨_, rfl, rfl, hres, hstep⟩
  · have hb : bad = false := hsound
    have hres : s₃.nvm.result < 2 := by
      have : s₃.nvm.result = if ecc.isEmpty then 0 else 1 := if_neg (by simp [hb])
      rw [this]
      split
      · decide
      · decide
    have hs₅ : s₅ = s₄ := if_neg (by simp [hb])
    have hnet : net = s.netOtp := if_neg (by simp [hb])
    rw [if_neg (by simp [hb]), hs₅]
    exact ⟨_, rfl, rfl, hnum, rfl, hres, hnet, rfl, rfl⟩

/-! ### The self-tests (R469, R470) -/

/-- The results of the self-tests noted and reported; a device SPI that failed takes its island down. -/
def selfTested (a b p : Nat) (s : State) : State :=
  let s := s.modStart fun x => { x with failA := a, failB := b, failP := p, doneA := true, doneB := true, doneP := true }
  let s := ((s.postFails 0 a).postFails 1 b).postFails 2 p
  { s with host := { s.host with islA := !bit a 7, islB := !bit b 7 } }

/-- Die `d` drives alone, the other die benched by its self-test. -/
def oneDieDrives (d : Cd) (s : State) : State :=
  let s := (s.benchDie d.other 7).setDie d .active
  let s := s.setBias d true
  { s with arb := { s.arb with active := some d, engine := d, engineMove := false } }

/-- Die A drives and Die B stands by. -/
def bothDiesDrive (s : State) : State :=
  let s := ((s.setDie .a .active).setDie .b .standby).setBias .a true
  let s := s.setBias .b true
  { s with arb := { s.arb with active := some .a, engine := .a } }

/-- Who drives after the self-tests. -/
def dieChosen (a b p : Nat) (s : State) : State :=
  if decide (p ≠ 0) || (decide (a % 128 ≠ 0) && decide (b % 128 ≠ 0)) || s.nvm.result == 2 then s.enterBarker
  else if decide (a % 128 ≠ 0) then oneDieDrives .b s
  else if decide (b % 128 ≠ 0) then oneDieDrives .a s
  else bothDiesDrive s

theorem exec_selfTestDone {a b p fa fb fp : Nat} (hstep : s.start.step = 4) (ha : fa = if s.pwr.testEn then 0xBF else a &&& 0xBF)
    (hb : fb = if s.pwr.testEn then 0xBF else b &&& 0xBF) (hp : fp = if s.pwr.testEn then 0x5F else p &&& 0x5F) :
    exec (.selfTestDone a b p) s = .next ((dieChosen fa fb fp (selfTested fa fb fp s)).modStart fun x =>
      { x with step := 5, enter5 := (dieChosen fa fb fp (selfTested fa fb fp s)).time.clk }) := by
  subst ha hb hp
  exact if_neg (not_not.mpr hstep)

theorem State.postFails_kept (s : State) (die mask : Nat) :
    (s.postFails die mask).startView = s.startView ∧ (s.postFails die mask).nvm = s.nvm := by
  refine ⟨foldl_keeps_view (f := State.startView) (fun u k => ?_) _ _, foldl_keeps_view (f := State.nvm) (fun u k => State.postDie_nvm _ _ _ _ _ _) _ _⟩
  simp [State.startView]

section
variable (a b p : Nat)

theorem selfTested_of (s : State) :
    (selfTested a b p s).startView = ({ s.start with failA := a, failB := b, failP := p, doneA := true, doneB := true, doneP := true },
      { s.host with islA := !bit a 7, islB := !bit b 7 }, s.time) ∧ (selfTested a b p s).nvm = s.nvm := by
  unfold selfTested
  extract_lets u v
  have hview : v.startView = u.startView := (State.postFails_kept _ 2 p).1.trans ((State.postFails_kept _ 1 b).1.trans (State.postFails_kept _ 0 a).1)
  have hnvm : v.nvm = u.nvm := (State.postFails_kept _ 2 p).2.trans ((State.postFails_kept _ 1 b).2.trans (State.postFails_kept _ 0 a).2)
  simp only [State.startView, Prod.mk.injEq] at hview ⊢
  obtain ⟨hstart, hhost, htime⟩ := hview
  exact ⟨⟨hstart, congrArg (fun x : HostSt => { x with islA := !bit a 7, islB := !bit b 7 }) hhost, htime⟩, hnvm⟩

theorem oneDieDrives_startView (d : Cd) (s : State) : (oneDieDrives d s).startView = s.startView := s.benchDie_startView d.other 7

theorem oneDieDrives_arb (d : Cd) (s : State) :
    (oneDieDrives d s).arb.active = some d ∧ (oneDieDrives d s).arb.st[d.ix.val] = .active ∧ (oneDieDrives d s).arb.st[d.other.ix.val] = .benched := by
  have hst : (oneDieDrives d s).arb.st = (s.arb.st.set d.other.ix .benched).set d.ix .active :=
    congrArg (fun v => v.set d.ix DieState.active) (s.benchDie_arb_kept d.other 7).1
  refine ⟨rfl, by rw [hst]; simp, ?_⟩
  rw [hst, set_ix_other]
  simp

theorem bothDiesDrive_arb (s : State) : (bothDiesDrive s).arb.active = some .a ∧ (bothDiesDrive s).arb.engine = .a
    ∧ (bothDiesDrive s).arb.st[0] = .active ∧ (bothDiesDrive s).arb.st[1] = .standby := by
  have hst : (bothDiesDrive s).arb.st = (s.arb.st.set Cd.a.ix .active).set Cd.b.ix .standby := rfl
  rw [hst]
  exact ⟨rfl, rfl, by simp [Cd.ix], by simp [Cd.ix]⟩

/-- Choosing who drives moves, of the start-up record, the barker state only. -/
theorem dieChosen_startView (s : State) :
    (dieChosen a b p s).startView = ({ s.start with barker := (dieChosen a b p s).start.barker }, s.host, s.time) := by
  have hkeep {u : State} (hu : u.startView = s.startView) : u.startView = ({ s.start with barker := u.start.barker }, s.host, s.time) := by
    have hstart : u.start = s.start := congrArg Prod.fst hu
    rw [hu, hstart]
    rfl
  unfold dieChosen
  split
  · have hbarker : s.enterBarker.start = { s.start with barker := true } := congrArg Prod.fst s.enterBarker_startView
    rw [s.enterBarker_startView, hbarker]
  · split
    · exact hkeep (oneDieDrives_startView .b s)
    · split
      · exact hkeep (oneDieDrives_startView .a s)
      · exact hkeep rfl

variable {a b p}

theorem dieChosen_both (ha : a % 128 = 0) (hb : b % 128 = 0) (hp : p = 0) (hres : s.nvm.result ≠ 2) : dieChosen a b p s = bothDiesDrive s := by
  unfold dieChosen
  rw [if_neg (by simp [ha, hp, hres]), if_neg (by simp [ha]), if_neg (by simp [hb])]

theorem dieChosen_b (ha : a % 128 ≠ 0) (hb : b % 128 = 0) (hp : p = 0) (hres : s.nvm.result ≠ 2) : dieChosen a b p s = oneDieDrives .b s := by
  unfold dieChosen
  rw [if_neg (by simp [hb, hp, hres]), if_pos (by simp [ha])]

theorem dieChosen_a (ha : a % 128 = 0) (hb : b % 128 ≠ 0) (hp : p = 0) (hres : s.nvm.result ≠ 2) : dieChosen a b p s = oneDieDrives .a s := by
  unfold dieChosen
  rw [if_neg (by simp [ha, hp, hres]), if_neg (by simp [ha]), if_pos (by simp [hb])]

theorem dieChosen_barker (h : p ≠ 0 ∨ s.nvm.result = 2 ∨ (a % 128 ≠ 0 ∧ b % 128 ≠ 0)) : (dieChosen a b p s).start.barker = true := by
  unfold dieChosen
  rw [if_pos (by rcases h with h | h | h <;> simp [h])]
  exact congrArg (fun x : StartSt × HostSt × TimeSt => x.1.barker) s.enterBarker_startView

end

/-! ### The device's supplies (R502) -/

theorem State.headPortErr_host (s : State) : s.headPortErr.host = s.host := by
  unfold State.headPortErr
  split
  · rfl
  · rfl

theorem State.pcieDown_host (s : State) : s.pcieDown.host = { s.host with speed := 0 } := by
  unfold State.pcieDown State.linkTrained
  split
  next h =>
    have h0 : s.host.speed = 0 := by simpa using h
    rw [← h0]
  next => simp [State.headPortErr_host]

theorem islandDown_host (s : State) : s.islandDown.host = { s.host with islA := false, speed := 0 } := State.pcieDown_host _

theorem islandDown_links (s : State) (p : Side) : (s.islandDown.linkAt p).rxDown = true ∧ (s.islandDown.linkAt p).wrapPend = true := by
  unfold State.islandDown
  extract_lets host u cut
  cases p with
  | west =>
    rw [State.linkAt_modLink]
    exact ⟨rfl, rfl⟩
  | east =>
    rw [show Side.east = Side.west.other from rfl, State.linkAt_modLink_other]
    exact (congrArg (fun l : LinkSt => l.rxDown = true ∧ l.wrapPend = true) (State.linkAt_modLink u.pcieDown .east cut)).mpr ⟨rfl, rfl⟩

/-! ### The steps by their conditions (R471, R472, R482) -/

theorem exec_imageLoad (hstep : s.start.step = 6) (hclk : s.time.counting = true) (hbarker : s.start.barker = false) :
    exec .imageLoad s = if s.unprovisioned then .next (s.modStart fun x => { x with noimg := true }) else .next (
      let u := s.trySlots s.slotOrder
      let v := if u.cfg.inForce.isSome then u.oneDie else u
      let w := v.postDev 0x91 v.start.cause
      if w.start.barker then w else w.modStart fun x => { x with step := 7, ownFrom := w.time.clk }) := by
  dsimp only
  rw [apply_ite Host.Outcome.next]
  exact if_neg (by simp [hstep, hclk, hbarker])

theorem exec_ownerWaitEnd (hstep : s.start.step = 7) (hround : s.bnd % 4000 = 0) :
    exec .ownerWaitEnd s = if s.owned || StartCfg.ownWait s.stcfg == 0 then .next (s.modStart fun x => { x with step := 8, ownFrom := s.bnd })
      else if StartCfg.ownWait s.stcfg = 65535 ∨ s.bnd < s.start.ownFrom + 4000 * StartCfg.ownWait s.stcfg then .next s
      else .next (s.atBoundary fun u => (u.modStart fun x => { x with step := 8, ownFrom := u.time.clk, noown := true }).postDev 0x93 (StartCfg.ownWait s.stcfg)) :=
  if_neg (by simp [hstep, hround])

theorem exec_sequenceStep (hstep : s.start.step = 8) (hround : s.bnd % 4000 = 0) (himg : s.cfg.inForce ≠ none) (hfrom : s.start.ownFrom + 4000 ≤ s.bnd) :
    exec .sequenceStep s = if s.pwr.slot = 0 then .next (s.atBoundary State.slotStart)
      else if s.start.chainAuto then .next s
      else if s.own.keeper = s.ring.num ∧ s.ring.ready8.any (fun b => decide (b + 8000 ≤ s.bnd)) = false then .next s
      else .next (s.atBoundary State.chainStart) :=
  if_neg (by simp [hstep, hround, himg, hfrom])

theorem owned_of_valid_false (h : s.own.valid = false) : s.owned = false := by simp [State.owned, h]

/-- A chain start waits for no keeper: the keeper is another device, or it has been ready for 2 rounds. -/
theorem not_keeper_waits (h : s.own.keeper ≠ s.ring.num ∨ ∃ b, s.ring.ready8 = some b ∧ b + 8000 ≤ s.bnd) :
    ¬ (s.own.keeper = s.ring.num ∧ s.ring.ready8.any (fun b => decide (b + 8000 ≤ s.bnd)) = false) := by
  rintro ⟨hkeeper, hnone⟩
  rcases h with h | ⟨b, hb, hdue⟩
  · exact h hkeeper
  · simp [hb, hdue] at hnone

/-! ### The statement -/

theorem selfTestDone_of {a b p fa fb fp : Nat} (hstep : s.start.step = 4) (ha : fa = if s.pwr.testEn then 0xBF else a &&& 0xBF)
    (hb : fb = if s.pwr.testEn then 0xBF else b &&& 0xBF) (hp : fp = if s.pwr.testEn then 0x5F else p &&& 0x5F) :
    ∃ v : State, exec (.selfTestDone a b p) s = .next v ∧ v.start.step = 5 ∧ v.start.enter5 = s.time.clk
      ∧ v.start.failA = fa ∧ v.start.failB = fb ∧ v.start.failP = fp ∧ v.host.islA = !bit fa 7 ∧ v.host.islB = !bit fb 7
      ∧ v.arb = (dieChosen fa fb fp (selfTested fa fb fp s)).arb ∧ v.start.barker = (dieChosen fa fb fp (selfTested fa fb fp s)).start.barker := by
  obtain ⟨htested, -⟩ := selfTested_of fa fb fp s
  have hchosen := dieChosen_startView fa fb fp (selfTested fa fb fp s)
  simp only [State.startView, Prod.mk.injEq] at htested hchosen
  obtain ⟨hstart₁, hhost₁, htime₁⟩ := htested
  obtain ⟨hstart, hhost, htime⟩ := hchosen
  rw [hhost₁] at hhost
  refine ⟨_, exec_selfTestDone hstep ha hb hp, rfl, congrArg TimeSt.clk (htime.trans htime₁), ?_, ?_, ?_, congrArg HostSt.islA hhost, congrArg HostSt.islB hhost, rfl, rfl⟩
  · exact (congrArg StartSt.failA hstart).trans (congrArg StartSt.failA hstart₁)
  · exact (congrArg StartSt.failB hstart).trans (congrArg StartSt.failB hstart₁)
  · exact (congrArg StartSt.failP hstart).trans (congrArg StartSt.failP hstart₁)

/-- Settles O52: each step of start-up by its condition, the self-tests by the die they leave. -/
theorem startupSteps : Obligations.StartupSteps := by
  unfold Obligations.StartupSteps
  intro s
  refine ⟨fun i h => ⟨_, exec_vaonRise h, rfl, rfl, rfl, rfl, rfl, vaonFrom_cause i s⟩, fun mem xtal hstep => ?_, fun hstep hreset hvoid => otpCheck_of hstep hreset hvoid,
    fun a b p fa fb fp hstep ha hb hp => ?_, fun hstep hclk hbarker => ⟨fun h => (exec_imageLoad hstep hclk hbarker).trans (if_pos h), fun h => ?_⟩,
    fun hstep hround => ⟨fun h => ?_, fun hval hwait => ?_, fun hval hwait hever => ?_⟩, fun hstep hround himg hfrom => ⟨fun hslot => ?_, fun hslot hauto => ?_, fun hslot hauto hready => ?_⟩,
    rfl, rfl, rfl, rfl, ⟨s.islandDown, rfl, congrArg HostSt.islA (islandDown_host s), ?_, islandDown_links s⟩, fun hvaon => if_pos hvaon⟩
  · obtain ⟨hstart, hstop, hcnt, hxtal⟩ := aonChecked_of mem xtal s
    obtain ⟨hstart₁, hwd₁⟩ := gaugeResume_kept (aonChecked mem xtal s)
    obtain ⟨hstart₂, hwd₂⟩ := rtcReported_kept (aonChecked mem xtal s).gaugeResume
    have hwd := hwd₂.trans hwd₁
    have hcause := congrArg StartSt.cause (hstart₂.trans (hstart₁.trans hstart))
    refine ⟨_, exec_startupAonDone hstep, rfl, congrArg (fun c : Nat => !mem || c == 0) hcause, (congrArg WdSt.stopped hwd).trans hstop,
      fun hmem hc => (congrArg WdSt.rstCnt hwd).trans (hcnt hmem hc), fun hx => ⟨(congrArg WdSt.valid hwd).trans (hxtal hx).1, (congrArg WdSt.cal hwd).trans (hxtal hx).2⟩⟩
  · obtain ⟨v, hexec, hstep5, henter, hfa, hfb, hfp, hislA, hislB, harb, hbarker⟩ := selfTestDone_of (s := s) hstep ha hb hp
    obtain ⟨-, hnvm⟩ := selfTested_of fa fb fp s
    refine ⟨v, hexec, hstep5, henter, hfa, hfb, hfp, hislA, hislB, fun h1 h2 h3 h4 => ?_, fun h1 h2 h3 h4 => ?_, fun h1 h2 h3 h4 => ?_, fun h => ?_⟩
    · rw [harb, dieChosen_both h1 h2 h3 (by rw [hnvm]; exact h4)]
      exact bothDiesDrive_arb _
    · rw [harb, dieChosen_b h1 h2 h3 (by rw [hnvm]; exact h4)]
      obtain ⟨hact, hst, hother⟩ := oneDieDrives_arb .b (selfTested fa fb fp s)
      exact ⟨hact, hother, hst⟩
    · rw [harb, dieChosen_a h1 h2 h3 (by rw [hnvm]; exact h4)]
      obtain ⟨hact, hst, hother⟩ := oneDieDrives_arb .a (selfTested fa fb fp s)
      exact ⟨hact, hst, hother⟩
    · exact hbarker.trans (dieChosen_barker (by rw [hnvm]; exact h))
  · exact (exec_imageLoad hstep hclk hbarker).trans (if_neg (by simp [h]))
  · refine (exec_ownerWaitEnd hstep hround).trans (if_pos ?_)
    rcases h with ⟨hval, hrec⟩ | h
    · simp [State.owned, hval, hrec]
    · simp [h]
  · refine (exec_ownerWaitEnd hstep hround).trans ((if_neg ?_).trans (if_pos (.inl hwait)))
    simp [owned_of_valid_false hval, hwait]
  · refine (exec_ownerWaitEnd hstep hround).trans ((if_neg (by simp [owned_of_valid_false hval, hwait])).trans ?_)
    rw [apply_ite Host.Outcome.next]
    simp only [hever, false_or]
  · exact (exec_sequenceStep hstep hround himg hfrom).trans (if_pos hslot)
  · exact (exec_sequenceStep hstep hround himg hfrom).trans ((if_neg hslot).trans (if_pos hauto))
  · exact (exec_sequenceStep hstep hround himg hfrom).trans ((if_neg hslot).trans ((if_neg (by simp [hauto])).trans (if_neg (not_keeper_waits hready))))
  · have hspeed : s.islandDown.host.speed = 0 := congrArg HostSt.speed (islandDown_host s)
    simp [State.linkTrained, hspeed]

end Sys2Proof.Machine
end
